-- ==== Sys2Proof/Word.lean ====
section
/-! DEFINITION. The words of Opnor: register words, bytes, flits and packets (R5, R6, R82, R88). -/

namespace Sys2Proof

/-- A register word: every register is 64 bits wide (R6). -/
abbrev Word := BitVec 64

/-- A byte of memory or of a payload. -/
abbrev Byte := BitVec 8

/-- A stage of a crossing FIFO as the clocked side sees it: data 511:0, parity 519:512, head 520,
tail 521, poison 522, not-valid 523 (Table 3-3). -/
abbrev Stage := BitVec 524

/-- A Plumb message in the compact form of Table 4-9. -/
abbrev PlumbMsg := BitVec 128

/-- A parcel: 256 payload bytes in bits 2047:0 and the trailer of Table 11-3 in bits 2111:2048 (R277). -/
abbrev Parcel := BitVec 2112

/-- One flit: 64 bytes with the poison bit that travels beside it (Table 2-1). -/
structure Flit where
  data : BitVec 512
  poison : Bool
deriving DecidableEq, Repr, Inhabited

/-- A packet: exactly one header flit followed by its payload flits (R82, R88). A packet may carry
fewer payload flits than its LENGTH states (R89). -/
structure Packet where
  head : Flit
  body : List Flit
deriving DecidableEq, Repr, Inhabited

/-- A sparse table: entries by rising key; a key not listed holds the table's default. -/
abbrev Tbl (α : Type) := List (Nat × α)

end Sys2Proof
end

