-- ==== Sys2Proof/Syntax.lean ====
section
/-! DEFINITION. The commands the block takes: one constructor per row of spec/opcode_table.json.
The table gives its rows no bits and no operands: the operands are what the rule of each row speaks of. -/

namespace Sys2Proof

/-- The two meshes (Table 0-1). -/
inductive Mesh where
  | request
  | reply
deriving DecidableEq, Repr

/-- Which hub a copy of a Plumb message comes from (R253, R254). -/
inductive Hub where
  | a
  | b
deriving DecidableEq, Repr

/-- A crossing FIFO of Table 3-2, named by its attachment and its kind k in the table's order. -/
inductive FifoId where
  /-- core port i: request out, request in, reply out, reply in, Plumb out, Plumb in -/
  | core (i : Fin 256) (k : Fin 6)
  /-- Alorn: the same six kinds -/
  | alorn (k : Fin 6)
  /-- host bridge: request out, request in, reply out, reply in -/
  | host (k : Fin 4)
  /-- optical port p, attachment a: request out, request in, reply out, reply in -/
  | port (p : Fin 6) (a : Fin 8) (k : Fin 4)
  /-- optical port p, Plumb: out, in -/
  | portPlumb (p : Fin 6) (k : Fin 2)
  /-- the Plumb in FIFO of optical port p, where the wires of one hub reach it (R250, R253) -/
  | portCopy (p : Fin 6) (hub : Hub)
deriving DecidableEq, Repr

/-- A handshake channel, named by its receiving end (R35, R37). -/
inductive LinkId where
  /-- the mesh link into input `inp` of router `r` (16 × ry + rx) -/
  | router (m : Mesh) (r : Fin 256) (inp : Fin 8)
  /-- the neighbour channel into core `i` from `side` (0 N, 1 E, 2 S, 3 W) on the mesh class's sub-channel -/
  | neighbour (m : Mesh) (i : Fin 256) (side : Fin 4)
  /-- the request attachment `a` (0 lower, 1 upper) into stack port `s` -/
  | stack (st : Fin 24) (a : Fin 2)
deriving DecidableEq, Repr

/-- A Screed unit: a router's (16 × ry + rx) or an optical port's (R211). -/
inductive Unit9 where
  | router (r : Fin 256)
  | port (p : Fin 6)
deriving DecidableEq, Repr

/-- A node of the Plumb network on the die (R250). -/
inductive PlumbNode where
  | hubs
  | cluster (c : Fin 16)
  /-- an optical port, which takes the two hubs' copies of what it sends (R253) -/
  | port (p : Fin 6)
deriving DecidableEq, Repr

/-- Where a Plumb arrival comes from: a member core port, a cluster node, a port's fibre, or Alorn. -/
inductive PlumbFrom where
  | member (i : Fin 256)
  | cluster (c : Fin 16)
  | port (p : Fin 6)
  | alorn
deriving DecidableEq, Repr

/-- A Plumb message as it comes at a node, and whether its parity holds (R256). -/
structure HubCopy where
  msg : PlumbMsg
  sound : Bool
deriving DecidableEq, Repr

/-- The levels of the 18 receive lanes in the codeword a parcel begins in, and in the next one, which it may go on in (R275). -/
structure ParcelLevels where
  first : BitVec 6120
  second : BitVec 6120
deriving DecidableEq, Repr

/-- An alignment block as a receive lane has heard it, with the PRBS31 errors since the block before and the lane's skew in ns
(R276, Table 11-8). -/
structure HeardBlock where
  block : BitVec 340
  errors : BitVec 20
  skew : BitVec 20
deriving DecidableEq, Repr

/-- A neighbour's answer to a relay: TAG of the MGMT packet that brings it, and its words (R336). -/
structure RelayAnswer where
  hdr : BitVec 16
  words : List Word
deriving DecidableEq, Repr

/-- The source of an Alorn request (R342): the mailbox, an MCTP endpoint, or a relay that reached the
chip through a logical port with ORIGIN. -/
inductive Source where
  | mailbox
  | mctp (eid : BitVec 8)
  | relayed (p : Fin 6) (origin : BitVec 8)
deriving DecidableEq, Repr

/-- The path of a plain register write (R12, R19, R333): a core to its own block, the host through the
bridge, or any other path. -/
inductive WritePath where
  | core (i : Fin 256)
  | host
  | other
deriving DecidableEq, Repr

/-- The four repeated control messages of Table 11-4. -/
inductive Repeated where
  | keyOffer
  | patchReq
  | portOpen
  | portClose
deriving DecidableEq, Repr

/-- What a room count counts (R213, R245): contributions up, multicast packets down, broadcast results down. -/
inductive RoomKind where
  | contribution
  | multicast
  | result
deriving DecidableEq, Repr

/-- What one residue check of a contribution finds (R232): nothing, a mismatch whose repeat passes,
or a repeat that fails as well at element `i`, by path `path` of Table 9-7. -/
inductive Residue where
  | ok
  | repeated
  | failed (i : Nat) (path : Fin 7)
deriving DecidableEq, Repr

/-- Which of Alorn's memories an error lies in (event ALORN_ECC, R351). -/
inductive AlornMem where
  | rom
  | working
  /-- retained RAM; the cache entry hit, by position, or the lock record -/
  | retainedCache (k : Fin 64)
  | retainedLock
  | staging
deriving DecidableEq, Repr

/-- The commands of the block: one constructor per row of the table, in its order. -/
inductive Instr where
  | chipReset
  | coreReset (i : Fin 256)
  | coreResetRelease (i : Fin 256)
  | hostBridgeReset
  | testLogicReset
  | throttleAssert
  | throttleRelease
  | fabricMeasurement (vdd : BitVec 12) (temp : BitVec 12) (speed : BitVec 16)
  | tamperInput
  | glitchDetectorTrip
  | refLost
  | refBack
  | clkLkLost
  | clkMgLost
  | clockStop (d : Fin 18)
  | clockStart (d : Fin 18)
  | fifoWrite (f : FifoId) (w : Stage)
  | fifoRead (f : FifoId)
  | inFifoAdmit (f : FifoId) (pkt : Packet)
  | linkHandshake (l : LinkId) (levels : BitVec 4180)
  | routerHeaderArrival (m : Mesh) (r : Fin 256) (inp : Fin 8) (pkt : Packet)
  | arbiterGrant (m : Mesh) (r : Fin 256) (out : Fin 8)
  | putArrival (ep : BitVec 9) (pkt : Packet)
  | putMcArrival (ep : BitVec 9) (pkt : Packet)
  | getReqArrival (ep : BitVec 9) (pkt : Packet)
  | atomAddArrival (ep : BitVec 9) (pkt : Packet)
  | atomSwapArrival (ep : BitVec 9) (pkt : Packet)
  | signalArrival (ep : BitVec 9) (pkt : Packet)
  | amArrival (ep : BitVec 9) (pkt : Packet)
  | redDownArrival (ep : BitVec 9) (pkt : Packet)
  | stackSinkRedDown (st : Fin 24) (pkt : Packet)
  | getRspArrival (ep : BitVec 9) (pkt : Packet)
  | atomRspArrival (ep : BitVec 9) (pkt : Packet)
  | ackArrival (ep : BitVec 9) (pkt : Packet)
  | nackArrival (ep : BitVec 9) (pkt : Packet)
  | amReplyArrival (ep : BitVec 9) (pkt : Packet)
  | mgmtArrival (port : Option (Fin 6)) (pkt : Packet)
  | hostDrainExpiry
  | portEgress (p : Fin 6) (src : Fin 32) (pkt : Packet)
  | portIngress (p : Fin 6) (vl : Fin 6) (pkt : Packet)
  | mgmtRelayAtPort (p : Fin 6) (pkt : Packet)
  | windowRelease (p : Fin 6) (k : Fin 3) (src : Fin 32)
  | stagingDeparture (p : Fin 6) (vl : Fin 6)
  | poolForward (p : Fin 6) (k : Nat)
  | parcelSend (p : Fin 6)
  /-- `n` the parcel's place in its frame -/
  | parcelReceive (p : Fin 6) (n : Fin 20560) (w : ParcelLevels)
  | linkRetryExpiry (p : Fin 6)
  | ackStall (p : Fin 6)
  /-- `errors` the PRBS31 errors on the lane since its last block, `skew` the ns by which the lane lags the first of its frame -/
  | alignmentBlockReceive (p : Fin 6) (lane : Fin 18) (b : HeardBlock)
  | lightDetected (p : Fin 6)
  | lightLost (p : Fin 6)
  | lossOfSignal (p : Fin 6) (lanes : BitVec 18)
  | retrainExpiry (p : Fin 6)
  | keyTimeoutExpiry (p : Fin 6)
  | drainComplete (p : Fin 6)
  | drainLimitExpiry (p : Fin 6)
  | downHoldExpiry (p : Fin 6) (light : Bool)
  | keyOffer (p : Fin 6) (payload : BitVec 2048)
  | keyResult (p : Fin 6) (payload : BitVec 2048)
  | delayProbe (p : Fin 6) (payload : BitVec 2048)
  | delayEcho (p : Fin 6) (payload : BitVec 2048)
  | patchReq (p : Fin 6) (payload : BitVec 2048)
  | patchApply (p : Fin 6)
  | portOpen (p : Fin 6)
  | portClose (p : Fin 6)
  | controlRepeatExpiry (p : Fin 6) (msg : Repeated)
  | delayPeriodExpiry (p : Fin 6)
  | laneSignalLost (p : Fin 6) (lane : Fin 18)
  /-- `corrected` the symbols corrected on the lane in the window that ends, at most what SER holds -/
  | serWindowExpiry (p : Fin 6) (lane : Fin 18) (corrected : BitVec 20)
  | patchFail (p : Fin 6)
  | laserSlotRemoved (slot : Fin 8)
  | laserSlotInserted (slot : Fin 8)
  | laserFault (slot : Fin 8) (output : BitVec 12)
  | laserFeed (p : Fin 6) (feed : Fin 2)
  | laserLow (p : Fin 6) (lane : Fin 18) (power : BitVec 11)
  | laserRampDone (slot : Fin 8)
  | treePacketArrival (u : Unit9) (inp : Fin 8) (pkt : Packet)
  | roomCountArrival (u : Unit9) (edge : Fin 8) (group : BitVec 12) (kind : RoomKind) (epoch : Bool) (count : BitVec 4) (gen : Bool)
  | forkCopy (u : Unit9) (buf : Fin 64)
  | mergeAnswerArrival (u : Unit9) (out : Fin 8) (pkt : Packet)
  | mergeTimeout (u : Unit9) (entry : Fin 64)
  | contributionTaken (u : Unit9) (inp : Fin 8) (pkt : Packet) (res : List Residue)
  | resultCopy (u : Unit9) (slot : Fin 64) (out : Fin 8)
  | barArrive (n : PlumbNode) (src : PlumbFrom) (m : PlumbMsg)
  | barRelease (n : PlumbNode) (hub : Hub) (m : HubCopy)
  | sredUp (n : PlumbNode) (src : PlumbFrom) (m : PlumbMsg)
  | sredDown (n : PlumbNode) (hub : Hub) (m : HubCopy)
  | plumbPairExpiry (n : PlumbNode) (m : PlumbMsg)
  | plumbPortIngress (p : Fin 6) (pkt : Packet)
  | abort (src : PlumbFrom) (m : PlumbMsg)
  | epoch (port : Option (Fin 6)) (m : PlumbMsg)
  | retirementRoundResult (m : PlumbMsg)
  | epochPollExpiry
  | epochSettleExpiry
  | nop (i : Fin 256) (q : Fin 16)
  | put (i : Fin 256) (q : Fin 16)
  | get (i : Fin 256) (q : Fin 16)
  | putMc (i : Fin 256) (q : Fin 16)
  | atomAdd (i : Fin 256) (q : Fin 16)
  | atomSwap (i : Fin 256) (q : Fin 16)
  | signal (i : Fin 256) (q : Fin 16)
  | am (i : Fin 256) (q : Fin 16)
  | amReply (i : Fin 256) (q : Fin 16)
  | barrier (i : Fin 256) (q : Fin 16)
  | scalarReduce (i : Fin 256) (q : Fin 16)
  | reduce (i : Fin 256) (q : Fin 16)
  | allReduce (i : Fin 256) (q : Fin 16)
  | broadcast (i : Fin 256) (q : Fin 16)
  | reduceScatter (i : Fin 256) (q : Fin 16)
  | allGather (i : Fin 256) (q : Fin 16)
  | requestTimeout (i : Fin 256) (q : Fin 16) (pos : BitVec 9)
  | collectiveTimeout (i : Fin 256) (q : Fin 16)
  | cpQtailWrite (i : Fin 256) (q : Fin 16) (v : Word)
  | skip (i : Fin 256) (q : Fin 16)
  | cpQbaseWrite (i : Fin 256) (q : Fin 16) (v : Word)
  | cpEvcntWrite (i : Fin 256) (k : Fin 64) (v : Word) (inc : BitVec 32)
  | cpHandoverWrite (i : Fin 256) (v : Word)
  | cpRingtabWrite (i : Fin 256) (v : Word)
  | ringAdvance (i : Fin 256) (ring : BitVec 12) (pos : BitVec 21)
  | ringEnable (i : Fin 256) (ring : BitVec 12)
  | ringDisable (i : Fin 256) (ring : BitVec 12)
  | registerWrite (path : WritePath) (addr : BitVec 32) (bytes : Nat) (v : Word)
  | handoverDrainDone (ep : BitVec 9) (bank : BitVec 8)
  | handoverLeaseExpiry (ep : BitVec 9) (bank : BitVec 8)
  | doorbell
  | rspTaken
  | mctpMessage (eid : BitVec 8) (msgTag : BitVec 3) (ic : Bool) (bytes : List Byte)
  | setEndpointId (eid : BitVec 8)
  | getEndpointId
  | getMctpVersionSupport
  | getMessageTypeSupport
  | getVendorDefinedMsgSupport
  | getstatus
  | i3cTargetReset
  | requestTaken
  | relayResponse (p : Fin 6) (a : RelayAnswer)
  | relayTimeout (p : Fin 6) (hdr : BitVec 16)
  | getVersion (src : Source) (tag : BitVec 32)
  | getCensus (src : Source) (tag : BitVec 32)
  | selfTest (src : Source) (tag : BitVec 32) (arg : Word)
  | selfTestDone (failed : BitVec 4) (first : Word)
  | claim (src : Source) (tag : BitVec 32) (arg : Word)
  | release (src : Source) (tag : BitVec 32)
  | loadStencilBegin (src : Source) (tag : BitVec 32) (arg : Word)
  | loadStencilData (src : Source) (tag : BitVec 32) (arg : Word) (data : List Word)
  | loadStencilCommit (src : Source) (tag : BitVec 32) (arg : Word)
  | stencilLoadLimitExpiry
  | loadStencilDiscard (src : Source) (tag : BitVec 32) (arg : Word)
  | applyEpoch (src : Source) (tag : BitVec 32) (arg : Word)
  | applyEpochCancel (src : Source) (tag : BitVec 32) (arg : Word)
  | quiesce (src : Source) (tag : BitVec 32) (arg : Word)
  | quiesceDrained (p : Fin 16)
  | quiesceStuck (p : Fin 16)
  | resume (src : Source) (tag : BitVec 32) (arg : Word)
  | fence (src : Source) (tag : BitVec 32) (arg : Word)
  | portAdmit (src : Source) (tag : BitVec 32) (arg : Word)
  | portQuarantine (src : Source) (tag : BitVec 32) (arg : Word)
  | portRemap (src : Source) (tag : BitVec 32) (arg : Word)
  | laneSpare (src : Source) (tag : BitVec 32) (arg : Word)
  | laserPrepare (src : Source) (tag : BitVec 32) (arg : Word)
  | laserRestore (src : Source) (tag : BitVec 32) (arg : Word)
  | setCoords (src : Source) (tag : BitVec 32) (arg : Word)
  | setTimebase (src : Source) (tag : BitVec 32) (arg : Word) (value : Word)
  | bankHandover (src : Source) (tag : BitVec 32) (arg : Word)
  | readCounters (src : Source) (tag : BitVec 32) (arg : Word) (offset : Word)
  | readEvents (src : Source) (tag : BitVec 32) (arg : Word)
  | sealKey (src : Source) (tag : BitVec 32) (arg : Word) (key : List Word) (sig : List Word)
  | zeroize (src : Source) (tag : BitVec 32)
  | lifecycle (src : Source) (tag : BitVec 32) (arg : Word) (key : List Word) (sig : List Word)
  | watchdogExpiry (romAddr : Word)
  | alornEcc (mem : AlornMem) (corrected : Bool) (addr : Word)
  | lockLeaseExpiry
  | tableEcc (corrected : Bool) (reg : BitVec 16) (n : BitVec 32)
  | logRecordWrite
  | chipResetRelease
  | alornRunning (corrupt : BitVec 16)
  | stencilLoadStep7
  | multiOvr (d : Fin 18)
deriving DecidableEq, Repr

end Sys2Proof
end

