-- ==== Sys2Proof/Config.lean ====
section
/-! DEFINITION. What an implementation or another standard fixes, and the free values: constants without a
body, so that nothing can be proved of a particular value (log entries 2 and 6). -/

namespace Sys2Proof.Config

/-- FREE VALUE: the random words Alorn draws: the nonce at chip reset (R360), the octets of NONCE in KEY_OFFER
(Table 11-5) and the secret of an ephemeral key. Applied to State.freeCtr. -/
opaque random : Nat → BitVec 64

/-- FREE VALUE: the bytes of the last unit of a ring record beyond its body, which R172 leaves unspecified. -/
opaque ringPad : Nat → BitVec 8

/-- FREE VALUE: the data bits of a 64-bit word that holds the SRAM's poison pattern (R97). -/
opaque poisonByte : Nat → BitVec 8

/-- FREE VALUE: SRC_RANK of a reply that an agent sends for a job which has no partition on its chip (R93 gives the
chip's own rank in the job, and there is none). -/
opaque noRank : Nat → BitVec 12

/-- FREE VALUE: the bytes of the host's memory that a GET_REQ to the host bridge reads. -/
opaque hostByte : Nat → BitVec 8

/-- FREE VALUE: SERIAL in the completion record of a command that issued no packet: it names the SERIAL of the last issue
(Table 6-6), and there was none. -/
opaque noSerial : Nat → BitVec 12

/-- FREE VALUE: ARG1 of RING_CONFIG for an enable of a ring that is enabled already: it is word 0 of the entry as read,
and such an enable reads none (R168). -/
opaque ringWord : Nat → BitVec 64

/-- FREE VALUE: whether a chunk of the destination buffer of a collective that ended with ORDER, ABORTED, TIMEOUT or FENCED
holds the poison pattern (R267). -/
opaque undefinedChunk : Nat → Bool

/-- FREE VALUE: STATUS of a collective that lacks a chunk, none of whose chunks was refused or poisoned: Table 10-9 names
none. -/
opaque missingStatus : Nat → BitVec 8

/-- FREE VALUE: FREQ of XB_DOMAIN at a running cluster clock, the edges of the last 160 ticks, which the clock's source outside
Opnor decides between 0.4 and 2.0 GHz (R59). -/
opaque domainFreq : Nat → BitVec 16

/-- FREE VALUE: the two bits that a group of a handshake channel delivers when two of its wires change (R38). -/
opaque linkBits : Nat → BitVec 2

/-- FREE VALUE: whether a load that a restart of Alorn cuts has passed step 5 of Table 12-9 (R318, R352). -/
opaque cutAfterStep5 : Nat → Bool

/-- FREE VALUE: what a Stencil load cut between steps 5 and 7 has written to word `k` of the shadow bank (R318):
true where the new image's word stands. -/
opaque cutWrote : Nat → Nat → Bool

/-- FREE VALUE: whether a pulse that follows another of its signal within a tick, or while CLK_MG is lost, comes before the
acknowledgement of the first (R74). -/
opaque pulseMerged : Nat → Bool

/-- FREE VALUE: the data of a STUCK answer while no router output is held (Table 13-8 names the output held longest). -/
opaque noHeldOutput : Nat → BitVec 64

/-- FREE VALUE: FRAME of RK_STENCIL, and the instance, of a refusal that concerns no frame or no instance (R315). -/
opaque noFrame : Nat → BitVec 12
opaque noInstance : Nat → BitVec 32

/-- FREE VALUE: DETAIL with REFUSED where Table 13-4 has no cause for the refusal (RK_HANDOVER without a free entry). -/
opaque noDetail : Nat → BitVec 16

/-- FREE VALUE: the ROM address in ALORN_RESTART after a memory error: ALORN_ECC gives the address of the error only. -/
opaque romAddress : Nat → BitVec 64

/-- FREE VALUE: the ticks for which CLK_MG had stopped, in CLOCK_START: no tick is counted meanwhile (R382). -/
opaque mgTicks : Nat → BitVec 64

/-- FREE VALUE: the fraction of a tick, in units of 2⁻¹⁶, at which a port stamps a delay message (R295). -/
opaque tickFraction : Nat → BitVec 16

/-- FREE VALUE: the drive, in whole percent, of a laser slot that runs at 7/8 of its rating (R304): LEVEL holds a whole
percentage, and the spec gives no rounding of 87.5. -/
opaque sevenEighths : BitVec 7

/-- FREE VALUE: LOGICAL in the alignment blocks of a transmit lane before logical lanes are assigned (Table 11-2 names values for
assigned, spare and retired lanes only). -/
opaque untrainedLane : Nat → BitVec 10

/-- FREE VALUE: whether the digest of a slot of the sealed store holds at a use of the slot (R354). -/
opaque digestHolds : Nat → Bool

/-- FREE VALUE: the nominal transmit power of a lane, and what a lane without light reads, in units of 0.1 dBm (R304). -/
opaque nominalPower : BitVec 11
opaque darkPower : BitVec 11

/-- FREE VALUE: the edges of a domain's clock in the last 160 ticks while some of them lie before the clock last started. -/
opaque partFreq : Nat → BitVec 16

/-- SHA-384 (named by R291, R308, R361; defined by its standard). -/
opaque sha384 : List (BitVec 8) → BitVec 384

/-- Whether an ECDSA P-384 signature of 96 octets verifies over a SHA-384 value under a compressed public key. -/
opaque ecdsaVerify : (key : BitVec 392) → (hash : BitVec 384) → (sig : BitVec 768) → Bool

/-- The signature Alorn makes with a private key over a SHA-384 value. -/
opaque ecdsaSign : (secret : BitVec 384) → (hash : BitVec 384) → BitVec 768

/-- The compressed public key (SEC 1) of a P-384 private key. -/
opaque publicKey : (secret : BitVec 384) → BitVec 392

/-- The x-coordinate of the ECDH shared point of P-384. -/
opaque ecdh : (secret : BitVec 384) → (peer : BitVec 392) → BitVec 384

/-- HKDF-SHA-384 of RFC 5869 with the info string "OPNOR LINK" and one octet, 32 octets out (R294). -/
opaque hkdf : (ikm : BitVec 384) → (salt : BitVec 256) → (d : BitVec 8) → BitVec 256

/-- AES-256-GCM encryption: the ciphertext and the 128-bit tag (R289). -/
opaque gcmSeal : (key : BitVec 256) → (iv : BitVec 96) → (aad : List (BitVec 8)) → (plain : List (BitVec 512)) →
    List (BitVec 512) × BitVec 128

/-- AES-256-GCM decryption: the plaintext, or none where the tag does not verify (R290). -/
opaque gcmOpen : (key : BitVec 256) → (iv : BitVec 96) → (aad : List (BitVec 8)) → (cipher : List (BitVec 512)) →
    (tag : BitVec 128) → Option (List (BitVec 512))

/-- The public recovery key in Alorn's ROM (Table 13-11). -/
opaque recoveryKey : BitVec 392

/-- The enterprise number that Get Vendor Defined Message Support reports (R334), and the MCTP versions of the
control command; the spec gives neither value. -/
opaque enterprise : BitVec 32
opaque mctpVersions : List (BitVec 32)

end Sys2Proof.Config
end

