-- ==== Sys2Proof/Machine/Regs.lean ====
section
/-! DEFINITION. The registers of Opnor: every register of the register index (Table 15-7) with its window,
offset, number of copies and stride, the class of its configuration fields, and the masks of its fields by access
(the field tables of the chapters). Field positions stand in Fields.lean. -/

namespace Sys2Proof.Machine

/-- The registers of Table 15-7, by the names the manual gives them. -/
inductive Reg where
  /-- endpoint presence (01_anatomy.md) -/
  | RK_CENSUS
  /-- arbitration rank per output (02_clockless_fabric.md) -/
  | RQ_ARBRANK
  /-- arbitration rank per output (02_clockless_fabric.md) -/
  | RP_ARBRANK
  /-- arbitration wait per input (02_clockless_fabric.md) -/
  | RQ_ARBWAIT
  /-- arbitration wait per input (02_clockless_fabric.md) -/
  | RP_ARBWAIT
  /-- fabric corner and speed monitor (02_clockless_fabric.md) -/
  | TM_FABCORNER
  /-- link errors at one router (02_clockless_fabric.md) -/
  | RQ_LINKERR
  /-- link errors at one router (02_clockless_fabric.md) -/
  | RP_LINKERR
  /-- state of one clock domain (03_clock_boundary.md) -/
  | XB_DOMAIN
  /-- error counts of one clock domain (03_clock_boundary.md) -/
  | XB_ERRORS
  /-- state of one crossing FIFO (03_clock_boundary.md) -/
  | XB_FIFO
  /-- job and rank of a partition (04_packets.md) -/
  | RK_PARTJOB
  /-- rank translation (04_packets.md) -/
  | RK_RANKMAP
  /-- stack attachment choice (05_routing.md) -/
  | RK_ATTACHSEL
  /-- egress per destination chip (05_routing.md) -/
  | RK_CHIPROUTE
  /-- ring properties per port (05_routing.md) -/
  | RK_RINGPLAN
  /-- egress window (05_routing.md) -/
  | OP_EGWIN
  /-- transit grants and accounts (05_routing.md) -/
  | RK_TRANSIT
  /-- flow context binding (06_command_queues.md) -/
  | RK_FLOWCTX
  /-- flow context state (06_command_queues.md) -/
  | RK_FLOWSEQ
  /-- cached reply value (06_command_queues.md) -/
  | RK_FLOWVAL
  /-- queue control (06_command_queues.md) -/
  | CP_QCTL
  /-- queue arrays (06_command_queues.md) -/
  | CP_QBASE
  /-- submission (06_command_queues.md) -/
  | CP_QTAIL
  /-- queue state (06_command_queues.md) -/
  | CP_QSTAT
  /-- event counter (06_command_queues.md) -/
  | CP_EVCNT
  /-- core port error counts (06_command_queues.md) -/
  | CP_ERRCNT
  /-- core port route errors and refused writes (06_command_queues.md) -/
  | CP_ERRAUX
  /-- ring table location (07_rings_and_messages.md) -/
  | CP_RINGTAB
  /-- ring action (07_rings_and_messages.md) -/
  | CP_RINGCTL
  /-- ring error counts (07_rings_and_messages.md) -/
  | CP_RINGERR
  /-- channel binding (07_rings_and_messages.md) -/
  | CP_AMCHAN
  /-- channel space (07_rings_and_messages.md) -/
  | CP_AMCREDIT
  /-- handler send mask (07_rings_and_messages.md) -/
  | CP_AMSENDS
  /-- channel state (07_rings_and_messages.md) -/
  | CP_AMSTAT
  /-- owner of a core SRAM bank (08_banks_and_stacks.md) -/
  | CP_BANKOWN
  /-- owner of a stack bank (08_banks_and_stacks.md) -/
  | SP_BANKOWN
  /-- handover request (08_banks_and_stacks.md) -/
  | CP_HANDOVER
  /-- core SRAM error counts (08_banks_and_stacks.md) -/
  | CP_BANKERR
  /-- core SRAM error counts (08_banks_and_stacks.md) -/
  | SP_ERRCNT
  /-- handover locks (08_banks_and_stacks.md) -/
  | RK_HANDOVER
  /-- stack port packet error counts (08_banks_and_stacks.md) -/
  | SP_PKTERR
  /-- router tree entry (09_screed.md) -/
  | SC_TREE
  /-- router reservation (09_screed.md) -/
  | SC_TREERES
  /-- port tree entry (09_screed.md) -/
  | SC_PORTTREE
  /-- members beyond a fibre edge (09_screed.md) -/
  | SC_PORTBEYOND
  /-- slot state (09_screed.md) -/
  | SC_SLOTSTAT
  /-- Screed error counts (09_screed.md) -/
  | SC_ERRCNT
  /-- group formats and membership (10_collectives.md) -/
  | RK_GROUP
  /-- order digest and stack sink (10_collectives.md) -/
  | RK_GROUPAUX
  /-- Plumb trees off the die (10_collectives.md) -/
  | PL_GROUP
  /-- Plumb members on the die (10_collectives.md) -/
  | PL_MEMBERS
  /-- Plumb and abort state per group (10_collectives.md) -/
  | PL_GROUPSTATE
  /-- slowest input per group (10_collectives.md) -/
  | TM_SLOWEST
  /-- lag histogram per group (10_collectives.md) -/
  | TM_SLOWHIST
  /-- Plumb error counts (10_collectives.md) -/
  | PL_ERRCNT
  /-- port state (11_optical_ports.md) -/
  | OP_PORTSTATE
  /-- port control (11_optical_ports.md) -/
  | OP_PORTCTL
  /-- cabling plan per logical port (11_optical_ports.md) -/
  | OP_PLAN
  /-- peer identity (11_optical_ports.md) -/
  | OP_PEERID
  /-- link delay and offset (11_optical_ports.md) -/
  | OP_LINKDELAY
  /-- link error counts (11_optical_ports.md) -/
  | OP_LINKERR
  /-- port packet error counts (11_optical_ports.md) -/
  | OP_ERRCNT
  /-- credit pools of the peer (11_optical_ports.md) -/
  | OP_CREDIT
  /-- lane assignment and health (11_optical_ports.md) -/
  | OP_LANEMAP
  /-- laser slot (11_optical_ports.md) -/
  | OP_LASER
  /-- epoch state (12_stencil.md) -/
  | RK_EPOCH
  /-- load status (12_stencil.md) -/
  | RK_STENCIL
  /-- Alorn state (13_alorn.md) -/
  | AL_STATUS
  /-- management lock (13_alorn.md) -/
  | AL_LOCK
  /-- Alorn error counts (13_alorn.md) -/
  | AL_ERRCNT
  /-- last guard refusal (13_alorn.md) -/
  | AL_GUARD
  /-- mailbox control (13_alorn.md) -/
  | AL_MBCTL
  /-- mailbox request buffer (13_alorn.md) -/
  | AL_MBREQ
  /-- mailbox response buffer (13_alorn.md) -/
  | AL_MBRSP
  /-- chip address (13_alorn.md) -/
  | RK_COORDS
  /-- host-bridge and Alorn endpoint error counts (13_alorn.md) -/
  | AL_EPERR
  /-- parcels per port, direction and VL (15_counters_and_events.md) -/
  | TM_VLCOUNT
  /-- flits per core port (15_counters_and_events.md) -/
  | TM_CPFLITS
  /-- event log state (15_counters_and_events.md) -/
  | TM_LOGSTAT
  /-- chip timestamp (15_counters_and_events.md) -/
  | TM_TIMESTAMP
deriving DecidableEq, Repr

/-- The model's own number of a register, used in keys of the register file. -/
def Reg.num : Reg → Nat
  | .RK_CENSUS => 0
  | .RQ_ARBRANK => 1
  | .RP_ARBRANK => 2
  | .RQ_ARBWAIT => 3
  | .RP_ARBWAIT => 4
  | .TM_FABCORNER => 5
  | .RQ_LINKERR => 6
  | .RP_LINKERR => 7
  | .XB_DOMAIN => 8
  | .XB_ERRORS => 9
  | .XB_FIFO => 10
  | .RK_PARTJOB => 11
  | .RK_RANKMAP => 12
  | .RK_ATTACHSEL => 13
  | .RK_CHIPROUTE => 14
  | .RK_RINGPLAN => 15
  | .OP_EGWIN => 16
  | .RK_TRANSIT => 17
  | .RK_FLOWCTX => 18
  | .RK_FLOWSEQ => 19
  | .RK_FLOWVAL => 20
  | .CP_QCTL => 21
  | .CP_QBASE => 22
  | .CP_QTAIL => 23
  | .CP_QSTAT => 24
  | .CP_EVCNT => 25
  | .CP_ERRCNT => 26
  | .CP_ERRAUX => 27
  | .CP_RINGTAB => 28
  | .CP_RINGCTL => 29
  | .CP_RINGERR => 30
  | .CP_AMCHAN => 31
  | .CP_AMCREDIT => 32
  | .CP_AMSENDS => 33
  | .CP_AMSTAT => 34
  | .CP_BANKOWN => 35
  | .SP_BANKOWN => 36
  | .CP_HANDOVER => 37
  | .CP_BANKERR => 38
  | .SP_ERRCNT => 39
  | .RK_HANDOVER => 40
  | .SP_PKTERR => 41
  | .SC_TREE => 42
  | .SC_TREERES => 43
  | .SC_PORTTREE => 44
  | .SC_PORTBEYOND => 45
  | .SC_SLOTSTAT => 46
  | .SC_ERRCNT => 47
  | .RK_GROUP => 48
  | .RK_GROUPAUX => 49
  | .PL_GROUP => 50
  | .PL_MEMBERS => 51
  | .PL_GROUPSTATE => 52
  | .TM_SLOWEST => 53
  | .TM_SLOWHIST => 54
  | .PL_ERRCNT => 55
  | .OP_PORTSTATE => 56
  | .OP_PORTCTL => 57
  | .OP_PLAN => 58
  | .OP_PEERID => 59
  | .OP_LINKDELAY => 60
  | .OP_LINKERR => 61
  | .OP_ERRCNT => 62
  | .OP_CREDIT => 63
  | .OP_LANEMAP => 64
  | .OP_LASER => 65
  | .RK_EPOCH => 66
  | .RK_STENCIL => 67
  | .AL_STATUS => 68
  | .AL_LOCK => 69
  | .AL_ERRCNT => 70
  | .AL_GUARD => 71
  | .AL_MBCTL => 72
  | .AL_MBREQ => 73
  | .AL_MBRSP => 74
  | .RK_COORDS => 75
  | .AL_EPERR => 76
  | .TM_VLCOUNT => 77
  | .TM_CPFLITS => 78
  | .TM_LOGSTAT => 79
  | .TM_TIMESTAMP => 80

/-- The class of a register's configuration fields (Table 0-4); `live` where it has none. -/
inductive RegClass where
  | static
  | epoch
  | live
deriving DecidableEq, Repr

/-- Where a register lies and what its bits are (R6, R7, Table 0-3, R385, R396). -/
structure RegInfo where
  /-- WINDOW of Table 15-5 -/
  window : Nat
  /-- offset in the window; for CP_, in a core's block -/
  offset : Nat
  /-- how many copies there are; for CP_, in one core's block -/
  count : Nat
  stride : Nat
  /-- register code of Table 12-4 or 13-9; 0 where it has none -/
  code : Nat
  cls : RegClass
  /-- bits of configuration fields of class S or E -/
  cfg : Word
  /-- bits of RW fields of class L -/
  rw : Word
  /-- bits of W1C fields -/
  w1c : Word
  /-- bits of all fields; the others are reserved and read zero (R7) -/
  used : Word
  /-- bits that READ_COUNTERS with CLEAR sets to zero (R385) -/
  clear : Word
deriving DecidableEq, Repr

/-- The register index (Table 15-7) with each register's field table. -/
def Reg.info : Reg → RegInfo
  | .RK_CENSUS => ⟨8, 0x40, 5, 0x8, 0x0, .live, 0x0, 0x0, 0x0, 0xffffffffffffffff, 0x0⟩
  | .RQ_ARBRANK => ⟨2, 0x10000, 2048, 0x8, 0x301, .epoch, 0x77777777, 0x0, 0x0, 0x77777777, 0x0⟩
  | .RP_ARBRANK => ⟨3, 0x10000, 2048, 0x8, 0x401, .epoch, 0x77777777, 0x0, 0x0, 0x77777777, 0x0⟩
  | .RQ_ARBWAIT => ⟨2, 0x20000, 2048, 0x8, 0x0, .live, 0x0, 0x0, 0x0, 0xffffffffffffffff, 0xffffffffffffffff⟩
  | .RP_ARBWAIT => ⟨3, 0x20000, 2048, 0x8, 0x0, .live, 0x0, 0x0, 0x0, 0xffffffffffffffff, 0xffffffffffffffff⟩
  | .TM_FABCORNER => ⟨10, 0x180, 1, 0x8, 0x0, .live, 0x0, 0x0, 0x1000000000000000, 0xf000ffffffffff00, 0x0⟩
  | .RQ_LINKERR => ⟨2, 0x30000, 256, 0x8, 0x0, .live, 0x0, 0x0, 0x0, 0x3fffffffffff, 0xffffffffff⟩
  | .RP_LINKERR => ⟨3, 0x30000, 256, 0x8, 0x0, .live, 0x0, 0x0, 0x0, 0x3fffffffffff, 0xffffffffff⟩
  | .XB_DOMAIN => ⟨6, 0x100, 18, 0x8, 0x0, .live, 0x0, 0x0, 0x1c0000, 0xffff001fffff, 0x0⟩
  | .XB_ERRORS => ⟨6, 0x200, 18, 0x8, 0x0, .live, 0x0, 0x0, 0x0, 0xffffffffffffffff, 0xffffffffffffffff⟩
  | .XB_FIFO => ⟨6, 0x1000, 4608, 0x8, 0x0, .live, 0x0, 0x0, 0x8000000, 0xffffffff1fffffff, 0x0⟩
  | .RK_PARTJOB => ⟨8, 0x80, 16, 0x8, 0x901, .static, 0x8000ffff0fffffff, 0x0, 0x0, 0x8000ffff0fffffff, 0x0⟩
  | .RK_RANKMAP => ⟨8, 0x100000, 16384, 0x8, 0x902, .epoch, 0x8fff8fff8fff8fff, 0x0, 0x0, 0x8fff8fff8fff8fff, 0x0⟩
  | .RK_ATTACHSEL => ⟨8, 0x110, 1, 0x8, 0x903, .epoch, 0xffffffffffff, 0x0, 0x0, 0xffffffffffff, 0x0⟩
  | .RK_CHIPROUTE => ⟨8, 0x200000, 4096, 0x8, 0x904, .epoch, 0xff07, 0x0, 0x0, 0xff07, 0x0⟩
  | .RK_RINGPLAN => ⟨8, 0x120, 6, 0x8, 0x905, .epoch, 0xffff3, 0x0, 0x0, 0xffff3, 0x0⟩
  | .OP_EGWIN => ⟨7, 0x40000, 576, 0x8, 0x801, .static, 0x3fff, 0x0, 0x0, 0xffffffff3fff3fff, 0x0⟩
  | .RK_TRANSIT => ⟨8, 0x200, 64, 0x8, 0x906, .epoch, 0x8000000fffffffff, 0x0, 0x0, 0x8000ffffffffffff, 0x0⟩
  | .RK_FLOWCTX => ⟨8, 0x400000, 16384, 0x20, 0x907, .static, 0x3ffffffffffff, 0x0, 0x0, 0x3ffffffffffff, 0x0⟩
  | .RK_FLOWSEQ => ⟨8, 0x400008, 16384, 0x20, 0x0, .live, 0x0, 0x0, 0x0, 0xfffffff1ffff, 0x0⟩
  | .RK_FLOWVAL => ⟨8, 0x400010, 16384, 0x20, 0x0, .live, 0x0, 0x0, 0x0, 0xffffffffffffffff, 0x0⟩
  | .CP_QCTL => ⟨0, 0x100, 16, 0x8, 0x0, .live, 0x0, 0x3fffff0f, 0x0, 0x13fffff0f, 0x0⟩
  | .CP_QBASE => ⟨0, 0x180, 16, 0x8, 0x0, .live, 0x0, 0x3fffff003fffff, 0x0, 0x3fffff003fffff, 0x0⟩
  | .CP_QTAIL => ⟨0, 0x200, 16, 0x8, 0x0, .live, 0x0, 0x1ff, 0x0, 0x1ff, 0x0⟩
  | .CP_QSTAT => ⟨0, 0x280, 16, 0x8, 0x0, .live, 0x0, 0x0, 0x600000000000, 0xfff7fff01ff01ff, 0x0⟩
  | .CP_EVCNT => ⟨0, 0x400, 64, 0x8, 0x0, .live, 0x0, 0xffffffff, 0x0, 0xffffffff, 0x0⟩
  | .CP_ERRCNT => ⟨0, 0x600, 1, 0x8, 0x0, .live, 0x0, 0x0, 0x0, 0xffffffffffffffff, 0xffffffffffffffff⟩
  | .CP_ERRAUX => ⟨0, 0x608, 1, 0x8, 0x0, .live, 0x0, 0x0, 0x10000, 0xffff0001ffff, 0xffff⟩
  | .CP_RINGTAB => ⟨0, 0x800, 1, 0x8, 0x0, .live, 0x0, 0x803fffff, 0x100000000, 0x1803fffff, 0x0⟩
  | .CP_RINGCTL => ⟨0, 0x808, 1, 0x8, 0x0, .live, 0x0, 0x0, 0x0, 0x1fffff00007fff, 0x0⟩
  | .CP_RINGERR => ⟨0, 0x810, 1, 0x8, 0x0, .live, 0x0, 0x0, 0x0, 0xffffffffffff, 0xffffffffffff⟩
  | .CP_AMCHAN => ⟨0, 0x1000, 64, 0x8, 0x101, .static, 0xffffffffffffff, 0x0, 0x0, 0xffffffffffffff, 0x0⟩
  | .CP_AMCREDIT => ⟨0, 0x1200, 64, 0x8, 0x102, .static, 0x7ff007f07ff, 0x0, 0x0, 0x7ff007f07ff, 0x0⟩
  | .CP_AMSENDS => ⟨0, 0x1400, 64, 0x8, 0x103, .static, 0xffffffffffffffff, 0x0, 0x0, 0xffffffffffffffff, 0x0⟩
  | .CP_AMSTAT => ⟨0, 0x1600, 64, 0x8, 0x0, .live, 0x0, 0x0, 0x0, 0xffffffff07ff07ff, 0x0⟩
  | .CP_BANKOWN => ⟨0, 0x1800, 48, 0x8, 0x104, .live, 0x0, 0x0, 0x0, 0xffffffffffffffff, 0x0⟩
  | .SP_BANKOWN => ⟨1, 0x10000, 6144, 0x8, 0x201, .live, 0x0, 0x0, 0x0, 0xffffffffffffffff, 0x0⟩
  | .CP_HANDOVER => ⟨0, 0x1a00, 1, 0x8, 0x0, .live, 0x0, 0xfffffffffff, 0x0, 0xff030fffffffffff, 0x0⟩
  | .CP_BANKERR => ⟨0, 0x1a08, 1, 0x8, 0x0, .live, 0x0, 0x0, 0x0, 0xffffffffffffffff, 0xffffffffffffffff⟩
  | .SP_ERRCNT => ⟨1, 0x100, 24, 0x8, 0x0, .live, 0x0, 0x0, 0x0, 0xffffffffffffffff, 0xffffffffffffffff⟩
  | .RK_HANDOVER => ⟨8, 0x400, 64, 0x8, 0x0, .live, 0x0, 0x0, 0x0, 0xfffff7ffffffffff, 0x0⟩
  | .SP_PKTERR => ⟨1, 0x200, 24, 0x8, 0x0, .live, 0x0, 0x0, 0x0, 0xffffffffffffffff, 0xffffffffffffffff⟩
  | .SC_TREE => ⟨5, 0x10000, 4096, 0x8, 0x601, .epoch, 0x7fffffffffff, 0x0, 0x0, 0x7fffffffffff, 0x0⟩
  | .SC_TREERES => ⟨5, 0x20000, 4096, 0x8, 0x602, .epoch, 0x1ff1ff0f, 0x0, 0x0, 0x1ff1ff0f, 0x0⟩
  | .SC_PORTTREE => ⟨5, 0x30000, 1536, 0x8, 0x603, .epoch, 0x1fff7ffdfff3fff, 0x0, 0x0, 0x1fff7ffdfff3fff, 0x0⟩
  | .SC_PORTBEYOND => ⟨5, 0x40000, 1536, 0x8, 0x604, .epoch, 0x1ffffffffff, 0x0, 0x0, 0x1ffffffffff, 0x0⟩
  | .SC_SLOTSTAT => ⟨5, 0x50000, 1408, 0x8, 0x0, .live, 0x0, 0x0, 0x0, 0x7ffffffffffff, 0x0⟩
  | .SC_ERRCNT => ⟨5, 0x100, 262, 0x8, 0x0, .live, 0x0, 0x0, 0x0, 0xffffffffffffffff, 0xffffffffffffffff⟩
  | .RK_GROUP => ⟨8, 0x600000, 4096, 0x8, 0x908, .epoch, 0xffffffff07ffffff, 0x0, 0x0, 0xffffffff07ffffff, 0x0⟩
  | .RK_GROUPAUX => ⟨8, 0x608000, 4096, 0x8, 0x909, .epoch, 0xffffffffffffffff, 0x0, 0x0, 0xffffffffffffffff, 0x0⟩
  | .PL_GROUP => ⟨4, 0x10000, 4096, 0x8, 0x501, .epoch, 0x7ffff, 0x0, 0x0, 0x7ffff, 0x0⟩
  | .PL_MEMBERS => ⟨4, 0x20000, 16384, 0x8, 0x502, .epoch, 0xffffffffffffffff, 0x0, 0x0, 0xffffffffffffffff, 0x0⟩
  | .PL_GROUPSTATE => ⟨4, 0x40000, 4096, 0x8, 0x0, .live, 0x0, 0x0, 0x0, 0x1ffffffffffffff, 0x0⟩
  | .TM_SLOWEST => ⟨10, 0x10000, 4096, 0x8, 0x0, .live, 0x0, 0x0, 0x0, 0x800fffff1fffffff, 0x800fffff1fffffff⟩
  | .TM_SLOWHIST => ⟨10, 0x20000, 16384, 0x8, 0x0, .live, 0x0, 0x0, 0x0, 0xffffffffffffffff, 0xffffffffffffffff⟩
  | .PL_ERRCNT => ⟨4, 0x100, 1, 0x8, 0x0, .live, 0x0, 0x0, 0x0, 0xffffffffffffffff, 0xffffffffffffffff⟩
  | .OP_PORTSTATE => ⟨7, 0x100, 6, 0x8, 0x0, .live, 0x0, 0x0, 0x0, 0xffffffff037707, 0x0⟩
  | .OP_PORTCTL => ⟨7, 0x140, 6, 0x8, 0x803, .live, 0x0, 0x1f, 0x0, 0x1f, 0x0⟩
  | .OP_PLAN => ⟨7, 0x180, 6, 0x8, 0x802, .epoch, 0x3f07ffff, 0x0, 0x0, 0x3f07ffff, 0x0⟩
  | .OP_PEERID => ⟨7, 0x1c0, 6, 0x8, 0x0, .live, 0x0, 0x0, 0x0, 0xffffffffffffffff, 0x0⟩
  | .OP_LINKDELAY => ⟨7, 0x200, 6, 0x8, 0x0, .live, 0x0, 0x0, 0x0, 0x80ffffffffffffff, 0x0⟩
  | .OP_LINKERR => ⟨7, 0x240, 6, 0x8, 0x0, .live, 0x0, 0x0, 0x0, 0xffffffffffffffff, 0xffffffffffffffff⟩
  | .OP_ERRCNT => ⟨7, 0x280, 6, 0x8, 0x0, .live, 0x0, 0x0, 0x0, 0xffffffffffffffff, 0xffffffffffffffff⟩
  | .OP_CREDIT => ⟨7, 0x400, 42, 0x8, 0x0, .live, 0x0, 0x0, 0x0, 0xffffffff0fff0fff, 0x0⟩
  | .OP_LANEMAP => ⟨7, 0x1000, 216, 0x8, 0x0, .live, 0x0, 0x0, 0x0, 0xfffff7ff7f, 0x0⟩
  | .OP_LASER => ⟨7, 0x2000, 8, 0x8, 0x0, .live, 0x0, 0x0, 0x0, 0xffff0fff7f07, 0x0⟩
  | .RK_EPOCH => ⟨8, 0x180, 1, 0x8, 0x0, .live, 0x0, 0x0, 0x0, 0xffffffffffffffff, 0x0⟩
  | .RK_STENCIL => ⟨8, 0x188, 1, 0x8, 0x0, .live, 0x0, 0x0, 0x100, 0xffffffff0fff07ff, 0x0⟩
  | .AL_STATUS => ⟨9, 0x0, 1, 0x8, 0x0, .live, 0x0, 0x0, 0x0, 0xffffffffffffff1f, 0x0⟩
  | .AL_LOCK => ⟨9, 0x8, 1, 0x8, 0x0, .live, 0x0, 0x0, 0x0, 0xfffffffffffff0f, 0x0⟩
  | .AL_ERRCNT => ⟨9, 0x10, 1, 0x8, 0x0, .live, 0x0, 0x0, 0x0, 0xffffffffffffffff, 0xffffffffffffffff⟩
  | .AL_GUARD => ⟨9, 0x18, 1, 0x8, 0x0, .live, 0x0, 0x0, 0x0, 0x80ffffffffffffff, 0x0⟩
  | .AL_MBCTL => ⟨9, 0x100, 1, 0x8, 0x0, .live, 0x0, 0x0, 0xc00, 0xf03, 0x0⟩
  | .AL_MBREQ => ⟨9, 0x1000, 128, 0x8, 0x0, .live, 0x0, 0xffffffffffffffff, 0x0, 0xffffffffffffffff, 0x0⟩
  | .AL_MBRSP => ⟨9, 0x1400, 128, 0x8, 0x0, .live, 0x0, 0x0, 0x0, 0xffffffffffffffff, 0x0⟩
  | .RK_COORDS => ⟨8, 0x190, 1, 0x8, 0x90a, .static, 0x8000000000000fff, 0x0, 0x0, 0x8000000000000fff, 0x0⟩
  | .AL_EPERR => ⟨9, 0x20, 2, 0x8, 0x0, .live, 0x0, 0x0, 0x0, 0xffffffffffffffff, 0xffffffffffffffff⟩
  | .TM_VLCOUNT => ⟨10, 0x400, 72, 0x8, 0x0, .live, 0x0, 0x0, 0x0, 0xffffffffffff, 0x0⟩
  | .TM_CPFLITS => ⟨10, 0x800, 256, 0x8, 0x0, .live, 0x0, 0x0, 0x0, 0xffffffffffffffff, 0x0⟩
  | .TM_LOGSTAT => ⟨10, 0x8, 1, 0x8, 0x0, .live, 0x0, 0x0, 0x0, 0xffff3fffffffffff, 0x0⟩
  | .TM_TIMESTAMP => ⟨10, 0x0, 1, 0x8, 0xb01, .live, 0x0, 0x0, 0x0, 0xffffffffffffffff, 0x0⟩

/-- Every register, in the order of the manual's chapters. -/
def Reg.all : List Reg := [
  .RK_CENSUS, .RQ_ARBRANK, .RP_ARBRANK, .RQ_ARBWAIT, .RP_ARBWAIT, .TM_FABCORNER,
  .RQ_LINKERR, .RP_LINKERR, .XB_DOMAIN, .XB_ERRORS, .XB_FIFO, .RK_PARTJOB,
  .RK_RANKMAP, .RK_ATTACHSEL, .RK_CHIPROUTE, .RK_RINGPLAN, .OP_EGWIN, .RK_TRANSIT,
  .RK_FLOWCTX, .RK_FLOWSEQ, .RK_FLOWVAL, .CP_QCTL, .CP_QBASE, .CP_QTAIL,
  .CP_QSTAT, .CP_EVCNT, .CP_ERRCNT, .CP_ERRAUX, .CP_RINGTAB, .CP_RINGCTL,
  .CP_RINGERR, .CP_AMCHAN, .CP_AMCREDIT, .CP_AMSENDS, .CP_AMSTAT, .CP_BANKOWN,
  .SP_BANKOWN, .CP_HANDOVER, .CP_BANKERR, .SP_ERRCNT, .RK_HANDOVER, .SP_PKTERR,
  .SC_TREE, .SC_TREERES, .SC_PORTTREE, .SC_PORTBEYOND, .SC_SLOTSTAT, .SC_ERRCNT,
  .RK_GROUP, .RK_GROUPAUX, .PL_GROUP, .PL_MEMBERS, .PL_GROUPSTATE, .TM_SLOWEST,
  .TM_SLOWHIST, .PL_ERRCNT, .OP_PORTSTATE, .OP_PORTCTL, .OP_PLAN, .OP_PEERID,
  .OP_LINKDELAY, .OP_LINKERR, .OP_ERRCNT, .OP_CREDIT, .OP_LANEMAP, .OP_LASER,
  .RK_EPOCH, .RK_STENCIL, .AL_STATUS, .AL_LOCK, .AL_ERRCNT, .AL_GUARD,
  .AL_MBCTL, .AL_MBREQ, .AL_MBRSP, .RK_COORDS, .AL_EPERR, .TM_VLCOUNT,
  .TM_CPFLITS, .TM_LOGSTAT, .TM_TIMESTAMP]

/-- The register a code of Table 12-4 or Table 13-9 names (R309, R350). -/
def Reg.ofCode (c : Nat) : Option Reg :=
  if c = 0 then none else Reg.all.find? (fun r => r.info.code == c)

/-- Whether the register is one a Stencil loads (Table 12-4). -/
def Reg.loaded (r : Reg) : Bool :=
  r.info.code != 0 && (r.info.cls != .live) && r != .RK_COORDS

/-- The registers of one core's block are numbered core by core (R396, Table 12-4). -/
def Reg.perCore (r : Reg) : Bool := r.info.window == 0

/-- How many copies of the register the chip has. -/
def Reg.total (r : Reg) : Nat := if r.perCore then 256 * r.info.count else r.info.count

/-- The value of a register after the reset of its block (the Reset columns; R11 for "Stencil"). Fields that read
from fuses, inputs or computed state are laid over it where the register is read. -/
def Reg.resetWord (r : Reg) (n : Nat) : Word :=
  match r with
  | .CP_QCTL => 2000#64 <<< 8
  | .CP_HANDOVER => 1#64 <<< 49
  | .OP_PORTCTL => BitVec.ofNat 64 (n % 8)
  | .OP_LANEMAP => 31#64
  | .AL_STATUS => 0x301#64
  | _ => 0#64

end Sys2Proof.Machine
end

