-- ==== Sys2Proof/Machine/Fields.lean ====
section
/-! DEFINITION. Every field of every register, at the bits its field table gives it. -/

namespace Sys2Proof.Machine

/-- A field of a register: its low bit and its width. -/
structure Fld where
  reg : Reg
  lo : Nat
  width : Nat
deriving DecidableEq, Repr

namespace F

/-! RK_CENSUS -/
def RK_CENSUS_PRESENT : Fld := ⟨.RK_CENSUS, 0, 64⟩
/-! RQ_ARBRANK -/
def RQ_ARBRANK_RANK_N : Fld := ⟨.RQ_ARBRANK, 0, 3⟩
def RQ_ARBRANK_RANK_E : Fld := ⟨.RQ_ARBRANK, 4, 3⟩
def RQ_ARBRANK_RANK_S : Fld := ⟨.RQ_ARBRANK, 8, 3⟩
def RQ_ARBRANK_RANK_W : Fld := ⟨.RQ_ARBRANK, 12, 3⟩
def RQ_ARBRANK_RANK_C : Fld := ⟨.RQ_ARBRANK, 16, 3⟩
def RQ_ARBRANK_RANK_X0 : Fld := ⟨.RQ_ARBRANK, 20, 3⟩
def RQ_ARBRANK_RANK_X1 : Fld := ⟨.RQ_ARBRANK, 24, 3⟩
def RQ_ARBRANK_RANK_SCREED : Fld := ⟨.RQ_ARBRANK, 28, 3⟩
/-! RP_ARBRANK -/
def RP_ARBRANK_RANK_N : Fld := ⟨.RP_ARBRANK, 0, 3⟩
def RP_ARBRANK_RANK_E : Fld := ⟨.RP_ARBRANK, 4, 3⟩
def RP_ARBRANK_RANK_S : Fld := ⟨.RP_ARBRANK, 8, 3⟩
def RP_ARBRANK_RANK_W : Fld := ⟨.RP_ARBRANK, 12, 3⟩
def RP_ARBRANK_RANK_C : Fld := ⟨.RP_ARBRANK, 16, 3⟩
def RP_ARBRANK_RANK_X0 : Fld := ⟨.RP_ARBRANK, 20, 3⟩
def RP_ARBRANK_RANK_X1 : Fld := ⟨.RP_ARBRANK, 24, 3⟩
def RP_ARBRANK_RANK_SCREED : Fld := ⟨.RP_ARBRANK, 28, 3⟩
/-! RQ_ARBWAIT -/
def RQ_ARBWAIT_LONG : Fld := ⟨.RQ_ARBWAIT, 0, 20⟩
def RQ_ARBWAIT_MAX : Fld := ⟨.RQ_ARBWAIT, 20, 20⟩
def RQ_ARBWAIT_TOTAL : Fld := ⟨.RQ_ARBWAIT, 40, 24⟩
/-! RP_ARBWAIT -/
def RP_ARBWAIT_LONG : Fld := ⟨.RP_ARBWAIT, 0, 20⟩
def RP_ARBWAIT_MAX : Fld := ⟨.RP_ARBWAIT, 20, 20⟩
def RP_ARBWAIT_TOTAL : Fld := ⟨.RP_ARBWAIT, 40, 24⟩
/-! TM_FABCORNER -/
def TM_FABCORNER_VDD : Fld := ⟨.TM_FABCORNER, 8, 12⟩
def TM_FABCORNER_TEMP : Fld := ⟨.TM_FABCORNER, 20, 12⟩
def TM_FABCORNER_SPEED : Fld := ⟨.TM_FABCORNER, 32, 16⟩
def TM_FABCORNER_LOWV : Fld := ⟨.TM_FABCORNER, 60, 1⟩
def TM_FABCORNER_HOT : Fld := ⟨.TM_FABCORNER, 61, 1⟩
def TM_FABCORNER_THROTTLED : Fld := ⟨.TM_FABCORNER, 62, 1⟩
def TM_FABCORNER_THROTTLE : Fld := ⟨.TM_FABCORNER, 63, 1⟩
/-! RQ_LINKERR -/
def RQ_LINKERR_PARITY : Fld := ⟨.RQ_LINKERR, 0, 24⟩
def RQ_LINKERR_VIOLATIONS : Fld := ⟨.RQ_LINKERR, 24, 16⟩
def RQ_LINKERR_LAST_INPUT : Fld := ⟨.RQ_LINKERR, 40, 3⟩
def RQ_LINKERR_LAST_NEIGHBOUR : Fld := ⟨.RQ_LINKERR, 43, 1⟩
def RQ_LINKERR_LAST_FROM : Fld := ⟨.RQ_LINKERR, 44, 2⟩
/-! RP_LINKERR -/
def RP_LINKERR_PARITY : Fld := ⟨.RP_LINKERR, 0, 24⟩
def RP_LINKERR_VIOLATIONS : Fld := ⟨.RP_LINKERR, 24, 16⟩
def RP_LINKERR_LAST_INPUT : Fld := ⟨.RP_LINKERR, 40, 3⟩
def RP_LINKERR_LAST_NEIGHBOUR : Fld := ⟨.RP_LINKERR, 43, 1⟩
def RP_LINKERR_LAST_FROM : Fld := ⟨.RP_LINKERR, 44, 2⟩
/-! XB_DOMAIN -/
def XB_DOMAIN_FREQ : Fld := ⟨.XB_DOMAIN, 0, 16⟩
def XB_DOMAIN_STOPPED : Fld := ⟨.XB_DOMAIN, 16, 1⟩
def XB_DOMAIN_IN_RESET : Fld := ⟨.XB_DOMAIN, 17, 1⟩
def XB_DOMAIN_PULSE_OVR : Fld := ⟨.XB_DOMAIN, 18, 1⟩
def XB_DOMAIN_FIFO_OVR : Fld := ⟨.XB_DOMAIN, 19, 1⟩
def XB_DOMAIN_MULTI_OVR : Fld := ⟨.XB_DOMAIN, 20, 1⟩
def XB_DOMAIN_STOPS : Fld := ⟨.XB_DOMAIN, 32, 16⟩
/-! XB_ERRORS -/
def XB_ERRORS_PARITY : Fld := ⟨.XB_ERRORS, 0, 24⟩
def XB_ERRORS_OVERRUNS : Fld := ⟨.XB_ERRORS, 24, 16⟩
def XB_ERRORS_DISCARDS : Fld := ⟨.XB_ERRORS, 40, 24⟩
/-! XB_FIFO -/
def XB_FIFO_FILL : Fld := ⟨.XB_FIFO, 0, 8⟩
def XB_FIFO_PACKETS : Fld := ⟨.XB_FIFO, 8, 8⟩
def XB_FIFO_DEPTH : Fld := ⟨.XB_FIFO, 16, 8⟩
def XB_FIFO_KIND : Fld := ⟨.XB_FIFO, 24, 3⟩
def XB_FIFO_OVERRUN : Fld := ⟨.XB_FIFO, 27, 1⟩
def XB_FIFO_HELD : Fld := ⟨.XB_FIFO, 28, 1⟩
def XB_FIFO_NOTICES : Fld := ⟨.XB_FIFO, 32, 32⟩
/-! RK_PARTJOB -/
def RK_PARTJOB_JOB : Fld := ⟨.RK_PARTJOB, 0, 16⟩
def RK_PARTJOB_OWN_RANK : Fld := ⟨.RK_PARTJOB, 16, 12⟩
def RK_PARTJOB_CLUSTERS : Fld := ⟨.RK_PARTJOB, 32, 16⟩
def RK_PARTJOB_VALID : Fld := ⟨.RK_PARTJOB, 63, 1⟩
/-! RK_RANKMAP -/
def RK_RANKMAP_CHIP0 : Fld := ⟨.RK_RANKMAP, 0, 12⟩
def RK_RANKMAP_VALID0 : Fld := ⟨.RK_RANKMAP, 15, 1⟩
def RK_RANKMAP_CHIP1 : Fld := ⟨.RK_RANKMAP, 16, 12⟩
def RK_RANKMAP_VALID1 : Fld := ⟨.RK_RANKMAP, 31, 1⟩
def RK_RANKMAP_CHIP2 : Fld := ⟨.RK_RANKMAP, 32, 12⟩
def RK_RANKMAP_VALID2 : Fld := ⟨.RK_RANKMAP, 47, 1⟩
def RK_RANKMAP_CHIP3 : Fld := ⟨.RK_RANKMAP, 48, 12⟩
def RK_RANKMAP_VALID3 : Fld := ⟨.RK_RANKMAP, 63, 1⟩
/-! RK_ATTACHSEL -/
def RK_ATTACHSEL_MODE : Fld := ⟨.RK_ATTACHSEL, 0, 48⟩
/-! RK_CHIPROUTE -/
def RK_CHIPROUTE_PORT : Fld := ⟨.RK_CHIPROUTE, 0, 3⟩
def RK_CHIPROUTE_HOPS : Fld := ⟨.RK_CHIPROUTE, 8, 8⟩
/-! RK_RINGPLAN -/
def RK_RINGPLAN_DATELINE : Fld := ⟨.RK_RINGPLAN, 0, 1⟩
def RK_RINGPLAN_CLAIMED : Fld := ⟨.RK_RINGPLAN, 1, 1⟩
def RK_RINGPLAN_CLAIM_JOB : Fld := ⟨.RK_RINGPLAN, 4, 16⟩
/-! OP_EGWIN -/
def OP_EGWIN_WINDOW : Fld := ⟨.OP_EGWIN, 0, 14⟩
def OP_EGWIN_OUTSTANDING : Fld := ⟨.OP_EGWIN, 16, 14⟩
def OP_EGWIN_WAITS : Fld := ⟨.OP_EGWIN, 32, 32⟩
/-! RK_TRANSIT -/
def RK_TRANSIT_JOB : Fld := ⟨.RK_TRANSIT, 0, 16⟩
def RK_TRANSIT_PORT : Fld := ⟨.RK_TRANSIT, 16, 3⟩
def RK_TRANSIT_SIDE : Fld := ⟨.RK_TRANSIT, 19, 1⟩
def RK_TRANSIT_ACCOUNT : Fld := ⟨.RK_TRANSIT, 20, 4⟩
def RK_TRANSIT_QUOTA : Fld := ⟨.RK_TRANSIT, 24, 12⟩
def RK_TRANSIT_OCCUPANCY : Fld := ⟨.RK_TRANSIT, 36, 12⟩
def RK_TRANSIT_VALID : Fld := ⟨.RK_TRANSIT, 63, 1⟩
/-! RK_FLOWCTX -/
def RK_FLOWCTX_VALID : Fld := ⟨.RK_FLOWCTX, 0, 1⟩
def RK_FLOWCTX_ROLE : Fld := ⟨.RK_FLOWCTX, 1, 1⟩
def RK_FLOWCTX_PARTITION : Fld := ⟨.RK_FLOWCTX, 2, 4⟩
def RK_FLOWCTX_ENDPOINT : Fld := ⟨.RK_FLOWCTX, 6, 9⟩
def RK_FLOWCTX_PEER_RANK : Fld := ⟨.RK_FLOWCTX, 15, 12⟩
def RK_FLOWCTX_PEER_EP : Fld := ⟨.RK_FLOWCTX, 27, 9⟩
def RK_FLOWCTX_PEER_FLOW : Fld := ⟨.RK_FLOWCTX, 36, 14⟩
/-! RK_FLOWSEQ -/
def RK_FLOWSEQ_SEQ : Fld := ⟨.RK_FLOWSEQ, 0, 16⟩
def RK_FLOWSEQ_BUSY : Fld := ⟨.RK_FLOWSEQ, 16, 1⟩
def RK_FLOWSEQ_RSTATUS : Fld := ⟨.RK_FLOWSEQ, 20, 4⟩
def RK_FLOWSEQ_ROPCODE : Fld := ⟨.RK_FLOWSEQ, 24, 8⟩
def RK_FLOWSEQ_DUPS : Fld := ⟨.RK_FLOWSEQ, 32, 16⟩
/-! RK_FLOWVAL -/
def RK_FLOWVAL_VALUE : Fld := ⟨.RK_FLOWVAL, 0, 64⟩
/-! CP_QCTL -/
def CP_QCTL_ENABLE : Fld := ⟨.CP_QCTL, 0, 1⟩
def CP_QCTL_RETRIES : Fld := ⟨.CP_QCTL, 1, 3⟩
def CP_QCTL_TIMEOUT_US : Fld := ⟨.CP_QCTL, 8, 22⟩
def CP_QCTL_SKIP : Fld := ⟨.CP_QCTL, 32, 1⟩
/-! CP_QBASE -/
def CP_QBASE_DESC_BASE : Fld := ⟨.CP_QBASE, 0, 22⟩
def CP_QBASE_COMP_BASE : Fld := ⟨.CP_QBASE, 32, 22⟩
/-! CP_QTAIL -/
def CP_QTAIL_TAIL : Fld := ⟨.CP_QTAIL, 0, 9⟩
/-! CP_QSTAT -/
def CP_QSTAT_HEAD : Fld := ⟨.CP_QSTAT, 0, 9⟩
def CP_QSTAT_RETIRE : Fld := ⟨.CP_QSTAT, 16, 9⟩
def CP_QSTAT_SUBMIT : Fld := ⟨.CP_QSTAT, 32, 8⟩
def CP_QSTAT_WAIT : Fld := ⟨.CP_QSTAT, 40, 1⟩
def CP_QSTAT_FENCE : Fld := ⟨.CP_QSTAT, 41, 1⟩
def CP_QSTAT_WINDOW : Fld := ⟨.CP_QSTAT, 42, 1⟩
def CP_QSTAT_FLOW_BUSY : Fld := ⟨.CP_QSTAT, 43, 1⟩
def CP_QSTAT_STOPPED : Fld := ⟨.CP_QSTAT, 44, 1⟩
def CP_QSTAT_BASE_ERR : Fld := ⟨.CP_QSTAT, 45, 1⟩
def CP_QSTAT_FULL : Fld := ⟨.CP_QSTAT, 46, 1⟩
def CP_QSTAT_SERIAL : Fld := ⟨.CP_QSTAT, 48, 12⟩
/-! CP_EVCNT -/
def CP_EVCNT_VALUE : Fld := ⟨.CP_EVCNT, 0, 32⟩
/-! CP_ERRCNT -/
def CP_ERRCNT_STRAY : Fld := ⟨.CP_ERRCNT, 0, 16⟩
def CP_ERRCNT_HEADER : Fld := ⟨.CP_ERRCNT, 16, 16⟩
def CP_ERRCNT_TIMEOUTS : Fld := ⟨.CP_ERRCNT, 32, 16⟩
def CP_ERRCNT_RETRIES : Fld := ⟨.CP_ERRCNT, 48, 16⟩
/-! CP_ERRAUX -/
def CP_ERRAUX_ROUTE : Fld := ⟨.CP_ERRAUX, 0, 16⟩
def CP_ERRAUX_REFUSED : Fld := ⟨.CP_ERRAUX, 16, 1⟩
def CP_ERRAUX_REFUSED_OFFSET : Fld := ⟨.CP_ERRAUX, 32, 16⟩
/-! CP_RINGTAB -/
def CP_RINGTAB_BASE : Fld := ⟨.CP_RINGTAB, 0, 22⟩
def CP_RINGTAB_VALID : Fld := ⟨.CP_RINGTAB, 31, 1⟩
def CP_RINGTAB_TAB_ERR : Fld := ⟨.CP_RINGTAB, 32, 1⟩
/-! CP_RINGCTL -/
def CP_RINGCTL_RING : Fld := ⟨.CP_RINGCTL, 0, 12⟩
def CP_RINGCTL_ACTION : Fld := ⟨.CP_RINGCTL, 12, 3⟩
def CP_RINGCTL_READ_POS : Fld := ⟨.CP_RINGCTL, 32, 21⟩
/-! CP_RINGERR -/
def CP_RINGERR_BADADV : Fld := ⟨.CP_RINGERR, 0, 16⟩
def CP_RINGERR_CFGERR : Fld := ⟨.CP_RINGERR, 16, 16⟩
def CP_RINGERR_REPLYDROP : Fld := ⟨.CP_RINGERR, 32, 16⟩
/-! CP_AMCHAN -/
def CP_AMCHAN_VALID : Fld := ⟨.CP_AMCHAN, 0, 1⟩
def CP_AMCHAN_ROLE : Fld := ⟨.CP_AMCHAN, 1, 1⟩
def CP_AMCHAN_ANY_SOURCE : Fld := ⟨.CP_AMCHAN, 2, 1⟩
def CP_AMCHAN_ORDER : Fld := ⟨.CP_AMCHAN, 3, 8⟩
def CP_AMCHAN_RING : Fld := ⟨.CP_AMCHAN, 11, 12⟩
def CP_AMCHAN_RANK : Fld := ⟨.CP_AMCHAN, 23, 12⟩
def CP_AMCHAN_ENDPOINT : Fld := ⟨.CP_AMCHAN, 35, 9⟩
def CP_AMCHAN_REPLY_RING : Fld := ⟨.CP_AMCHAN, 44, 12⟩
/-! CP_AMCREDIT -/
def CP_AMCREDIT_FLITS : Fld := ⟨.CP_AMCREDIT, 0, 11⟩
def CP_AMCREDIT_REPLY_UNITS : Fld := ⟨.CP_AMCREDIT, 16, 7⟩
def CP_AMCREDIT_RHOLD : Fld := ⟨.CP_AMCREDIT, 32, 11⟩
/-! CP_AMSENDS -/
def CP_AMSENDS_MASK : Fld := ⟨.CP_AMSENDS, 0, 64⟩
/-! CP_AMSTAT -/
def CP_AMSTAT_OUT : Fld := ⟨.CP_AMSTAT, 0, 11⟩
def CP_AMSTAT_RUSED : Fld := ⟨.CP_AMSTAT, 16, 11⟩
def CP_AMSTAT_FULLS : Fld := ⟨.CP_AMSTAT, 32, 32⟩
/-! CP_BANKOWN -/
def CP_BANKOWN_STATE : Fld := ⟨.CP_BANKOWN, 0, 2⟩
def CP_BANKOWN_SHARED : Fld := ⟨.CP_BANKOWN, 2, 1⟩
def CP_BANKOWN_NET_HELD : Fld := ⟨.CP_BANKOWN, 3, 1⟩
def CP_BANKOWN_OWNER_PART : Fld := ⟨.CP_BANKOWN, 4, 4⟩
def CP_BANKOWN_OWNER_EP : Fld := ⟨.CP_BANKOWN, 8, 9⟩
def CP_BANKOWN_GROUP : Fld := ⟨.CP_BANKOWN, 17, 12⟩
def CP_BANKOWN_NEXT_SHARED : Fld := ⟨.CP_BANKOWN, 29, 1⟩
def CP_BANKOWN_NEXT_NET : Fld := ⟨.CP_BANKOWN, 30, 1⟩
def CP_BANKOWN_NEXT_PART : Fld := ⟨.CP_BANKOWN, 31, 4⟩
def CP_BANKOWN_NEXT_EP : Fld := ⟨.CP_BANKOWN, 35, 9⟩
def CP_BANKOWN_NEXT_GROUP : Fld := ⟨.CP_BANKOWN, 44, 12⟩
def CP_BANKOWN_INFLIGHT : Fld := ⟨.CP_BANKOWN, 56, 8⟩
/-! SP_BANKOWN -/
def SP_BANKOWN_STATE : Fld := ⟨.SP_BANKOWN, 0, 2⟩
def SP_BANKOWN_SHARED : Fld := ⟨.SP_BANKOWN, 2, 1⟩
def SP_BANKOWN_NET_HELD : Fld := ⟨.SP_BANKOWN, 3, 1⟩
def SP_BANKOWN_OWNER_PART : Fld := ⟨.SP_BANKOWN, 4, 4⟩
def SP_BANKOWN_OWNER_EP : Fld := ⟨.SP_BANKOWN, 8, 9⟩
def SP_BANKOWN_GROUP : Fld := ⟨.SP_BANKOWN, 17, 12⟩
def SP_BANKOWN_NEXT_SHARED : Fld := ⟨.SP_BANKOWN, 29, 1⟩
def SP_BANKOWN_NEXT_NET : Fld := ⟨.SP_BANKOWN, 30, 1⟩
def SP_BANKOWN_NEXT_PART : Fld := ⟨.SP_BANKOWN, 31, 4⟩
def SP_BANKOWN_NEXT_EP : Fld := ⟨.SP_BANKOWN, 35, 9⟩
def SP_BANKOWN_NEXT_GROUP : Fld := ⟨.SP_BANKOWN, 44, 12⟩
def SP_BANKOWN_INFLIGHT : Fld := ⟨.SP_BANKOWN, 56, 8⟩
/-! CP_HANDOVER -/
def CP_HANDOVER_BANK_EP : Fld := ⟨.CP_HANDOVER, 0, 9⟩
def CP_HANDOVER_BANK : Fld := ⟨.CP_HANDOVER, 9, 8⟩
def CP_HANDOVER_NEW_SHARED : Fld := ⟨.CP_HANDOVER, 17, 1⟩
def CP_HANDOVER_NEW_NET : Fld := ⟨.CP_HANDOVER, 18, 1⟩
def CP_HANDOVER_NEW_GROUP : Fld := ⟨.CP_HANDOVER, 19, 12⟩
def CP_HANDOVER_NEW_PART : Fld := ⟨.CP_HANDOVER, 31, 4⟩
def CP_HANDOVER_NEW_EP : Fld := ⟨.CP_HANDOVER, 35, 9⟩
def CP_HANDOVER_PENDING : Fld := ⟨.CP_HANDOVER, 48, 1⟩
def CP_HANDOVER_ANSWERED : Fld := ⟨.CP_HANDOVER, 49, 1⟩
def CP_HANDOVER_RESULT : Fld := ⟨.CP_HANDOVER, 56, 8⟩
/-! CP_BANKERR -/
def CP_BANKERR_CORRECTED : Fld := ⟨.CP_BANKERR, 0, 32⟩
def CP_BANKERR_UNCORR : Fld := ⟨.CP_BANKERR, 32, 16⟩
def CP_BANKERR_NOOWNER : Fld := ⟨.CP_BANKERR, 48, 16⟩
/-! SP_ERRCNT -/
def SP_ERRCNT_CORRECTED : Fld := ⟨.SP_ERRCNT, 0, 32⟩
def SP_ERRCNT_UNCORR : Fld := ⟨.SP_ERRCNT, 32, 16⟩
def SP_ERRCNT_NOOWNER : Fld := ⟨.SP_ERRCNT, 48, 16⟩
/-! RK_HANDOVER -/
def RK_HANDOVER_VALID : Fld := ⟨.RK_HANDOVER, 0, 1⟩
def RK_HANDOVER_BANK_EP : Fld := ⟨.RK_HANDOVER, 1, 9⟩
def RK_HANDOVER_BANK : Fld := ⟨.RK_HANDOVER, 10, 8⟩
def RK_HANDOVER_HOLDER_EP : Fld := ⟨.RK_HANDOVER, 18, 9⟩
def RK_HANDOVER_JOB : Fld := ⟨.RK_HANDOVER, 27, 16⟩
def RK_HANDOVER_AGE_US : Fld := ⟨.RK_HANDOVER, 44, 20⟩
/-! SP_PKTERR -/
def SP_PKTERR_HEADER : Fld := ⟨.SP_PKTERR, 0, 16⟩
def SP_PKTERR_PARITY : Fld := ⟨.SP_PKTERR, 16, 16⟩
def SP_PKTERR_VIOLATIONS : Fld := ⟨.SP_PKTERR, 32, 16⟩
def SP_PKTERR_ROUTE : Fld := ⟨.SP_PKTERR, 48, 16⟩
/-! SC_TREE -/
def SC_TREE_VALID : Fld := ⟨.SC_TREE, 0, 1⟩
def SC_TREE_GROUP : Fld := ⟨.SC_TREE, 1, 12⟩
def SC_TREE_PARENT : Fld := ⟨.SC_TREE, 13, 3⟩
def SC_TREE_CHILDREN : Fld := ⟨.SC_TREE, 16, 7⟩
def SC_TREE_INPUTS : Fld := ⟨.SC_TREE, 23, 3⟩
def SC_TREE_ORDER : Fld := ⟨.SC_TREE, 26, 21⟩
/-! SC_TREERES -/
def SC_TREERES_SLOTS : Fld := ⟨.SC_TREERES, 0, 4⟩
def SC_TREERES_MC_BASE : Fld := ⟨.SC_TREERES, 8, 4⟩
def SC_TREERES_MC_COUNT : Fld := ⟨.SC_TREERES, 12, 5⟩
def SC_TREERES_MERGE_BASE : Fld := ⟨.SC_TREERES, 20, 4⟩
def SC_TREERES_MERGE_COUNT : Fld := ⟨.SC_TREERES, 24, 5⟩
/-! SC_PORTTREE -/
def SC_PORTTREE_VALID : Fld := ⟨.SC_PORTTREE, 0, 1⟩
def SC_PORTTREE_GROUP : Fld := ⟨.SC_PORTTREE, 1, 12⟩
def SC_PORTTREE_PARENT_SIDE : Fld := ⟨.SC_PORTTREE, 13, 1⟩
def SC_PORTTREE_SLOT_BASE : Fld := ⟨.SC_PORTTREE, 16, 6⟩
def SC_PORTTREE_SLOT_COUNT : Fld := ⟨.SC_PORTTREE, 22, 7⟩
def SC_PORTTREE_MC_BASE : Fld := ⟨.SC_PORTTREE, 30, 6⟩
def SC_PORTTREE_MC_COUNT : Fld := ⟨.SC_PORTTREE, 36, 7⟩
def SC_PORTTREE_MERGE_BASE : Fld := ⟨.SC_PORTTREE, 44, 6⟩
def SC_PORTTREE_MERGE_COUNT : Fld := ⟨.SC_PORTTREE, 50, 7⟩
/-! SC_PORTBEYOND -/
def SC_PORTBEYOND_COUNT : Fld := ⟨.SC_PORTBEYOND, 0, 20⟩
def SC_PORTBEYOND_FIRST_RANK : Fld := ⟨.SC_PORTBEYOND, 20, 12⟩
def SC_PORTBEYOND_FIRST_EP : Fld := ⟨.SC_PORTBEYOND, 32, 9⟩
/-! SC_SLOTSTAT -/
def SC_SLOTSTAT_STATE : Fld := ⟨.SC_SLOTSTAT, 0, 2⟩
def SC_SLOTSTAT_INPUT : Fld := ⟨.SC_SLOTSTAT, 2, 3⟩
def SC_SLOTSTAT_GROUP : Fld := ⟨.SC_SLOTSTAT, 5, 12⟩
def SC_SLOTSTAT_SEQ : Fld := ⟨.SC_SLOTSTAT, 17, 16⟩
def SC_SLOTSTAT_CHUNK : Fld := ⟨.SC_SLOTSTAT, 33, 16⟩
def SC_SLOTSTAT_POISON : Fld := ⟨.SC_SLOTSTAT, 49, 1⟩
def SC_SLOTSTAT_EPOCH : Fld := ⟨.SC_SLOTSTAT, 50, 1⟩
/-! SC_ERRCNT -/
def SC_ERRCNT_RESIDUE : Fld := ⟨.SC_ERRCNT, 0, 16⟩
def SC_ERRCNT_POISONED : Fld := ⟨.SC_ERRCNT, 16, 12⟩
def SC_ERRCNT_ORDER : Fld := ⟨.SC_ERRCNT, 28, 8⟩
def SC_ERRCNT_FLUSHED : Fld := ⟨.SC_ERRCNT, 36, 12⟩
def SC_ERRCNT_MERGE_EXPIRED : Fld := ⟨.SC_ERRCNT, 48, 8⟩
def SC_ERRCNT_NOENTRY : Fld := ⟨.SC_ERRCNT, 56, 4⟩
def SC_ERRCNT_HEADER : Fld := ⟨.SC_ERRCNT, 60, 4⟩
/-! RK_GROUP -/
def RK_GROUP_VALID : Fld := ⟨.RK_GROUP, 0, 1⟩
def RK_GROUP_PARTITION : Fld := ⟨.RK_GROUP, 1, 4⟩
def RK_GROUP_MEMBERS : Fld := ⟨.RK_GROUP, 5, 21⟩
def RK_GROUP_ROOT_MEMBER : Fld := ⟨.RK_GROUP, 26, 1⟩
def RK_GROUP_FMT_MEMBER : Fld := ⟨.RK_GROUP, 32, 4⟩
def RK_GROUP_FMT_DIE : Fld := ⟨.RK_GROUP, 36, 4⟩
def RK_GROUP_FMT_CHIP : Fld := ⟨.RK_GROUP, 40, 4⟩
def RK_GROUP_FMT_RACK : Fld := ⟨.RK_GROUP, 44, 4⟩
def RK_GROUP_OP : Fld := ⟨.RK_GROUP, 48, 4⟩
def RK_GROUP_ROOT_RANK : Fld := ⟨.RK_GROUP, 52, 12⟩
/-! RK_GROUPAUX -/
def RK_GROUPAUX_DIGEST : Fld := ⟨.RK_GROUPAUX, 0, 32⟩
def RK_GROUPAUX_SINK_VALID : Fld := ⟨.RK_GROUPAUX, 32, 1⟩
def RK_GROUPAUX_SINK_STACK : Fld := ⟨.RK_GROUPAUX, 33, 5⟩
def RK_GROUPAUX_SINK_BASE : Fld := ⟨.RK_GROUPAUX, 38, 26⟩
/-! PL_GROUP -/
def PL_GROUP_VALID : Fld := ⟨.PL_GROUP, 0, 1⟩
def PL_GROUP_PRI_PARENT : Fld := ⟨.PL_GROUP, 1, 3⟩
def PL_GROUP_PRI_CHILDREN : Fld := ⟨.PL_GROUP, 4, 6⟩
def PL_GROUP_SBY_PARENT : Fld := ⟨.PL_GROUP, 10, 3⟩
def PL_GROUP_SBY_CHILDREN : Fld := ⟨.PL_GROUP, 13, 6⟩
/-! PL_MEMBERS -/
def PL_MEMBERS_MASK : Fld := ⟨.PL_MEMBERS, 0, 64⟩
/-! PL_GROUPSTATE -/
def PL_GROUPSTATE_SEQ : Fld := ⟨.PL_GROUPSTATE, 0, 16⟩
def PL_GROUPSTATE_ABORT_SEQ0 : Fld := ⟨.PL_GROUPSTATE, 16, 16⟩
def PL_GROUPSTATE_ABORT_SEQ1 : Fld := ⟨.PL_GROUPSTATE, 32, 16⟩
def PL_GROUPSTATE_BUSY : Fld := ⟨.PL_GROUPSTATE, 48, 1⟩
def PL_GROUPSTATE_STANDBY : Fld := ⟨.PL_GROUPSTATE, 49, 1⟩
def PL_GROUPSTATE_ABORT_VALID0 : Fld := ⟨.PL_GROUPSTATE, 50, 1⟩
def PL_GROUPSTATE_ABORT_VALID1 : Fld := ⟨.PL_GROUPSTATE, 51, 1⟩
def PL_GROUPSTATE_ARRIVED : Fld := ⟨.PL_GROUPSTATE, 52, 5⟩
/-! TM_SLOWEST -/
def TM_SLOWEST_SEQ : Fld := ⟨.TM_SLOWEST, 0, 16⟩
def TM_SLOWEST_EDGE : Fld := ⟨.TM_SLOWEST, 16, 4⟩
def TM_SLOWEST_EP : Fld := ⟨.TM_SLOWEST, 20, 9⟩
def TM_SLOWEST_LAG : Fld := ⟨.TM_SLOWEST, 32, 20⟩
def TM_SLOWEST_VALID : Fld := ⟨.TM_SLOWEST, 63, 1⟩
/-! TM_SLOWHIST -/
def TM_SLOWHIST_BIN0 : Fld := ⟨.TM_SLOWHIST, 0, 16⟩
def TM_SLOWHIST_BIN1 : Fld := ⟨.TM_SLOWHIST, 16, 16⟩
def TM_SLOWHIST_BIN2 : Fld := ⟨.TM_SLOWHIST, 32, 16⟩
def TM_SLOWHIST_BIN3 : Fld := ⟨.TM_SLOWHIST, 48, 16⟩
/-! PL_ERRCNT -/
def PL_ERRCNT_ORDER : Fld := ⟨.PL_ERRCNT, 0, 16⟩
def PL_ERRCNT_MISMATCH : Fld := ⟨.PL_ERRCNT, 16, 16⟩
def PL_ERRCNT_PAIR_TIMEOUT : Fld := ⟨.PL_ERRCNT, 32, 16⟩
def PL_ERRCNT_ABORTS : Fld := ⟨.PL_ERRCNT, 48, 16⟩
/-! OP_PORTSTATE -/
def OP_PORTSTATE_STATE : Fld := ⟨.OP_PORTSTATE, 0, 3⟩
def OP_PORTSTATE_VERDICT : Fld := ⟨.OP_PORTSTATE, 8, 3⟩
def OP_PORTSTATE_PEER_VERDICT : Fld := ⟨.OP_PORTSTATE, 12, 3⟩
def OP_PORTSTATE_LEVEL : Fld := ⟨.OP_PORTSTATE, 16, 2⟩
def OP_PORTSTATE_CRYPT : Fld := ⟨.OP_PORTSTATE, 24, 6⟩
def OP_PORTSTATE_ADMIT_LOCAL : Fld := ⟨.OP_PORTSTATE, 30, 1⟩
def OP_PORTSTATE_ADMIT_PEER : Fld := ⟨.OP_PORTSTATE, 31, 1⟩
def OP_PORTSTATE_PEER_CHIP : Fld := ⟨.OP_PORTSTATE, 32, 12⟩
def OP_PORTSTATE_PEER_SET : Fld := ⟨.OP_PORTSTATE, 44, 1⟩
def OP_PORTSTATE_PEER_PORT : Fld := ⟨.OP_PORTSTATE, 45, 3⟩
def OP_PORTSTATE_SPARES : Fld := ⟨.OP_PORTSTATE, 48, 2⟩
def OP_PORTSTATE_FEED_A : Fld := ⟨.OP_PORTSTATE, 50, 1⟩
def OP_PORTSTATE_FEED_B : Fld := ⟨.OP_PORTSTATE, 51, 1⟩
def OP_PORTSTATE_TRAIN_FAILS : Fld := ⟨.OP_PORTSTATE, 52, 4⟩
/-! OP_PORTCTL -/
def OP_PORTCTL_LOGICAL : Fld := ⟨.OP_PORTCTL, 0, 3⟩
def OP_PORTCTL_HOLD_DOWN : Fld := ⟨.OP_PORTCTL, 3, 1⟩
def OP_PORTCTL_ADMIT : Fld := ⟨.OP_PORTCTL, 4, 1⟩
/-! OP_PLAN -/
def OP_PLAN_VALID : Fld := ⟨.OP_PLAN, 0, 1⟩
def OP_PLAN_NBR_CHIP : Fld := ⟨.OP_PLAN, 1, 12⟩
def OP_PLAN_NBR_PORT : Fld := ⟨.OP_PLAN, 13, 3⟩
def OP_PLAN_AUTO_ADMIT : Fld := ⟨.OP_PLAN, 16, 1⟩
def OP_PLAN_REMAP_OK : Fld := ⟨.OP_PLAN, 17, 1⟩
def OP_PLAN_KEY_CHECK : Fld := ⟨.OP_PLAN, 18, 1⟩
def OP_PLAN_CRYPT : Fld := ⟨.OP_PLAN, 24, 6⟩
/-! OP_PEERID -/
def OP_PEERID_CHIP_ID : Fld := ⟨.OP_PEERID, 0, 64⟩
/-! OP_LINKDELAY -/
def OP_LINKDELAY_DELAY : Fld := ⟨.OP_LINKDELAY, 0, 24⟩
def OP_LINKDELAY_OFFSET : Fld := ⟨.OP_LINKDELAY, 24, 32⟩
def OP_LINKDELAY_VALID : Fld := ⟨.OP_LINKDELAY, 63, 1⟩
/-! OP_LINKERR -/
def OP_LINKERR_CORRECTED : Fld := ⟨.OP_LINKERR, 0, 32⟩
def OP_LINKERR_UNCORR : Fld := ⟨.OP_LINKERR, 32, 16⟩
def OP_LINKERR_REPLAYS : Fld := ⟨.OP_LINKERR, 48, 16⟩
/-! OP_ERRCNT -/
def OP_ERRCNT_HEADER : Fld := ⟨.OP_ERRCNT, 0, 16⟩
def OP_ERRCNT_ROUTE : Fld := ⟨.OP_ERRCNT, 16, 16⟩
def OP_ERRCNT_AUTH : Fld := ⟨.OP_ERRCNT, 32, 8⟩
def OP_ERRCNT_PATCHES : Fld := ⟨.OP_ERRCNT, 40, 8⟩
def OP_ERRCNT_RETRAINS : Fld := ⟨.OP_ERRCNT, 48, 8⟩
def OP_ERRCNT_QDISCARD : Fld := ⟨.OP_ERRCNT, 56, 8⟩
/-! OP_CREDIT -/
def OP_CREDIT_LIMIT : Fld := ⟨.OP_CREDIT, 0, 12⟩
def OP_CREDIT_OUTSTANDING : Fld := ⟨.OP_CREDIT, 16, 12⟩
def OP_CREDIT_STALLS : Fld := ⟨.OP_CREDIT, 32, 32⟩
/-! OP_LANEMAP -/
def OP_LANEMAP_LOGICAL : Fld := ⟨.OP_LANEMAP, 0, 5⟩
def OP_LANEMAP_LOCKED : Fld := ⟨.OP_LANEMAP, 5, 1⟩
def OP_LANEMAP_LOS : Fld := ⟨.OP_LANEMAP, 6, 1⟩
def OP_LANEMAP_POWER : Fld := ⟨.OP_LANEMAP, 8, 11⟩
def OP_LANEMAP_SER : Fld := ⟨.OP_LANEMAP, 20, 20⟩
/-! OP_LASER -/
def OP_LASER_STATE : Fld := ⟨.OP_LASER, 0, 3⟩
def OP_LASER_LEVEL : Fld := ⟨.OP_LASER, 8, 7⟩
def OP_LASER_OUTPUT : Fld := ⟨.OP_LASER, 16, 12⟩
def OP_LASER_FAULTS : Fld := ⟨.OP_LASER, 32, 16⟩
/-! RK_EPOCH -/
def RK_EPOCH_NUMBER : Fld := ⟨.RK_EPOCH, 0, 16⟩
def RK_EPOCH_PARITY : Fld := ⟨.RK_EPOCH, 16, 1⟩
def RK_EPOCH_ARMED : Fld := ⟨.RK_EPOCH, 17, 1⟩
def RK_EPOCH_SHADOW : Fld := ⟨.RK_EPOCH, 18, 2⟩
def RK_EPOCH_OLD_SEEN : Fld := ⟨.RK_EPOCH, 20, 1⟩
def RK_EPOCH_ROUNDS : Fld := ⟨.RK_EPOCH, 21, 11⟩
def RK_EPOCH_OLD_COUNT : Fld := ⟨.RK_EPOCH, 32, 16⟩
def RK_EPOCH_EPOCH_GROUP : Fld := ⟨.RK_EPOCH, 48, 16⟩
/-! RK_STENCIL -/
def RK_STENCIL_CODE : Fld := ⟨.RK_STENCIL, 0, 8⟩
def RK_STENCIL_S_REFUSED : Fld := ⟨.RK_STENCIL, 8, 1⟩
def RK_STENCIL_LOADING : Fld := ⟨.RK_STENCIL, 9, 1⟩
def RK_STENCIL_SIGNED : Fld := ⟨.RK_STENCIL, 10, 1⟩
def RK_STENCIL_FRAME : Fld := ⟨.RK_STENCIL, 16, 12⟩
def RK_STENCIL_NEW_PARTS : Fld := ⟨.RK_STENCIL, 32, 16⟩
def RK_STENCIL_BUILD : Fld := ⟨.RK_STENCIL, 48, 16⟩
/-! AL_STATUS -/
def AL_STATUS_STATE : Fld := ⟨.AL_STATUS, 0, 2⟩
def AL_STATUS_LIFECYCLE : Fld := ⟨.AL_STATUS, 2, 2⟩
def AL_STATUS_WIPED : Fld := ⟨.AL_STATUS, 4, 1⟩
def AL_STATUS_LEVEL : Fld := ⟨.AL_STATUS, 8, 8⟩
def AL_STATUS_RESTARTS : Fld := ⟨.AL_STATUS, 16, 16⟩
def AL_STATUS_NONCE : Fld := ⟨.AL_STATUS, 32, 32⟩
/-! AL_LOCK -/
def AL_LOCK_HELD : Fld := ⟨.AL_LOCK, 0, 1⟩
def AL_LOCK_BROKEN : Fld := ⟨.AL_LOCK, 1, 1⟩
def AL_LOCK_SRC : Fld := ⟨.AL_LOCK, 2, 2⟩
def AL_LOCK_ID : Fld := ⟨.AL_LOCK, 8, 8⟩
def AL_LOCK_EXTRA : Fld := ⟨.AL_LOCK, 16, 8⟩
def AL_LOCK_JOB : Fld := ⟨.AL_LOCK, 24, 16⟩
def AL_LOCK_AGE_US : Fld := ⟨.AL_LOCK, 40, 20⟩
/-! AL_ERRCNT -/
def AL_ERRCNT_ROM_CORR : Fld := ⟨.AL_ERRCNT, 0, 16⟩
def AL_ERRCNT_RAM_CORR : Fld := ⟨.AL_ERRCNT, 16, 16⟩
def AL_ERRCNT_INTAKE_DROP : Fld := ⟨.AL_ERRCNT, 32, 16⟩
def AL_ERRCNT_GUARD : Fld := ⟨.AL_ERRCNT, 48, 16⟩
/-! AL_GUARD -/
def AL_GUARD_REG : Fld := ⟨.AL_GUARD, 0, 16⟩
def AL_GUARD_INSTANCE : Fld := ⟨.AL_GUARD, 16, 32⟩
def AL_GUARD_CMD : Fld := ⟨.AL_GUARD, 48, 8⟩
def AL_GUARD_VALID : Fld := ⟨.AL_GUARD, 63, 1⟩
/-! AL_MBCTL -/
def AL_MBCTL_DOORBELL : Fld := ⟨.AL_MBCTL, 0, 1⟩
def AL_MBCTL_RSP_TAKEN : Fld := ⟨.AL_MBCTL, 1, 1⟩
def AL_MBCTL_REQ_BUSY : Fld := ⟨.AL_MBCTL, 8, 1⟩
def AL_MBCTL_RSP_VALID : Fld := ⟨.AL_MBCTL, 9, 1⟩
def AL_MBCTL_EVENTS : Fld := ⟨.AL_MBCTL, 10, 1⟩
def AL_MBCTL_DB_IGNORED : Fld := ⟨.AL_MBCTL, 11, 1⟩
/-! AL_MBREQ -/
def AL_MBREQ_WORD : Fld := ⟨.AL_MBREQ, 0, 64⟩
/-! AL_MBRSP -/
def AL_MBRSP_WORD : Fld := ⟨.AL_MBRSP, 0, 64⟩
/-! RK_COORDS -/
def RK_COORDS_ADDR : Fld := ⟨.RK_COORDS, 0, 12⟩
def RK_COORDS_SET : Fld := ⟨.RK_COORDS, 63, 1⟩
/-! AL_EPERR -/
def AL_EPERR_STRAY : Fld := ⟨.AL_EPERR, 0, 16⟩
def AL_EPERR_HEADER : Fld := ⟨.AL_EPERR, 16, 16⟩
def AL_EPERR_ROUTE : Fld := ⟨.AL_EPERR, 32, 16⟩
def AL_EPERR_HOST_DRAIN : Fld := ⟨.AL_EPERR, 48, 16⟩
/-! TM_VLCOUNT -/
def TM_VLCOUNT_PARCELS : Fld := ⟨.TM_VLCOUNT, 0, 48⟩
/-! TM_CPFLITS -/
def TM_CPFLITS_OUT : Fld := ⟨.TM_CPFLITS, 0, 32⟩
def TM_CPFLITS_IN : Fld := ⟨.TM_CPFLITS, 32, 32⟩
/-! TM_LOGSTAT -/
def TM_LOGSTAT_NEXT_SEQ : Fld := ⟨.TM_LOGSTAT, 0, 32⟩
def TM_LOGSTAT_HELD : Fld := ⟨.TM_LOGSTAT, 32, 13⟩
def TM_LOGSTAT_UNREAD : Fld := ⟨.TM_LOGSTAT, 45, 1⟩
def TM_LOGSTAT_DROPPED : Fld := ⟨.TM_LOGSTAT, 48, 16⟩
/-! TM_TIMESTAMP -/
def TM_TIMESTAMP_VALUE : Fld := ⟨.TM_TIMESTAMP, 0, 64⟩

end F

end Sys2Proof.Machine
end

