-- ==== Sys2Proof/Machine/State.lean ====
section
/-! DEFINITION. The state of the block: all that the spec gives the chip's Opnor, as plain data, with the queue of
waiting commands. Registers stand in one sparse register file; what the manual describes without a register has a
field of its own. -/

namespace Sys2Proof.Machine

/-- What the chip's fuses hold (R28, R29, R355, Table 12-1): read at chip reset, changed only by LIFECYCLE. -/
structure Fuse where
  chipId : BitVec 64
  /-- bit i: core port i is present; every other endpoint below 288 is (R29) -/
  cores : BitVec 256
  /-- 0 BLANK, 1 PROVISIONED, 2 DEPLOYED, 3 DECOMMISSIONED (Table 13-8) -/
  lifecycle : Nat
  transitions : Nat
deriving DecidableEq, Repr

/-- One slot of the sealed store that holds a key (R354). -/
structure SealSlot where
  /-- the compressed public key of a Stencil-key slot, or of the identity key -/
  key : BitVec 392
  /-- the private key of slot 8; zero elsewhere -/
  secret : BitVec 384
deriving DecidableEq, Repr

/-- A crossing FIFO (R61 to R71). -/
structure Fifo where
  /-- stages held, oldest first -/
  stages : List Stage
  /-- the packet being written has lost a flit (R69) -/
  lost : Bool
  /-- the word the clocked side read last -/
  last : Stage
deriving DecidableEq, Repr

/-- The receiving end of a handshake channel (R35). -/
structure Link where
  /-- levels of the data wires as last taken -/
  levels : BitVec 4180
  ack : Bool
  /-- flits taken of a packet whose tail has not come yet, oldest first -/
  flits : List Flit
  /-- packets taken whole that have not gone on yet, oldest first: at most one but at a neighbour channel -/
  ready : List Packet
  /-- handshakes made of the packet that the sender is sending (R43) -/
  shakes : Nat
  /-- at the request sub-channel of a neighbour channel: the sender's last handshake was the reply sub-channel's (R43) -/
  lastReply : Bool
deriving DecidableEq, Repr

/-- An output of a router that is held, or whose grant is parked (R45 to R47). -/
structure Grant where
  inp : Nat
  since : Nat
  parked : Bool
  /-- the packet's tail has passed: the next ARBITER_GRANT frees the output -/
  passed : Bool
  pkt : Packet
deriving DecidableEq, Repr

/-- A header that waits for an output (R45, R52). -/
structure Waiting where
  mesh : Mesh
  router : Nat
  inp : Nat
  out : Nat
  since : Nat
  pkt : Packet
deriving DecidableEq, Repr

/-- One packet of a command's issue. -/
structure PktRec where
  pkt : Packet
  /-- byte offset r × ROW_BYTES + column (Table 6-6) -/
  offset : Nat
  /-- it was cut and sent; clear where R158 stopped the issue before it -/
  sent : Bool
  /-- STATUS of its answer, once answered -/
  answer : Option Nat
deriving DecidableEq, Repr

/-- The progress of a collective at its member (R243, R249). -/
structure CollRun where
  group : Nat
  seq : Nat
  parity : Nat
  /-- chunks of the collective -/
  chunks : Nat
  /-- next chunk to contribute (or, for the root of a BROADCAST, to send) -/
  up : Nat
  /-- next chunk to take -/
  down : Nat
  /-- chunks this member was to write and did not write intact, and the offset of the first of them -/
  failed : Nat
  first : Nat
  /-- statuses of refused or poisoned chunks -/
  stats : List Nat
  /-- the member's arrival is on Plumb (barrier, scalar reduction) -/
  arrived : Bool
  /-- next chunk that the member's router may copy to it: the core port invites chunks one at a time (R245) -/
  invited : Nat
  /-- destination banks that were held by the network when it started (R207) -/
  netHeld : List Nat
deriving DecidableEq, Repr

/-- A command that has started and is not retired (R141, R147, R157, R158). -/
structure Cmd where
  core : Nat
  queue : Nat
  pos : Nat
  /-- the eight descriptor words -/
  words : List Word
  serial : Nat
  tries : Nat
  pkts : List PktRec
  /-- the first status other than OK, or 0 -/
  status : Nat
  result : Word
  origRefused : Bool
  /-- member deliveries counted in FAILED (PUT_MC) -/
  mcFailed : Nat
  /-- member deliveries that one of its packets stands for: 1, or for a PUT_MC the members of its group (R158) -/
  fanout : Nat
  /-- banks of its GET or STORE target whose lock broke while it was outstanding (R205) -/
  lostBanks : List Nat
  /-- flits of the AM counted in OUT, not yet released (R180) -/
  outFlits : Nat
  /-- units of the reply reservation counted in RUSED (R184) -/
  rused : Nat
  /-- the send flow context whose BUSY it holds (R159) -/
  flow : Option Nat
  coll : Option CollRun
  done : Bool
deriving DecidableEq, Repr

/-- The core port's own copy of an enabled ring (R168). -/
structure Ring where
  base : Nat
  size : Nat
  sigEn : Bool
  sigCtr : Nat
  writePos : Nat
  readPos : Nat
  messages : Nat
deriving DecidableEq, Repr

/-- A message in a channel hold, or an AM_REPLY in a send entry's reservation (R174, R181, R188). -/
structure Held where
  core : Nat
  chan : Nat
  ring : Nat
  reply : Bool
  pkt : Packet
deriving DecidableEq, Repr

/-- What a packet at its source waits for besides room in its out FIFO. -/
inductive Gate where
  | free
  /-- the window of a copy of OP_EGWIN (R124) -/
  | window (w : Nat)
  /-- an invitation on a tree edge, by the key of its room count (R213, R214) -/
  | room (k : Nat)
deriving DecidableEq, Repr

/-- How a packet of a command is built at the moment it is written (R107, R326): its place in the command, its partition,
the rank to translate, and the bytes of the core's SRAM it carries. -/
structure Form where
  /-- byte offset r × ROW_BYTES + column, or the chunk, which names the packet within its command -/
  off : Nat
  /-- the command's position in its queue -/
  pos : Nat
  part : Nat
  /-- destination rank; none for a packet to a group or to the chip itself -/
  rank : Option Nat
  src : Nat
  len : Nat
  /-- the group of a collective's chunk, which keeps the parity of its start and is poisoned where its source is lost (R246) -/
  coll : Option Nat
deriving DecidableEq, Repr

/-- A packet that waits at its source for its gate or for room in an out FIFO (R124, R214). -/
structure OutWait where
  /-- copy of XB_FIFO, or 4608 + stack -/
  fifo : Nat
  /-- the command queue it comes from, or 16 -/
  queue : Nat
  gate : Gate
  /-- for a packet of a command: how to build it; `pkt` is then its header, with a payload of zeros -/
  form : Option Form
  /-- WAITS has counted it (Table 5-6) -/
  counted : Bool
  pkt : Packet
deriving DecidableEq, Repr

/-- A partition's run state (R316, R366, R376, R380). -/
structure Part where
  quiesced : Bool
  fenced : Bool
  /-- intake stopped by a QUIESCE that has not drained yet -/
  draining : Bool
  /-- a QUIESCE has reported DRAINED since the partition was last active, or the partition is newly valid -/
  reported : Bool
  /-- tick at which the QUIESCE in progress was taken -/
  since : Nat
deriving DecidableEq, Repr

/-- A Screed slot's contents (R219, R220); its STATE, GROUP, SEQ, CHUNK, INPUT and EPOCH stand in SC_SLOTSTAT. -/
structure Slot where
  /-- header of input 0 of the chunk, or of the result -/
  hdr : BitVec 512
  /-- encodings in the format `fmt`: one number per element, 33 per B8 block (scale and elements) -/
  elems : List Nat
  /-- whether each element is poisoned -/
  bad : List Bool
  fmt : Nat
  /-- elements of the chunk, once an input has told it -/
  count : Option Nat
  /-- an input with data has been taken -/
  filled : Bool
  /-- order in which the node's slots took up their chunks (R219) -/
  born : Nat
  /-- the chunk entered in RESULT: a BROADCAST (R245) -/
  bcast : Bool
  /-- the result's data goes to output C only (R244) -/
  coreOnly : Bool
  /-- outputs the result is still to be copied into, and outputs a copy is on its way out of -/
  outs : Nat
  going : Nat
deriving DecidableEq, Repr

/-- A Screed node's progress in a group (R219, R222). -/
structure NodeRun where
  /-- next chunk to start -/
  next : Nat
  /-- SEQ and OP of input 0 of chunk 0 of the collective in progress -/
  ref : Option (Nat × Nat)
  /-- no further input is taken after ORDER -/
  halted : Bool
  /-- next chunk of a BROADCAST to enter (R245) -/
  down : Nat
deriving DecidableEq, Repr

/-- A multicast buffer in use (R215): an intake buffer with the outputs still to be served, or a branch buffer. -/
structure McBuf where
  group : Nat
  epoch : Nat
  branch : Option Nat
  /-- the copy of a branch buffer is on its way out -/
  going : Bool
  outs : Nat
  /-- order of arrival -/
  order : Nat
  pkt : Packet
deriving DecidableEq, Repr

/-- A merge entry in use (R216). -/
structure Merge where
  group : Nat
  epoch : Nat
  /-- the PUT_MC it answers -/
  pkt : Packet
  /-- outputs whose answer is awaited -/
  pending : Nat
  failed : Nat
  rank : Nat
  ep : Nat
  status : Nat
deriving DecidableEq, Repr

/-- Room counts of one edge of a group at a Screed unit or core port (R213): moves received on the edge, the peer's
count as last seen, and moves started towards it, each modulo 16. -/
structure Room where
  taken : Nat
  seen : Nat
  started : Nat
deriving DecidableEq, Repr

/-- A barrier or scalar reduction in progress at a Plumb node (R251, R252). -/
structure PlumbRun where
  seq : Nat
  parity : Nat
  scalar : Bool
  fmt : Nat
  op : Nat
  part : Nat
  /-- inputs taken, with their values; keys: members or clusters by index, ports from 16, Alorn 22 -/
  vals : Tbl Word
  poison : Bool
  /-- the combined arrival has been sent up, or the release formed -/
  sent : Bool
deriving DecidableEq, Repr

/-- A Plumb message sent on the die or towards the fibre. -/
structure PlumbSent where
  /-- 0 hub A, 1 hub B, 2 + c cluster node c, 18 + p port p, 24 Alorn, 32 + i core port i -/
  src : Nat
  dst : Nat
  msg : PlumbMsg
deriving DecidableEq, Repr

/-- Arrival times of the inputs of a collective (R271). -/
structure Arrivals where
  seq : Nat
  first : Nat
  /-- inputs seen: ports by index, members from 16 -/
  seen : List Nat
deriving DecidableEq, Repr

/-- A packet in an egress staging buffer (R123). -/
structure Staged where
  src : Nat
  vl : Nat
  /-- it has waited for credit, and STALLS has counted it -/
  stalled : Bool
  pkt : Packet
deriving DecidableEq, Repr

/-- The next resource of a packet in the receive pool (R128). -/
inductive Next where
  /-- not yet routed: PORT_INGRESS has not taken it -/
  | arrived
  /-- the die, for packets addressed to this chip -/
  | die
  /-- the window of an egress port -/
  | egress (p : Nat)
  /-- the group's Screed slot at this port -/
  | screed
  /-- Alorn -/
  | alorn
deriving DecidableEq, Repr

/-- A complete packet in the receive pool with the parcels it holds (R127). -/
structure Pooled where
  vl : Nat
  next : Next
  pkt : Packet
  res : Nat
  shared : Nat
  /-- the account its transit parcels carry -/
  account : Option Nat
  /-- the RK_TRANSIT entry that grants it -/
  grant : Option Nat
deriving DecidableEq, Repr

/-- A packet whose parcels are still arriving on a VL (R278, R290). -/
structure OpenRx where
  vl : Nat
  flits : List Flit
  res : Nat
  shared : Nat
  account : Option Nat
  /-- two octets per parcel: trailer bits 16:2 (R289) -/
  aad : List Byte
  /-- END has been accepted and the TAG parcel is awaited -/
  ended : Bool
deriving DecidableEq, Repr

/-- A parcel ready to be sent, before SEQ, ACK and credit report are set. -/
structure TxParcel where
  vl : Nat
  /-- EPOCH of the packet it belongs to (R328) -/
  epoch : Nat
  bits : Parcel
deriving DecidableEq, Repr

/-- Patch in progress at the receiver, or a request taken by the transmitter (R301, R302). -/
structure Patch where
  logical : Nat
  src : Nat
  dst : Nat
  id : Nat
deriving DecidableEq, Repr

/-- Who awaits an answer of Alorn: the source and TAG, for MCTP the message tag and integrity-check bit, and for a
relayed request TAG of its packet's header. -/
structure Asker where
  src : Source
  tag : BitVec 32
  msgTag : BitVec 3
  ic : Bool
  hdr : BitVec 16
deriving DecidableEq, Repr

/-- The Keying state of a port (R289 to R294). -/
structure Keying where
  /-- own NONCE, ephemeral secret -/
  nonce : BitVec 128
  secret : BitVec 384
  /-- this end's KEY_OFFER of this Keying -/
  own : BitVec 2048
  /-- the peer's last KEY_OFFER -/
  offer : Option (BitVec 2048)
  /-- this end's and the peer's KEY_RESULT of this Keying -/
  ownDone : Bool
  peerDone : Bool
  /-- expected neighbour that the peer's KEY_RESULT names: chip, port -/
  peerExpects : BitVec 16
  /-- keys of this end's transmitter and receiver -/
  keys : Option (BitVec 256 × BitVec 256)
  /-- packets sent and received on each encrypted VL since Keying -/
  sent : Tbl Nat
  got : Tbl Nat
  /-- encrypted VLs agreed -/
  crypt : Nat
  /-- CRYPT of the plan as it stood at the move from TRAINING to KEYING (R325) -/
  planCrypt : Nat
  /-- Keying runs while the port keeps its state (PORT_ADMIT, epoch switch) -/
  rerun : Bool
deriving DecidableEq, Repr

/-- An optical port, beside its OP_ registers. -/
structure Port where
  staging : List Staged
  pool : List Pooled
  rx : List OpenRx
  tx : List TxParcel
  control : List (BitVec 2048)
  /-- parcels sent and not acknowledged, oldest first, with their SEQ -/
  retry : List (Nat × TxParcel)
  /-- parcels of the replay in progress still to be sent -/
  replay : List (Nat × TxParcel)
  /-- replay parcels sent since the last CONTROL parcel -/
  replayRun : Nat
  /-- the ACK the last replay was asked with, and the tick it began -/
  replayAck : Option (Nat × Nat)
  nextSeq : Nat
  expSeq : Nat
  lastAck : Nat
  /-- sequencing is active (R283) -/
  seqOn : Bool
  /-- REPLAY is set in parcels sent -/
  askReplay : Bool
  /-- SENT and the last CR_COUNT per pool (0–6, 16 + account) -/
  sent : Tbl Nat
  crCount : Tbl Nat
  /-- cumulative parcels freed per pool -/
  freed : Tbl Nat
  /-- next pool to report, as a position in the order of R288 -/
  crTurn : Nat
  /-- VL served last among VL2 to VL5 -/
  turn : Nat
  lastSent : Parcel
  key : Keying
  /-- exchanges of R295 so far: (round trip, offset) in 2⁻¹⁶ tick -/
  delays : List (Int × Int)
  /-- good alignment blocks in a row per receive lane, and bad ones -/
  good : Tbl Nat
  badBlk : Tbl Nat
  /-- MODE 0 blocks in a row per receive lane (R402) -/
  mode0 : Tbl Nat
  /-- FRAME of the last good alignment block -/
  rxFrame : Option Nat
  /-- frames in a row in which the peer's RXLOCK showed at least 16 lanes -/
  rxlockRun : Nat
  /-- clean frames in a row towards TRAIN_DONE -/
  cleanRun : Nat
  trainDone : Bool
  peerDone : Bool
  /-- MODE 1 seen, per logical lane -/
  mode1 : Nat
  /-- this end sends MODE 1 -/
  sendData : Bool
  /-- Patches in progress at the receiver -/
  patch : List Patch
  /-- the LANE_SPARE requests that wait for the switch, each with its lane -/
  spareWait : List (Nat × Asker)
  /-- requests that the transmitter has taken and not yet applied -/
  txPatch : List Patch
  patchId : Nat
  txPatchId : Nat
  closeSent : Bool
  closeGot : Bool
  openSent : Bool
  openGot : Bool
  /-- CABLE_SWAP has been logged with this physical port -/
  swap : Option Nat
  /-- DOWN_HOLD in seconds -/
  downHold : Nat
  /-- ticks of the tag failures of the last second -/
  authFails : List Nat
  /-- tick at which the last TRAINING began: FRAME counts from it (Table 11-8) -/
  trainStart : Nat
  /-- message bits that no codeword holds yet, in stream order, and how many they are (R275) -/
  txAcc : Nat
  txBits : Nat
  /-- parcels sent in the frame in progress -/
  txParcel : Nat
  /-- the alignment block of the frame in progress, by physical transmit lane (Table 11-2) -/
  blocks : Tbl (BitVec 340)
  /-- by physical transmit lane: the levels of the 34 symbols it sent in the last codeword time (R272) -/
  levels : Tbl (BitVec 340)
  /-- register of the transmitter's PRBS31 generator (R276) -/
  prbs : BitVec 31
  /-- PRBS31 errors counted per receive lane (R276) -/
  prbsErrs : Tbl Nat
  /-- neither a PRBS31 error nor skew above 100 ns on a logical lane in the training frame in progress (Table 11-8) -/
  frameClean : Bool
  /-- symbols corrected per receive lane in the 1 ms window in progress (R301) -/
  corrected : Tbl Nat
deriving DecidableEq, Repr

/-- A request in Alorn's intake (R339). -/
structure Req where
  src : Source
  /-- the request words as received, the last one zero-padded, and the bytes received -/
  words : List Word
  len : Nat
  /-- MCTP message tag and integrity-check bit -/
  msgTag : BitVec 3
  ic : Bool
  /-- TAG in the header of the MGMT packet that carried it -/
  hdr : BitVec 16
deriving DecidableEq, Repr

/-- An entry of the idempotence cache (R342). -/
structure CacheEnt where
  src : Source
  tag : BitVec 32
  crc : BitVec 32
  busy : Bool
  resp : List Word
deriving DecidableEq, Repr

/-- A background command (R341). -/
structure Background where
  src : Source
  tag : BitVec 32
  cmd : Nat
  /-- partition, slot, bank key, WAIT or epoch, by command -/
  arg : Nat
deriving DecidableEq, Repr

/-- A relay that awaits its answer (R336). -/
structure Relay where
  port : Nat
  /-- TAG of the MGMT packet that carries it: no other relay through the port has it -/
  hdr : BitVec 16
  asker : Asker
  cmd : Nat
  since : Nat
deriving DecidableEq, Repr

/-- A response as it leaves Alorn on MCTP (R334). -/
structure MctpOut where
  eid : BitVec 8
  msgTag : BitVec 3
  ic : Bool
  words : List Word
deriving DecidableEq, Repr

/-- A Stencil load between step 4 and step 7 of Table 12-9. -/
structure Load where
  first : Bool
  kind : Nat
  epoch : Nat
  group : Nat
  signed : Bool
  build : Word
  /-- the shadow bank's image of the E-class registers: key in the register file without the bank, value -/
  image : Tbl Word
  /-- the S-class registers as the load leaves them: key, value -/
  statics : Tbl Word
  tune : Tbl Nat
  planKeys : Tbl (BitVec 384)
  guard : Tbl Word
  /-- the BANKS record that names a bank last: key 256 × BANK_EP + bank, the record's word -/
  banks : Tbl Word
deriving DecidableEq, Repr

/-- Alorn beside its AL_ registers (R331 to R353). -/
structure Alorn where
  intake : List Req
  /-- requests that the mailbox and the I3C interface hold while the intake is full -/
  held : List Req
  /-- control commands that the I3C interface holds while Alorn restarts: kind (0 Set Endpoint ID,
  1 Get Endpoint ID, 2 versions, 3 message types, 4 vendor support), and endpoint ID (R352) -/
  i3cHeld : List (Nat × Byte)
  cache : List CacheEnt
  /-- staging: the source it is bound to, the size, the bytes written -/
  stageSrc : Option Source
  stageSize : Nat
  stage : Tbl Byte
  background : List Background
  relays : List Relay
  load : Option Load
  /-- BANKS records of the last load whose handover has not started: key 256 × BANK_EP + bank, the record's word -/
  banksToDo : Tbl Word
  eid : BitVec 8
  /-- responses sent on MCTP, latest last -/
  outbox : List MctpOut
  /-- replies of the I3C interface to control commands and GETSTATUS, latest last -/
  i3cOut : List (List Byte)
  /-- ticks of the last restarts -/
  restarts : List Nat
  /-- AL_LOCK image at the last break, and its cause: 1 holder reset, 2 lease expiry -/
  brokenLock : Word
  brokenCause : Nat
  /-- tick at which the lease of the management lock last restarted -/
  lockSince : Nat
deriving DecidableEq, Repr

/-- The epoch protocol beside RK_EPOCH (R322 to R329). -/
structure EpochCtl where
  /-- the arm barrier's arrival has been made for this epoch -/
  arrived : Option Nat
  /-- EPOCH_SETTLE runs after a cancel of this epoch -/
  settle : Option Nat
  /-- a retirement round is out -/
  round : Bool
  /-- the group of the header of the last load -/
  nextGroup : Nat
deriving DecidableEq, Repr

/-- One entry of the event-log intake: an event and its second part (R388, R390). -/
structure LogEntry where
  code : Nat
  window : Nat
  severity : Nat
  unit : Nat
  time : Word
  arg0 : Word
  arg1 : Word
  more : Option (Word × Word)
  /-- the first record has been written and the EXCERPT is next -/
  half : Bool
deriving DecidableEq, Repr

/-- A record of the event log: the four words of Table 15-3. -/
structure LogRec where
  w0 : Word
  w1 : Word
  w2 : Word
  w3 : Word
deriving DecidableEq, Repr

/-- No command faults: the spec gives the block no stop (it answers with statuses, events and counters), so the
type has no constructor that a meaning raises. `unreachable` is raised by none. -/
inductive Fault where
  /-- Raised by nobody; safe. -/
  | unreachable
deriving DecidableEq, Repr

/-- Why a command has no meaning. -/
inductive Refusal where
  /-- Raised by an arm of exec whose command has no meaning yet; safe: the machine stops where the hardware goes on. -/
  | notModelled (mnemonic : String)
deriving DecidableEq, Repr

/-- The state of the block. -/
structure State where
  /-- commands that wait, first in first out -/
  pending : List Instr
  /-- elapsed ticks of 6.4 ns (R57, R386) -/
  now : Nat
  /-- the model's own counter that free values are drawn at (log entry 2) -/
  freeCtr : Nat
  /-- CHIP_RESET is asserted -/
  chipReset : Bool
  fuse : Fuse
  /-- the register file: key 256 × copy + 2 × number + bank; what is not listed holds its reset value -/
  regs : Tbl Word
  /-- the bytes of every SRAM -/
  mem : List Host.Cell
  /-- 64-bit words that hold the poison pattern or an uncorrectable error (R97, R196), by rising number -/
  badWords : List Nat
  /-- 64-bit words with a single-bit error (R196), by rising number -/
  softWords : List Nat
  /-- tick at which the rack reference was lost (R382) -/
  refLostAt : Option Nat
  /-- CLK_MG is lost (R382) -/
  mgLost : Bool
  /-- CLK_LK is lost (R382) -/
  lkLost : Bool
  /-- stopped clock domains and the tick each stopped at (R78) -/
  clkStopped : Tbl Nat
  /-- tick at which a domain's clock last started, or returned; not listed: at chip reset (R59) -/
  clkSince : Tbl Nat
  /-- the timestamp a domain last accepted, kept while MULTI_OVR makes it stay in use (R75) -/
  sampled : Tbl Word
  /-- what SET_TIMEBASE loads (false) or adds (true) at the next tick, in order (Table 13-7) -/
  timeSets : List (Bool × Word)
  /-- cores whose CORE_RESET is asserted -/
  coreRst : List Nat
  /-- cores whose INTAKE_IDLE was at its level 1 when their clock stopped (R73, R77) -/
  idleHeld : List Nat
  /-- the output FAB_LOW (R381) -/
  fabLow : Bool
  tapState : Nat
  tapIr : Nat
  /-- by copy of XB_FIFO; from 4608 + 2 × stack + attachment, the replies a stack port offers -/
  fifos : Tbl Fifo
  /-- the attachment by which a stack port took the packet it answers (R194) -/
  stackVia : Tbl Nat
  /-- the header that the host bridge holds back for its window, by out FIFO (R124) -/
  hostWait : Tbl (BitVec 512)
  outWait : List OutWait
  /-- the command queue whose packet a core port took last (R141) -/
  turns : Tbl Nat
  links : Tbl Link
  grants : Tbl Grant
  waits : List Waiting
  cmds : List Cmd
  /-- SERIALs a queue skips, with the tick until which it does (R147): key 16 × core + queue -/
  stale : List (Nat × Nat × Nat)
  rings : Tbl Ring
  holds : List Held
  parts : Tbl Part
  /-- cores with a stopped clock whose commands a FENCE still has to complete (R380, R398) -/
  fenceDue : List Nat
  /-- table words corrected (R383) -/
  tableCorr : Nat
  /-- ticks of the pulses of each single signal of kind pulse that CLK_MG has not acknowledged (R74): 0 ALERT, 1 EPOCH_DONE -/
  pulses : Tbl Nat
  slots : Tbl Slot
  mcBufs : Tbl McBuf
  merges : Tbl Merge
  rooms : Tbl Room
  /-- flush generation of a group at a unit: listed when it is 1 (R233) -/
  flushGen : List Nat
  /-- progress of Screed nodes: key 8192 × unit + 4096 × parity + group -/
  nodes : Tbl NodeRun
  /-- logical port, group and SEQ that await the flush marker, markers that came first, and what waits for one (R233) -/
  awaitMarker : List (Nat × Nat × Nat)
  markers : List (Nat × Nat × Nat)
  fibreHold : List (Nat × Packet)
  plumb : Tbl PlumbRun
  /-- first copies that await the second (R254): node, hub, message -/
  copies : List (Nat × Hub × PlumbMsg)
  plumbOut : List PlumbSent
  /-- by copy of XB_FIFO: tick since which a node holds a Plumb message for that in FIFO (R374) -/
  plumbHeld : Tbl Nat
  /-- misses in a row per hub, and hubs out of service (R256) -/
  hubMiss : Tbl Nat
  hubDown : List Nat
  arrivals : Tbl Arrivals
  /-- the last data collective a core completed in a group: key 4096 × core + group (R267) -/
  lastColls : Tbl Cmd
  /-- the collective a stack sink takes the result of, and the end of what it has written: key 4096 × stack + group (R267) -/
  sinkRuns : Tbl (Nat × Nat)
  /-- ABORTs raised on this chip: agent, group and SEQ (R263) -/
  raised : List (Nat × Nat × Nat)
  ports : Tbl Port
  /-- ramp target of a laser slot, in eighths of its rating -/
  ramps : Tbl Nat
  /-- flits released and not yet seen by their source, by OP_EGWIN copy (R125) -/
  released : Tbl Nat
  /-- TUNE values: keys of Table 12-7; 256 + key in the shadow -/
  tune : Tbl Nat
  /-- PLAN_KEYS digests: port, 256 + port in the shadow -/
  planKeys : Tbl (BitVec 384)
  /-- GUARD masks: key of the register copy, bank 1 for the shadow -/
  guard : Tbl Word
  /-- transit is refused until the next epoch switch (R383) -/
  transitOff : Bool
  /-- handover requests by core ports that are accepted and not ended: core, memory endpoint, bank -/
  hoPending : List (Nat × Nat × Nat)
  /-- tick at which the lease of an RK_HANDOVER entry last started -/
  hoSince : Tbl Nat
  epochCtl : EpochCtl
  alorn : Alorn
  wiped : Bool
  sealStore : Tbl SealSlot
  logIntake : List LogEntry
  log : List LogRec
  /-- the highest NEXT a READ_EVENTS has returned (R392) -/
  readNext : Nat
  /-- packets the host bridge holds for the host side (R133) -/
  hostRx : List Packet
  /-- outstanding request tags of the host bridge -/
  hostTags : List Nat
deriving DecidableEq, Repr

/-- The fuses of the part: every core present, BLANK, no transition made (DESIGN CHOICE, log entry 3). -/
def Fuse.initial : Fuse := ⟨0, BitVec.allOnes 256, 0, 0⟩

/-- Keying before any offer. -/
def Keying.initial : Keying := ⟨0, 0, 0, none, false, false, 0, none, [], [], 0, 0, false⟩

/-- An optical port after its reset: DARK, nothing held (R297). -/
def Port.initial : Port :=
  { staging := [], pool := [], rx := [], tx := [], control := [], retry := [], replay := [], replayRun := 0
    replayAck := none, nextSeq := 0, expSeq := 0, lastAck := 0, seqOn := false, askReplay := false, sent := []
    crCount := [], freed := [], crTurn := 0, turn := 5, lastSent := 0, key := Keying.initial, delays := []
    good := [], badBlk := [], mode0 := [], rxFrame := none, rxlockRun := 0, cleanRun := 0, trainDone := false, peerDone := false
    mode1 := 0, sendData := false, patch := [], spareWait := [], txPatch := [], patchId := 0, txPatchId := 0
    closeSent := false, closeGot := false, openSent := false, openGot := false, swap := none, downHold := 1
    authFails := [], trainStart := 0, txAcc := 0, txBits := 0, txParcel := 0, blocks := [], levels := [], prbs := BitVec.allOnes 31
    prbsErrs := [], frameClean := true, corrected := [] }

/-- Alorn after chip reset. -/
def Alorn.initial : Alorn :=
  { intake := [], held := [], i3cHeld := [], cache := [], stageSrc := none, stageSize := 0, stage := [], background := [], relays := []
    load := none, banksToDo := [], eid := 0, outbox := [], i3cOut := [], restarts := [], brokenLock := 0, brokenCause := 0, lockSince := 0 }

/-- The epoch protocol after chip reset. -/
def EpochCtl.initial : EpochCtl := ⟨none, none, false, 0⟩

/-- The block right after a chip reset: every register at its Reset value (nothing listed), every store empty,
every port DARK, no Stencil, no coordinates (R364). -/
def State.reset : State :=
  { pending := [], now := 0, freeCtr := 0, chipReset := false, fuse := Fuse.initial, regs := [], mem := []
    badWords := [], softWords := [], refLostAt := none, mgLost := false, lkLost := false, clkStopped := [], clkSince := [], sampled := [], timeSets := [], coreRst := [], idleHeld := []
    fabLow := false, tapState := 0, tapIr := 0, fifos := [], stackVia := [], hostWait := [], outWait := [], turns := [], links := [], grants := [], waits := [], cmds := []
    stale := [], rings := [], holds := [], parts := [], fenceDue := [], tableCorr := 0, pulses := [], slots := [], mcBufs := [], merges := [], rooms := []
    flushGen := [], nodes := [], awaitMarker := [], markers := [], fibreHold := [], plumb := [], copies := [], plumbOut := [], plumbHeld := [], hubMiss := []
    hubDown := [], arrivals := [], lastColls := [], sinkRuns := [], raised := [], ports := [], ramps := [], released := [], tune := []
    planKeys := [], guard := [], transitOff := false, hoPending := [], hoSince := [], epochCtl := EpochCtl.initial, alorn := Alorn.initial
    wiped := false, sealStore := [], logIntake := [], log := [], readNext := 0, hostRx := [], hostTags := [] }

end Sys2Proof.Machine
end

