-- ==== Sys2Proof/Machine/Table.lean ====
section
/-! DEFINITION. Operations on sparse tables, rising lists of numbers, and fields of words. -/

namespace Sys2Proof.Machine

/-- The entry of key `k`. -/
def lookup {α : Type} : Tbl α → Nat → Option α
  | [], _ => none
  | (k', v) :: t, k => if k' = k then some v else lookup t k

/-- Sets the entry of key `k`, keeping the keys in rising order. -/
def upsert {α : Type} : Tbl α → Nat → α → Tbl α
  | [], k, v => [(k, v)]
  | (k', v') :: t, k, v =>
    if k < k' then (k, v) :: (k', v') :: t
    else if k = k' then (k, v) :: t
    else (k', v') :: upsert t k v

/-- Removes the entry of key `k`. -/
def remove {α : Type} (t : Tbl α) (k : Nat) : Tbl α := t.filter (fun e => e.1 != k)

/-- Sets key `k` to `v` in a table whose unlisted keys hold `d`: a default value is not listed. -/
def assign {α : Type} [DecidableEq α] (t : Tbl α) (k : Nat) (v d : α) : Tbl α :=
  if v = d then remove t k else upsert t k v

/-- The keys rise strictly. -/
def rising {α : Type} : Tbl α → Bool
  | [] => true
  | (k, _) :: t => (t.all (fun e => k < e.1)) && rising t

/-- Adds a number to a rising list. -/
def insertNat : List Nat → Nat → List Nat
  | [], n => [n]
  | m :: t, n => if n < m then n :: m :: t else if n = m then m :: t else m :: insertNat t n

/-- Removes a number from a rising list. -/
def removeNat (l : List Nat) (n : Nat) : List Nat := l.filter (fun m => m != n)

/-- The bits `lo` to `lo + n - 1` of a register word, as a mask. -/
def fieldMask (lo n : Nat) : Word := (BitVec.allOnes 64 >>> (64 - n)) <<< lo

/-- The field of `n` bits at `lo`. -/
def fieldGet (w : Word) (lo n : Nat) : Nat := ((w >>> lo) &&& (BitVec.allOnes 64 >>> (64 - n))).toNat

/-- The word with the field of `n` bits at `lo` set to `v`, modulo its width. -/
def fieldPut (w : Word) (lo n v : Nat) : Word :=
  (w &&& ~~~ fieldMask lo n) ||| ((BitVec.ofNat 64 v <<< lo) &&& fieldMask lo n)

/-- Bit `j` of a number. -/
def bit (n j : Nat) : Bool := n.testBit j

/-- A truth value as a number. -/
def b2n (b : Bool) : Nat := if b then 1 else 0

/-- How many of the low `w` bits of `n` are set. -/
def popcount : Nat → Nat → Nat
  | 0, _ => 0
  | w + 1, n => n % 2 + popcount w (n / 2)

/-- The set bits of the low `w` bits of `n`, rising. -/
def bitsOf (w n : Nat) : List Nat := (List.range w).filter (fun j => n.testBit j)

/-- `n` with bit `j` clear. -/
def clearBit (n j : Nat) : Nat := if n.testBit j then n - 2 ^ j else n

/-- `n` with bit `j` set. -/
def setBit (n j : Nat) : Nat := if n.testBit j then n else n + 2 ^ j

/-- The quotient of `a` by `b`, rounded up. -/
def ceilDiv (a b : Nat) : Nat := (a + b - 1) / b

/-- The number a list of bytes spells, the first byte least significant (R5). -/
def leNat : List Byte → Nat
  | [] => 0
  | b :: t => b.toNat + 256 * leNat t

/-- The `n` bytes of a number, the least significant first (R5). -/
def leBytes : Nat → Nat → List Byte
  | 0, _ => []
  | n + 1, v => BitVec.ofNat 8 v :: leBytes n (v / 256)

/-- A number below 2^w read as two's complement. -/
def signedOf (w v : Nat) : Int := if v < 2 ^ (w - 1) then (v : Int) else (v : Int) - (2 ^ w : Nat)

/-- The residue of an integer modulo 2^w. -/
def wrapInt (w : Nat) (i : Int) : Nat := (i % ((2 ^ w : Nat) : Int)).toNat

/-- The pieces of length `n` of a list, in order; `fuel` bounds their number. -/
def pieces {α : Type} (n : Nat) : Nat → List α → List (List α)
  | 0, _ => []
  | _, [] => []
  | fuel + 1, l => l.take n :: pieces n fuel (l.drop n)

/-- Replaces the element at position `n` by `f` of it. -/
def updateAt {α : Type} (l : List α) (n : Nat) (f : α → α) : List α :=
  match l, n with
  | [], _ => []
  | a :: t, 0 => f a :: t
  | a :: t, n + 1 => a :: updateAt t n f

/-- Whether no element of the list appears twice. -/
def distinct {α : Type} [DecidableEq α] : List α → Bool
  | [] => true
  | a :: t => !(t.contains a) && distinct t

end Sys2Proof.Machine
end

