-- ==== Sys2Proof/Machine/Ops.lean ====
section
/-! DEFINITION. The named operations every meaning shares: registers and counters, memory, free values, the event
log, the topology of the die, partitions, crossing FIFOs and the sending of packets. -/

namespace Sys2Proof.Machine

/-- The outcome of a command: its effect, or nothing while CHIP_RESET is asserted (log entry 7). -/
def live (s : State) (f : State → State) : Host.Outcome State Fault Refusal :=
  .next (if s.chipReset then s else f s)

/-! ### Registers -/

/-- Key of a register's word in the register file. -/
def regKey (r : Reg) (n bank : Nat) : Nat := 256 * n + 2 * r.num + bank

/-- The bank a register of class E stands in; registers of the other classes have bank 0 only. -/
def Reg.bank (r : Reg) (parity : Nat) : Nat :=
  if r.info.cls = .epoch then parity else 0

/-- The word of copy `n` of a register in a bank. -/
def State.word (s : State) (r : Reg) (n : Nat) (bank : Nat := 0) : Word :=
  (lookup s.regs (regKey r n bank)).getD (r.resetWord n)

/-- Sets that word. -/
def State.setWord (s : State) (r : Reg) (n : Nat) (v : Word) (bank : Nat := 0) : State :=
  { s with regs := assign s.regs (regKey r n bank) v (r.resetWord n) }

/-- PARITY of RK_EPOCH: the bank in effect (R321). -/
def State.parity (s : State) : Nat :=
  fieldGet (s.word .RK_EPOCH 0) F.RK_EPOCH_PARITY.lo F.RK_EPOCH_PARITY.width

/-- The bank field `f` stands in under parity `e`: OCCUPANCY of RK_TRANSIT is no class E field. -/
def Fld.bank (f : Fld) (e : Nat) : Nat :=
  if f = F.RK_TRANSIT_OCCUPANCY then 0 else f.reg.bank e

/-- A field's value in the tables of parity `e` (R107). -/
def State.getE (s : State) (e : Nat) (f : Fld) (n : Nat := 0) : Nat :=
  fieldGet (s.word f.reg n (f.bank e)) f.lo f.width

/-- A field's value in effect (R14). -/
def State.get (s : State) (f : Fld) (n : Nat := 0) : Nat := s.getE s.parity f n

/-- Whether a field of one bit is set. -/
def State.flag (s : State) (f : Fld) (n : Nat := 0) : Bool := s.get f n != 0

/-- Whether a field of one bit is set in the tables of parity `e`. -/
def State.flagE (s : State) (e : Nat) (f : Fld) (n : Nat := 0) : Bool := s.getE e f n != 0

/-- Sets a field in effect. -/
def State.put (s : State) (f : Fld) (n v : Nat) : State :=
  let b := f.bank s.parity
  s.setWord f.reg n (fieldPut (s.word f.reg n b) f.lo f.width v) b

/-- Raises a saturating counter (R385). -/
def State.sat (s : State) (f : Fld) (n : Nat) (by' : Nat := 1) : State :=
  s.put f n (Nat.min (2 ^ f.width - 1) (s.get f n + by'))

/-- Raises a counter that wraps (R385). -/
def State.wrap (s : State) (f : Fld) (n : Nat) (by' : Nat := 1) : State :=
  s.put f n ((s.get f n + by') % 2 ^ f.width)

/-- Sets a field to the larger of its value and `v`, to its width. -/
def State.raiseTo (s : State) (f : Fld) (n v : Nat) : State :=
  s.put f n (Nat.min (2 ^ f.width - 1) (Nat.max (s.get f n) v))

/-- Copy number of a register of core `i` (log entry 8). -/
def coreCopy (r : Reg) (i n : Nat) : Nat := i * r.info.count + n

/-! ### Free values -/

/-- Advances the counter free values are drawn at. -/
def State.drawn (s : State) (n : Nat := 1) : State := { s with freeCtr := s.freeCtr + n }

/-- A TUNE value in effect, or the default of Table 12-7 (R307). -/
def State.tuneOf (s : State) (key dflt : Nat) : Nat := (lookup s.tune key).getD dflt

/-! ### Memory -/

/-- Where the memory of an endpoint begins among the bytes of State.mem: core SRAMs of 3 MiB, then stacks of 64 MiB. -/
def memBase (ep : Nat) : Nat :=
  if ep < 256 then ep * 0x300000 else 256 * 0x300000 + (ep - 256) * 0x4000000

/-- Bytes of an endpoint's memory (Table 4-11). -/
def memSize (ep : Nat) : Nat :=
  if ep < 256 then 0x300000 else if ep < 280 then 0x4000000 else 0

/-- What a byte that nothing has written reads as (log entry 4). -/
def Memory.default : Byte := 0

/-- The byte at a global address. -/
def Memory.read : List Host.Cell → Nat → Byte
  | [], _ => Memory.default
  | (a', b) :: t, a => if a' = a then b else Memory.read t a

/-- Writes one byte, keeping the canonical form. -/
def Memory.write : List Host.Cell → Nat → Byte → List Host.Cell
  | [], a, b => if b = Memory.default then [] else [(a, b)]
  | (a', b') :: t, a, b =>
    if a < a' then (if b = Memory.default then (a', b') :: t else (a, b) :: (a', b') :: t)
    else if a = a' then (if b = Memory.default then t else (a, b) :: t)
    else (a', b') :: Memory.write t a b

/-- The canonical form: addresses strictly rising, no entry equal to the default. -/
def Memory.wf : List Host.Cell → Bool
  | [] => true
  | (a, b) :: t => b != Memory.default && t.all (fun e => a < e.1) && Memory.wf t

/-- Writes bytes at rising addresses. -/
def Memory.writeList : List Host.Cell → Nat → List Byte → List Host.Cell
  | m, _, [] => m
  | m, a, b :: t => Memory.writeList (Memory.write m a b) (a + 1) t

/-- The byte at an address of an endpoint's memory. -/
def State.byteAt (s : State) (ep a : Nat) : Byte := Memory.read s.mem (memBase ep + a)

/-- `n` bytes of an endpoint's memory. -/
def State.readBytes (s : State) (ep a n : Nat) : List Byte :=
  (List.range n).map (fun k => s.byteAt ep (a + k))

/-- A little-endian number of `n` bytes in an endpoint's memory (R5). -/
def State.readNat (s : State) (ep a n : Nat) : Nat := leNat (s.readBytes ep a n)

/-- The numbers of the 64-bit words that `n` bytes from global address `a` touch. -/
def wordsOf (a n : Nat) : List Nat :=
  if n = 0 then [] else (List.range ((a + n - 1) / 8 - a / 8 + 1)).map (fun k => a / 8 + k)

/-- Writes bytes into an endpoint's memory: each word touched is written with sound check bits (log entry 9). -/
def State.writeBytes (s : State) (ep a : Nat) (bs : List Byte) : State :=
  let ws := wordsOf (memBase ep + a) bs.length
  { s with
    mem := Memory.writeList s.mem (memBase ep + a) bs
    badWords := s.badWords.filter (fun w => !ws.contains w)
    softWords := s.softWords.filter (fun w => !ws.contains w) }

/-- Writes the poison pattern (R97) into every 64-bit word that `n` bytes from `a` touch: each reads as
uncorrectable from then on, and its data bits are free values. -/
def State.poisonBytes (s : State) (ep a n : Nat) : State :=
  let ws := wordsOf (memBase ep + a) n
  let bs := (List.range (8 * ws.length)).map (fun k => Config.poisonByte (s.freeCtr + k))
  { s with
    mem := Memory.writeList s.mem ((memBase ep + a) / 8 * 8) bs
    badWords := ws.foldl insertNat s.badWords
    softWords := s.softWords.filter (fun w => !ws.contains w)
    freeCtr := s.freeCtr + bs.length }

/-- Whether one of the words that `n` bytes touch reads as uncorrectable. -/
def State.isBad (s : State) (ep a n : Nat) : Bool :=
  (wordsOf (memBase ep + a) n).any (fun w => s.badWords.contains w)

/-! ### The event log -/

/-- An event: its code and its severity (Table 15-4). -/
structure Event where
  code : Nat
  severity : Nat
deriving DecidableEq, Repr

/-- Puts an event into the intake of 64 entries, or counts it in DROPPED (R388). Nothing is logged while CLK_MG is
lost: the unit has no clock (R382). -/
def State.event (s : State) (e : Event) (window unit : Nat) (arg0 : Nat := 0) (arg1 : Nat := 0)
    (more : Option (Nat × Nat) := none) : State :=
  if s.mgLost then s
  else if s.logIntake.length < 64 then
    { s with logIntake := s.logIntake ++
      [⟨e.code, window, e.severity, unit, s.word .TM_TIMESTAMP 0, BitVec.ofNat 64 arg0, BitVec.ofNat 64 arg1,
        more.map (fun m => (BitVec.ofNat 64 m.1, BitVec.ofNat 64 m.2)), false⟩] }
  else s.sat F.TM_LOGSTAT_DROPPED 0

/-- WINDOW and UNIT that name an endpoint in a record (Table 15-3). -/
def epWindow (ep : Nat) : Nat := if ep < 256 then 0 else if ep < 280 then 1 else if ep < 286 then 7 else 9
def epUnit (ep : Nat) : Nat := if ep < 256 then ep else if ep < 280 then ep - 256 else if ep < 286 then ep - 280 else 0

/-! ### The die -/

/-- Column and row of core `i`'s router (R23). -/
def coreRx (i : Nat) : Nat := 4 * (i / 16 % 4) + i % 16 % 4
def coreRy (i : Nat) : Nat := 4 * (i / 16 / 4) + i % 16 / 4

/-- The core at a router position. -/
def coreAt (rx ry : Nat) : Nat := 16 * (4 * (ry / 4) + rx / 4) + 4 * (ry % 4) + rx % 4

/-- Column of stack `s` and the row of its lower attachment (R26). -/
def stackRx (st : Nat) : Nat := [1, 3, 6, 9, 12, 14].getD (st % 6) 0
def stackRy (st : Nat) : Nat := 4 * (st / 6) + 1

/-- Column and row of attachment `a` of optical port `p` (Table 1-4, R111). -/
def portRx (p a : Nat) : Nat := [15, 0, a, a, 15, 0].getD p 0
def portRy (p a : Nat) : Nat := [a, a, 15, 0, 8 + a, 8 + a].getD p 0

/-- Which of X0 and X1 serves optical port `p` at its attachment `a` (Table 2-4). -/
def portOutput (p a : Nat) : Nat :=
  if (p = 3 && a = 0) || (p = 5 && a = 7) then 6 else 5

/-- The port on the other side of its axis (R116), and the axis of a port. -/
def opposite (p : Nat) : Nat := if p % 2 = 0 then p + 1 else p - 1
def axis (p : Nat) : Nat := p / 2

/-- This chip's address; zero before SET_COORDS (R21, R121). -/
def State.own (s : State) : Nat := s.get F.RK_COORDS_ADDR

/-- Whether an endpoint is present (R28, R29): core ports by the fuses, the others below 288 always. -/
def State.present (s : State) (ep : Nat) : Bool :=
  if ep < 256 then s.fuse.cores.getLsbD ep else ep < 288

/-- The physical port that serves a logical port (R296). -/
def State.physOf (s : State) (l : Nat) : Nat :=
  ((List.range 6).find? (fun p => s.get F.OP_PORTCTL_LOGICAL p == l)).getD l

/-- Whether a physical port is ADMITTED (STATE 4 of OP_PORTSTATE). -/
def State.admitted (s : State) (p : Nat) : Bool := s.get F.OP_PORTSTATE_STATE p == 4

/-- The clock of domain `d` runs. -/
def State.clockRuns (s : State) (d : Nat) : Bool := (lookup s.clkStopped d).isNone

/-- Domain `d` has edges: its clock runs and is not lost (R77, R382). -/
def State.hasEdges (s : State) (d : Nat) : Bool := s.clockRuns d && !(d = 16 && s.mgLost) && !(d = 17 && s.lkLost)

/-- The timestamp as domain `d` sees it: the last value it accepted (R75, R76). -/
def State.stampAt (s : State) (d : Nat) : Word := (lookup s.sampled d).getD (s.word .TM_TIMESTAMP 0)

/-- A packet of a parity that the chip has come to hold: OLD_SEEN is set for the old one (R328). -/
def State.noteOld (s : State) (e : Nat) : State := if e = s.parity then s else s.put F.RK_EPOCH_OLD_SEEN 0 1

/-- A pulse crosses to CLK_MG (0 ALERT, 1 EPOCH_DONE). One that comes before the acknowledgement of the last is merged with it
and sets PULSE_OVR: without an edge of CLK_MG none is acknowledged; with edges an acknowledgement takes a tick or less, and
whether it has come within that tick is a free value (R74). -/
def State.pulse (s : State) (k : Nat) : State :=
  let merged := match lookup s.pulses k with
    | none => false
    | some t => !s.hasEdges 16 || (s.now ≤ t + 1 && Config.pulseMerged s.freeCtr)
  if merged then (s.drawn).put F.XB_DOMAIN_PULSE_OVR 16 1
  else { s.drawn with pulses := upsert s.pulses k s.now }

/-- CLK_MG has lost its edges: of the pulses of the last tick, those not acknowledged stay open, as a free value decides. -/
def State.pulsesStop (s : State) : State :=
  { s.drawn 2 with pulses := s.pulses.filter (fun e => s.now ≤ e.2 + 1 && Config.pulseMerged (s.freeCtr + e.1)) }

/-- CLK_MG has edges again: open pulses are acknowledged within a tick. -/
def State.pulsesStart (s : State) : State :=
  { s with pulses := s.pulses.map (fun e => (e.1, s.now)) }

/-- The clocked half of a core port works: its clock runs and CORE_RESET is released (R81, R398). -/
def State.coreRuns (s : State) (i : Nat) : Bool := s.clockRuns (i / 16) && !s.coreRst.contains i

/-! ### Partitions -/

/-- The partition that holds cluster `c` (R104). -/
def State.partOfCluster (s : State) (c : Nat) : Option Nat :=
  (List.range 16).find? (fun p => s.flag F.RK_PARTJOB_VALID p && bit (s.get F.RK_PARTJOB_CLUSTERS p) c)

/-- The partition of core `i`. -/
def State.partOfCore (s : State) (i : Nat) : Option Nat := s.partOfCluster (i / 16)

/-- The valid partition that runs a job (R105). -/
def State.partOfJob (s : State) (job : Nat) : Option Nat :=
  (List.range 16).find? (fun p => s.flag F.RK_PARTJOB_VALID p && s.get F.RK_PARTJOB_JOB p == job)

/-- A partition before QUIESCE or FENCE has touched it. -/
def Part.initial : Part := ⟨false, false, false, false, 0⟩

/-- A partition's run state. -/
def State.part (s : State) (p : Nat) : Part := (lookup s.parts p).getD Part.initial

/-- Sets a partition's run state. -/
def State.setPart (s : State) (p : Nat) (v : Part) : State := { s with parts := upsert s.parts p v }

/-- The present cores of a partition. -/
def State.coresOf (s : State) (p : Nat) : List Nat :=
  (List.range 256).filter (fun i => s.present i && bit (s.get F.RK_PARTJOB_CLUSTERS p) (i / 16))

/-! ### Crossing FIFOs -/

/-- Domain and index of a FIFO (Table 3-2). -/
def fifoDomain : FifoId → Nat
  | .core i _ => i.val / 16
  | .alorn _ => 16
  | .host _ => 16
  | .port .. => 17
  | .portPlumb .. => 17
  | .portCopy .. => 17
def fifoIndex : FifoId → Nat
  | .core i k => 6 * (i.val % 16) + k.val
  | .alorn k => k.val
  | .host k => 6 + k.val
  | .port p a k => 34 * p.val + 4 * a.val + k.val
  | .portPlumb p k => 34 * p.val + 32 + k.val
  | .portCopy p _ => 34 * p.val + 33

/-- Copy of XB_FIFO that serves a FIFO: 256 × d + f. -/
def fifoCopy (f : FifoId) : Nat := 256 * fifoDomain f + fifoIndex f

/-- KIND of the FIFO at a copy of XB_FIFO (Table 3-9): 0 none, then the six kinds of Table 3-2 from 1. -/
def fifoKind (n : Nat) : Nat :=
  let d := n / 256
  let f := n % 256
  if d < 16 then (if f < 96 then f % 6 + 1 else 0)
  else if d = 16 then (if f < 6 then f + 1 else if f < 10 then f - 5 else 0)
  else if d = 17 then (if f < 204 then (if f % 34 < 32 then f % 34 % 4 + 1 else f % 34 - 27) else 0)
  else 0

/-- DEPTH of the FIFO at a copy of XB_FIFO (Table 3-2). -/
def fifoDepth (n : Nat) : Nat :=
  let k := fifoKind n
  if k = 0 then 0 else if k = 5 || k = 6 then 8 else if n / 256 < 16 && (k = 2 || k = 4) then 130 else 65

/-- An empty FIFO. -/
def Fifo.initial : Fifo := ⟨[], false, 0⟩

/-- A FIFO's contents. -/
def State.fifo (s : State) (n : Nat) : Fifo := (lookup s.fifos n).getD Fifo.initial

/-- Sets a FIFO's contents. -/
def State.setFifo (s : State) (n : Nat) (f : Fifo) : State := { s with fifos := assign s.fifos n f Fifo.initial }

/-- The eight even-parity bits of a flit, one per 64-bit word (Table 2-1, Table 3-3). -/
def flitParity (d : BitVec 512) : BitVec 8 :=
  (List.range 8).foldl
    (fun acc j => if popcount 64 (d.extractLsb' (64 * j) 64).toNat % 2 = 1 then acc ||| (1#8 <<< j) else acc) 0#8

/-- The stage that holds a flit (Table 3-3). -/
def stageOf (f : Flit) (head tail : Bool) : Stage :=
  f.data.zeroExtend 524 ||| ((flitParity f.data).zeroExtend 524 <<< 512)
    ||| (BitVec.ofNat 524 (b2n head) <<< 520) ||| (BitVec.ofNat 524 (b2n tail) <<< 521)
    ||| (BitVec.ofNat 524 (b2n f.poison) <<< 522)

def stageHead (w : Stage) : Bool := w.getLsbD 520
def stageTail (w : Stage) : Bool := w.getLsbD 521
def stagePoison (w : Stage) : Bool := w.getLsbD 522
def stageData (w : Stage) : BitVec 512 := w.extractLsb' 0 512

/-- How many of a stage's words have bad parity (R68). -/
def stageBad (w : Stage) : Nat :=
  popcount 8 ((flitParity (stageData w)) ^^^ (w.extractLsb' 512 8)).toNat

/-- The flit as the reading side delivers it: a word of bad parity sets POISON (R68). -/
def flitOf (w : Stage) : Flit := ⟨stageData w, stagePoison w || stageBad w != 0⟩

/-- A packet's flits. -/
def flitsOf (p : Packet) : List Flit := p.head :: p.body

/-- The stages of a whole packet. -/
def stagesOf (p : Packet) : List Stage :=
  match p.body with
  | [] => [stageOf p.head true true]
  | b => stageOf p.head true false :: (b.dropLast.map (fun f => stageOf f false false)
      ++ (match b.getLast? with | some f => [stageOf f false true] | none => []))

/-- Complete packets held: one per TAIL stage (Table 3-9). -/
def Fifo.packets (f : Fifo) : Nat := (f.stages.filter stageTail).length

/-- The stages of the oldest complete packet, and the rest. -/
def splitTail : List Stage → Option (List Stage × List Stage)
  | [] => none
  | w :: t => if stageTail w then some ([w], t) else (splitTail t).map (fun r => (w :: r.1, r.2))

/-- The packet a list of stages delivers. -/
def packetOf (ws : List Stage) : Option Packet :=
  match ws with
  | [] => none
  | w :: t => some ⟨flitOf w, t.map flitOf⟩

/-- The oldest complete packet of a FIFO as its reader gets it. -/
def State.front (s : State) (n : Nat) : Option Packet :=
  (splitTail (s.fifo n).stages).bind (fun r => packetOf r.1)

/-- Takes the oldest complete packet out of a FIFO, counting words of bad parity in PARITY of XB_ERRORS (R68). -/
def State.popFifo (s : State) (n : Nat) : State :=
  match splitTail (s.fifo n).stages with
  | none => s
  | some (ws, rest) =>
    let s := s.setFifo n { s.fifo n with stages := rest }
    if n < 4608 then s.sat F.XB_ERRORS_PARITY (n / 256) (ws.map stageBad).sum else s

/-- Takes a packet out of a FIFO where it is the oldest complete one there. -/
def State.consume (s : State) (n : Nat) (p : Packet) : State :=
  if s.front n = some p then s.popFifo n else s

/-- Free stages of a FIFO; a stack port's reply attachment takes what it is offered. -/
def State.room (s : State) (n : Nat) : Nat :=
  if n < 4608 then fifoDepth n - (s.fifo n).stages.length else 4096

/-- Writes a whole packet into a FIFO and gives the notice (R66, R67). -/
def State.pushFifo (s : State) (n : Nat) (p : Packet) : State :=
  let s := s.setFifo n { s.fifo n with stages := (s.fifo n).stages ++ stagesOf p }
  if n < 4608 then s.wrap F.XB_FIFO_NOTICES n else s

/-! ### Sending -/

/-- Copy of OP_EGWIN: port, class (0 request, 1 reply, 2 management), source of Table 5-5. -/
def egwin (p k src : Nat) : Nat := 96 * p + 32 * k + src

/-- The window in flits: before the first Stencil, 512 for Alorn's management class (R121). -/
def State.window (s : State) (w : Nat) : Nat :=
  if w % 96 = 64 + 21 && s.get F.RK_EPOCH_NUMBER = 0 then 512 else s.get F.OP_EGWIN_WINDOW w

/-- Room counts of an edge. -/
def State.roomAt (s : State) (k : Nat) : Room := (lookup s.rooms k).getD ⟨0, 0, 0⟩
def State.setRoom (s : State) (k : Nat) (r : Room) : State := { s with rooms := assign s.rooms k r ⟨0, 0, 0⟩ }

/-- Whether the sender on an edge has been invited to one more move (R213). -/
def State.invitedTo (s : State) (k : Nat) : Bool := (s.roomAt k).seen != (s.roomAt k).started

/-- The sender starts a move. -/
def State.startMove (s : State) (k : Nat) : State :=
  s.setRoom k { s.roomAt k with started := ((s.roomAt k).started + 1) % 16 }

/-- Whether a packet of `f` flits may pass its gate: its window, or an invitation (R124, R214). -/
def State.gateOpen (s : State) (g : Gate) (f : Nat) : Bool :=
  match g with
  | .free => true
  | .window w => s.get F.OP_EGWIN_OUTSTANDING w + f ≤ s.window w
  | .room k => s.invitedTo k

/-- Number of a kind of room count. -/
def kindNo : RoomKind → Nat
  | .contribution => 0
  | .multicast => 1
  | .result => 2

/-- Key of the room counts of an edge; edge 7 of a router is its own core port's side of edge C. -/
def roomKey (u e edge g : Nat) (k : RoomKind) : Nat :=
  (((2 * u + e) * 8 + edge) * 3 + kindNo k) * 4096 + g

/-- The core port that reads and writes a core's FIFO. -/
def fifoCore (n : Nat) : Nat := 16 * (n / 256) + n % 256 / 6

/-- Whether the fabric side of a core port refuses, discards and answers by itself: its partition is quiesced or fenced, or it
is in none (R366, R376, R380). -/
def State.fabricSide (s : State) (i : Nat) : Bool :=
  match s.partOfCore i with
  | none => true
  | some q => (s.part q).quiesced || (s.part q).fenced

/-- Whether an out FIFO can be written: the clock of its writer has edges and CORE_RESET of a core port is released, or the
fabric side of the core port answers; a stack port has no clock (R77, R398). -/
def State.writerRuns (s : State) (n : Nat) : Bool :=
  4608 ≤ n || (if 4096 ≤ n then s.hasEdges (n / 256)
    else !s.coreRst.contains (fifoCore n) && (s.clockRuns (n / 256) || s.fabricSide (fifoCore n)))

end Sys2Proof.Machine
end

