-- ==== Sys2Proof/Machine/Operands.lean ====
section
/-! DEFINITION. The forms operands take: the packet header (Table 4-1), its payload and poison, the classes of
opcodes, the routing of a packet from its source, and the building of packets and replies. -/

namespace Sys2Proof.Machine

/-! ### The header -/

/-- A field of the packet header. -/
structure HFld where
  lo : Nat
  width : Nat
deriving DecidableEq, Repr

namespace H
def OPCODE : HFld := ⟨0, 8⟩
def FLAGS : HFld := ⟨8, 8⟩
def ACK_REQ : HFld := ⟨8, 1⟩
def SIGNAL : HFld := ⟨9, 1⟩
def RETRY : HFld := ⟨10, 1⟩
def CLASS_B : HFld := ⟨11, 1⟩
def DATA_POISON : HFld := ⟨12, 1⟩
def FLOW_VALID : HFld := ⟨13, 1⟩
def LAST_CHUNK : HFld := ⟨14, 1⟩
def RESPONSE : HFld := ⟨15, 1⟩
def STATUS : HFld := ⟨16, 4⟩
def FORMAT : HFld := ⟨20, 4⟩
def OP : HFld := ⟨24, 4⟩
def EPOCH : HFld := ⟨28, 1⟩
def PARTITION : HFld := ⟨32, 4⟩
def GROUP : HFld := ⟨36, 12⟩
def JOB : HFld := ⟨48, 16⟩
def DST_CHIP : HFld := ⟨64, 12⟩
def DST_EP : HFld := ⟨76, 9⟩
def SRC_CHIP : HFld := ⟨96, 12⟩
def SRC_EP : HFld := ⟨108, 9⟩
def ADDRESS : HFld := ⟨128, 32⟩
def LENGTH : HFld := ⟨160, 13⟩
def TAG : HFld := ⟨176, 16⟩
def FLOW : HFld := ⟨192, 14⟩
def SEQ : HFld := ⟨208, 16⟩
def SRC_RANK : HFld := ⟨224, 12⟩
def HANDLER : HFld := ⟨236, 10⟩
def B8_PAD : HFld := ⟨246, 8⟩
def HPAR : HFld := ⟨504, 8⟩
end H

/-- A field of a header flit. -/
def hget (d : BitVec 512) (f : HFld) : Nat := (d >>> f.lo).toNat % 2 ^ f.width

/-- A header flit with a field set. -/
def hput (d : BitVec 512) (f : HFld) (v : Nat) : BitVec 512 :=
  let m : BitVec 512 := BitVec.ofNat 512 (2 ^ f.width - 1) <<< f.lo
  (d &&& ~~~m) ||| ((BitVec.ofNat 512 v <<< f.lo) &&& m)

/-- Word `n` of a header. -/
def hword (d : BitVec 512) (n : Nat) : Nat := (d.extractLsb' (64 * n) 64).toNat

/-- The header parity of R85: bit j makes the ones of word j even; word 7 without bits 511:504. -/
def hparOf (d : BitVec 512) : BitVec 8 := flitParity (hput d H.HPAR 0)

/-- Sets HPAR afresh. -/
def setHpar (d : BitVec 512) : BitVec 512 := hput d H.HPAR (hparOf d).toNat

/-- A field of a packet's header. -/
def pget (p : Packet) (f : HFld) : Nat := hget p.head.data f

/-- Whether a flag of the header is set. -/
def pflag (p : Packet) (f : HFld) : Bool := pget p f != 0

/-- A packet with header fields rewritten and HPAR set afresh (R85). -/
def pset (p : Packet) (l : List (HFld × Nat)) : Packet :=
  { p with head := { p.head with data := setHpar (l.foldl (fun d e => hput d e.1 e.2) p.head.data) } }

/-- The header fails HPAR or carries the poison bit (R86). -/
def headerBad (p : Packet) : Bool :=
  p.head.poison || BitVec.ofNat 8 (pget p H.HPAR) != hparOf p.head.data

/-! ### Opcodes (Table 4-3) -/

namespace Op
def PUT : Nat := 0x10
def PUT_MC : Nat := 0x11
def GET_REQ : Nat := 0x12
def GET_RSP : Nat := 0x13
def ATOM_ADD : Nat := 0x20
def ATOM_SWAP : Nat := 0x21
def ATOM_RSP : Nat := 0x22
def AM : Nat := 0x30
def AM_REPLY : Nat := 0x31
def ACK : Nat := 0x40
def NACK : Nat := 0x41
def RED_UP : Nat := 0x50
def RED_DOWN : Nat := 0x51
def BAR_ARRIVE : Nat := 0x60
def BAR_RELEASE : Nat := 0x61
def SRED_UP : Nat := 0x62
def SRED_DOWN : Nat := 0x63
def EPOCH : Nat := 0x64
def ABORT : Nat := 0x65
def MGMT : Nat := 0x70
def SIGNAL : Nat := 0x71
end Op

/-- The class of an opcode (R87). -/
inductive Class where
  | request
  | reply
  | plumb
  | management
deriving DecidableEq, Repr

def classOf (op : Nat) : Option Class :=
  if op ∈ [Op.PUT, Op.PUT_MC, Op.GET_REQ, Op.ATOM_ADD, Op.ATOM_SWAP, Op.AM, Op.RED_UP, Op.SIGNAL] then some .request
  else if op ∈ [Op.GET_RSP, Op.ATOM_RSP, Op.AM_REPLY, Op.ACK, Op.NACK, Op.RED_DOWN] then some .reply
  else if op ∈ [Op.BAR_ARRIVE, Op.BAR_RELEASE, Op.SRED_UP, Op.SRED_DOWN, Op.EPOCH, Op.ABORT] then some .plumb
  else if op = Op.MGMT then some .management
  else none

/-- The opcodes steered by a group's tree (R103), Plumb apart. -/
def isTree (op : Nat) : Bool := op = Op.PUT_MC || op = Op.RED_UP || op = Op.RED_DOWN

/-- A tree packet as routers know it (R212): the tree opcodes, and answers with LENGTH 16. -/
def treePacket (p : Packet) : Bool :=
  let op := pget p H.OPCODE
  isTree op || ((op = Op.ACK || op = Op.NACK) && pget p H.LENGTH = 16)

/-- The mesh a packet travels on (R87, Table 5-1): replies and management responses on the reply mesh. -/
def meshOf (p : Packet) : Mesh :=
  match classOf (pget p H.OPCODE) with
  | some .reply => .reply
  | some .management => if pflag p H.RESPONSE then .reply else .request
  | _ => .request

/-! ### Statuses (Tables 4-6, 6-7) -/

namespace St
def OK : Nat := 0
def POISON : Nat := 1
def NO_OWNER : Nat := 2
def RANGE : Nat := 3
def TIMEOUT : Nat := 4
def FENCED : Nat := 5
def DUPLICATE : Nat := 6
def ORDER : Nat := 7
def ABORTED : Nat := 8
def UNREACHABLE : Nat := 9
def CHANNEL : Nat := 10
def REFUSED : Nat := 11
def QUEUE_FULL : Nat := 16
def BROKEN : Nat := 17
end St

/-! ### Payload -/

/-- A flit that holds up to 64 bytes, the first in bits 7:0. -/
def flitOfBytes (bs : List Byte) : BitVec 512 := BitVec.ofNat 512 (leNat bs)

/-- How many payload flits LENGTH states (R88). -/
def payloadFlits (p : Packet) : Nat := ceilDiv (pget p H.LENGTH) 64

/-- Which payload flits are poisoned: those with the bit, those missing (R89), or all of them when DATA_POISON is
set and none carries the bit (Table 4-2). -/
def flitPoison (p : Packet) : List Bool :=
  let n := payloadFlits p
  let own := (List.range n).map (fun k => match p.body[k]? with | some f => f.poison | none => true)
  if pflag p H.DATA_POISON && !own.any (fun b => b) then List.replicate n true else own

/-- Whether the packet carries poison: DATA_POISON, a poisoned flit or a missing one (check 11 of Table 4-7). -/
def hasPoison (p : Packet) : Bool := pflag p H.DATA_POISON || (flitPoison p).any (fun b => b)

/-- The payload bytes LENGTH states; a missing flit's bytes read zero. -/
def payload (p : Packet) : List Byte :=
  let n := pget p H.LENGTH
  let all := (List.range (payloadFlits p)).flatMap (fun k =>
    let d := match p.body[k]? with | some f => f.data | none => 0
    (List.range 64).map (fun j => d.extractLsb' (8 * j) 8))
  all.take n

/-- The payload as a little-endian number of `n` bytes. -/
def payloadNat (p : Packet) (n : Nat) : Nat := leNat ((payload p).take n)

/-- Builds a packet: header fields, LENGTH and HPAR set, the payload cut into flits, and each flit's poison bit;
DATA_POISON is set when a flit is poisoned (Table 4-2). -/
def mkPacket (fields : List (HFld × Nat)) (bytes : List Byte) (poison : List Bool) : Packet :=
  let h := fields.foldl (fun d e => hput d e.1 e.2) (0 : BitVec 512)
  let h := hput h H.LENGTH bytes.length
  let h := if poison.any (fun b => b) then hput h H.DATA_POISON 1 else h
  let chunks := pieces 64 bytes.length bytes
  ⟨⟨setHpar h, false⟩, (List.range chunks.length).map (fun k =>
    ⟨flitOfBytes (chunks.getD k []), poison.getD k false⟩)⟩

/-! ### Header errors and stray replies -/

/-- The physical port behind an endpoint index from 280 to 285 (R296). -/
def State.portOfEp (s : State) (ep : Nat) : Nat := s.physOf (ep - 280)

/-- Counts a packet in the header-error counter of an endpoint (R86). -/
def State.countHeader (s : State) (ep : Nat) : State :=
  if ep < 256 then s.sat F.CP_ERRCNT_HEADER ep
  else if ep < 280 then s.sat F.SP_PKTERR_HEADER (ep - 256)
  else if ep < 286 then s.sat F.OP_ERRCNT_HEADER (s.portOfEp ep)
  else s.sat F.AL_EPERR_HEADER (ep - 286)

/-- Counts a packet in the route-error counter of an endpoint (R126). -/
def State.countRoute (s : State) (ep : Nat) : State :=
  if ep < 256 then s.sat F.CP_ERRAUX_ROUTE ep
  else if ep < 280 then s.sat F.SP_PKTERR_ROUTE (ep - 256)
  else if ep < 286 then s.sat F.OP_ERRCNT_ROUTE (s.portOfEp ep)
  else s.sat F.AL_EPERR_ROUTE (ep - 286)

/-- WINDOW and UNIT that an endpoint's own records carry; an optical port is named by its physical port. -/
def State.unitOf (s : State) (ep : Nat) : Nat :=
  if 280 ≤ ep && ep < 286 then s.portOfEp ep else epUnit ep

/-- Logs an event whose arguments are the first 32 bytes of a packet's header. -/
def State.headEvent (s : State) (e : Event) (window unit : Nat) (p : Packet) : State :=
  let d := p.head.data
  s.event e window unit (hword d 0) (hword d 1) (some (hword d 2, hword d 3))

/-- HEADER_BAD and BAD_OPCODE (Table 15-4). -/
def evHeaderBad : Event := ⟨0x001, 1⟩
def evBadOpcode : Event := ⟨0x002, 1⟩
def evStray : Event := ⟨0x003, 0⟩

/-- Discards a packet at an endpoint: counted in its header-error counter and logged. -/
def State.discardHead (s : State) (e : Event) (ep : Nat) (p : Packet) : State :=
  (s.countHeader ep).headEvent e (epWindow ep) (s.unitOf ep) p

/-- A stray reply at an endpoint (R101). -/
def State.stray (s : State) (ep : Nat) (p : Packet) : State :=
  let s := if ep < 256 then s.sat F.CP_ERRCNT_STRAY ep else s.sat F.AL_EPERR_STRAY (ep - 286)
  s.event evStray (epWindow ep) (epUnit ep) (hword p.head.data 1) (hword p.head.data 2)

/-! ### Sending from an endpoint -/

/-- The attachment a packet uses at every optical port on its path (R113). -/
def attachOf (p : Packet) : Nat :=
  if isTree (pget p H.OPCODE) then pget p H.GROUP % 8
  else (pget p H.SRC_EP + pget p H.DST_EP + pget p H.SRC_CHIP + pget p H.DST_CHIP) % 8

/-- Source of Table 5-5 that an endpoint belongs to. -/
def windowSource (ep : Nat) : Nat :=
  if ep < 256 then ep / 16 else if ep < 280 then 16 + (ep - 256) / 6
  else if ep < 286 then 22 + (ep - 280) else if ep = 286 then 20 else 21

/-- The out FIFO by which an endpoint sends a packet (Table 3-2); a stack port's reply store for attachment `a` is 4608 + 2 × s + a, and a
reply leaves by the attachment its request came by (R194). -/
def State.outFifo (s : State) (ep : Nat) (p : Packet) : Nat :=
  let k := if meshOf p = .reply then 2 else 0
  if ep < 256 then 256 * (ep / 16) + 6 * (ep % 16) + k
  else if ep < 280 then 4608 + 2 * (ep - 256) + (lookup s.stackVia (ep - 256)).getD 0
  else if ep < 286 then 256 * 17 + 34 * s.portOfEp ep + 4 * attachOf p + k
  else if ep = 286 then 256 * 16 + 6 + k
  else 256 * 16 + k

/-- The in FIFO from which an endpoint takes a packet; a stack port has none. -/
def State.inFifo (s : State) (ep : Nat) (p : Packet) : Nat :=
  let k := if meshOf p = .reply then 3 else 1
  if ep < 256 then 256 * (ep / 16) + 6 * (ep % 16) + k
  else if ep < 280 then 4608 + 48 + (ep - 256)
  else if ep < 286 then 256 * 17 + 34 * s.portOfEp ep + 4 * attachOf p + k
  else if ep = 286 then 256 * 16 + 6 + k
  else 256 * 16 + k

/-- Where a unicast packet leaves this chip (R115). -/
inductive Route where
  /-- the destination is this chip -/
  | here
  /-- PORT 7: no route -/
  | none
  /-- the egress port is out of service, or the window is zero (R122, R126) -/
  | shut
  /-- through the window of the given copy of OP_EGWIN -/
  | out (w : Nat)
deriving DecidableEq, Repr

/-- OP_EGWIN's class of a packet: 0 request, 1 reply, 2 management. -/
def winClass (p : Packet) : Nat :=
  match classOf (pget p H.OPCODE) with
  | some .reply => 1
  | some .management => 2
  | _ => 0

/-- The route of a unicast packet from a source of Table 5-5, by the tables its EPOCH selects (R107, R115). -/
def State.routeOf (s : State) (src : Nat) (p : Packet) : Route :=
  let d := pget p H.DST_CHIP
  if d = s.own then .here
  else
    let l := s.getE (pget p H.EPOCH) F.RK_CHIPROUTE_PORT d
    if 6 ≤ l then .none
    else
      let w := egwin l (winClass p) src
      if !s.admitted (s.physOf l) || s.window w = 0 then .shut else .out w

/-- This chip's rank in a job; a free value where no partition here runs it, since the spec gives none. -/
def State.rankIn (s : State) (job : Nat) : Nat :=
  match s.partOfJob job with
  | some p => s.get F.RK_PARTJOB_OWN_RANK p
  | none => (Config.noRank s.freeCtr).toNat

/-- The reply that an endpoint answers a request with (R93). -/
def State.replyTo (s : State) (ep : Nat) (req : Packet) (opcode status : Nat) (bytes : List Byte := [])
    (poison : List Bool := []) (extra : List (HFld × Nat) := []) : Packet :=
  let flow := pflag req H.FLOW_VALID
  mkPacket ([(H.OPCODE, opcode), (H.STATUS, status), (H.EPOCH, s.parity), (H.PARTITION, pget req H.PARTITION),
      (H.JOB, pget req H.JOB), (H.DST_CHIP, pget req H.SRC_CHIP), (H.DST_EP, pget req H.SRC_EP),
      (H.SRC_CHIP, s.own), (H.SRC_EP, ep), (H.ADDRESS, pget req H.ADDRESS), (H.TAG, pget req H.TAG),
      (H.SRC_RANK, s.rankIn (pget req H.JOB)), (H.FLOW_VALID, b2n flow),
      (H.FLOW, if flow then pget req H.FLOW else 0), (H.SEQ, if flow then pget req H.SEQ else 0)] ++ extra)
    bytes poison

/-! ### Descriptors (Tables 6-1, 6-3, 6-4, 7-4, 10-7) -/

/-- A field of a command's descriptor: word, low bit, width. -/
structure DFld where
  word : Nat
  lo : Nat
  width : Nat
deriving DecidableEq, Repr

namespace D
def CMD : DFld := ⟨0, 0, 8⟩
def FENCE : DFld := ⟨0, 8, 1⟩
def WAIT_EN : DFld := ⟨0, 9, 1⟩
def WAIT_CTR : DFld := ⟨0, 10, 6⟩
def LSIG_EN : DFld := ⟨0, 16, 1⟩
def LSIG_CTR : DFld := ⟨0, 17, 6⟩
def ACK_REQ : DFld := ⟨0, 23, 1⟩
def RSIG_EN : DFld := ⟨0, 24, 1⟩
def RSIG_CTR : DFld := ⟨0, 25, 6⟩
def FLOW_EN : DFld := ⟨0, 31, 1⟩
def FLOW : DFld := ⟨0, 32, 14⟩
def WAIT_VALUE : DFld := ⟨1, 0, 32⟩
def LOCAL_ADDR : DFld := ⟨2, 0, 32⟩
def REMOTE_ADDR : DFld := ⟨2, 32, 32⟩
def RANK : DFld := ⟨3, 0, 12⟩
def ENDPOINT : DFld := ⟨3, 16, 9⟩
def GROUP : DFld := ⟨3, 32, 12⟩
def ROW_BYTES : DFld := ⟨4, 0, 26⟩
def ROWS : DFld := ⟨4, 32, 16⟩
def LOCAL_STRIDE : DFld := ⟨5, 0, 32⟩
def REMOTE_STRIDE : DFld := ⟨5, 32, 32⟩
def FORMAT : DFld := ⟨4, 0, 4⟩
def STORE : DFld := ⟨4, 4, 1⟩
def TARGET_CTR : DFld := ⟨4, 8, 6⟩
def OPERAND : DFld := ⟨6, 0, 64⟩
def CHANNEL : DFld := ⟨3, 0, 6⟩
def AM_HANDLER : DFld := ⟨3, 16, 10⟩
def EXPECT_REPLY : DFld := ⟨3, 32, 1⟩
def AM_LENGTH : DFld := ⟨4, 0, 13⟩
def RING : DFld := ⟨3, 32, 12⟩
def REPLY_HANDLER : DFld := ⟨4, 16, 10⟩
def REPLY_TAG : DFld := ⟨4, 32, 16⟩
end D

/-- A field of a descriptor's words. -/
def dget (ws : List Word) (f : DFld) : Nat := fieldGet (ws.getD f.word 0) f.lo f.width
def dflag (ws : List Word) (f : DFld) : Bool := dget ws f != 0

/-- Whether every bit of a descriptor outside the listed fields is zero (R142). -/
def onlyFields (ws : List Word) (fs : List DFld) : Bool :=
  (List.range 8).all (fun n =>
    (ws.getD n 0) &&& ~~~ ((fs.filter (fun f => f.word = n)).foldl (fun m f => m ||| fieldMask f.lo f.width) 0#64) == 0)

end Sys2Proof.Machine
end

