-- ==== Sys2Proof/Machine/Owners.lean ====
section
/-! DEFINITION. Banks: their ownership registers, the ownership checks, and reads with their error counts (R191 to R199). -/

namespace Sys2Proof.Machine

/-- Bytes of a bank of an endpoint's memory (Table 8-1). -/
def bankSize (ep : Nat) : Nat := if ep < 256 then 0x10000 else 0x40000

/-- How many banks an endpoint's memory has. -/
def bankCount (ep : Nat) : Nat := if ep < 256 then 48 else if ep < 280 then 256 else 0

/-- Register and copy that hold the ownership of a bank. -/
def bankReg (ep : Nat) : Reg := if ep < 256 then .CP_BANKOWN else .SP_BANKOWN
def bankCopy (ep b : Nat) : Nat := if ep < 256 then 48 * ep + b else 256 * (ep - 256) + b

/-- A field of a bank's ownership register; SP_BANKOWN has the fields of Table 8-8 too. -/
def State.bank (s : State) (f : Fld) (ep b : Nat) : Nat :=
  fieldGet (s.word (bankReg ep) (bankCopy ep b)) f.lo f.width

/-- Sets fields of a bank's ownership register. -/
def State.setBank (s : State) (ep b : Nat) (l : List (Fld × Nat)) : State :=
  s.setWord (bankReg ep) (bankCopy ep b)
    (l.foldl (fun w e => fieldPut w e.1.lo e.1.width e.2) (s.word (bankReg ep) (bankCopy ep b)))

/-- The banks that `n` bytes from `a` touch. -/
def banksOf (ep a n : Nat) : List Nat :=
  if n = 0 then []
  else (List.range ((a + n - 1) / bankSize ep - a / bankSize ep + 1)).map (fun k => a / bankSize ep + k)

/-- Whether a packet passes check 10 at a bank (Table 8-3). -/
def State.netOwns (s : State) (p : Packet) (ep b : Nat) : Bool :=
  let part := pget p H.PARTITION
  let owner := s.bank F.CP_BANKOWN_OWNER_PART ep b
  if s.bank F.CP_BANKOWN_STATE ep b != 1 then false
  else if s.bank F.CP_BANKOWN_NET_HELD ep b = 1 then
    (pget p H.OPCODE = Op.RED_DOWN || pget p H.OPCODE = Op.PUT_MC)
      && pget p H.GROUP = s.bank F.CP_BANKOWN_GROUP ep b && part = owner
  else if s.bank F.CP_BANKOWN_SHARED ep b = 1 then part = owner
  else pget p H.SRC_CHIP = s.own && pget p H.SRC_EP = s.bank F.CP_BANKOWN_OWNER_EP ep b
    && (part = owner || pget p H.SRC_EP = 286 || pget p H.SRC_EP = 287)

/-- Whether core port `i` may use a bank of its own SRAM (R199); `grp` names the group of a collective command. -/
def State.coreOwns (s : State) (i b : Nat) (grp : Option Nat := none) : Bool :=
  s.bank F.CP_BANKOWN_STATE i b = 1 && s.bank F.CP_BANKOWN_OWNER_EP i b = i
    && some (s.bank F.CP_BANKOWN_OWNER_PART i b) = s.partOfCore i
    && (s.bank F.CP_BANKOWN_NET_HELD i b = 0 || some (s.bank F.CP_BANKOWN_GROUP i b) = grp)

/-- Whether core port `i` may use every bank that bytes of its own SRAM touch. -/
def State.coreOwnsAll (s : State) (i a n : Nat) (grp : Option Nat := none) : Bool :=
  (banksOf i a n).all (fun b => s.coreOwns i b grp)

/-- Reads an endpoint's memory for a packet or a command: words with a single-bit error are corrected and counted,
uncorrectable ones counted (R196). -/
def State.countReads (s : State) (ep a n : Nat) : State :=
  let ws := wordsOf (memBase ep + a) n
  let bad := (ws.filter (fun w => s.badWords.contains w)).length
  let soft := (ws.filter (fun w => s.softWords.contains w && !s.badWords.contains w)).length
  if ep < 256 then (s.sat F.CP_BANKERR_CORRECTED ep soft).sat F.CP_BANKERR_UNCORR ep bad
  else (s.sat F.SP_ERRCNT_CORRECTED (ep - 256) soft).sat F.SP_ERRCNT_UNCORR (ep - 256) bad

/-- Counts a packet refused at check 10. -/
def State.countNoOwner (s : State) (ep : Nat) : State :=
  if ep < 256 then s.sat F.CP_BANKERR_NOOWNER ep else s.sat F.SP_ERRCNT_NOOWNER (ep - 256)

/-- Poison bits of the payload flits that `n` bytes read from `a` fill. -/
def State.readPoison (s : State) (ep a n : Nat) : List Bool :=
  (List.range (ceilDiv n 64)).map (fun k => s.isBad ep (a + 64 * k) (Nat.min 64 (n - 64 * k)))

end Sys2Proof.Machine
end

