-- ==== Sys2Proof/Machine/Issue.lean ====
section
/-! DEFINITION. Sending from a source: packets are built as they are written, wait at their source for their gate and for
room in the out FIFO, and leave in the order of their streams (R77, R106, R107, R124 to R126, R141, R158, R202, R213, R326). -/

namespace Sys2Proof.Machine

/-! ### Building a packet of a command -/

/-- The chip of a rank of a partition's job, by the tables of parity `e` (R106). -/
def State.translateE (s : State) (e part rank : Nat) : Option Nat :=
  let n := 1024 * part + rank / 4
  let v := [F.RK_RANKMAP_VALID0, F.RK_RANKMAP_VALID1, F.RK_RANKMAP_VALID2, F.RK_RANKMAP_VALID3].getD (rank % 4) F.RK_RANKMAP_VALID0
  let c := [F.RK_RANKMAP_CHIP0, F.RK_RANKMAP_CHIP1, F.RK_RANKMAP_CHIP2, F.RK_RANKMAP_CHIP3].getD (rank % 4) F.RK_RANKMAP_CHIP0
  if s.flagE e v n then some (s.getE e c n) else none

/-- What building a packet of a command gives: the packet with its gate, or the status that leaves it unsent (R158). -/
inductive PktBuild where
  | bad (st : Nat)
  | ok (w : OutWait)
deriving DecidableEq, Repr

/-- A packet with header fields set and a payload: DATA_POISON, and for an AM_REPLY STATUS POISON, where a flit is
poisoned (R97, R188). -/
def withPayload (p : Packet) (fields : List (HFld × Nat)) (bytes : List Byte) (poison : List Bool) : Packet :=
  let bad := poison.any (fun b => b)
  let q := pset p (fields ++ (if bad then (H.DATA_POISON, 1) :: (if pget p H.OPCODE = Op.AM_REPLY then [(H.STATUS, St.POISON)] else [])
    else []))
  if bytes.isEmpty then q
  else
    let chunks := pieces 64 bytes.length bytes
    { q with body := (List.range chunks.length).map (fun k => ⟨flitOfBytes (chunks.getD k []), poison.getD k false⟩) }

/-- The bytes, the parity, the translation and the route of a command's packet at the moment it is written (R106, R107,
R326); a source bank that is no longer owned leaves it unsent with NO_OWNER (R202). A chunk of a collective keeps the parity
of its start, and a source bank that is no longer owned poisons every flit (R246). -/
def State.build (s : State) (w : OutWait) : PktBuild :=
  match w.form with
  | none => .ok w
  | some f =>
    let i := fifoCore w.fifo
    let e := s.parity
    let read (l : List (HFld × Nat)) : Packet :=
      withPayload w.pkt ((H.EPOCH, e) :: l) (s.readBytes i f.src f.len) (s.readPoison i f.src f.len)
    let owned := s.coreOwnsAll i f.src f.len f.coll
    if f.coll.isSome then
      let poison := if owned then s.readPoison i f.src f.len else List.replicate (ceilDiv f.len 64) true
      .ok { w with pkt := withPayload w.pkt [] (s.readBytes i f.src f.len) poison }
    else if !owned then .bad St.NO_OWNER
    else
      match f.rank with
      | none =>
        let g := pget w.pkt H.GROUP
        .ok { w with pkt := read [], gate := match w.gate with
          | .room _ => .room (roomKey (16 * coreRy i + coreRx i) e 7 g .multicast)
          | x => x }
      | some r =>
        match s.translateE e f.part r with
        | none => .bad St.RANGE
        | some chip =>
          let p := read [(H.DST_CHIP, chip)]
          match s.routeOf (windowSource i) p with
          | .here => .ok { w with pkt := p, gate := .free }
          | .none => .bad St.RANGE
          | .shut => .bad St.UNREACHABLE
          | .out x => .ok { w with pkt := p, gate := .window x }

/-- The first status other than OK stays a command's status (R158). -/
def Cmd.noteStatus (c : Cmd) (st : Nat) : Cmd := if c.status = 0 then { c with status := st } else c

/-- Whether a waiting packet belongs to a command. -/
def waitsFor (c : Cmd) (w : OutWait) : Bool :=
  match w.form with
  | some f => f.pos == c.pos && w.queue == c.queue && fifoCore w.fifo == c.core && c.pkts.any (fun k => k.offset == f.off)
  | none => false

/-- A command's record of its packets with the one at an offset marked unsent. -/
def Cmd.unsend (c : Cmd) (off : Nat) : Cmd :=
  { c with pkts := c.pkts.map (fun k => if k.offset = off then { k with sent := false } else k) }

/-- Where a core port's SRAM supplies the source bytes of a packet: the forms' offsets name packet records. -/
def formOff (w : OutWait) : Nat := match w.form with | some f => f.off | none => 0

/-- A waiting packet of a command stays unsent, with a status (R158, R202). -/
def State.dropForm (s : State) (w : OutWait) (st : Nat) : State :=
  { s with outWait := s.outWait.erase w
           cmds := s.cmds.map (fun c => if !c.done && waitsFor c w then (c.noteStatus st).unsend (formOff w) else c) }

/-! ### Gates and FIFOs -/

/-- Writes a packet into an out FIFO; its flits count against its window, or its move as started (R124, R213). -/
def State.launch (s : State) (n : Nat) (g : Gate) (p : Packet) : State :=
  let s := s.pushFifo n p
  match g with
  | .free => s
  | .window w => s.put F.OP_EGWIN_OUTSTANDING w (s.get F.OP_EGWIN_OUTSTANDING w + (flitsOf p).length)
  | .room k => s.startMove k

/-- Notes the command queue whose packet a core port took last. -/
def State.noteTurn (s : State) (n q : Nat) : State :=
  if q < 16 then { s with turns := upsert s.turns (fifoCore n) q } else s

/-- Sends a packet from its source: at once where its gate and its out FIFO let it, its writer's clock runs and nothing waits
for that FIFO, else it waits at the source (R124); a wait for the window is counted in WAITS. `q` is the command queue it
comes from. -/
def State.emit (s : State) (n : Nat) (g : Gate) (p : Packet) (q : Nat := 16) : State :=
  let f := (flitsOf p).length
  if !s.outWait.any (fun e => e.fifo == n) && s.gateOpen g f && f ≤ s.room n && s.writerRuns n then
    (s.launch n g p).noteTurn n q
  else
    let shut := match g with | .window _ => !s.gateOpen g f | _ => false
    let s := { s with outWait := s.outWait ++ [⟨n, q, g, none, shut, p⟩] }
    match g with
    | .window w => if shut then s.wrap F.OP_EGWIN_WAITS w else s
    | _ => s

/-- A packet of a command joins those that wait at its core port: it is built when it is written. -/
def State.enqueue (s : State) (n q : Nat) (g : Gate) (f : Form) (p : Packet) : State :=
  { s with outWait := s.outWait ++ [⟨n, q, g, some f, false, p⟩] }

/-- Whether two waiting packets must keep their order: those of one command queue, and of one gate elsewhere. -/
def OutWait.sameStream (a b : OutWait) : Bool :=
  a.fifo == b.fifo && a.queue == b.queue && (a.queue < 16 || a.gate == b.gate)

/-- The first packet of every stream. -/
def streamHeads : List OutWait → List OutWait → List OutWait
  | _, [] => []
  | seen, e :: t => if seen.any (fun x => x.sameStream e) then streamHeads seen t else e :: streamHeads (e :: seen) t

/-- Whether a packet may leave its source as far as its gate goes; one that is not to be sent does not wait. -/
def State.maySend (s : State) (e : OutWait) : Bool :=
  match s.build e with
  | .bad _ => true
  | .ok b => s.gateOpen b.gate (flitsOf b.pkt).length

/-- The packet that goes into a FIFO next: among the first packets of the streams whose gates are open, the oldest where
it comes from no command queue, else that of the next queue in turn (R141). A writer without a clock writes nothing (R77). -/
def State.nextOut (s : State) (n : Nat) : Option OutWait :=
  if !s.writerRuns n then none
  else
    match (streamHeads [] (s.outWait.filter (fun e => e.fifo == n))).filter (fun e =>
        s.maySend e && (16 ≤ e.queue || s.coreRuns (fifoCore n))) with
    | [] => none
    | e :: t =>
      if 16 ≤ e.queue then some e
      else
        let last := (lookup s.turns (fifoCore n)).getD 15
        (((List.range 16).map (fun k => (last + 1 + k) % 16)).findSome? (fun q => (e :: t).find? (fun x => x.queue == q))).or (some e)

/-- Writes a waiting packet into its FIFO; a command's source bytes are read as it is (R196). -/
def State.leave (s : State) (e b : OutWait) : State :=
  let s := { s with outWait := s.outWait.erase e }
  let s := match e.form with
    | some f => s.countReads (fifoCore e.fifo) f.src f.len
    | none => s
  (s.launch e.fifo b.gate b.pkt).noteTurn e.fifo e.queue

/-- Lets the packets that wait for a FIFO go, one at a time, until the next does not fit. -/
def State.pumpFifo (s : State) (n : Nat) : Nat → State
  | 0 => s
  | fuel + 1 =>
    match s.nextOut n with
    | none => s
    | some e =>
      match s.build e with
      | .bad st => (s.dropForm e st).pumpFifo n fuel
      | .ok b => if (flitsOf b.pkt).length ≤ s.room n then (s.leave e b).pumpFifo n fuel else s

/-- Counts in WAITS the packets at the front of their streams that have come to wait for their window (Table 5-6). -/
def State.noteWaits (s : State) : State :=
  (streamHeads [] s.outWait).foldl (fun s e =>
    match s.build e with
    | .bad _ => s
    | .ok b =>
      match b.gate with
      | .window w =>
        if e.counted || s.gateOpen b.gate (flitsOf b.pkt).length then s
        else ({ s with outWait := s.outWait.map (fun x => if x = e then { x with counted := true } else x) } : State).wrap
          F.OP_EGWIN_WAITS w
      | _ => s) s

/-- Lets waiting packets go after room or a window has opened. -/
def State.pump (s : State) : State :=
  ((s.outWait.map (fun e => e.fifo)).eraseDups.foldl (fun s n => s.pumpFifo n s.outWait.length) s).noteWaits

/-! ### Answers -/

/-- Sends a reply from the endpoint that answers; one whose route is closed is discarded and counted (R126). A reply that
finds PORT 7 at its source is handled in the same way (DESIGN CHOICE, log entry 37). -/
def State.sendReply (s : State) (ep : Nat) (p : Packet) : State :=
  match s.routeOf (windowSource ep) p with
  | .here => s.emit (s.outFifo ep p) .free p
  | .out w => s.emit (s.outFifo ep p) (.window w) p
  | .none => s.countRoute ep
  | .shut => s.countRoute ep

/-- Answers a request from an endpoint. -/
def State.answer (s : State) (ep : Nat) (req : Packet) (opcode status : Nat) (bytes : List Byte := [])
    (poison : List Bool := []) (extra : List (HFld × Nat) := []) : State :=
  (s.drawn).sendReply ep (s.replyTo ep req opcode status bytes poison extra)

/-- Refuses a request (R94). -/
def State.nack (s : State) (ep : Nat) (req : Packet) (status : Nat) : State := s.answer ep req Op.NACK status

end Sys2Proof.Machine
end

