-- ==== Sys2Proof/Machine/Answer.lean ====
section
/-! DEFINITION. Alorn's answers: response words, the idempotence cache and the end of background commands (R338 to
R342, Tables 13-2 to 13-4). -/

namespace Sys2Proof.Machine

/-! Alorn status codes beside those packets carry (Table 13-3). -/
namespace AS
def OK : Nat := 0x00
def RANGE : Nat := 0x03
def TIMEOUT : Nat := 0x04
def ORDER : Nat := 0x07
def ABORTED : Nat := 0x08
def UNREACHABLE : Nat := 0x09
def REFUSED : Nat := 0x0B
def BROKEN : Nat := 0x11
def BUSY : Nat := 0x20
def UNKNOWN : Nat := 0x21
def IN_PROGRESS : Nat := 0x22
def DRAINED : Nat := 0x23
def STUCK : Nat := 0x24
def NOT_HOLDER : Nat := 0x25
def AUTH : Nat := 0x26
end AS

/-! DETAIL with REFUSED (Table 13-4). -/
namespace DT
def LIFECYCLE : Nat := 1
def ACTIVE : Nat := 2
def PORT_STATE : Nat := 3
def SLOT_STATE : Nat := 4
def SHADOW : Nat := 5
def NOT_NEXT : Nat := 6
def NO_SPARE : Nat := 7
def PLAN : Nat := 8
def COORDS : Nat := 9
def NEW_PARTITION : Nat := 0xA
end DT

/-! Command codes (Table 13-5). -/
namespace AC
def GET_VERSION : Nat := 0x01
def GET_CENSUS : Nat := 0x02
def SELF_TEST : Nat := 0x03
def CLAIM : Nat := 0x08
def RELEASE : Nat := 0x09
def LOAD_STENCIL : Nat := 0x10
def APPLY_EPOCH : Nat := 0x11
def QUIESCE : Nat := 0x18
def RESUME : Nat := 0x19
def FENCE : Nat := 0x1A
def PORT_ADMIT : Nat := 0x20
def PORT_QUARANTINE : Nat := 0x21
def PORT_REMAP : Nat := 0x22
def LANE_SPARE : Nat := 0x23
def LASER_PREPARE : Nat := 0x28
def LASER_RESTORE : Nat := 0x29
def SET_COORDS : Nat := 0x30
def SET_TIMEBASE : Nat := 0x31
def BANK_HANDOVER : Nat := 0x38
def READ_COUNTERS : Nat := 0x40
def READ_EVENTS : Nat := 0x41
def SEAL_KEY : Nat := 0x48
def ZEROIZE : Nat := 0x49
def LIFECYCLE : Nat := 0x4A
end AC

/-- Changes Alorn's own state. -/
def State.modAlorn (s : State) (f : Alorn → Alorn) : State := { s with alorn := f s.alorn }

/-- The words of a response (Table 13-2). -/
def State.responseWords (s : State) (cmd st : Nat) (tag : BitVec 32) (detail : Nat) (data : List Word) : List Word :=
  let time := (s.word .TM_TIMESTAMP 0).toNat % 2 ^ 32
  BitVec.ofNat 64 (cmd % 256 + 2 ^ 8 * st + 2 ^ 16 * (16 + 8 * data.length) + 2 ^ 32 * tag.toNat)
    :: BitVec.ofNat 64 (detail % 2 ^ 16 + 2 ^ 24 * 3 + 2 ^ 32 * time) :: data

/-- Sets bits of word 1 of a response: REPEAT is bit 16, RELAYED bit 17. -/
def withBit (b : Nat) : List Word → List Word
  | w0 :: w1 :: t => w0 :: (w1 ||| (1#64 <<< b)) :: t
  | l => l

/-- The final response of the request of a source and TAG stands in its cache entry (R340). -/
def State.cacheAnswer (s : State) (src : Source) (tag : BitVec 32) (resp : List Word) (busy : Bool) : State :=
  s.modAlorn (fun a => { a with cache := a.cache.map (fun e =>
    if e.src = src && e.tag = tag then { e with busy := busy, resp := resp } else e) })

/-- Ends a background command with its final response (R339). -/
def State.endBackground (s : State) (b : Background) (st : Nat) (detail : Nat := 0) (data : List Word := []) : State :=
  (s.modAlorn (fun a => { a with background := a.background.erase b })).cacheAnswer b.src b.tag
    (s.responseWords b.cmd st b.tag detail data) false

/-- The background commands of a command code. -/
def State.backgroundOf (s : State) (cmd : Nat) : List Background :=
  s.alorn.background.filter (fun b => b.cmd == cmd)

/-- Ends every background command of a code whose argument passes. -/
def State.endAll (s : State) (cmd : Nat) (keep : Nat → Bool) (st : Nat) (detail : Nat := 0) (data : List Word := []) :
    State :=
  ((s.backgroundOf cmd).filter (fun b => keep b.arg)).foldl (fun s b => s.endBackground b st detail data) s

/-! ### Answers on their way -/

/-- The bytes of words, each little-endian (R5). -/
def wordBytes (ws : List Word) : List Byte := ws.flatMap (fun w => leBytes 8 w.toNat)

/-- A MGMT packet that Alorn builds for the chip beyond logical port `l`, addressed to the port itself (R121). -/
def State.mgmtPacket (s : State) (l : Nat) (response : Bool) (tag : BitVec 16) (ws : List Word) : Packet :=
  mkPacket [(H.OPCODE, Op.MGMT), (H.TAG, tag.toNat), (H.RESPONSE, b2n response), (H.EPOCH, s.parity), (H.DST_CHIP, s.own), (H.DST_EP, 280 + l),
    (H.SRC_CHIP, s.own), (H.SRC_EP, 287)] (wordBytes ws) []

/-- Alorn sends a MGMT packet through logical port `l`, by its management window there (R121, R124, R126). -/
def State.sendMgmt (s : State) (l : Nat) (response : Bool) (tag : BitVec 16) (ws : List Word) : State :=
  let p := s.mgmtPacket l response tag ws
  let w := egwin l 2 21
  if s.window w = 0 then s.countRoute 287 else s.emit (s.outFifo 287 p) (.window w) p

/-- The answer goes back the way its request came: the mailbox, an MCTP message, or a MGMT response (R333 to R336). -/
def State.deliver (s : State) (a : Asker) (ws : List Word) : State :=
  match a.src with
  | .mailbox =>
    let s := (List.range (Nat.min 128 ws.length)).foldl (fun s k => s.setWord .AL_MBRSP k (ws.getD k 0)) s
    s.put F.AL_MBCTL_RSP_VALID 0 1
  | .mctp eid => s.modAlorn (fun al => { al with outbox := al.outbox ++ [⟨eid, a.msgTag, a.ic, ws⟩] })
  | .relayed p _ => s.sendMgmt p.val true a.hdr ws

/-- A final answer: it stands in the cache and goes to the requester. -/
def State.finalAnswer (s : State) (a : Asker) (ws : List Word) : State := (s.cacheAnswer a.src a.tag ws false).deliver a ws

/-! ### The management lock (R346 to R348) -/

def evLockBroken : Event := ⟨0xA01, 1⟩
def evLockReleased : Event := ⟨0xA02, 0⟩

/-- SRC, ID and EXTRA of AL_LOCK for a source. -/
def lockFields : Source → Nat × Nat × Nat
  | .mailbox => (0, 0, 0)
  | .mctp eid => (1, eid.toNat, 0)
  | .relayed p origin => (2, p.val, origin.toNat)

/-- Whether a source holds the lock. -/
def State.holdsLock (s : State) (src : Source) : Bool :=
  s.flag F.AL_LOCK_HELD 0
    && (s.get F.AL_LOCK_SRC 0, s.get F.AL_LOCK_ID 0, s.get F.AL_LOCK_EXTRA 0) == lockFields src

/-- Staging is emptied; its binding stays. -/
def State.emptyStaging (s : State) : State := s.modAlorn (fun a => { a with stage := [] })

/-- Staging is emptied and released. -/
def State.freeStaging (s : State) : State := s.modAlorn (fun a => { a with stageSrc := none, stageSize := 0, stage := [] })

/-- Staging bound to the holder is emptied (R348). -/
def State.dropStaging (s : State) : State :=
  match s.alorn.stageSrc with
  | some src => if s.holdsLock src then s.emptyStaging else s
  | none => s

/-- AL_LOCK as it reads: AGE_US counts from the last restart of the lease. -/
def State.lockImage (s : State) : Word :=
  let w := s.word .AL_LOCK 0
  if s.flag F.AL_LOCK_HELD 0 then
    fieldPut w F.AL_LOCK_AGE_US.lo F.AL_LOCK_AGE_US.width (Nat.min 0xFFFFF ((s.now - s.alorn.lockSince) * 4 / 625))
  else w

/-- The lock breaks: cause 1 holder reset, 2 the lease. -/
def State.breakLock (s : State) (cause : Nat) : State :=
  if !s.flag F.AL_LOCK_HELD 0 then s
  else
    let img := s.lockImage
    let s := (s.dropStaging.event evLockBroken 9 0 img.toNat cause).setWord .AL_LOCK 0 img
    ((s.put F.AL_LOCK_HELD 0 0).put F.AL_LOCK_BROKEN 0 1).modAlorn (fun a => { a with brokenLock := img, brokenCause := cause })

end Sys2Proof.Machine
end

