-- ==== Sys2Proof/Machine/Num.lean ====
section
/-! DEFINITION. The number formats of Table 4-4 and their arithmetic (R208, R225 to R229): integers modulo 2^n,
floating formats with one rounding to nearest even, and B8 blocks. -/

namespace Sys2Proof.Machine

/-- A floating format: width, significand bits with the hidden one, exponent of the smallest subnormal (negated),
largest finite magnitude, whether it has infinities, canonical NaN (Table 9-6). -/
structure FloatFmt where
  width : Nat
  prec : Nat
  sub : Nat
  top : Nat
  hasInf : Bool
  nan : Nat
deriving DecidableEq, Repr

def fp32 : FloatFmt := ⟨32, 24, 149, 0x7F7FFFFF, true, 0x7FC00000⟩
def fp16 : FloatFmt := ⟨16, 11, 24, 0x7BFF, true, 0x7E00⟩
def bf16 : FloatFmt := ⟨16, 8, 133, 0x7F7F, true, 0x7FC0⟩
def e4m3 : FloatFmt := ⟨8, 4, 9, 0x7E, false, 0x7F⟩
def e5m2 : FloatFmt := ⟨8, 3, 16, 0x7B, true, 0x7E⟩

/-- The floating format of a FORMAT code other than B8 (Table 4-4). -/
def floatOf (fmt : Nat) : Option FloatFmt :=
  [none, none, some fp32, some fp16, some bf16, some e4m3, some e5m2].getD fmt none

/-- An exact value: a NaN, an infinity, or a signed whole number of units of 2^-160. Every finite value of every
format, B8 blocks included, is such a number. -/
inductive Val where
  | nan
  | inf (neg : Bool)
  | fin (neg : Bool) (m : Nat)
deriving DecidableEq, Repr

/-- The value an encoding has. -/
def decodeF (f : FloatFmt) (b : Nat) : Val :=
  let neg := b.testBit (f.width - 1)
  let a := b % 2 ^ (f.width - 1)
  let man := a % 2 ^ (f.prec - 1)
  let ex := a / 2 ^ (f.prec - 1)
  if f.top < a then (if f.hasInf && a = f.top + 1 then .inf neg else .nan)
  else
    let m := if ex = 0 then man else (man + 2 ^ (f.prec - 1)) * 2 ^ (ex - 1)
    .fin neg (m * 2 ^ (160 - f.sub))

/-- Rounds `m` units of 2^-u once to a format, to nearest even, keeping subnormals (R226, R227). -/
def roundMag (f : FloatFmt) (u m : Nat) : Nat :=
  if m = 0 then 0
  else
    let base := u - f.sub
    let lsb := Nat.max (Nat.log2 m + 1 - f.prec) base
    let q := m / 2 ^ lsb
    let r := m % 2 ^ lsb
    let half := 2 ^ lsb / 2
    let up := lsb != 0 && (half < r || (r = half && q % 2 = 1))
    (lsb - base) * 2 ^ (f.prec - 1) + q + b2n up

/-- The sign bit of a format. -/
def signBit (f : FloatFmt) (neg : Bool) : Nat := if neg then 2 ^ (f.width - 1) else 0

/-- The encoding of a magnitude of `m` units of 2^-u; beyond the largest finite value it is an infinity, or the
largest finite value where the format has none. -/
def encodeMag (f : FloatFmt) (u : Nat) (neg : Bool) (m : Nat) : Nat :=
  let a := roundMag f u m
  signBit f neg + (if a ≤ f.top then a else if f.hasInf then f.top + 1 else f.top)

/-- The encoding of a value (R227). -/
def encodeF (f : FloatFmt) (v : Val) : Nat :=
  match v with
  | .nan => f.nan
  | .inf neg => signBit f neg + (if f.hasInf then f.top + 1 else f.top)
  | .fin neg m => encodeMag f 160 neg m

/-- The exact sum (Table 9-5, column ADD). -/
def addVal (a b : Val) : Val :=
  match a, b with
  | .nan, _ => .nan
  | .inf _, .nan => .nan
  | .fin .., .nan => .nan
  | .inf x, .inf y => if x = y then .inf x else .nan
  | .inf x, .fin .. => .inf x
  | .fin .., .inf y => .inf y
  | .fin x m, .fin y n =>
    if x = y then .fin x (m + n)
    else if n < m then .fin x (m - n)
    else if m < n then .fin y (n - m)
    else .fin false 0

/-- Whether one value is below another; −0 is below +0 (Table 9-5). -/
def below (a b : Val) : Bool :=
  match a, b with
  | .nan, _ => false
  | _, .nan => false
  | .inf x, .inf y => x && !y
  | .inf x, .fin .. => x
  | .fin .., .inf y => !y
  | .fin x m, .fin y n =>
    match x, y with
    | true, true => n < m
    | true, false => true
    | false, true => false
    | false, false => m < n

/-- Floating addition in one format. -/
def addF (f : FloatFmt) (a b : Nat) : Nat := encodeF f (addVal (decodeF f a) (decodeF f b))

/-- Floating minimum (`hi` false) or maximum: the operand chosen keeps its bits, and a NaN gives the canonical NaN. -/
def pickF (f : FloatFmt) (hi : Bool) (a b : Nat) : Nat :=
  let x := decodeF f a
  let y := decodeF f b
  if x = .nan || y = .nan then f.nan
  else if hi then (if below x y then b else a) else (if below y x then b else a)

/-- Bytes of one element, or of one unit of B8 (Table 4-4). -/
def unitBytes (fmt : Nat) : Nat := [4, 8, 4, 2, 2, 1, 1, 264].getD fmt 0

/-- Whether a FORMAT code is one of Table 4-4's. -/
def fmtKnown (fmt : Nat) : Bool := fmt < 8

/-- Whether a format is an integer format. -/
def isInt (fmt : Nat) : Bool := fmt < 2

/-- The operators a format admits (Table 9-4). -/
def opAllowed (fmt op : Nat) : Bool :=
  if isInt fmt then op ≤ 5 else if fmt = 7 then op ≤ 1 else fmt < 7 && op ≤ 3

/-- An operator on two integers of `w` bits (R225). -/
def intOp (w op a b : Nat) : Nat :=
  match op with
  | 1 => (a + b) % 2 ^ w
  | 2 => if signedOf w b < signedOf w a then b else a
  | 3 => if signedOf w a < signedOf w b then b else a
  | 4 => Nat.land a b
  | 5 => Nat.lor a b
  | _ => a

/-- An operator on two elements of a format other than B8 (R225, R226). -/
def elemOp (fmt op a b : Nat) : Nat :=
  match floatOf fmt with
  | none => intOp (if fmt = 0 then 32 else 64) op a b
  | some f =>
    match op with
    | 1 => addF f a b
    | 2 => pickF f false a b
    | 3 => pickF f true a b
    | _ => a

/-- Conversion of one integer element (R225). -/
def intConv (src dst op a : Nat) : Nat :=
  if src = dst then a
  else if src = 0 then wrapInt 64 (signedOf 32 a)
  else if op = 2 || op = 3 then
    let v := signedOf 64 a
    wrapInt 32 (if v < -(2 ^ 31 : Nat) then -(2 ^ 31 : Nat) else if (2 ^ 31 - 1 : Nat) < v then (2 ^ 31 - 1 : Nat) else v)
  else a % 2 ^ 32

/-- Conversion of one element between formats other than B8 (R225, R227). -/
def elemConv (src dst op a : Nat) : Nat :=
  if src = dst then a
  else
    match floatOf src, floatOf dst with
    | some f, some g => encodeF g (decodeF f a)
    | _, _ => intConv src dst op a

/-- The values of a B8 block, a scale and 32 elements (R228). -/
def decodeB8 (blk : List Nat) : List Val :=
  match blk with
  | [] => []
  | sc :: es => es.map (fun e =>
      if sc = 255 then .nan
      else
        match decodeF e4m3 e with
        | .fin n m => .fin n (m * 2 ^ sc / 2 ^ 127)
        | v => v)

/-- Magnitude of a finite value. -/
def finMag : Val → Option Nat
  | .fin _ m => some m
  | _ => none

/-- Encodes 32 values into a B8 block (R228). -/
def encodeB8 (vs : List Val) : List Nat :=
  if vs.all (fun v => v = .nan) then 255 :: vs.map (fun _ => 0x7F)
  else
    let top := (vs.filterMap finMag).foldl Nat.max 0
    let sc := if top = 0 then 127
      else ((List.range 255).find? (fun k => top * 2 ^ 127 ≤ 464 * 2 ^ 160 * 2 ^ k)).getD 254
    sc :: vs.map (fun v =>
      match v with
      | .nan => 0x7F
      | .inf neg => encodeF e4m3 (.inf neg)
      | .fin neg m => encodeMag e4m3 (33 + sc) neg m)

/-- ADD on two B8 blocks (R229). -/
def addB8 (a b : List Nat) : List Nat :=
  encodeB8 (List.zipWith addVal (decodeB8 a) (decodeB8 b))

/-- The arithmetic of an atomic at a bank (Table 8-6): the value stored; `add` is ATOM_ADD. -/
def atomicOp (add : Bool) (fmt old operand : Nat) : Nat :=
  if add then elemOp fmt 1 old operand else operand

/-- The length an atomic's FORMAT fixes, where the pairing is one of R90. -/
def atomicLen (add : Bool) (fmt : Nat) : Option Nat :=
  if add then
    (if fmt = 0 then some 4 else if fmt = 1 then some 8 else if fmt = 2 then some 4 else if fmt = 4 then some 2 else none)
  else (if fmt = 0 then some 4 else if fmt = 1 then some 8 else none)

/-- One step of the CRC-32 of IEEE 802.3, bit by bit (R342). -/
def crcStep (c : Nat) : Nat → Nat
  | 0 => c
  | n + 1 => crcStep (if c % 2 = 1 then Nat.xor (c / 2) 0xEDB88320 else c / 2) n

/-- CRC-32 of IEEE 802.3: reflected, initial value and final exclusive-or 0xFFFF_FFFF. -/
def crc32 (bs : List Byte) : Nat :=
  Nat.xor (bs.foldl (fun c b => crcStep (Nat.xor c b.toNat) 8) 0xFFFFFFFF) 0xFFFFFFFF

end Sys2Proof.Machine
end

