-- ==== Sys2Proof/Machine/Banks.lean ====
section
/-! DEFINITION. Banks: writes of payload, atomics, outstanding targets and the
handover of a bank (R191 to R209). -/

namespace Sys2Proof.Machine

/-- Writes payload bytes, poisoned flits as the poison pattern (R97). -/
def State.writePayload (s : State) (ep a : Nat) (bs : List Byte) (poison : List Bool) : State :=
  (List.range (ceilDiv bs.length 64)).foldl (fun s k =>
    let part := (bs.drop (64 * k)).take 64
    if poison.getD k false then s.poisonBytes ep (a + 64 * k) part.length
    else s.writeBytes ep (a + 64 * k) part) s

/-- An atomic at a bank (R208): the value returned, whether the word was unusable, and the state after. The bytes of
the word beside the operand keep their value. -/
def State.atomicAt (s : State) (add : Bool) (fmt ep a len operand : Nat) : Nat × Bool × State :=
  let s := s.countReads ep a len
  if s.isBad ep a len then (0, true, s)
  else
    let old := s.readNat ep a len
    (old, false, s.writeBytes ep a (leBytes len (atomicOp add fmt old operand)))

/-! ### Outstanding targets and INFLIGHT -/

/-- Local targets of a command: GET rows, or the eight bytes of an atomic's STORE. -/
def cmdTargets (ws : List Word) : List (Nat × Nat) :=
  let cmd := dget ws D.CMD
  if cmd = 2 then
    (List.range (dget ws D.ROWS)).map (fun (r : Nat) =>
      (wrapInt 32 ((dget ws D.LOCAL_ADDR : Int) + (r : Int) * signedOf 32 (dget ws D.LOCAL_STRIDE)), dget ws D.ROW_BYTES))
  else if (cmd = 4 || cmd = 5) && dflag ws D.STORE then [(dget ws D.LOCAL_ADDR, 8)]
  else []

/-- Whether a command's target touches bank `b` of its core's SRAM. -/
def targetsBank (c : Cmd) (b : Nat) : Bool :=
  (cmdTargets c.words).any (fun t => (banksOf c.core t.1 t.2).contains b)

/-- The rows of a command's target that touch bank `b`. -/
def targetsIn (c : Cmd) (b : Nat) : Nat :=
  ((cmdTargets c.words).filter (fun t => (banksOf c.core t.1 t.2).contains b)).length

/-- INFLIGHT of a bank (R202): the targets in it of commands outstanding at the owning core port; packets are carried out
whole, so none is under way between commands of the block. -/
def State.inflight (s : State) (ep b : Nat) : Nat :=
  ((s.cmds.filter (fun c => c.core = ep && !c.done && s.bank F.CP_BANKOWN_OWNER_EP ep b = ep
    && !c.lostBanks.contains b)).map (fun c => targetsIn c b)).sum

/-! ### Handover -/

/-- Event codes of banks (Table 15-4). -/
def evBankMoved : Event := ⟨0x103, 0⟩
def evHandoverBroken : Event := ⟨0x104, 2⟩

/-- The unit that reports for a memory: its core port or stack port. -/
def State.memEvent (s : State) (e : Event) (ep arg0 arg1 : Nat) : State :=
  s.event e (epWindow ep) (epUnit ep) arg0 arg1

/-- A handover request. -/
structure Handover where
  mem : Nat
  bank : Nat
  shared : Nat
  net : Nat
  group : Nat
  part : Nat
  ep : Nat
deriving DecidableEq, Repr

/-- The RK_HANDOVER entry that names a bank. -/
def State.hoEntry (s : State) (mem b : Nat) : Option Nat :=
  (List.range 64).find? (fun k => s.flag F.RK_HANDOVER_VALID k && s.get F.RK_HANDOVER_BANK_EP k == mem
    && s.get F.RK_HANDOVER_BANK k == b)

/-- A free RK_HANDOVER entry. -/
def State.hoFree (s : State) : Option Nat := (List.range 64).find? (fun k => !s.flag F.RK_HANDOVER_VALID k)

/-- PENDING of a core's CP_HANDOVER: one of its accepted requests has not ended. -/
def State.showPending (s : State) (i : Nat) : State :=
  s.put F.CP_HANDOVER_PENDING i (b2n (s.hoPending.any (fun e => e.1 == i)))

/-- Ends the requests of core ports on a bank, and frees its RK_HANDOVER entry where `free` says so. -/
def State.endRequests (s : State) (mem b : Nat) (free : Bool) : State :=
  let cores := (s.hoPending.filter (fun e => e.2.1 = mem && e.2.2 = b)).map (fun e => e.1)
  let s := { s with hoPending := s.hoPending.filter (fun e => !(e.2.1 == mem && e.2.2 == b)) }
  let s := cores.foldl State.showPending s
  match free, s.hoEntry mem b with
  | true, some k => { s.setWord .RK_HANDOVER k 0 with hoSince := remove s.hoSince k }
  | _, _ => s

/-- Writes NEXT and PENDING (step 3 of Table 8-5), and takes or renews the lock (R203, R204). -/
def State.startHandover (s : State) (holder : Nat) (job : Nat) (k : Nat) (h : Handover) : State :=
  let s := s.setBank h.mem h.bank [(F.CP_BANKOWN_STATE, 2), (F.CP_BANKOWN_NEXT_SHARED, h.shared),
    (F.CP_BANKOWN_NEXT_NET, h.net), (F.CP_BANKOWN_NEXT_PART, h.part), (F.CP_BANKOWN_NEXT_EP, h.ep),
    (F.CP_BANKOWN_NEXT_GROUP, h.group)]
  let w := [(F.RK_HANDOVER_VALID, 1), (F.RK_HANDOVER_BANK_EP, h.mem), (F.RK_HANDOVER_BANK, h.bank),
    (F.RK_HANDOVER_HOLDER_EP, holder), (F.RK_HANDOVER_JOB, job)].foldl
      (fun (w : Word) (e : Fld × Nat) => fieldPut w e.1.lo e.1.width e.2) 0
  { s.setWord .RK_HANDOVER k w with hoSince := upsert s.hoSince k s.now }

/-- How a BANK_HANDOVER that waits names its bank. -/
def bankArg (mem b : Nat) : Nat := mem + 512 * b

/-- Gives a bank to the owner named: owner fields, or NET_HELD and GROUP for a handover to the network (R207);
STATE OWNED, and BANK_MOVED logged with the new image; a BANK_HANDOVER that waits for this is answered. -/
def State.giveBank (s : State) (h : Handover) : State :=
  let owner := if h.net = 1 then [] else
    [(F.CP_BANKOWN_SHARED, h.shared), (F.CP_BANKOWN_OWNER_PART, h.part), (F.CP_BANKOWN_OWNER_EP, h.ep)]
  let s := s.setBank h.mem h.bank ([(F.CP_BANKOWN_STATE, 1), (F.CP_BANKOWN_NET_HELD, h.net),
    (F.CP_BANKOWN_GROUP, h.group)] ++ owner)
  (s.memEvent evBankMoved h.mem (h.mem + 512 * h.bank) (s.word (bankReg h.mem) (bankCopy h.mem h.bank)).toNat).endAll
    AC.BANK_HANDOVER (fun a => a == bankArg h.mem h.bank) AS.OK

/-- Whether a handover names a bank that exists and a next owner that R197 allows, with a valid group (Table 8-4). -/
def State.handoverValid (s : State) (h : Handover) : Bool :=
  s.present h.mem && h.mem < 280 && h.bank < bankCount h.mem
    && (if h.ep < 256 then s.present h.ep && s.partOfCore h.ep == some h.part else h.ep = 286 || h.ep = 287)
    && (h.net = 0 || (s.flag F.RK_GROUP_VALID h.group && s.get F.RK_GROUP_PARTITION h.group == h.part))

/-- A CP_HANDOVER write by core `i`: the result of Table 8-4 and the state after (R201 to R207). -/
def State.coreHandover (s : State) (i : Nat) (h : Handover) : Nat × State :=
  let own := s.partOfCore i
  let state := s.bank F.CP_BANKOWN_STATE h.mem h.bank
  let mine := s.bank F.CP_BANKOWN_OWNER_EP h.mem h.bank = i
    && some (s.bank F.CP_BANKOWN_OWNER_PART h.mem h.bank) = own
  let next := s.bank F.CP_BANKOWN_NEXT_EP h.mem h.bank = i && h.ep = i
    && h.part = s.bank F.CP_BANKOWN_NEXT_PART h.mem h.bank
  if !s.handoverValid h || some h.part != own then (St.RANGE, s)
  else if state = 3 && (mine || next) then
    (St.BROKEN, (s.endRequests h.mem h.bank true).giveBank h)
  else if state = 2 then (St.REFUSED, s)
  else if !(state = 1 && mine) then (St.NO_OWNER, s)
  else
    match s.hoFree with
    | none => (St.REFUSED, s)
    | some k =>
      let s := s.startHandover i (s.get F.RK_PARTJOB_JOB h.part) k h
      let s := { s with hoPending := s.hoPending ++ [(i, h.mem, h.bank)] }
      (St.OK, s.showPending i)

/-- A request by Alorn, BANK_HANDOVER or a BANKS record (R203, R206, R310): 0 accepted or PENDING, BROKEN for a claim,
REFUSED without a free entry. -/
def State.alornHandover (s : State) (h : Handover) : Nat × State :=
  let state := s.bank F.CP_BANKOWN_STATE h.mem h.bank
  let job := s.get F.RK_PARTJOB_JOB h.part
  if state = 3 then (St.BROKEN, (s.endRequests h.mem h.bank true).giveBank h)
  else if state = 2 then
    match s.hoEntry h.mem h.bank with
    | some k => (St.OK, s.startHandover 287 job k h)
    | none => (St.REFUSED, s)
  else
    match s.hoFree with
    | none => (St.REFUSED, s)
    | some k => (St.OK, s.startHandover 287 job k h)

/-- Whether a pending bank has drained (steps 5 and 6 of Table 8-5): nothing in flight, its rings disabled, and the
queues whose arrays lie in it idle. -/
def State.bankDrained (s : State) (ep b : Nat) : Bool :=
  let lo := b * bankSize ep
  let hits (a n : Nat) : Bool := a < lo + bankSize ep && lo < a + n
  s.inflight ep b = 0
    && (ep ≥ 256 ||
      (s.rings.all (fun e => !(e.1 / 4096 = ep && (hits e.2.base e.2.size
          || hits (s.get F.CP_RINGTAB_BASE ep) 0x20000)))
        && (List.range 16).all (fun q =>
          let n := 16 * ep + q
          !(hits (s.get F.CP_QBASE_DESC_BASE n) 0x4000 || hits (s.get F.CP_QBASE_COMP_BASE n) 0x2000)
            || (!s.flag F.CP_QCTL_ENABLE n && s.get F.CP_QSTAT_RETIRE n == s.get F.CP_QTAIL_TAIL n))))

/-- The handover a pending or broken bank's NEXT fields describe. -/
def State.nextOf (s : State) (ep b : Nat) : Handover :=
  { mem := ep, bank := b, shared := s.bank F.CP_BANKOWN_NEXT_SHARED ep b, net := s.bank F.CP_BANKOWN_NEXT_NET ep b
    group := s.bank F.CP_BANKOWN_NEXT_GROUP ep b, part := s.bank F.CP_BANKOWN_NEXT_PART ep b
    ep := s.bank F.CP_BANKOWN_NEXT_EP ep b }

/-- Step 7 of Table 8-5, where the bank is PENDING and has drained. -/
def State.finishHandover (s : State) (ep b : Nat) : State :=
  if s.bank F.CP_BANKOWN_STATE ep b = 2 && s.bankDrained ep b then
    (s.endRequests ep b true).giveBank (s.nextOf ep b)
  else s

/-- Breaks the lock of a pending bank (R205); cause 0 reset, 1 lease. -/
def State.breakHandover (s : State) (ep b cause : Nat) : State :=
  if s.bank F.CP_BANKOWN_STATE ep b != 2 then s
  else
    let holder := match s.hoEntry ep b with | some k => s.get F.RK_HANDOVER_HOLDER_EP k | none => 0
    let n := Nat.min 255 (s.inflight ep b)
    let s := s.setBank ep b [(F.CP_BANKOWN_STATE, 3)]
    let s := { s with cmds := s.cmds.map (fun (c : Cmd) =>
      if c.core = ep && !c.done && targetsBank c b then { c with lostBanks := c.lostBanks ++ [b] } else c) }
    (s.endRequests ep b false).memEvent evHandoverBroken ep (ep + 512 * b + 2 ^ 17 * holder + 2 ^ 26 * cause) n

/-- Breaks every lock of a holder that is reset (R205). -/
def State.breakAll (s : State) (holder : Nat) : State :=
  (List.range 64).foldl (fun s k =>
    if s.flag F.RK_HANDOVER_VALID k && s.get F.RK_HANDOVER_HOLDER_EP k = holder then
      s.breakHandover (s.get F.RK_HANDOVER_BANK_EP k) (s.get F.RK_HANDOVER_BANK k) 0
    else s) s

end Sys2Proof.Machine
end

