-- ==== Sys2Proof/Machine/Complete.lean ====
section
/-! DEFINITION. Commands in progress: SERIALs, event counters, the completion record and RETIRE (R147, R153 to
R158), and the answers that packets of a command receive. -/

namespace Sys2Proof.Machine

/-- Copies of per-queue, per-counter and per-channel registers of core `i`. -/
def qCopy (i q : Nat) : Nat := 16 * i + q
def evCopy (i k : Nat) : Nat := 64 * i + k
def chCopy (i n : Nat) : Nat := 64 * i + n

/-- Adds to an event counter, modulo 2^32 (R153). -/
def State.signalCtr (s : State) (i k n : Nat) : State := s.wrap F.CP_EVCNT_VALUE (evCopy i k) n

/-- A command before it has issued anything. -/
def Cmd.begin (core queue pos : Nat) (words : List Word) : Cmd :=
  { core := core, queue := queue, pos := pos, words := words, serial := 0, tries := 0, pkts := [], status := 0
    result := 0, origRefused := false, mcFailed := 0, fanout := 1, lostBanks := [], outFlits := 0, rused := 0, flow := none
    coll := none, done := false }

/-- Whether two commands are the same one: same core, queue and position. -/
def Cmd.same (a b : Cmd) : Bool := a.core == b.core && a.queue == b.queue && a.pos == b.pos

/-- Stores a command's progress, or adds the command. -/
def State.setCmd (s : State) (c : Cmd) : State :=
  if s.cmds.any (fun d => d.same c) then { s with cmds := s.cmds.map (fun d => if d.same c then c else d) }
  else { s with cmds := s.cmds ++ [c] }

/-- Whether a command waits for answers before it completes (R156, R163). -/
def expectsAnswers (ws : List Word) : Bool :=
  let cmd := dget ws D.CMD
  cmd = 2 || cmd = 4 || cmd = 5 || cmd = 0x10 || (cmd < 0x10 && (dflag ws D.ACK_REQ || dflag ws D.FLOW_EN))

/-- Whether a packet of a command counts as failed (R158). -/
def pktFailed (ws : List Word) (p : PktRec) : Bool :=
  !p.sent || (match p.answer with
    | some st => st != St.OK && st != St.DUPLICATE
    | none => expectsAnswers ws)

/-- FAILED of the completion record: packets, or for PUT_MC member deliveries, of which an unanswered or unsent packet
stands for all (R158). A command that has cut no packet reports 0 (DESIGN CHOICE, log entry 38). -/
def cmdFailed (c : Cmd) : Nat :=
  if dget c.words D.CMD = 3 then
    c.mcFailed + c.fanout * (c.pkts.filter (fun p => !p.sent || (p.answer.isNone && expectsAnswers c.words))).length
  else match c.coll with
    | some r => r.failed
    | none => (c.pkts.filter (pktFailed c.words)).length

/-- FIRST_OFFSET of the completion record. -/
def cmdFirst (c : Cmd) : Nat :=
  match c.coll with
  | some r => if r.failed = 0 then 0 else r.first
  | none => match c.pkts.find? (pktFailed c.words) with | some p => p.offset | none => 0

/-- The four words of a completion record (Table 6-6), its 32 bytes. -/
def recordBytes (c : Cmd) (status time : Nat) : List Byte :=
  let orig := c.origRefused && status = St.DUPLICATE
  let w0 := status + 2 ^ 8 * dget c.words D.CMD + 2 ^ 16 * (1 - c.pos / 256 % 2) + 2 ^ 17 * b2n orig
    + 2 ^ 18 * c.tries + 2 ^ 32 * c.serial + 2 ^ 44 * c.queue
  leBytes 8 w0 ++ leBytes 8 c.result.toNat ++ leBytes 4 (cmdFailed c) ++ leBytes 4 (cmdFirst c) ++ leBytes 8 time

/-- Advances RETIRE over completed commands in position order (R157). -/
def State.retire (s : State) (i q : Nat) : Nat → State
  | 0 => s
  | fuel + 1 =>
    let r := s.get F.CP_QSTAT_RETIRE (qCopy i q)
    if s.cmds.any (fun c => c.core == i && c.queue == q && c.pos == r && c.done) then
      let s := { s with cmds := s.cmds.filter (fun c => !(c.core == i && c.queue == q && c.pos == r)) }
      (s.put F.CP_QSTAT_RETIRE (qCopy i q) ((r + 1) % 512)).retire i q fuel
    else s

/-- Ticks of the request timeout of a queue (6.4 ns each). -/
def State.timeoutTicks (s : State) (i q : Nat) : Nat := s.get F.CP_QCTL_TIMEOUT_US (qCopy i q) * 625 / 4

/-- The tag every packet of a command's issue carries (R147). -/
def cmdTag (c : Cmd) : Nat := 4096 * c.queue + c.serial

/-- Copies of XB_FIFO of a core's request out and reply out FIFOs. -/
def coreFifo (i k : Nat) : Nat := 256 * (i / 16) + 6 * (i % 16) + k

/-- Whether a waiting packet is a contribution, a broadcast chunk or an arrival of a command that is a collective. -/
def collWaits (c : Cmd) (w : OutWait) : Bool :=
  c.coll.isSome && w.queue == c.queue
    && (w.fifo == coreFifo c.core 4 || ((w.fifo == coreFifo c.core 0 || w.fifo == coreFifo c.core 2)
      && (pget w.pkt H.OPCODE == Op.RED_UP || pget w.pkt H.OPCODE == Op.RED_DOWN)))

/-- Releases the channel credit and the reply reservation a command still holds (R180, R184). -/
def State.releaseAm (s : State) (c : Cmd) : State :=
  let n := chCopy c.core (dget c.words D.CHANNEL)
  let s := if c.outFlits = 0 then s else s.put F.CP_AMSTAT_OUT n (s.get F.CP_AMSTAT_OUT n - c.outFlits)
  if c.rused = 0 then s else s.put F.CP_AMSTAT_RUSED n (s.get F.CP_AMSTAT_RUSED n - c.rused)

/-- Releases the BUSY of the send flow context a command held (R159). -/
def State.endFlow (s : State) (fl : Option Nat) : State :=
  match fl with
  | some n => s.put F.RK_FLOWSEQ_BUSY n 0
  | none => s

/-! ### What a ring's table entry shows (R167, R175) -/

/-- Key of ring `k` of core `i`. -/
def ringKey (i k : Nat) : Nat := 4096 * i + k

/-- Address of a ring table entry (R167). -/
def State.ringEntry (s : State) (i k : Nat) : Nat := s.get F.CP_RINGTAB_BASE i + 32 * k

/-- Word 1 of a ring table entry as the core port writes it (Table 7-1). -/
def ringWord1 (r : Ring) (held enabled bad : Bool) : Nat :=
  r.writePos + 2 ^ 21 * b2n held + 2 ^ 22 * b2n enabled + 2 ^ 23 * b2n bad + 2 ^ 32 * (r.messages % 2 ^ 32)

/-- Whether any message for a ring is held, in a hold or a reply reservation (R175). -/
def State.ringHeld (s : State) (i k : Nat) : Bool := s.holds.any (fun h => h.core == i && h.ring == k)

/-- Writes words 1 and 2 of an enabled ring's entry. -/
def State.showRing (s : State) (i k : Nat) : State :=
  match lookup s.rings (ringKey i k) with
  | none => s
  | some r =>
    (s.writeBytes i (s.ringEntry i k + 8) (leBytes 8 (ringWord1 r (s.ringHeld i k) true false))).writeBytes i
      (s.ringEntry i k + 16) (leBytes 8 r.readPos)

/-- Reply reservations of a command that completes are given up; their rings show it (R175, R188). -/
def State.dropReplies (s : State) (c : Cmd) : State :=
  let hit (h : Held) : Bool :=
    h.reply && h.core == c.core && pget h.pkt H.TAG == cmdTag c && dget c.words D.CMD = 0x10 && !c.pkts.isEmpty
  let t := { s with holds := s.holds.filter (fun h => !hit h) }
  (s.holds.filter hit).foldl (fun s h => s.showRing h.core h.ring) t

/-- Completes a command: record, then local signal; BUSY, credit and reservation released; RETIRE advances (R154,
R157). A SERIAL with answers outstanding is skipped for one further timeout (R147). -/
def State.complete (s : State) (c : Cmd) (status : Nat) : State :=
  let c := (s.outWait.filter (waitsFor c)).foldl (fun c w => c.unsend (formOff w)) c
  let s := s.writeBytes c.core (s.get F.CP_QBASE_COMP_BASE (qCopy c.core c.queue) + 32 * (c.pos % 256))
    (recordBytes c status (s.stampAt (c.core / 16)).toNat)
  let s := if status = St.TIMEOUT then s.sat F.CP_ERRCNT_TIMEOUTS c.core else s
  let s := if dflag c.words D.LSIG_EN then s.signalCtr c.core (dget c.words D.LSIG_CTR) 1 else s
  let s := (s.endFlow c.flow).releaseAm c
  let open' := expectsAnswers c.words && c.pkts.any (fun p => p.sent && p.answer.isNone)
  let s := if open' then
      { s with stale := s.stale ++ [(qCopy c.core c.queue, c.serial, s.now + s.timeoutTicks c.core c.queue)] } else s
  let s := s.dropReplies c
  let s := { s with outWait := s.outWait.filter (fun w => !waitsFor c w && !collWaits c w) }
  let s := s.setCmd { c with done := true, outFlits := 0, rused := 0, flow := none }
  s.retire c.core c.queue 512

/-- The next SERIAL of a queue, skipping those R147 holds back. -/
def State.takeSerial (s : State) (i q : Nat) : Nat × State :=
  let n := s.get F.CP_QSTAT_SERIAL (qCopy i q)
  let held := s.stale.filter (fun e => e.1 = qCopy i q && s.now < e.2.2)
  let k := ((List.range 4096).find? (fun k => !held.any (fun e => e.2.1 == (n + k) % 4096))).getD 0
  let v := (n + k) % 4096
  (v, { s.put F.CP_QSTAT_SERIAL (qCopy i q) ((v + 1) % 4096) with
        stale := s.stale.filter (fun e => s.now < e.2.2) })

/-- Whether a command has nothing left to send, nothing left to wait for, and a working core port to write its record
(R77, R156, R158, R398). -/
def State.ended (s : State) (c : Cmd) : Bool :=
  !c.done && c.coll.isNone && s.coreRuns c.core && !s.outWait.any (waitsFor c)
    && (!expectsAnswers c.words || (c.pkts.any (fun k => !k.sent) && c.pkts.all (fun k => !k.sent || k.answer.isSome)))

/-- Completes the commands that need no answer and whose packets have all been issued (R156), and those that wait for
none because what they had left was not sent (R158). -/
def State.settle (s : State) : State :=
  (s.cmds.filter s.ended).foldl (fun s c => s.complete c c.status) s

/-- Lets waiting packets go and completes what that completes. -/
def State.flow (s : State) : State := s.pump.settle

/-- The command of core `i` that a TAG names: the current issue of a command not complete (R147). -/
def State.cmdOf (s : State) (i tag : Nat) : Option Cmd :=
  s.cmds.find? (fun c => c.core == i && !c.done && c.coll.isNone && cmdTag c == tag && !c.pkts.isEmpty)

/-- A reserved status counts as POISON (R95). -/
def statusOf (p : Packet) : Nat := if pget p H.STATUS ≤ 0xB then pget p H.STATUS else St.POISON

/-- Marks the first unanswered packet of a command at an address as answered; none where there is none. -/
def answerPkt (pkts : List PktRec) (addr st : Nat) : Option (PktRec × List PktRec) :=
  match pkts with
  | [] => none
  | p :: t =>
    if p.sent && p.answer.isNone && pget p.pkt H.ADDRESS = addr then some (p, { p with answer := some st } :: t)
    else (answerPkt t addr st).map (fun r => (r.1, p :: r.2))

/-- Whether every packet sent has been answered. -/
def allAnswered (c : Cmd) : Bool := c.pkts.all (fun p => !p.sent || p.answer.isSome)

/-- Local address of the bytes a GET packet asked for (R146, R148). -/
def getTarget (ws : List Word) (off : Nat) : Nat :=
  let rb := dget ws D.ROW_BYTES
  if rb = 0 then dget ws D.LOCAL_ADDR
  else wrapInt 32 ((dget ws D.LOCAL_ADDR : Int) + ((off / rb : Nat) : Int) * signedOf 32 (dget ws D.LOCAL_STRIDE)
    + ((off % rb : Nat) : Int))

/-- Stores a command after an answer, and completes it once every packet has been answered. -/
def State.afterAnswer (s : State) (c : Cmd) : State :=
  if expectsAnswers c.words && allAnswered c && !s.outWait.any (fun w => waitsFor c w) then s.complete c c.status
  else s.setCmd c

/-- A packet that a closed route keeps at its source: of a command it counts as not sent (R158), a reply is discarded and
counted (R122, R126). -/
def State.dropWait (s : State) (w : OutWait) : State :=
  if w.form.isSome then s.dropForm w St.UNREACHABLE
  else ({ s with outWait := s.outWait.erase w } : State).countRoute (pget w.pkt H.SRC_EP)

/-- Logical port `l` has left service: what waits for its request and reply windows at its source goes no further, and a
command whose sent packets have all been answered completes (R122, R158). -/
def State.shutPort (s : State) (l : Nat) : State :=
  let hit (w : OutWait) : Bool := match s.build w with
    | .ok b => (match b.gate with
      | .window n => n / 96 == l && n % 96 < 64
      | _ => false)
    | .bad st => st = St.UNREACHABLE
  ((s.outWait.filter hit).foldl (fun s w => s.dropWait w) s).settle

end Sys2Proof.Machine
end

