-- ==== Sys2Proof/Machine/Mesh.lean ====
section
/-! DEFINITION. Crossing FIFOs, handshake channels and routers: FIFO writes and reads, admission, handshakes, header
routing and arbitration (R35 to R52, R61 to R71, R109 to R114). -/

namespace Sys2Proof.Machine

def evOverrun : Event := ⟨0x701, 2⟩

/-! ### Crossing FIFOs -/

/-- Whether the clocked side of a FIFO works: its clock has edges, and CORE_RESET of its core is released (R77, R398). -/
def State.sideRuns (s : State) (f : FifoId) : Bool :=
  s.hasEdges (fifoDomain f) && (match f with | .core i _ => !s.coreRst.contains i.val | _ => true)

/-- Out FIFOs have an even place in the order of Table 3-2. -/
def fifoOut (n : Nat) : Bool := fifoKind n % 2 = 1

/-- A request that the host side has sent is outstanding until its answer comes (R101). -/
def State.noteHostTag (s : State) (n : Nat) : State :=
  if n != 256 * 16 + 6 then s
  else
    match (s.fifo n).stages.reverse.find? stageHead with
    | none => s
    | some w =>
      let p : Packet := ⟨flitOf w, []⟩
      if pget p H.OPCODE = Op.GET_REQ || pflag p H.ACK_REQ then { s with hostTags := s.hostTags ++ [pget p H.TAG] } else s

/-- The mesh whose class a FIFO carries (R61); none for a Plumb FIFO. -/
def fifoMesh (n : Nat) : Option Mesh :=
  let k := fifoKind n
  if k = 1 || k = 2 then some .request else if k = 3 || k = 4 then some .reply else none

/-- Whether a FIFO's class is that of a packet that begins with a stage: a header that names no opcode goes on to the agent
that discards it (R61, R87). -/
def classFits (n : Nat) (w : Stage) : Bool :=
  let p : Packet := ⟨flitOf w, []⟩
  match fifoMesh n, classOf (pget p H.OPCODE) with
  | some _, some .plumb => false
  | some m, some _ => meshOf p = m
  | _, _ => true

/-- A packet's first stages are written and its tail is not yet. -/
def Fifo.writing (f : Fifo) : Bool :=
  f.lost || (match f.stages.getLast? with | some w => !stageTail w | none => false)

/-- Whether the clocked side's stage belongs to a packet of the FIFO's class: a header of the class, or a further flit of the
packet being written. What a writer offers beside that is no packet of this crossing (R61; DESIGN CHOICE, log entry 41). -/
def State.stageFits (s : State) (n : Nat) (w : Stage) : Bool :=
  if stageHead w then classFits n w else (s.fifo n).writing

/-- The clocked side writes one stage into an out FIFO (R66, R69). A packet whose tail is the flit lost stays part-written:
the next packet's flits join it, and that packet's tail takes POISON (DESIGN CHOICE, log entry 42). -/
def State.writeStage (s : State) (n d : Nat) (w : Stage) : State :=
  let f := s.fifo n
  if fifoDepth n ≤ f.stages.length then
    let s := s.setFifo n { f with lost := true }
    let s := (s.put F.XB_FIFO_OVERRUN n 1).put F.XB_DOMAIN_FIFO_OVR d 1
    (s.sat F.XB_ERRORS_OVERRUNS d).event evOverrun 6 d (n % 256)
  else
    let w := w &&& ~~~(1#524 <<< 523)
    let s := if stageHead w then s.noteOld (hget (stageData w) H.EPOCH) else s
    if stageTail w then
      let w := if f.lost then w ||| (1#524 <<< 522) else w
      let s := s.setFifo n { f with stages := f.stages ++ [w], lost := false }
      (s.wrap F.XB_FIFO_NOTICES n).noteHostTag n
    else s.setFifo n { f with stages := f.stages ++ [w] }

/-! ### The host bridge as a source (R115, R122, R124, R126) -/

/-- The host bridge keeps a packet back: a request is completed towards the host side with a status, a reply is discarded and
counted (R122, R126). -/
def State.hostRefuse (s : State) (p : Packet) (st : Nat) : State :=
  if classOf (pget p H.OPCODE) = some .request then
    { s.drawn with hostRx := s.hostRx ++ [s.replyTo 286 p Op.NACK st] }
  else s.countRoute 286

/-- The host side offers a header to a crossing FIFO of the bridge: it enters where its route and its window let it, and its
flits count against the window; one that must wait for its window waits at the bridge, which offers it again. -/
def State.hostHead (s : State) (n d : Nat) (w : Stage) : State :=
  let p : Packet := ⟨flitOf w, []⟩
  let f := 1 + payloadFlits p
  let enter (s : State) : State := ({ s with hostWait := remove s.hostWait n } : State).writeStage n d w
  match s.routeOf 20 p with
  | .here => enter s
  | .none => s.hostRefuse p St.RANGE
  | .shut => s.hostRefuse p St.UNREACHABLE
  | .out x =>
    if s.gateOpen (.window x) f then enter (s.put F.OP_EGWIN_OUTSTANDING x (s.get F.OP_EGWIN_OUTSTANDING x + f))
    else if lookup s.hostWait n = some (stageData w) then s
    else ({ s with hostWait := upsert s.hostWait n (stageData w) } : State).wrap F.OP_EGWIN_WAITS x

/-- The word a read of an empty FIFO returns (R70). -/
def notValid : Stage := 1#524 <<< 523

/-- The clocked side reads one stage of an in FIFO (R68, R70). -/
def State.readStage (s : State) (n d : Nat) : State :=
  let f := s.fifo n
  match f.stages, f.packets with
  | w :: t, _ + 1 =>
    let w' := if stageBad w = 0 then w else w ||| (1#524 <<< 522)
    (s.setFifo n { f with stages := t, last := w' }).sat F.XB_ERRORS_PARITY d (stageBad w)
  | _, _ => s.setFifo n { f with last := notValid }

def execFifoWrite (f : FifoId) (w : Stage) (s : State) : Host.Outcome State Fault Refusal :=
  live s (fun s =>
    let n := fifoCopy f
    if !fifoOut n || !s.sideRuns f || !s.stageFits n w then s
    else if stageHead w && (match f with | .host _ => true | _ => false) then s.hostHead n (fifoDomain f) w
    else s.writeStage n (fifoDomain f) w)

def execFifoRead (f : FifoId) (s : State) : Host.Outcome State Fault Refusal :=
  live s (fun s =>
    if !fifoOut (fifoCopy f) && s.sideRuns f then s.readStage (fifoCopy f) (fifoDomain f) else s)

/-! ### Handshake channels -/

/-- Column and row of a router. -/
def rxOf (r : Nat) : Nat := r % 16
def ryOf (r : Nat) : Nat := r / 16

/-- Optical port and attachment at a router's X0 (5) or X1 (6), if any (Table 1-4). -/
def portAt (r out : Nat) : Option (Nat × Nat) :=
  (((List.range 6).flatMap (fun p => (List.range 8).map (fun a => (p, a)))).find? (fun e =>
    portRx e.1 e.2 == rxOf r && portRy e.1 e.2 == ryOf r && portOutput e.1 e.2 == out))

/-- Stack at a router's X0, if any (R26). -/
def stackAt (r : Nat) : Option Nat :=
  (List.range 24).find? (fun st => stackRx st == rxOf r && (stackRy st == ryOf r || stackRy st + 1 == ryOf r))

/-- Whether a router's input or output has a link or attachment (R44). -/
def linkExists (r k : Nat) : Bool :=
  match k with
  | 0 => ryOf r < 15
  | 1 => rxOf r < 15
  | 2 => 0 < ryOf r
  | 3 => 0 < rxOf r
  | 4 => true
  | 7 => true
  | k => (portAt r k).isSome || (k = 5 && ((stackAt r).isSome || r = 16 * 15 + 8 || r = 8))

/-- The same, with output and input C only where the core is present (R29, R44). -/
def State.portThere (s : State) (r k : Nat) : Bool := linkExists r k && (k != 4 || s.present (coreAt (rxOf r) (ryOf r)))

/-- The core on one side of core `i`: 0 north, 1 east, 2 south, 3 west. -/
def sideOf (i side : Nat) : Nat :=
  let rx := coreRx i
  let ry := coreRy i
  match side with
  | 0 => coreAt rx (ry + 1)
  | 1 => coreAt (rx + 1) ry
  | 2 => coreAt rx (ry - 1)
  | _ => coreAt (rx - 1) ry

/-- Whether a neighbour channel joins core `i` to the core on a side (R24, R29). -/
def State.neighbour (s : State) (i side : Nat) : Bool :=
  linkExists (16 * coreRy i + coreRx i) side && sideOf i side / 16 = i / 16 && s.present i && s.present (sideOf i side)

/-- Mesh number: 0 request, 1 reply. -/
def meshNum : Mesh → Nat
  | .request => 0
  | .reply => 1

/-- Key of a channel's receiving end; the wires of a neighbour channel are those of its request sub-channel (R43). -/
def meshLink (m : Mesh) (r k : Nat) : Nat := (meshNum m * 256 + r) * 8 + k
def sideLink (m : Mesh) (i side : Nat) : Nat := 4096 + (meshNum m * 256 + i) * 4 + side
def stackLink (st a : Nat) : Nat := 8192 + 2 * st + a
def linkKey : LinkId → Nat
  | .router m r k => meshLink m r.val k.val
  | .neighbour m i side => sideLink m i.val side.val
  | .stack st a => stackLink st.val a.val
def wireKey : LinkId → Nat
  | .neighbour _ i side => 4096 + i.val * 4 + side.val
  | l => linkKey l

/-- Levels at rest, nothing taken. -/
def Link.initial : Link := ⟨0, false, [], [], 0, false⟩
def State.link (s : State) (k : Nat) : Link := (lookup s.links k).getD Link.initial

/-- The wires of group `g` that changed, as four bits. -/
def groupChange (change : BitVec 4180) (g : Nat) : Nat := (change.extractLsb' (4 * g) 4).toNat

/-- How a group reads: the value of its one changed wire; a violation when two or more changed (R35, R38). -/
inductive GroupRead where
  | value (v : Nat)
  | violation
  | idle
deriving DecidableEq, Repr

def readGroup (n : Nat) : GroupRead :=
  if n = 0 then .idle else if n = 1 then .value 0 else if n = 2 then .value 1 else if n = 4 then .value 2
  else if n = 8 then .value 3 else .violation

/-- The bits that groups `lo` to `lo + n - 1` carry; a violated group's two bits are free values. -/
def groupBits (ctr : Nat) (change : BitVec 4180) (lo n : Nat) : Nat :=
  (List.range n).foldl (fun acc k =>
    acc + 4 ^ k * (match readGroup (groupChange change (lo + k)) with
      | .value v => v
      | _ => (Config.linkBits (ctr + lo + k)).toNat)) 0

/-- How many of the groups are violated. -/
def violations (change : BitVec 4180) (lo n : Nat) : Nat :=
  ((List.range n).filter (fun k => readGroup (groupChange change (lo + k)) = .violation)).length

/-- Whether every one of the first `n` groups has changed: the handshake is complete (R35). -/
def handshakeDone (change : BitVec 4180) (n : Nat) : Bool :=
  (List.range n).all (fun g => readGroup (groupChange change g) != .idle)

/-- A flit as a channel's input takes it: poisoned by bad parity or a violation (R37, R38). -/
def takenFlit (data parity : Nat) (poison bad : Bool) : Flit × Bool :=
  let d := BitVec.ofNat 512 data
  let wrong := flitParity d != BitVec.ofNat 8 parity
  (⟨d, poison || wrong || bad⟩, wrong)

/-- Counts link errors where the channel's kind counts them (R37, R38, Table 2-9). -/
def State.countLink (s : State) (l : LinkId) (parity viol : Nat) : State :=
  if parity = 0 && viol = 0 then s
  else
    match l with
    | .stack st _ => (s.sat F.SP_PKTERR_PARITY st.val parity).sat F.SP_PKTERR_VIOLATIONS st.val viol
    | .router m r k =>
      match m with
      | .request =>
        (((s.sat F.RQ_LINKERR_PARITY r.val parity).sat F.RQ_LINKERR_VIOLATIONS r.val viol).put
          F.RQ_LINKERR_LAST_INPUT r.val k.val).put F.RQ_LINKERR_LAST_NEIGHBOUR r.val 0
      | .reply =>
        (((s.sat F.RP_LINKERR_PARITY r.val parity).sat F.RP_LINKERR_VIOLATIONS r.val viol).put
          F.RP_LINKERR_LAST_INPUT r.val k.val).put F.RP_LINKERR_LAST_NEIGHBOUR r.val 0
    | .neighbour m i side =>
      let r := 16 * coreRy i.val + coreRx i.val
      match m with
      | .request =>
        (((s.sat F.RQ_LINKERR_PARITY r parity).sat F.RQ_LINKERR_VIOLATIONS r viol).put
          F.RQ_LINKERR_LAST_FROM r side.val).put F.RQ_LINKERR_LAST_NEIGHBOUR r 1
      | .reply =>
        (((s.sat F.RP_LINKERR_PARITY r parity).sat F.RP_LINKERR_VIOLATIONS r viol).put
          F.RP_LINKERR_LAST_FROM r side.val).put F.RP_LINKERR_LAST_NEIGHBOUR r 1

/-! ### What stands at an output, and what a channel carries -/

/-- Key of an output. -/
def outKey (m : Mesh) (r out : Nat) : Nat := (meshNum m * 256 + r) * 8 + out

/-- The packet that stands at a router output: granted it, and not gone on to its end (R46). -/
def State.atOutput (s : State) (m : Mesh) (r out : Nat) : Option Packet :=
  match lookup s.grants (outKey m r out) with
  | some g => if g.parked || g.passed then none else some g.pkt
  | none => none

/-- The router and output whose link leads into input `inp` of router `r`. -/
def facing (r inp : Nat) : Option (Nat × Nat) :=
  if 4 ≤ inp || !linkExists r inp then none
  else some (if inp = 0 then (r + 16, 2) else if inp = 1 then (r + 1, 3) else if inp = 2 then (r - 16, 0) else (r - 1, 1))

/-- The tail of the packet at an output has passed: every output that its path holds is done with, back to its source
(R46). -/
def State.passTail (s : State) (m : Mesh) : Nat → Nat → Nat → State
  | 0, _, _ => s
  | fuel + 1, r, out =>
    match lookup s.grants (outKey m r out) with
    | none => s
    | some g =>
      if g.parked || g.passed then s
      else
        let s := { s with grants := upsert s.grants (outKey m r out) { g with passed := true } }
        match facing r g.inp with
        | some (r', o) => s.passTail m fuel r' o
        | none => s

/-- Longest path of a packet over the routers of the die. -/
def longestPath : Nat := 32

/-- A packet as a channel has delivered it: what handshakes have brought, poison and all, or where none was commanded the
packet itself; none while its tail has not come (R37, R38; DESIGN CHOICE, log entry 33). -/
def State.carried (s : State) (key : Nat) (p : Packet) : Option Packet :=
  let c := s.link key
  match c.ready with
  | q :: _ => some q
  | [] => if c.flits.isEmpty then some p else none

/-- The first packet that a channel has delivered goes on. -/
def State.takeReady (s : State) (key : Nat) : State :=
  let c := s.link key
  if c.ready.isEmpty then s else { s with links := upsert s.links key { c with ready := c.ready.tail } }

/-- The out FIFO, or a stack port's reply store, that feeds a router input. -/
def sourceFifo (m : Mesh) (r inp : Nat) : Option Nat :=
  let k := if m = .reply then 2 else 0
  if inp = 4 then some (coreFifo (coreAt (rxOf r) (ryOf r)) k)
  else if inp = 5 || inp = 6 then
    match portAt r inp with
    | some (q, a) => some (256 * 17 + 34 * q + 4 * a + k)
    | none =>
      if inp = 6 then none
      else match stackAt r with
        | some st => if m = .reply then some (4608 + 2 * st + (ryOf r - stackRy st)) else none
        | none => if r = 16 * 15 + 8 then some (256 * 16 + 6 + k) else if r = 8 then some (256 * 16 + k) else none
  else none

/-- The opcodes that use a neighbour channel (R42). -/
def besideOps : List Nat :=
  [Op.PUT, Op.GET_REQ, Op.GET_RSP, Op.ATOM_ADD, Op.ATOM_SWAP, Op.ATOM_RSP, Op.AM, Op.AM_REPLY, Op.ACK, Op.NACK, Op.SIGNAL]

/-- Whether core port `i` sends a packet on its neighbour channel, to which core (R42): a merged answer takes the tree. -/
def State.besideTo (s : State) (i : Nat) (p : Packet) : Option Nat :=
  let j := pget p H.DST_EP
  if besideOps.contains (pget p H.OPCODE) && !treePacket p && pget p H.DST_CHIP = s.own && j < 256
      && (List.range 4).any (fun side => s.neighbour i side && sideOf i side = j) then some j
  else none

/-- Whether a router input is taken by a packet whose tail has not passed. -/
def State.inputBusy (s : State) (m : Mesh) (r inp : Nat) : Bool :=
  s.waits.any (fun w => w.mesh = m && w.router = r && w.inp = inp)
    || (List.range 8).any (fun out => match lookup s.grants (outKey m r out) with
      | some g => g.inp = inp && !g.parked && !g.passed
      | none => false)

/-- The packet that its sender offers at a router input: the one at the output that faces it, or the oldest complete one of
the out FIFO that feeds it (R46, R54, R66). -/
def State.offeredAt (s : State) (m : Mesh) (r inp : Nat) : Option Packet :=
  if s.inputBusy m r inp || !s.portThere r inp then none
  else
    match facing r inp with
    | some (r', o) => s.atOutput m r' o
    | none =>
      match sourceFifo m r inp with
      | none => none
      | some n =>
        match s.front n with
        | none => none
        | some p => if inp = 4 && (s.besideTo (coreAt (rxOf r) (ryOf r)) p).isSome then none else some p

/-- The header at a router input, as its channel has delivered it. -/
def State.headerAt (s : State) (m : Mesh) (r inp : Nat) : Option Packet :=
  (s.offeredAt m r inp).bind (s.carried (meshLink m r inp))

/-- The router of a stack's attachment `a`. -/
def stackRouter (st a : Nat) : Nat := 16 * (stackRy st + a) + stackRx st

/-- The packet at attachment `a` of a stack port. -/
def State.atStack (s : State) (m : Mesh) (st a : Nat) : Option Packet :=
  (s.atOutput m (stackRouter st a) 5).bind (fun p => if m = .request then s.carried (stackLink st a) p else some p)

/-! ### Handshakes -/

/-- What the sender of a neighbour channel offers on a sub-channel: the oldest complete packet of its out FIFO, while the
receive buffer of 65 flits has room for the next handshake (R42, R43). -/
def State.besideOffer (s : State) (m : Mesh) (i side : Nat) : Option Packet :=
  let j := sideOf i side
  let c := s.link (sideLink m i side)
  match s.front (coreFifo j (if m = .reply then 2 else 0)) with
  | none => none
  | some p =>
    let held := c.flits.length + (c.ready.map (fun q => (flitsOf q).length)).sum
    if s.besideTo j p = some i && held + Nat.min 4 ((flitsOf p).length - 4 * c.shakes) ≤ 65 then some p else none

/-- Whether the sender of a channel offers a handshake. Where both sub-channels of a neighbour channel have one ready they
alternate, the reply sub-channel first (R43). -/
def State.offers (s : State) : LinkId → Bool
  | .router m r k => (s.offeredAt m r.val k.val).isSome && (s.link (meshLink m r.val k.val)).ready.isEmpty
  | .stack st a => (s.atOutput .request (stackRouter st.val a.val) 5).isSome && (s.link (stackLink st.val a.val)).ready.isEmpty
  | .neighbour m i side =>
    s.neighbour i.val side.val && (s.besideOffer m i.val side.val).isSome
      && (match m with
        | .reply => !(s.link (sideLink .request i.val side.val)).lastReply || (s.besideOffer .request i.val side.val).isNone
        | .request => (s.link (sideLink .request i.val side.val)).lastReply || (s.besideOffer .reply i.val side.val).isNone)

/-- Stores what a handshake delivered: the new levels, the acknowledge wire changed once, and the flits; with the packet's
tail the packet is whole. -/
def State.takeFlits (s : State) (l : LinkId) (levels : BitVec 4180) (head tail : Bool) (fs : List Flit) : State :=
  let k := linkKey l
  let c := s.link k
  let got := (if head then [] else c.flits) ++ fs
  let whole : List Packet := match got with | f :: t => [⟨f, t⟩] | [] => []
  let beside := match l with | .neighbour .. => true | _ => false
  let c' : Link := { c with
    ack := !c.ack, flits := if tail then [] else got, ready := if tail then c.ready ++ whole else c.ready
    shakes := if beside then c.shakes + 1 else 0 }
  let s : State := { s with links := upsert s.links k c' }
  let reply := match l with | .neighbour m _ _ => m = .reply | _ => false
  { s with links := upsert s.links (wireKey l) { s.link (wireKey l) with levels := levels, lastReply := reply } }

/-- A packet all of whose handshakes are made leaves the out FIFO of its sender (R42, R43). -/
def State.popNeighbour (s : State) (l : LinkId) : State :=
  match l with
  | .neighbour m i side =>
    let j := sideOf i.val side.val
    let n := coreFifo j (if m = .reply then 2 else 0)
    let k := linkKey l
    match s.front n with
    | none => s
    | some p =>
      if 4 * (s.link k).shakes < (flitsOf p).length then s
      else
        let s := { s with links := upsert s.links k { s.link k with shakes := 0 } }
        ((s.popFifo n).wrap F.TM_CPFLITS_OUT j (flitsOf p).length).flow
  | _ => s

/-- A handshake on a mesh link or a stack attachment: one flit of 264 groups (Table 2-1). -/
def State.meshHandshake (s : State) (l : LinkId) (levels change : BitVec 4180) : State :=
  let bits (lo n : Nat) := groupBits s.freeCtr change lo n
  let v := violations change 0 264
  let (f, wrong) := takenFlit (bits 0 256) (bits 256 4) (bits 261 1 % 2 = 1) (v != 0)
  (((s.takeFlits l levels (bits 260 1 % 2 = 1) (2 ≤ bits 260 1) [f]).countLink l (b2n wrong) v)).drawn 264

/-- A handshake on a neighbour channel: up to four flits in 1,045 groups; flits after the tail are ignored, the violations in
their groups counted (R35, R38, R43). Bit 0 of group 1042 is read as head and bit 1 as tail (DESIGN CHOICE, log entry 43). -/
def State.neighbourHandshake (s : State) (l : LinkId) (levels change : BitVec 4180) : State :=
  let bits (lo n : Nat) := groupBits s.freeCtr change lo n
  let ctl := bits 1042 1
  let count := bits 1043 1 + 1
  let shared := violations change 1042 3
  let fs := (List.range count).map (fun j =>
    takenFlit (bits (256 * j) 256) (bits (1024 + 4 * j) 4) ((bits 1040 2).testBit j)
      (violations change (256 * j) 256 + violations change (1024 + 4 * j) 4 + violations change (1040 + j / 2) 1 + shared != 0))
  let s := s.takeFlits l levels (ctl % 2 = 1) (2 ≤ ctl) (fs.map (fun e => e.1))
  let s := (s.countLink l (fs.filter (fun e => e.2)).length (violations change 0 1045)).drawn 1045
  s.popNeighbour l

/-- Whether the sub-channel bit of a neighbour handshake is the command's (group 1044); other channels carry none. -/
def subChannel (l : LinkId) (change : BitVec 4180) : Bool :=
  match l with
  | .neighbour m _ _ =>
    (match readGroup (groupChange change 1044) with
      | .value v => v % 2 == meshNum m
      | _ => true)
  | _ => true

/-- A handshake at a receiving end: `levels` are the levels of its data wires. Nothing is taken that the sender does not
offer, and where a group has not changed the handshake is not complete and the channel waits (R34, R35, R38). -/
def State.handshake (s : State) (l : LinkId) (levels : BitVec 4180) : State :=
  let change := levels ^^^ (s.link (wireKey l)).levels
  let n := match l with | .neighbour .. => 1045 | _ => 264
  if !s.offers l || !handshakeDone change n || !subChannel l change then s
  else
    match l with
    | .neighbour .. => s.neighbourHandshake l levels change
    | _ => s.meshHandshake l levels change

def execLinkHandshake (l : LinkId) (levels : BitVec 4180) (s : State) : Host.Outcome State Fault Refusal :=
  live s (fun s => s.handshake l levels)

/-! ### Admission to in FIFOs -/

/-- Where a packet stands that an in FIFO is to admit: at a router output, or in the buffer of a neighbour channel. -/
inductive Stand where
  | output (m : Mesh) (r out : Nat)
  | channel (key : Nat)
deriving DecidableEq, Repr

/-- Router and output that lead to an attachment's in FIFOs (Table 1-4, Table 2-4, R23, R26). -/
def fifoRouter : FifoId → Nat × Nat
  | .core i _ => (16 * coreRy i.val + coreRx i.val, 4)
  | .alorn _ => (8, 5)
  | .host _ => (16 * 15 + 8, 5)
  | .port p a _ => (16 * portRy p.val a.val + portRx p.val a.val, portOutput p.val a.val)
  | .portPlumb .. => (256, 7)
  | .portCopy .. => (256, 7)

/-- Where a packet stands before an in FIFO, if it does (R44, R54). -/
def State.standBefore (s : State) (f : FifoId) (p : Packet) : Option Stand :=
  match fifoMesh (fifoCopy f) with
  | none => none
  | some m =>
    let (r, out) := fifoRouter f
    if s.atOutput m r out = some p then some (.output m r out)
    else match f with
      | .core i _ => ((List.range 4).find? (fun side => (s.link (sideLink m i.val side)).ready.head? = some p)).map
          (fun side => .channel (sideLink m i.val side))
      | _ => none

/-- A packet has gone from where it stood. -/
def State.depart (s : State) : Stand → State
  | .output m r out => s.passTail m longestPath r out
  | .channel k => s.takeReady k

/-- A header at an in FIFO is admitted when the free stages cover its packet, else it is held (R67); while CORE_RESET
is asserted the packet is admitted at once and discarded (R81). A packet never brings more flits than its LENGTH tells. -/
def State.admitHeader (s : State) (f : FifoId) (w : Stand) (p : Packet) : State :=
  let n := fifoCopy f
  let need := Nat.max (flitsOf p).length (1 + payloadFlits p)
  let inReset := match f with | .core i _ => s.coreRst.contains i.val | _ => false
  if inReset then ((s.depart w).put F.XB_FIFO_HELD n 0).sat F.XB_ERRORS_DISCARDS (fifoDomain f) (flitsOf p).length
  else if fifoDepth n < (s.fifo n).stages.length + need then s.put F.XB_FIFO_HELD n 1
  else
    let s := ((s.depart w).put F.XB_FIFO_HELD n 0).pushFifo n p
    match f with
    | .core i _ => s.wrap F.TM_CPFLITS_IN i.val (flitsOf p).length
    | _ => s

/-! ### Packets at their endpoint -/

/-- An endpoint's in FIFO whose oldest complete packet is `p`; a stack port has none. -/
def State.inFifoAt (s : State) (ep : Nat) (p : Packet) : Option Nat :=
  let at' (k : Nat) : Nat :=
    if ep < 256 then coreFifo ep k
    else if ep < 286 then 256 * 17 + 34 * s.portOfEp ep + 4 * attachOf p + k
    else if ep = 286 then 256 * 16 + 6 + k
    else 256 * 16 + k
  if (256 ≤ ep && ep < 280) || 288 ≤ ep then none else ([1, 3].map at').find? (fun n => s.front n = some p)

/-- Mesh and attachment at which a packet stands before a stack port. -/
def State.stackDoor (s : State) (st : Nat) (p : Packet) : Option (Mesh × Nat) :=
  [(Mesh.request, 0), (.request, 1), (.reply, 0), (.reply, 1)].find? (fun e => s.atStack e.1 st e.2 = some p)

/-- Whether a packet is the one that an endpoint takes next from an in FIFO or, at a stack port, from an attachment. -/
def State.waitsAt (s : State) (ep : Nat) (p : Packet) : Bool :=
  if 256 ≤ ep && ep < 280 then (s.stackDoor (ep - 256) p).isSome else (s.inFifoAt ep p).isSome

/-- An endpoint takes that packet (R66, R67); a stack port notes the attachment it came by (R194). -/
def State.takeIn (s : State) (ep : Nat) (p : Packet) : State :=
  if 256 ≤ ep && ep < 280 then
    match s.stackDoor (ep - 256) p with
    | none => s
    | some (m, a) =>
      let s := if m = .request then s.takeReady (stackLink (ep - 256) a) else s
      ({ s with stackVia := upsert s.stackVia (ep - 256) a } : State).passTail m longestPath (stackRouter (ep - 256) a) 5
  else
    match s.inFifoAt ep p with
    | some n => s.popFifo n
    | none => s

/-! ### Routing and arbitration -/

/-- Output that leads to a mesh exit (R109, die_output). -/
def dieOutput (r tx ty o : Nat) : Nat :=
  if rxOf r < tx then 1 else if tx < rxOf r then 3 else if ryOf r < ty then 0 else if ty < ryOf r then 2 else o

/-- Row of the attachment of a stack that a packet leaves the mesh by, as a router on its path sees it (R112): a packet
that moves along its exit column entered the mesh on the side it comes from. -/
def State.stackRow (s : State) (st e r inp : Nat) : Nat :=
  let low := stackRy st
  let mode := s.getE e F.RK_ATTACHSEL_MODE / 4 ^ st % 4
  if mode = 1 then low
  else if mode = 2 then low + 1
  else if inp = 2 then low
  else if inp = 0 then low + 1
  else if ryOf r ≤ low then low else low + 1

/-- The output a unicast packet requests at router `r` (R109), if it has a mesh exit. -/
def State.unicastOutput (s : State) (r inp : Nat) (p : Packet) : Option Nat :=
  let e := pget p H.EPOCH
  let ep := pget p H.DST_EP
  let port (q : Nat) : Option Nat :=
    let a := attachOf p
    some (dieOutput r (portRx q a) (portRy q a) (portOutput q a))
  if pget p H.DST_CHIP != s.own then
    let l := s.getE e F.RK_CHIPROUTE_PORT (pget p H.DST_CHIP)
    if l < 6 then port (s.physOf l) else none
  else if ep < 256 then some (dieOutput r (coreRx ep) (coreRy ep) 4)
  else if ep < 280 then some (dieOutput r (stackRx (ep - 256)) (s.stackRow (ep - 256) e r inp) 5)
  else if ep = 286 then some (dieOutput r 8 15 5)
  else if ep = 287 then some (dieOutput r 8 0 5)
  else if ep < 286 then port (s.physOf (ep - 280))
  else none

/-- The output a header requests: a tree packet enters the router's Screed unit; one that leaves the Screed unit is
placed by the copy that sends it (R212). -/
def State.headerOutput (s : State) (r inp : Nat) (p : Packet) : Option Nat :=
  if treePacket p then (if inp = 7 then none else some 7) else s.unicastOutput r inp p

/-- The packet leaves the out FIFO that feeds the input; a core port's flits are counted (Table 15-2). -/
def State.leaveFifo (s : State) (m : Mesh) (r inp : Nat) (p : Packet) : State :=
  match sourceFifo m r inp with
  | none => s
  | some n =>
    let s := s.popFifo n
    (if inp = 4 then s.wrap F.TM_CPFLITS_OUT (coreAt (rxOf r) (ryOf r)) (flitsOf p).length else s).flow

/-- A header requests an output: granted where it is free or parked, else it waits (R45, R47, R52). -/
def State.requestOutput (s : State) (m : Mesh) (r inp out : Nat) (p : Packet) : State :=
  let k := outKey m r out
  let g : Grant := ⟨inp, s.now, false, false, p⟩
  match lookup s.grants k with
  | none => { s with grants := upsert s.grants k g }
  | some h =>
    if h.parked then { s with grants := upsert s.grants k g }
    else { s with waits := s.waits ++ [⟨m, r, inp, out, s.now, p⟩] }

/-- ROUTER_HEADER_ARRIVAL: the header at an input requests its output. Between routers a packet stands at the output it was
granted last, which it holds with all those behind it until its tail has passed (R46, R54). -/
def execRouterHeaderArrival (m : Mesh) (r : Fin 256) (inp : Fin 8) (pkt : Packet) (s : State) :
    Host.Outcome State Fault Refusal :=
  live s (fun s =>
    if s.headerAt m r.val inp.val != some pkt then s
    else
      match s.headerOutput r.val inp.val pkt with
      | none => s
      | some out => ((s.takeReady (meshLink m r.val inp.val)).leaveFifo m r.val inp.val pkt).requestOutput m r.val inp.val out pkt)

/-- The arbitration rank of an input at an output, in the bank in effect whatever the packet's EPOCH (R51). A header that
waits already at the epoch switch is ranked by the new bank too (DESIGN CHOICE, log entry 44). -/
def State.rankAt (s : State) (m : Mesh) (r out inp : Nat) : Nat :=
  let reg := match m with | .request => Reg.RQ_ARBRANK | .reply => Reg.RP_ARBRANK
  fieldGet (s.word reg (8 * r + out) s.parity) (4 * inp) 3

/-- The waiting header of lowest rank number, the lower input first among equals (R45). -/
def State.winner (s : State) (m : Mesh) (r out : Nat) : Option Waiting :=
  (s.waits.filter (fun w => w.mesh = m && w.router = r && w.out = out)).foldl (fun best w =>
    match best with
    | none => some w
    | some b =>
      let kb := 8 * s.rankAt m r out b.inp + b.inp
      let kw := 8 * s.rankAt m r out w.inp + w.inp
      if kw < kb then some w else some b) none

/-- Counts a wait of `t` ticks at a router input (R52, Table 2-6). -/
def State.countWait (s : State) (m : Mesh) (n t : Nat) : State :=
  let long := b2n (s.tuneOf 3 64 < t)
  match m with
  | .request => ((s.sat F.RQ_ARBWAIT_LONG n long).raiseTo F.RQ_ARBWAIT_MAX n t).sat F.RQ_ARBWAIT_TOTAL n t
  | .reply => ((s.sat F.RP_ARBWAIT_LONG n long).raiseTo F.RP_ARBWAIT_MAX n t).sat F.RP_ARBWAIT_TOTAL n t

/-- The output of a packet whose tail has passed becomes free: the header of lowest rank that waits there is granted it, or
the grant stays parked (R45 to R47). While the packet is blocked further along, held at an in FIFO or in a link, it keeps
the output (R46, R67, R79). -/
def State.freeOutput (s : State) (m : Mesh) (r out : Nat) : State :=
  let k := outKey m r out
  match lookup s.grants k with
  | none => s
  | some g =>
    if !g.parked && !g.passed then s
    else
      match s.winner m r out with
      | none => { s with grants := upsert s.grants k { g with parked := true } }
      | some w =>
        let s := s.countWait m (8 * r + w.inp) (s.now - w.since + 1)
        { s with waits := s.waits.erase w, grants := upsert s.grants k ⟨w.inp, s.now, false, false, w.pkt⟩ }

end Sys2Proof.Machine
end

