-- ==== Sys2Proof/Machine/Rings.lean ====
section
/-! DEFINITION. Receive rings, their records, holds, and the handling of replies at a core port (R101, R148 to R150,
R167 to R176, R181, R186 to R188). -/

namespace Sys2Proof.Machine

/-- Bytes of records a ring holds, and bytes free (R170). -/
def Ring.used (r : Ring) : Nat := (r.writePos + 2 * r.size - r.readPos) % (2 * r.size)
def Ring.free (r : Ring) : Nat := r.size - r.used

/-- Units of 64 bytes of a record with a body of `n` bytes (R172). -/
def recordUnits (n : Nat) : Nat := ceilDiv (16 + n) 64

/-- The header of an AM or AM_REPLY record (Table 7-2). -/
def recordHead (p : Packet) (reply : Bool) (time : Nat) : List Byte :=
  let w0 := b2n reply + 4 * b2n (hasPoison p) + 8 * b2n (!reply && pflag p H.FLOW_VALID)
    + 2 ^ 4 * recordUnits (pget p H.LENGTH) + 2 ^ 19 * pget p H.LENGTH + 2 ^ 32 * pget p H.HANDLER
    + 2 ^ 42 * pget p H.SRC_RANK + 2 ^ 54 * pget p H.SRC_EP
  let w1 := pget p H.TAG + 2 ^ 16 * (if reply then pget p H.STATUS else 0) + 2 ^ 20 * (pget p H.ADDRESS % 4096)
    + 2 ^ 32 * (time % 2 ^ 32)
  leBytes 8 w0 ++ leBytes 8 w1

/-- Free values that fill the last unit of a record (R172). -/
def padBytes (ctr n : Nat) : List Byte := (List.range n).map (fun k => Config.ringPad (ctr + k))

/-- Writes a record at an address of core `i`'s SRAM: every word whole, poisoned flits as the poison pattern (R172). -/
def State.putRecord (s : State) (i a : Nat) (p : Packet) (reply : Bool) : State :=
  let n := pget p H.LENGTH
  let fill := 64 * recordUnits n - 16 - n
  let s := s.writeBytes i a (recordHead p reply (s.stampAt (i / 16)).toNat ++ payload p ++ padBytes s.freeCtr fill)
  let s := s.drawn fill
  (List.range (payloadFlits p)).foldl (fun s k =>
    if (flitPoison p).getD k false then s.poisonBytes i (a + 16 + 64 * k) (Nat.min 64 (n - 64 * k)) else s) s

/-- Writes a PAD record of `bytes` bytes: its first unit only (R172, R174). -/
def State.putPad (s : State) (i a bytes : Nat) : State :=
  (s.writeBytes i a (leBytes 8 (2 + 2 ^ 4 * (bytes / 64)) ++ leBytes 8 0 ++ padBytes s.freeCtr 48)).drawn 48

/-- Writes a record `skip` bytes past WRITE_POS, advances it and raises the ring's counter (R172, R174, R178). -/
def State.placeAt (s : State) (i k : Nat) (r : Ring) (skip : Nat) (p : Packet) (reply : Bool) : Nat × State :=
  let pos := (r.writePos + skip) % (2 * r.size)
  let s := s.putRecord i (r.base + pos % r.size) p reply
  let r' := { r with writePos := (pos + 64 * recordUnits (pget p H.LENGTH)) % (2 * r.size), messages := (r.messages + 1) % 2 ^ 32 }
  let s := { s with rings := upsert s.rings (ringKey i k) r' }
  let s := s.showRing i k
  (pos, if r.sigEn then s.signalCtr i r.sigCtr 1 else s)

/-- Places a message in an enabled ring under R174: the position of its record, and the state after steps 2 to 5 of
Table 7-3; none where it must wait. -/
def State.place (s : State) (i k : Nat) (p : Packet) (reply : Bool) : Option (Nat × State) :=
  match lookup s.rings (ringKey i k) with
  | none => none
  | some r =>
    let n := 64 * recordUnits (pget p H.LENGTH)
    let off := r.writePos % r.size
    let c := r.size - off
    if n ≤ r.free && n ≤ c then some (s.placeAt i k r 0 p reply)
    else if c < n && c + n ≤ r.free then some ((s.putPad i (r.base + off) c).placeAt i k r c p reply)
    else none

/-- Writes the record of a message where none is held for its ring. -/
def State.tryPlace (s : State) (i k : Nat) (p : Packet) (reply : Bool) : Option (Nat × State) :=
  if s.ringHeld i k then none else s.place i k p reply

/-- Whether a record of a message is larger than the ring itself (R173, R188). -/
def Ring.tooSmall (r : Ring) (p : Packet) : Bool := r.size < 64 * recordUnits (pget p H.LENGTH)

/-! ### Replies at a core port -/

/-- Finishes an AM with EXPECT_REPLY whose AM_REPLY has been written at `pos`, with the reply's STATUS (R186). -/
def State.replyWritten (s : State) (c : Cmd) (p : Packet) (pos : Nat) : State :=
  let c := { c with result := BitVec.ofNat 64 pos, pkts := c.pkts.map (fun k => { k with answer := some (statusOf p) }) }
  s.complete c (statusOf p)

/-- Drops an accepted AM_REPLY: counted, and its AM completes with RANGE (R188). -/
def State.dropReply (s : State) (c : Cmd) : State :=
  (s.sat F.CP_RINGERR_REPLYDROP c.core).complete
    { c with pkts := c.pkts.map (fun k => { k with answer := some St.RANGE }) } St.RANGE

/-- An AM_REPLY at core `i` (R188). One that meets the three conditions while a first still waits in the reservation is
stray (DESIGN CHOICE, log entry 39). -/
def State.takeAmReply (s : State) (i : Nat) (p : Packet) : State :=
  match s.cmdOf i (pget p H.TAG) with
  | none => s.stray i p
  | some c =>
    let n := chCopy i (dget c.words D.CHANNEL)
    if dget c.words D.CMD != 0x10 || !dflag c.words D.EXPECT_REPLY
        || pget p H.SRC_RANK != s.get F.CP_AMCHAN_RANK n || pget p H.SRC_EP != s.get F.CP_AMCHAN_ENDPOINT n
        || pget p H.ADDRESS % 4096 != s.get F.CP_AMCHAN_RING n
        || s.holds.any (fun h => h.reply && h.core == i && pget h.pkt H.TAG == pget p H.TAG) then s.stray i p
    else
      let k := s.get F.CP_AMCHAN_REPLY_RING n
      match lookup s.rings (ringKey i k) with
      | none => s.dropReply c
      | some r =>
        if 64 * s.get F.CP_AMCREDIT_REPLY_UNITS n < pget p H.LENGTH || r.tooSmall p then s.dropReply c
        else
          match s.tryPlace i k p true with
          | some (pos, s') => s'.replyWritten c p pos
          | none =>
            let h : Held := ⟨i, dget c.words D.CHANNEL, k, true, p⟩
            let s := (s.releaseAm { c with rused := 0 }).setCmd { c with outFlits := 0 }
            ({ s with holds := s.holds ++ [h] } : State).showRing i k

/-- The first failed member that a merged ACK or a member's own NACK names, as the RESULT word (Table 6-6). -/
def mergedResult (p : Packet) (st : Nat) : Word :=
  if pget p H.LENGTH = 16 then
    let b := payload p
    BitVec.ofNat 64 (leNat ((b.drop 4).take 2) % 4096 + 2 ^ 16 * (leNat ((b.drop 6).take 2) % 512)
      + 2 ^ 32 * (leNat ((b.drop 8).take 1) % 16))
  else BitVec.ofNat 64 (pget p H.SRC_RANK + 2 ^ 16 * pget p H.SRC_EP + 2 ^ 32 * st)

/-- How many members a merged ACK counts as failed; a unicast answer counts as 0 or 1 (R149). -/
def mergedFailed (p : Packet) (st : Nat) : Nat :=
  if pget p H.LENGTH = 16 then payloadNat p 4 else b2n (st != St.OK)

/-- Whether a bank that bytes of core SRAM touch is lost to a command (R205). -/
def targetLost (c : Cmd) (a n : Nat) : Bool := (banksOf c.core a n).any (fun b => c.lostBanks.contains b)

/-- GET_RSP, ATOM_RSP, ACK or NACK of opcode `op` at core `i` (R147 to R150, R158, R180). A reply whose opcode the
command does not expect matches no request and is stray. RESULT of a PUT_MC names the first failed member of the first
answer to arrive that reports one (DESIGN CHOICE, log entry 40). -/
def State.takeAnswer (s : State) (i op : Nat) (p : Packet) : State :=
  match s.cmdOf i (pget p H.TAG) with
  | none => s.stray i p
  | some c =>
    let cmd := dget c.words D.CMD
    let fits := (op = Op.NACK && cmd != 0x11) || (op = Op.GET_RSP && cmd = 2) || (op = Op.ATOM_RSP && (cmd = 4 || cmd = 5))
      || (op = Op.ACK && (cmd = 1 || cmd = 3 || cmd = 6 || cmd = 0x10))
    let data := op = Op.GET_RSP || op = Op.ATOM_RSP
    let a := getTarget c.words
    match answerPkt c.pkts (pget p H.ADDRESS) 0 with
    | none => s.stray i p
    | some (rec, _) =>
      if !fits || (cmd = 0x10 && c.outFlits = 0) then s.stray i p
      else
        let n := (payload p).length
        let tgt := if op = Op.GET_RSP then a rec.offset else dget c.words D.LOCAL_ADDR
        let size := if op = Op.GET_RSP then n else 8
        let writes := (op = Op.GET_RSP && 0 < n) || (op = Op.ATOM_RSP && dflag c.words D.STORE)
        let lost := writes && targetLost c tgt size
        let st := statusOf p
        let st := if lost then St.NO_OWNER else if st = 0 && data && hasPoison p then St.POISON else st
        let s := if !writes || lost then s
          else if op = Op.GET_RSP then s.writePayload i tgt (payload p) (flitPoison p)
          else s.writePayload i tgt ((payload p ++ List.replicate 8 0).take 8) (flitPoison p)
        let pkts := match answerPkt c.pkts (pget p H.ADDRESS) st with | some r => r.2 | none => c.pkts
        let c := { c with pkts := pkts, origRefused := c.origRefused || (op = Op.NACK && st = St.DUPLICATE) }
        let c := if op = Op.ATOM_RSP then { c with result := BitVec.ofNat 64 (payloadNat p 8) } else c
        let c := if cmd = 3 then
            { c with mcFailed := c.mcFailed + mergedFailed p st
                     result := if st != 0 && c.result = 0 then mergedResult p st else c.result } else c
        let c := if st != 0 then c.noteStatus st else c
        if cmd = 0x10 then
          let waits := op = Op.ACK && dflag c.words D.EXPECT_REPLY && st = 0
          let s := s.releaseAm { c with rused := 0 }
          let c := { c with outFlits := 0 }
          if waits then s.setCmd { c with pkts := c.pkts.map (fun k => { k with answer := none }) } else s.complete c c.status
        else s.afterAnswer c

/-- Any reply that reaches core `i` and that its kind accepts (Table 4-10). -/
def State.takeReply (s : State) (i : Nat) (p : Packet) : State :=
  if pget p H.OPCODE = Op.AM_REPLY then s.takeAmReply i p else s.takeAnswer i (pget p H.OPCODE) p

/-- Answers a request from a destination endpoint: a core port's own command takes its answer inside the port (R145). -/
def State.respond (s : State) (ep : Nat) (req : Packet) (opcode status : Nat) (bytes : List Byte := [])
    (poison : List Bool := []) (extra : List (HFld × Nat) := []) : State :=
  if ep < 256 && pget req H.SRC_EP = ep && pget req H.SRC_CHIP = s.own then
    (s.drawn).takeReply ep (s.replyTo ep req opcode status bytes poison extra)
  else s.answer ep req opcode status bytes poison extra

/-! ### Holds -/

/-- Stores the reply sent in the receive context a request named (R161). -/
def State.cacheReply (s : State) (req : Packet) (opcode status : Nat) (value : Nat) : State :=
  if pflag req H.FLOW_VALID then
    let f := pget req H.FLOW
    ((s.put F.RK_FLOWSEQ_RSTATUS f status).put F.RK_FLOWSEQ_ROPCODE f opcode).put F.RK_FLOWVAL_VALUE f value
  else s

/-- Answers an AM that has been written into its ring: ACK when asked for, NACK with POISON for a poisoned body (R94,
R97, R187). -/
def State.ackAm (s : State) (i : Nat) (p : Packet) : State :=
  let op := if hasPoison p then Op.NACK else Op.ACK
  let st := if hasPoison p then St.POISON else St.OK
  let s := s.cacheReply p op st 0
  if hasPoison p || pflag p H.ACK_REQ then s.respond i p op st else s

/-- Flits of a message in a hold. -/
def heldFlits (h : Held) : Nat := 1 + payloadFlits h.pkt

/-- Frees a held message's space in its channel's hold. -/
def State.freeHold (s : State) (h : Held) : State :=
  let s := { s with holds := s.holds.erase h }
  if h.reply then s
  else
    let n := chCopy h.core h.chan
    s.put F.CP_AMSTAT_OUT n (s.get F.CP_AMSTAT_OUT n - heldFlits h)

/-- Writes a ring's held messages, oldest first, until one does not fit (R175). -/
def State.drainRing (s : State) (i k : Nat) : Nat → State
  | 0 => s
  | fuel + 1 =>
    match s.holds.find? (fun h => h.core == i && h.ring == k) with
    | none => s
    | some h =>
      match (s.freeHold h).place i k h.pkt h.reply with
      | none => s
      | some (pos, s') =>
        let s' := if h.reply then
            (match s'.cmdOf i (pget h.pkt H.TAG) with
              | some c => s'.replyWritten c h.pkt pos
              | none => s')
          else s'.ackAm i h.pkt
        s'.drainRing i k fuel

end Sys2Proof.Machine
end

