-- ==== Sys2Proof/Machine/Arrivals.lean ====
section
/-! DEFINITION. Requests and replies at their destination endpoints: the checks of Table 4-7 in order and what each
opcode then does (R86 to R103, R120, R160, R161, R179, R181, R376, R399, R400). PUT_MC and RED_DOWN at a member
stand in Screed.lean and Collectives.lean. -/

namespace Sys2Proof.Machine

def evRouteTurn : Event := ⟨0x004, 1⟩
def evHoldOver : Event := ⟨0x102, 1⟩

/-- The verdict of Table 4-7 on a request. -/
inductive Verdict where
  | badHeader
  | badOpcode
  | refuse (st : Nat)
  | repeated
  | stale
  /-- refused at check 10 -/
  | noOwner
  | accept
deriving DecidableEq, Repr

/-- The partition that counts at a destination (R104, R366): none for a stack bank that is UNOWNED or does not exist,
and for the host bridge and Alorn; `some none` for a core outside every valid partition. -/
def State.destPart (s : State) (ep : Nat) (p : Packet) : Option (Option Nat) :=
  if ep < 256 then some (s.partOfCore ep)
  else if ep < 280 then
    let b := pget p H.ADDRESS / 0x40000
    if b < 256 && s.bank F.CP_BANKOWN_STATE ep b != 0 then some (some (s.bank F.CP_BANKOWN_OWNER_PART ep b)) else none
  else none

/-- Checks 4 and 5. -/
def State.partCheck (s : State) (ep : Nat) (p : Packet) : Option Nat :=
  match s.destPart ep p with
  | none => none
  | some none => some St.FENCED
  | some (some q) =>
    if (s.part q).quiesced || (s.part q).fenced then some St.FENCED
    else if s.get F.RK_PARTJOB_JOB q != pget p H.JOB then some St.RANGE
    else none

/-- Requests each kind of endpoint accepts (Table 4-10). -/
def acceptsRequest (ep op : Nat) : Bool :=
  if ep < 256 then op ∈ [Op.PUT, Op.PUT_MC, Op.GET_REQ, Op.ATOM_ADD, Op.ATOM_SWAP, Op.AM, Op.SIGNAL]
  else if ep < 280 then op ∈ [Op.PUT, Op.PUT_MC, Op.GET_REQ, Op.ATOM_ADD, Op.ATOM_SWAP]
  else if ep = 286 then op ∈ [Op.PUT, Op.GET_REQ]
  else false

/-- Whether a request's receive flow context fits it (R160). -/
def State.flowBound (s : State) (ep : Nat) (p : Packet) : Bool :=
  let f := pget p H.FLOW
  s.flag F.RK_FLOWCTX_VALID f && s.get F.RK_FLOWCTX_ROLE f = 0
    && s.get F.RK_FLOWCTX_PARTITION f = pget p H.PARTITION && s.get F.RK_FLOWCTX_ENDPOINT f = ep
    && s.get F.RK_FLOWCTX_PEER_RANK f = pget p H.SRC_RANK && s.get F.RK_FLOWCTX_PEER_EP f = pget p H.SRC_EP

/-- Check 6. -/
def State.formCheck (s : State) (ep : Nat) (p : Packet) : Bool :=
  let op := pget p H.OPCODE
  let atomic := op = Op.ATOM_ADD || op = Op.ATOM_SWAP
  acceptsRequest ep op
    && (if atomic then atomicLen (op = Op.ATOM_ADD) (pget p H.FORMAT) = some (pget p H.LENGTH) else pget p H.FORMAT = 0)
    && pget p H.OP = 0 && (op = Op.PUT_MC || pget p H.GROUP = 0)
    && (!pflag p H.FLOW_VALID || (op != Op.PUT_MC && op != Op.GET_REQ && s.flowBound ep p))
    && (!pflag p H.SIGNAL || ep < 256 || op = Op.PUT_MC)

/-- Bytes a request touches: its payload, or what a GET_REQ asks for. -/
def extent (p : Packet) : Nat :=
  if pget p H.OPCODE = Op.GET_REQ then pget p H.SEQ % 2 ^ 13 else pget p H.LENGTH

/-- Bytes an endpoint's ADDRESS may reach (Table 4-11). -/
def addressSpace (ep : Nat) : Nat := if ep = 286 then 2 ^ 32 else memSize ep

/-- Check 7 for requests other than AM. -/
def sizeCheck (ep : Nat) (p : Packet) : Bool :=
  let op := pget p H.OPCODE
  let n := extent p
  let unit := if op = Op.ATOM_ADD || op = Op.ATOM_SWAP then n else 8
  (op != Op.SIGNAL && n ≤ (if op = Op.PUT_MC then 1024 else 4096) && (op != Op.GET_REQ || pget p H.LENGTH = 0))
    && pget p H.ADDRESS + n ≤ addressSpace ep && pget p H.ADDRESS % unit = 0 && n % unit = 0

/-- Check 7 for an AM (R173): the ring is enabled and the record fits it. -/
def State.ringCheck (s : State) (i : Nat) (p : Packet) : Bool :=
  pget p H.ADDRESS < 4096 && pget p H.LENGTH ≤ 4096
    && (match lookup s.rings (ringKey i (pget p H.ADDRESS)) with
        | some r => !r.tooSmall p
        | none => false)

/-- The receive entry of an AM (R179): the first that names its ring and its source. -/
def State.receiveEntry (s : State) (i : Nat) (p : Packet) : Option Nat :=
  (List.range 64).find? (fun n =>
    let c := chCopy i n
    s.flag F.CP_AMCHAN_VALID c && s.get F.CP_AMCHAN_ROLE c == 0 && s.get F.CP_AMCHAN_RING c == pget p H.ADDRESS % 4096
      && (s.flag F.CP_AMCHAN_ANY_SOURCE c
          || (s.get F.CP_AMCHAN_RANK c == pget p H.SRC_RANK && s.get F.CP_AMCHAN_ENDPOINT c == pget p H.SRC_EP)))

/-- Check 9 (R160): new, a repeat, or stale. -/
def State.flowCheck (s : State) (p : Packet) : Verdict :=
  if !pflag p H.FLOW_VALID then .accept
  else
    let d := (pget p H.SEQ + 2 ^ 16 - s.get F.RK_FLOWSEQ_SEQ (pget p H.FLOW)) % 2 ^ 16
    if d = 0 then .repeated else if d < 2 ^ 15 then .accept else .stale

/-- Check 10: banks of the ring and its table for an AM (R173), else every bank touched (R198). -/
def State.ownerCheck (s : State) (ep : Nat) (p : Packet) : Bool :=
  if pget p H.OPCODE = Op.AM then
    match lookup s.rings (ringKey ep (pget p H.ADDRESS)) with
    | some r => s.coreOwnsAll ep r.base r.size && s.coreOwnsAll ep (s.get F.CP_RINGTAB_BASE ep) 0x20000
    | none => false
  else if ep = 286 then true
  else (banksOf ep (pget p H.ADDRESS) (extent p)).all (fun b => s.netOwns p ep b)

/-- Whether a request moves no data and so passes checks 7, 10 and 11 over (R98). A GET_REQ with LENGTH other than 0 is none,
and check 7 refuses it (DESIGN CHOICE, log entry 47). -/
def moveless (p : Packet) : Bool := pget p H.OPCODE != Op.AM && extent p = 0 && pget p H.LENGTH = 0

/-- The checks of Table 4-7, in order; check 11 is part of the opcode's effect (R97). -/
def State.verdict (s : State) (ep : Nat) (p : Packet) : Verdict :=
  if headerBad p then .badHeader
  else if (classOf (pget p H.OPCODE)).isNone then .badOpcode
  else if !s.present ep then .refuse St.RANGE
  else
    match s.partCheck ep p with
    | some st => .refuse st
    | none =>
      if !s.formCheck ep p then .refuse St.RANGE
      else if pget p H.OPCODE = Op.AM then
        (if !s.ringCheck ep p then .refuse St.RANGE
         else if (s.receiveEntry ep p).isNone then .refuse St.CHANNEL
         else match s.flowCheck p with
          | .accept => if s.ownerCheck ep p then .accept else .noOwner
          | v => v)
      else if !moveless p && !sizeCheck ep p then .refuse St.RANGE
      else match s.flowCheck p with
        | .accept => if moveless p || s.ownerCheck ep p then .accept else .noOwner
        | v => v

/-- A repeat or stale request (R160): the cached reply with DUPLICATE, or NACK with DUPLICATE. -/
def State.answerRepeat (s : State) (ep : Nat) (p : Packet) (stale : Bool) : State :=
  let f := pget p H.FLOW
  let op := s.get F.RK_FLOWSEQ_ROPCODE f
  let s := s.sat F.RK_FLOWSEQ_DUPS f
  if stale || op = Op.NACK then s.respond ep p Op.NACK St.DUPLICATE
  else if op = Op.ATOM_RSP then
    s.respond ep p Op.ATOM_RSP St.DUPLICATE (leBytes (pget p H.LENGTH) (s.get F.RK_FLOWVAL_VALUE f)) []
      [(H.FORMAT, pget p H.FORMAT)]
  else s.respond ep p Op.ACK St.DUPLICATE

/-- Takes the new SEQ into a request's receive context (R161). -/
def State.takeSeq (s : State) (p : Packet) : State :=
  if pflag p H.FLOW_VALID then s.put F.RK_FLOWSEQ_SEQ (pget p H.FLOW) (pget p H.SEQ) else s

/-- Takes a new request into its receive context with the reply it gets, and sends that reply (R161). -/
def State.conclude (s : State) (ep : Nat) (p : Packet) (op st : Nat) (bytes : List Byte := [])
    (poison : List Bool := []) (extra : List (HFld × Nat) := []) : State :=
  ((s.takeSeq p).cacheReply p op st (leNat bytes)).respond ep p op st bytes poison extra

/-- Performs the SIGNAL flag of a request at a core port (Table 4-2). -/
def State.signalFlag (s : State) (ep : Nat) (p : Packet) : State :=
  if pflag p H.SIGNAL && ep < 256 then s.signalCtr ep (pget p H.HANDLER % 64) 1 else s

/-- The answer of a request that is acknowledged: NACK with POISON for a poisoned one, else ACK when asked for or when
a flow context must keep it (R94, R97). -/
def State.acknowledge (s : State) (ep : Nat) (p : Packet) (poisoned : Bool) : State :=
  if poisoned then s.conclude ep p Op.NACK St.POISON
  else if pflag p H.ACK_REQ then s.conclude ep p Op.ACK St.OK
  else (s.takeSeq p).cacheReply p Op.ACK St.OK 0

/-- The host side takes a packet from the bridge (R133): a packet that stands in the bridge's in FIFO is either taken, by its
arrival row, or given up, by HOST_DRAIN_EXPIRY (log entry 45). -/
def State.toHost (s : State) (p : Packet) : State := { s with hostRx := s.hostRx ++ [p] }

/-- PUT that passed the checks (R97, R98). At the host bridge the host side takes it, and the bridge acknowledges it (R94). -/
def State.doPut (s : State) (ep : Nat) (p : Packet) : State :=
  if ep = 286 then (s.toHost p).acknowledge ep p (!moveless p && hasPoison p)
  else
    let s := if moveless p then s else s.writePayload ep (pget p H.ADDRESS) (payload p) (flitPoison p)
    (s.signalFlag ep p).acknowledge ep p (!moveless p && hasPoison p)

/-- GET_REQ that passed the checks: GET_RSP with the bytes, poisoned where a word is uncorrectable (R97); at the host bridge
the bytes are the host's (free values). A SIGNAL flag at a core port is performed (Table 4-2; DESIGN CHOICE, log entry 46). -/
def State.doGet (s : State) (ep : Nat) (p : Packet) : State :=
  if ep = 286 then
    let n := extent p
    ((s.toHost p).drawn n).respond ep p Op.GET_RSP St.OK ((List.range n).map (fun k => Config.hostByte (s.freeCtr + k))) []
  else
    let a := pget p H.ADDRESS
    let n := extent p
    let s := (s.countReads ep a n).signalFlag ep p
    let bad := s.readPoison ep a n
    s.respond ep p Op.GET_RSP (if bad.any (fun b => b) then St.POISON else St.OK) (s.readBytes ep a n) bad

/-- ATOM_ADD or ATOM_SWAP that passed the checks (R97, R208); a SIGNAL flag is ignored (log entry 46). -/
def State.doAtomic (s : State) (add : Bool) (ep : Nat) (p : Packet) : State :=
  let a := pget p H.ADDRESS
  let n := pget p H.LENGTH
  let extra := [(H.FORMAT, pget p H.FORMAT)]
  if hasPoison p then
    let s := s.countReads ep a n
    let old := if s.isBad ep a n then 0 else s.readNat ep a n
    s.conclude ep p Op.ATOM_RSP St.POISON (leBytes n old) [] extra
  else
    match s.atomicAt add (pget p H.FORMAT) ep a n (payloadNat p n) with
    | (old, bad, s') => s'.conclude ep p Op.ATOM_RSP (if bad then St.POISON else St.OK) (leBytes n old) [] extra

/-- SIGNAL that passed the checks: adds ADDRESS to the counter (R98). -/
def State.doSignal (s : State) (ep : Nat) (p : Packet) : State :=
  (s.signalCtr ep (pget p H.HANDLER % 64) (pget p H.ADDRESS)).acknowledge ep p false

/-- AM that passed the checks: into its ring, or into the hold of its channel (R174, R175, R181, R187). While it is held,
RSTATUS and VALUE of its receive context read 0 (DESIGN CHOICE, log entry 48). -/
def State.doAm (s : State) (i : Nat) (p : Packet) : State :=
  let k := pget p H.ADDRESS
  let e := (s.receiveEntry i p).getD 0
  let c := chCopy i e
  let f := 1 + payloadFlits p
  match s.tryPlace i k p false with
  | some (_, s') => (s'.takeSeq p).ackAm i p
  | none =>
    if s.get F.CP_AMSTAT_OUT c + f ≤ s.get F.CP_AMCREDIT_FLITS c then
      let s := s.put F.CP_AMSTAT_OUT c (s.get F.CP_AMSTAT_OUT c + f)
      let s := (s.takeSeq p).cacheReply p 0 0 0
      let h : Held := ⟨i, e, k, false, p⟩
      ({ s with holds := s.holds ++ [h] } : State).showRing i k
    else
      let s := s.wrap F.CP_AMSTAT_FULLS c
      let s := s.event evHoldOver 0 i (e + 64 * k) (hword p.head.data 1)
      s.respond i p Op.NACK St.CHANNEL

/-- A packet other than Plumb or a relay that reaches an optical port's own endpoint (R120). -/
def State.portEndpoint (s : State) (ep : Nat) (p : Packet) : State :=
  let port := s.portOfEp ep
  let s := (s.sat F.OP_ERRCNT_ROUTE port).headEvent evRouteTurn 7 port p
  if classOf (pget p H.OPCODE) = some .reply then s else s.nack ep p St.RANGE

/-- Whether a core port's side that takes packets acts: always while its partition is quiesced or fenced or outside
every partition, else while its clock runs (R376, R398). -/
def State.takes (s : State) (ep : Nat) : Bool := 256 ≤ ep || s.clockRuns (ep / 16) || s.fabricSide ep

/-- Discards a packet at a core port whose CORE_RESET is asserted (R81). -/
def State.resetDiscard (s : State) (ep : Nat) (p : Packet) : State :=
  s.sat F.XB_ERRORS_DISCARDS (ep / 16) (flitsOf p).length

/-- Acts on the first check of Table 4-7 that a request fails, or carries it out (R96). -/
def State.judge (s : State) (ep : Nat) (p : Packet) (act : State → State) : State :=
  match s.verdict ep p with
  | .badHeader => s.discardHead evHeaderBad ep p
  | .badOpcode => s.discardHead evBadOpcode ep p
  | .refuse st => if 280 ≤ ep && ep < 286 then s.portEndpoint ep p else s.respond ep p Op.NACK st
  | .repeated => s.answerRepeat ep p false
  | .stale => s.answerRepeat ep p true
  | .noOwner => (s.countNoOwner ep).conclude ep p Op.NACK St.NO_OWNER
  | .accept => act s

/-- A request of opcode `op` at an endpoint: the one that stands there next is taken, checked, and carried out by `act` when
every check passes. A packet whose sound header names another opcode is not this command's. -/
def State.request (s : State) (op ep : Nat) (p : Packet) (act : State → State) : State :=
  if !(headerBad p) && (classOf (pget p H.OPCODE)).isSome && pget p H.OPCODE != op then s
  else if !s.waitsAt ep p || (!s.takes ep && !s.coreRst.contains ep) then s
  else
    let s := s.takeIn ep p
    if ep < 256 && s.coreRst.contains ep then s.resetDiscard ep p else s.judge ep p act

/-- Replies each kind of endpoint accepts (Table 4-10). -/
def acceptsReply (ep op : Nat) : Bool :=
  if ep < 256 then op ∈ [Op.GET_RSP, Op.ATOM_RSP, Op.AM_REPLY, Op.ACK, Op.NACK]
  else if ep = 286 then op ∈ [Op.GET_RSP, Op.ACK, Op.NACK]
  else if ep = 287 then op ∈ [Op.ACK, Op.NACK]
  else false

/-- A reply at the host bridge: kept for the host side where its TAG is outstanding (R101, R133). -/
def State.hostReply (s : State) (p : Packet) : State :=
  if s.hostTags.contains (pget p H.TAG) then
    { s with hostTags := s.hostTags.erase (pget p H.TAG), hostRx := s.hostRx ++ [p] }
  else s.stray 286 p

/-- Whether a relay that awaits its answer went out with this TAG in its header. -/
def State.relayOut (s : State) (tag : Nat) : Bool := s.alorn.relays.any (fun r => r.hdr.toNat == tag)

/-- Whether every answer at a core port is stray: its partition is quiesced or fenced, or it is in none and its clock is
stopped (R366, R376, R380, R398). -/
def State.answersStray (s : State) (i : Nat) : Bool :=
  match s.partOfCore i with
  | some q => (s.part q).quiesced || (s.part q).fenced
  | none => !s.clockRuns (i / 16)

/-- A reply of opcode `op` at an endpoint (R86, R87, R101, R376, R399); at Alorn an ACK or NACK that names no
relay is stray, and one that does leaves the relay waiting, which only its answer or its time ends (R336). -/
def State.reply (s : State) (op ep : Nat) (p : Packet) : State :=
  if !(headerBad p) && (classOf (pget p H.OPCODE)).isSome && pget p H.OPCODE != op then s
  else if !s.waitsAt ep p || (!s.takes ep && !s.coreRst.contains ep) then s
  else
    let s := s.takeIn ep p
    if ep < 256 && s.coreRst.contains ep then s.resetDiscard ep p
    else if headerBad p then s.discardHead evHeaderBad ep p
    else if (classOf (pget p H.OPCODE)).isNone then s.discardHead evBadOpcode ep p
    else if 280 ≤ ep && ep < 286 then s.portEndpoint ep p
    else if !acceptsReply ep op then s.discardHead evHeaderBad ep p
    else if ep = 286 then s.hostReply p
    else if ep = 287 then (if s.relayOut (pget p H.TAG) then s else s.stray 287 p)
    else if s.answersStray ep then s.stray ep p
    else s.takeReply ep p

def execPutArrival (ep : BitVec 9) (pkt : Packet) (s : State) : Host.Outcome State Fault Refusal :=
  live s (fun s => (s.request Op.PUT ep.toNat pkt (fun s => s.doPut ep.toNat pkt)).flow)

def execGetReqArrival (ep : BitVec 9) (pkt : Packet) (s : State) : Host.Outcome State Fault Refusal :=
  live s (fun s => (s.request Op.GET_REQ ep.toNat pkt (fun s => s.doGet ep.toNat pkt)).flow)

def execAtomAddArrival (ep : BitVec 9) (pkt : Packet) (s : State) : Host.Outcome State Fault Refusal :=
  live s (fun s => (s.request Op.ATOM_ADD ep.toNat pkt (fun s => s.doAtomic true ep.toNat pkt)).flow)

def execAtomSwapArrival (ep : BitVec 9) (pkt : Packet) (s : State) : Host.Outcome State Fault Refusal :=
  live s (fun s => (s.request Op.ATOM_SWAP ep.toNat pkt (fun s => s.doAtomic false ep.toNat pkt)).flow)

def execSignalArrival (ep : BitVec 9) (pkt : Packet) (s : State) : Host.Outcome State Fault Refusal :=
  live s (fun s => (s.request Op.SIGNAL ep.toNat pkt (fun s => s.doSignal ep.toNat pkt)).flow)

def execAmArrival (ep : BitVec 9) (pkt : Packet) (s : State) : Host.Outcome State Fault Refusal :=
  live s (fun s => (s.request Op.AM ep.toNat pkt (fun s => s.doAm ep.toNat pkt)).flow)

def execGetRspArrival (ep : BitVec 9) (pkt : Packet) (s : State) : Host.Outcome State Fault Refusal :=
  live s (fun s => (s.reply Op.GET_RSP ep.toNat pkt).flow)

def execAtomRspArrival (ep : BitVec 9) (pkt : Packet) (s : State) : Host.Outcome State Fault Refusal :=
  live s (fun s => (s.reply Op.ATOM_RSP ep.toNat pkt).flow)

def execAckArrival (ep : BitVec 9) (pkt : Packet) (s : State) : Host.Outcome State Fault Refusal :=
  live s (fun s => (s.reply Op.ACK ep.toNat pkt).flow)

def execNackArrival (ep : BitVec 9) (pkt : Packet) (s : State) : Host.Outcome State Fault Refusal :=
  live s (fun s => (s.reply Op.NACK ep.toNat pkt).flow)

def execAmReplyArrival (ep : BitVec 9) (pkt : Packet) (s : State) : Host.Outcome State Fault Refusal :=
  live s (fun s => (s.reply Op.AM_REPLY ep.toNat pkt).flow)

/-- The oldest complete packet in the host bridge's in FIFOs that the host side has not taken: of its request in FIFO, else of
its reply in FIFO. -/
def State.hostFront (s : State) : Option (Nat × Packet) :=
  [256 * 16 + 7, 256 * 16 + 9].findSome? (fun n => (s.front n).map (fun p => (n, p)))

/-- HOST_DRAIN_EXPIRY: the host bridge removes the oldest packet that the host side has not taken (R133): a request is answered
with NACK and UNREACHABLE, a reply discarded. -/
def execHostDrainExpiry (s : State) : Host.Outcome State Fault Refusal :=
  live s (fun s =>
    match s.hostFront with
    | none => s
    | some (n, p) =>
      let s := s.popFifo n
      (if headerBad p then s.discardHead evHeaderBad 286 p
       else if (classOf (pget p H.OPCODE)).isNone then s.discardHead evBadOpcode 286 p
       else if classOf (pget p H.OPCODE) = some .reply then s.sat F.AL_EPERR_STRAY 0
       else (s.sat F.AL_EPERR_HOST_DRAIN 0).nack 286 p St.UNREACHABLE).flow)

end Sys2Proof.Machine
end

