-- ==== Sys2Proof/Machine/Egress.lean ====
section
/-! DEFINITION. The sending side of an optical port: its staging, lanes and windows, and what leaves the die through it
(R100, R103, R116 to R126). Here `p` is a physical port and `l` the logical port it serves (R296). -/

namespace Sys2Proof.Machine

def evRouteLoop : Event := ⟨0x005, 1⟩

/-- An optical port's state. -/
def State.port (s : State) (p : Nat) : Port := (lookup s.ports p).getD Port.initial

/-- Sets an optical port's state. -/
def State.setPort (s : State) (p : Nat) (v : Port) : State := { s with ports := assign s.ports p v Port.initial }

/-- Changes an optical port's state. -/
def State.modPort (s : State) (p : Nat) (f : Port → Port) : State := s.setPort p (f (s.port p))

/-- The logical port that a physical port serves. -/
def State.logical (s : State) (p : Nat) : Nat := s.get F.OP_PORTCTL_LOGICAL p

/-- STATE of OP_PORTSTATE. -/
def State.portState (s : State) (p : Nat) : Nat := s.get F.OP_PORTSTATE_STATE p

namespace PS
def DARK : Nat := 0
def TRAINING : Nat := 1
def KEYING : Nat := 2
def QUARANTINE : Nat := 3
def ADMITTED : Nat := 4
def DRAINING : Nat := 5
def DOWN : Nat := 6
end PS

/-- Staged packets that hold no window: tree packets and Plumb messages (R126). -/
def noSource : Nat := 32

/-- Puts a packet into staging. -/
def State.stage (s : State) (p src vl : Nat) (pkt : Packet) : State :=
  s.modPort p (fun q => { q with staging := q.staging ++ [⟨src, vl, false, pkt⟩] })

/-- Counts a packet's flits as released for its source (R124, R125). -/
def State.releaseFor (s : State) (p src : Nat) (pkt : Packet) : State :=
  if src = noSource then s
  else
    let w := egwin (s.logical p) (winClass pkt) src
    { s with released := upsert s.released w ((lookup s.released w).getD 0 + (flitsOf pkt).length) }

/-- A packet that the port refuses: its window is released and the port counts it; a request is answered by the port's
own endpoint, a reply discarded (R117, R118, R122). -/
def State.portRefuse (s : State) (p src st : Nat) (pkt : Packet) : State :=
  let s := (s.releaseFor p src pkt).sat F.OP_ERRCNT_ROUTE p
  if classOf (pget pkt H.OPCODE) = some .request then s.nack (280 + s.logical p) pkt st else s

/-- A packet that would cross a dateline a second time came through the opposite port: that receiving port logs ROUTE_LOOP,
counts it and answers a request with RANGE, and the sending port releases its window (R117, R118, Table 15-4). -/
def State.loopRefuse (s : State) (p src : Nat) (pkt : Packet) : State :=
  let o := opposite (s.logical p)
  let q := s.physOf o
  let s := ((s.headEvent evRouteLoop 7 q pkt).releaseFor p src pkt).sat F.OP_ERRCNT_ROUTE q
  if classOf (pget pkt H.OPCODE) = some .request then s.nack (280 + o) pkt St.RANGE else s

/-- The packet with its lane for the link out of logical port `l`, by the tables of its EPOCH; none for a second
crossing of a dateline (R116, R118). -/
def State.lane (s : State) (l : Nat) (sameRing : Bool) (pkt : Packet) : Option Packet :=
  let b := sameRing && pflag pkt H.CLASS_B
  if s.flagE (pget pkt H.EPOCH) F.RK_RINGPLAN_DATELINE l then
    (if b then none else some (pset pkt [(H.CLASS_B, 1)]))
  else some (pset pkt [(H.CLASS_B, b2n b)])

/-- The VL of a request or reply in its lane. -/
def vlOf (pkt : Packet) : Nat :=
  (if classOf (pget pkt H.OPCODE) = some .reply then 4 else 2) + pget pkt H.CLASS_B

/-- A request or reply sets its lane and enters staging, or is refused (R116, R118, R122). -/
def State.egress (s : State) (p src : Nat) (sameRing : Bool) (pkt : Packet) : State :=
  if !s.admitted p then s.portRefuse p src St.UNREACHABLE pkt
  else
    match s.lane (s.logical p) sameRing pkt with
    | none => s.loopRefuse p src pkt
    | some pkt' => s.stage p src (vlOf pkt') pkt'

/-- PORT_EGRESS: a unicast request or reply from source `src` of Table 5-5 at the die side of physical port `p`, the oldest
complete packet of one of its in FIFOs. It arrived on this chip through the opposite port when that port's receiving side is its source. -/
def execPortEgress (p : Fin 6) (src : Fin 32) (pkt : Packet) (s : State) : Host.Outcome State Fault Refusal :=
  live s (fun s =>
    let l := s.logical p.val
    let cls := classOf (pget pkt H.OPCODE)
    if (!headerBad pkt && (cls = some .plumb || cls = some .management || isTree (pget pkt H.OPCODE))) || !s.waitsAt (280 + l) pkt
    then s
    else
      let s := s.takeIn (280 + l) pkt
      (if headerBad pkt then (s.releaseFor p.val src.val pkt).discardHead evHeaderBad (280 + l) pkt
       else if cls.isNone then (s.releaseFor p.val src.val pkt).discardHead evBadOpcode (280 + l) pkt
       else s.egress p.val src.val (src.val == 22 + opposite l) pkt).flow)

/-- MGMT_RELAY_AT_PORT: a MGMT packet addressed to the port is readdressed to the peer's Alorn and staged for VL1, or
discarded and counted (R121). -/
def execMgmtRelayAtPort (p : Fin 6) (pkt : Packet) (s : State) : Host.Outcome State Fault Refusal :=
  live s (fun s =>
    let l := s.logical p.val
    if headerBad pkt || pget pkt H.OPCODE != Op.MGMT || pget pkt H.DST_EP != 280 + l || pget pkt H.DST_CHIP != s.own
        || !s.waitsAt (280 + l) pkt then s
    else
      let s := s.takeIn (280 + l) pkt
      let st := s.portState p.val
      if st = PS.QUARANTINE || st = PS.ADMITTED || st = PS.DRAINING then
        s.stage p.val 21 1 (pset pkt [(H.DST_CHIP, s.get F.OP_PORTSTATE_PEER_CHIP p.val), (H.DST_EP, 287)])
      else ((s.releaseFor p.val 21 pkt).sat F.OP_ERRCNT_ROUTE p.val).flow)

/-- WINDOW_RELEASE: the flits released for a source reach it, OUTSTANDING falls, and packets that waited for the window
are written (R124, R125). -/
def execWindowRelease (p : Fin 6) (k : Fin 3) (src : Fin 32) (s : State) : Host.Outcome State Fault Refusal :=
  live s (fun s =>
    let w := egwin p.val k.val src.val
    let f := (lookup s.released w).getD 0
    let s := { s with released := remove s.released w }
    (s.put F.OP_EGWIN_OUTSTANDING w (s.get F.OP_EGWIN_OUTSTANDING w - f)).flow)

/-! ### Tree packets and Plumb messages -/

/-- The valid SC_PORTTREE entry of a group at logical port `l`, in the tables of parity `e` (R212). -/
def State.portEntry (s : State) (e l g : Nat) : Option Nat :=
  ((List.range 256).map (fun k => 256 * l + k)).find? (fun n =>
    s.flagE e F.SC_PORTTREE_VALID n && s.getE e F.SC_PORTTREE_GROUP n == g)

/-- The neighbour's address and receiving port on a link, from the cabling plan of the packet's EPOCH (R100, R103, R107). -/
def State.neighbourFields (s : State) (e l : Nat) : List (HFld × Nat) :=
  [(H.DST_CHIP, s.getE e F.OP_PLAN_NBR_CHIP l), (H.DST_EP, 280 + s.getE e F.OP_PLAN_NBR_PORT l)]

/-- A tree packet leaves a port Screed for the fibre, addressed to the neighbour (R103); a port not ADMITTED sends none
(R235). A packet on its way down came through the opposite port when that port is the parent edge of its group. -/
def State.treeToFibre (s : State) (l : Nat) (pkt : Packet) : State :=
  let p := s.physOf l
  let e := pget pkt H.EPOCH
  let op := pget pkt H.OPCODE
  let down := op = Op.PUT_MC || op = Op.RED_DOWN
  let sameRing := down && (match s.portEntry e (opposite l) (pget pkt H.GROUP) with
    | some n => s.getE e F.SC_PORTTREE_PARENT_SIDE n == 0
    | none => false)
  if !s.admitted p then s
  else s.egress p noSource sameRing (pset pkt (s.neighbourFields e l))

/-- A field of a compact Plumb message (Table 4-9). -/
def mget (m : PlumbMsg) (lo n : Nat) : Nat := (m >>> lo).toNat % 2 ^ n

namespace M
def OPCODE (m : PlumbMsg) : Nat := mget m 0 8
def GROUP (m : PlumbMsg) : Nat := mget m 8 12
def SEQ (m : PlumbMsg) : Nat := mget m 20 16
def FORMAT (m : PlumbMsg) : Nat := mget m 36 4
def OP (m : PlumbMsg) : Nat := mget m 40 4
def EPOCH (m : PlumbMsg) : Nat := mget m 44 1
def STATUS (m : PlumbMsg) : Nat := mget m 45 4
def PARTITION (m : PlumbMsg) : Nat := mget m 49 4
def VALUE (m : PlumbMsg) : Nat := mget m 64 64
end M

/-- Builds a compact Plumb message. -/
def mkPlumb (opcode group seq epoch status part : Nat) (fmt op value : Nat := 0) : PlumbMsg :=
  BitVec.ofNat 128 (opcode % 2 ^ 8 + 2 ^ 8 * (group % 2 ^ 12) + 2 ^ 20 * (seq % 2 ^ 16) + 2 ^ 36 * (fmt % 2 ^ 4)
    + 2 ^ 40 * (op % 2 ^ 4) + 2 ^ 44 * (epoch % 2) + 2 ^ 45 * (status % 2 ^ 4) + 2 ^ 49 * (part % 2 ^ 4)
    + 2 ^ 64 * (value % 2 ^ 64))

/-- The header form of a Plumb message for logical port `l`; a stage that held poison makes its payload poisoned (R100). -/
def State.plumbPacket (s : State) (l : Nat) (m : PlumbMsg) (bad : Bool := false) : Packet :=
  let sred := M.OPCODE m = Op.SRED_UP || M.OPCODE m = Op.SRED_DOWN
  mkPacket ([(H.OPCODE, M.OPCODE m), (H.STATUS, M.STATUS m), (H.FORMAT, M.FORMAT m), (H.OP, M.OP m),
      (H.EPOCH, M.EPOCH m), (H.PARTITION, M.PARTITION m), (H.GROUP, M.GROUP m),
      (H.JOB, s.get F.RK_PARTJOB_JOB (M.PARTITION m)), (H.SRC_CHIP, s.own), (H.SRC_EP, 280 + l),
      (H.SEQ, M.SEQ m)] ++ s.neighbourFields (M.EPOCH m) l) (if sred then leBytes 8 (M.VALUE m) else []) [sred && bad]

/-- A Plumb message leaves the die through logical port `l` on VL0, which is open in ADMITTED only (R298). -/
def State.plumbToFibre (s : State) (l : Nat) (m : PlumbMsg) (bad : Bool := false) : State :=
  let p := s.physOf l
  if s.admitted p then s.stage p noSource 0 (s.plumbPacket l m bad) else s

end Sys2Proof.Machine
end

