-- ==== Sys2Proof/Machine/Trees.lean ====
section
/-! DEFINITION. Screed nodes and their stores: tree entries, room counts, multicast forks, merged answers, slots in
RESULT, and the flush after an abort (R211 to R219, R233 to R236). A unit is numbered 16 × ry + rx for a router and
256 + l for the port unit of logical port l; a port's edges are 0 towards the die and 1 towards the fibre. -/

namespace Sys2Proof.Machine

def evNoEntry : Event := ⟨0x601, 1⟩
def evMergeExpired : Event := ⟨0x602, 1⟩

/-- A unit's number, as UNIT and SC_ERRCNT number it. -/
def unitNo : Unit9 → Nat
  | .router r => r.val
  | .port p => 256 + p.val

/-- A Screed node: a unit's tree entry for a group in one bank (R212, R236). -/
structure Node where
  unit : Nat
  epoch : Nat
  group : Nat
  root : Bool
  /-- edge towards the parent; output C at the root, where chunks and multicast packets enter -/
  up : Nat
  kids : List Nat
  order : List Nat
  /-- copies of SC_SLOTSTAT, in the order chunks use them -/
  slots : List Nat
  mcBase : Nat
  mcCount : Nat
  mergeBase : Nat
  mergeCount : Nat
deriving DecidableEq, Repr

/-- The node of a router for a group, by the entry of the bank (R212). -/
def State.routerNode (s : State) (r e g : Nat) : Option Node :=
  (((List.range 16).map (fun k => 16 * r + k)).find? (fun n =>
    s.flagE e F.SC_TREE_VALID n && s.getE e F.SC_TREE_GROUP n == g)).map (fun n =>
    let up := s.getE e F.SC_TREE_PARENT n
    { unit := r, epoch := e, group := g, root := up == 7, up := if up = 7 then 4 else up
      kids := bitsOf 7 (s.getE e F.SC_TREE_CHILDREN n)
      order := (List.range (s.getE e F.SC_TREE_INPUTS n)).map (fun j => s.getE e F.SC_TREE_ORDER n / 8 ^ j % 8)
      slots := (bitsOf 4 (s.getE e F.SC_TREERES_SLOTS n)).map (fun i => 4 * r + i)
      mcBase := s.getE e F.SC_TREERES_MC_BASE n, mcCount := s.getE e F.SC_TREERES_MC_COUNT n
      mergeBase := s.getE e F.SC_TREERES_MERGE_BASE n, mergeCount := s.getE e F.SC_TREERES_MERGE_COUNT n })

/-- The node of logical port `l` for a group: one edge to the die, one to the fibre. -/
def State.portNode (s : State) (l e g : Nat) : Option Node :=
  (s.portEntry e l g).map (fun n =>
    let side := s.getE e F.SC_PORTTREE_PARENT_SIDE n
    { unit := 256 + l, epoch := e, group := g, root := false, up := 1 - side
      kids := [side], order := [side]
      slots := (List.range (s.getE e F.SC_PORTTREE_SLOT_COUNT n)).map (fun i =>
        1024 + 64 * l + (s.getE e F.SC_PORTTREE_SLOT_BASE n + i) % 64)
      mcBase := s.getE e F.SC_PORTTREE_MC_BASE n, mcCount := s.getE e F.SC_PORTTREE_MC_COUNT n
      mergeBase := s.getE e F.SC_PORTTREE_MERGE_BASE n, mergeCount := s.getE e F.SC_PORTTREE_MERGE_COUNT n })

/-- The node of a unit for a group. -/
def State.node (s : State) (u e g : Nat) : Option Node :=
  if u < 256 then s.routerNode u e g else s.portNode (u - 256) e g

/-- A node's key among State.nodes. -/
def Node.key (n : Node) : Nat := 8192 * n.unit + 4096 * n.epoch + n.group

/-- A node's progress. -/
def State.run (s : State) (n : Node) : NodeRun := (lookup s.nodes n.key).getD ⟨0, none, false, 0⟩
def State.setRun (s : State) (n : Node) (r : NodeRun) : State :=
  { s with nodes := assign s.nodes n.key r ⟨0, none, false, 0⟩ }

def Node.room (n : Node) (edge : Nat) (k : RoomKind) : Nat := roomKey n.unit n.epoch edge n.group k

/-- Counts a move received on an edge (R213). -/
def State.countMove (s : State) (k : Nat) : State :=
  s.setRoom k { s.roomAt k with taken := ((s.roomAt k).taken + 1) % 16 }

/-- The flush generation of a group at a unit (R233). -/
def State.generation (s : State) (u g : Nat) : Bool := s.flushGen.contains (4096 * u + g)

/-- Whether (g, s) is one of the two ABORTs that PL_GROUPSTATE records (R264). -/
def State.abortRecorded (s : State) (g q : Nat) : Bool :=
  (s.flag F.PL_GROUPSTATE_ABORT_VALID0 g && s.get F.PL_GROUPSTATE_ABORT_SEQ0 g == q)
    || (s.flag F.PL_GROUPSTATE_ABORT_VALID1 g && s.get F.PL_GROUPSTATE_ABORT_SEQ1 g == q)

/-! ### Formats of a group and its chunks -/

/-- The four formats of a group: member, die, chip, rack (R223). -/
def State.formats (s : State) (e g : Nat) : List Nat :=
  [s.getE e F.RK_GROUP_FMT_MEMBER g, s.getE e F.RK_GROUP_FMT_DIE g, s.getE e F.RK_GROUP_FMT_CHIP g,
    s.getE e F.RK_GROUP_FMT_RACK g]

/-- Most elements of a format, a multiple of 256, that 4,096 bytes hold (Table 9-3). -/
def mostElems (fmt : Nat) : Nat := if fmt = 7 then 3840 else 4096 / unitBytes fmt / 256 * 256

/-- E: the chunk size that all four formats give (R218). -/
def chunkOf (fmts : List Nat) : Nat := (fmts.map mostElems).foldl Nat.min 4096

/-- Bytes of `n` elements of a format; B8 holds whole units (R92, R397). -/
def sizeOf' (fmt n : Nat) : Nat := if fmt = 7 then ceilDiv n 256 * 264 else n * unitBytes fmt

/-- Bytes of a full chunk in the member format (R240). -/
def State.chunkBytes (s : State) (e g : Nat) : Nat :=
  sizeOf' (s.getE e F.RK_GROUP_FMT_MEMBER g) (chunkOf (s.formats e g))

/-- Chunk index that an ADDRESS names. -/
def State.chunkIndex (s : State) (e g addr : Nat) : Nat := addr / Nat.max 1 (s.chunkBytes e g)

/-- Level format of logical port `l`: chip on X and Y, rack on Z (R223). -/
def State.levelFormat (s : State) (e g l : Nat) : Nat :=
  if l < 4 then s.getE e F.RK_GROUP_FMT_CHIP g else s.getE e F.RK_GROUP_FMT_RACK g

/-! ### Packets of a node -/

/-- The FIFO by which a port unit sends towards the die: attachment GROUP mod 8 (R113). -/
def State.treeFifo (s : State) (l : Nat) (p : Packet) : Nat :=
  256 * 17 + 34 * s.physOf l + 4 * (pget p H.GROUP % 8) + (if meshOf p = .reply then 2 else 0)

/-- A port unit sends across the fibre, or keeps the packet until the flush marker has come (R233). -/
def State.portSend (s : State) (l : Nat) (p : Packet) : State :=
  if s.awaitMarker.any (fun m => m.1 == l && m.2.1 == pget p H.GROUP) then
    { s with fibreHold := s.fibreHold ++ [(l, p)] }
  else s.treeToFibre l p

/-- A packet leaves a unit on an edge: a router's requests the output from its Screed input, a port's goes to the
die or across the fibre. -/
def State.sendTree (s : State) (u edge : Nat) (p : Packet) : State :=
  if u < 256 then s.requestOutput (meshOf p) u 7 edge p
  else if edge = 1 then s.portSend (u - 256) p
  else s.emit (s.treeFifo (u - 256) p) .free p

/-- Counts at a unit and logs. -/
def State.noEntry (s : State) (u : Nat) (p : Packet) : State :=
  (s.sat F.SC_ERRCNT_NOENTRY u).event evNoEntry 5 u (hword p.head.data 0) (hword p.head.data 1)

/-! ### Merged answers (R216, R217) -/

/-- The payload of Table 4-8. -/
def mergedBytes (failed rank ep st : Nat) : List Byte :=
  leBytes 4 failed ++ leBytes 2 rank ++ leBytes 2 ep ++ leBytes 1 st ++ leBytes 7 0

/-- A merged answer that a unit builds for a PUT_MC: it names the core port at the router, or the port. -/
def State.mergedAck (s : State) (u : Nat) (req : Packet) (failed rank ep st : Nat) : Packet :=
  s.replyTo (if u < 256 then coreAt (rxOf u) (ryOf u) else 280 + (u - 256)) req Op.ACK (if failed = 0 then 0 else st)
    (if failed = 0 then mergedBytes 0 0 0 0 else mergedBytes failed rank ep st) [] [(H.GROUP, pget req H.GROUP)]

/-- Frees merge entry `k` and sends its merged answer: to the parent, or from the root to the sender. -/
def State.finishMerge (s : State) (u k : Nat) (m : Merge) : State :=
  let s := { s with merges := remove s.merges k }
  match s.node u m.epoch m.group with
  | none => s
  | some n =>
    let ack := s.mergedAck u m.pkt m.failed m.rank m.ep m.status
    if n.root && !(pflag m.pkt H.ACK_REQ || m.failed != 0) then s
    else (s.drawn).sendTree u n.up ack

/-- Whether a failed member comes before the one an entry holds: lower rank, then lower endpoint. -/
def firstFailed (m : Merge) (failed rank ep st : Nat) : Merge :=
  if failed = 0 then m
  else if m.failed = 0 || rank < m.rank || (rank = m.rank && ep < m.ep) then
    { m with failed := m.failed + failed, rank := rank, ep := ep, status := st }
  else { m with failed := m.failed + failed }

/-- One answer for a merge entry, from output `out`. -/
def State.mergeAnswer (s : State) (u k out : Nat) (m : Merge) (failed rank ep st : Nat) : State :=
  let m := { firstFailed m failed rank ep st with pending := clearBit m.pending out }
  if m.pending = 0 then s.finishMerge u k m else { s with merges := upsert s.merges k m }

/-- The merge entry at a unit that awaits output `out` for a TAG (R216). The packets of one command carry one TAG (R147):
among them the one at the ADDRESS that the answer echoes (R93). -/
def State.mergeFor (s : State) (u out g tag addr : Nat) : Option (Nat × Merge) :=
  let open' := s.merges.filter (fun e => e.1 / 64 == u && e.2.group == g && pget e.2.pkt H.TAG == tag && bit e.2.pending out)
  (open'.find? (fun e => pget e.2.pkt H.ADDRESS == addr)).or open'.head?

/-- An answer that names a group at unit `u`, edge `out`. -/
def State.takeAnswerAt (s : State) (u out : Nat) (p : Packet) : State :=
  match s.mergeFor u out (pget p H.GROUP) (pget p H.TAG) (pget p H.ADDRESS) with
  | none => s.sat F.SC_ERRCNT_NOENTRY u
  | some (k, m) =>
    let b := payload p
    s.mergeAnswer u k out m (leNat (b.take 4)) (leNat ((b.drop 4).take 2) % 4096) (leNat ((b.drop 6).take 2) % 512)
      (leNat ((b.drop 8).take 1) % 16)

/-- The answer of an edge that leads across a fibre out of service (R235). -/
def State.beyond (s : State) (l e g : Nat) : Option (Nat × Nat × Nat) :=
  (s.portEntry e l g).map (fun n => (s.getE e F.SC_PORTBEYOND_COUNT n, s.getE e F.SC_PORTBEYOND_FIRST_RANK n,
    s.getE e F.SC_PORTBEYOND_FIRST_EP n))

/-- Answers merge entry `k` of port `l` from SC_PORTBEYOND. -/
def State.answerBeyond (s : State) (l k : Nat) (m : Merge) : State :=
  match s.beyond l m.epoch m.group with
  | none => s
  | some (c, r, ep) => s.mergeAnswer (256 + l) k 1 m c r ep St.UNREACHABLE

/-! ### Multicast forks (R215) -/

/-- Keys of a node's multicast buffers and merge entries. -/
def Node.bufs (n : Node) : List Nat :=
  (List.range n.mcCount).map (fun i => 64 * n.unit + (n.mcBase + i) % 64)
def Node.mergeKeys (n : Node) : List Nat :=
  (List.range n.mergeCount).map (fun i => 64 * n.unit + (n.mergeBase + i) % 64)

/-- A node's intake buffers: all of them with one output in CHILDREN, else those after the branch buffers. -/
def Node.intakes (n : Node) : List Nat := if n.kids.length ≤ 1 then n.bufs else n.bufs.drop n.kids.length

/-- The branch buffer of the j-th output of CHILDREN. -/
def Node.branchBuf (n : Node) (out : Nat) : Option Nat :=
  if n.kids.length ≤ 1 then none
  else (n.kids.zip n.bufs).find? (fun e => e.1 == out) |>.map (fun e => e.2)

/-- A free buffer or entry among keys. -/
def freeKey {α : Type} (t : Tbl α) (ks : List Nat) : Option Nat := ks.find? (fun k => (lookup t k).isNone)

/-- Whether a unit's edge leads to another Screed node on the die: a router output to a router or to a port unit that
must invite, or a port unit's edge to the die. Members and the fibre take what they are sent. -/
def edgeInvites (u edge : Nat) : Bool :=
  if u < 256 then (edge < 4 || ((edge = 5 || edge = 6) && (portAt u edge).isSome)) else edge = 0

/-- Whether a port unit may forward a PUT_MC across the fibre or to a member: a router's child must invite; a port
unit is reached as soon as the output is granted (R215). -/
def State.branchOpen (s : State) (n : Node) (out : Nat) : Bool :=
  if n.unit < 256 then (out ≥ 4 || s.invitedTo (n.room out .multicast))
  else (out = 1 || s.invitedTo (n.room out .multicast))

/-- A copy leaves a node for output `out`. -/
def State.sendCopy (s : State) (n : Node) (out : Nat) (p : Packet) : State :=
  let s := if n.unit < 256 && 4 ≤ out then s
    else if 256 ≤ n.unit && out = 1 then s
    else s.startMove (n.room out .multicast)
  s.sendTree n.unit out p

/-- A PUT_MC for a fibre edge out of service is answered at once (R235). -/
def State.edgeDead (s : State) (n : Node) (out : Nat) : Bool :=
  256 ≤ n.unit && out = 1 && !s.admitted (s.physOf (n.unit - 256))

/-- The merge entry of a PUT_MC at a node. -/
def State.mergeOf (s : State) (n : Node) (p : Packet) : Option (Nat × Merge) :=
  s.merges.find? (fun e => e.1 / 64 == n.unit && e.2.group == n.group && e.2.pkt == p)

/-- Sends the copies of branch buffers whose branch is open; a router's buffer frees when the copy's tail has left. -/
def State.sendBranches (s : State) (n : Node) : State :=
  n.kids.foldl (fun s out =>
    match n.branchBuf out with
    | none => s
    | some k =>
      match lookup s.mcBufs k with
      | none => s
      | some b =>
        if b.going || !s.branchOpen n out then s
        else ({ s with mcBufs := upsert s.mcBufs k { b with going := true } } : State).sendCopy n out b.pkt) s

/-- Whether an older PUT_MC of the node still waits for an output: copies leave in arrival order. -/
def State.olderWaits (s : State) (n : Node) (b : McBuf) (out : Nat) : Bool :=
  n.intakes.any (fun k => match lookup s.mcBufs k with
    | some c => c.group == n.group && c.order < b.order && bit c.outs out
    | none => false)

/-- One output of an intake buffer: with one output in CHILDREN the buffer sends as its own branch buffer; else it is
copied into that output's branch buffer where it is free (R215). -/
def State.copyOut (s : State) (n : Node) (k out : Nat) : State :=
  match lookup s.mcBufs k with
  | none => s
  | some b =>
    if b.going || !bit b.outs out || s.olderWaits n b out then s
    else if n.kids.length ≤ 1 then
      if s.edgeDead n out then
        let s := { s with mcBufs := remove s.mcBufs k }
        match s.mergeOf n b.pkt with
        | some (mkey, m) => s.answerBeyond (n.unit - 256) mkey m
        | none => s
      else if !s.branchOpen n out then s
      else if n.unit < 256 then
        ({ s with mcBufs := upsert s.mcBufs k { b with outs := 0, going := true, branch := some out } } : State).sendCopy
          n out b.pkt
      else ({ s with mcBufs := remove s.mcBufs k } : State).sendCopy n out b.pkt
    else
      match n.branchBuf out with
      | none => s
      | some bk =>
        if (lookup s.mcBufs bk).isSome then s
        else
          let left := clearBit b.outs out
          let s := { s with mcBufs := upsert s.mcBufs bk ⟨n.group, n.epoch, some out, false, 0, b.order, b.pkt⟩ }
          if left = 0 then { s with mcBufs := remove s.mcBufs k }
          else { s with mcBufs := upsert s.mcBufs k { b with outs := left } }

/-- FORK_COPY of a buffer: every output in ascending order, then the branch buffers that can send. -/
def State.forkCopy (s : State) (n : Node) (k : Nat) : State :=
  (n.kids.foldl (fun s out => s.copyOut n k out) s).sendBranches n

/-- A PUT_MC enters a node from its parent edge: an intake buffer and a merge entry take it (R215); without both it was
not invited and waits where it is. A node without CHILDREN answers it at once. -/
def State.takeMulticast (s : State) (n : Node) (p : Packet) : State :=
  match freeKey s.mcBufs n.intakes, freeKey s.merges n.mergeKeys with
  | some k, some mkey =>
    let outs := n.kids.foldl setBit 0
    let order := (s.mcBufs.map (fun e => e.2.order)).foldl Nat.max 0 + 1
    let m : Merge := ⟨n.group, n.epoch, p, outs, 0, 0, 0, 0⟩
    let s := s.countMove (n.room n.up .multicast)
    let s := { s with mcBufs := upsert s.mcBufs k ⟨n.group, n.epoch, none, false, outs, order, p⟩
                      merges := upsert s.merges mkey m }
    if outs = 0 then ({ s with mcBufs := remove s.mcBufs k } : State).finishMerge n.unit mkey m
    else s
  | _, _ => s

/-! ### Slots in RESULT (R219, R221, R244, R245) -/

/-- A slot's contents when FREE. -/
def Slot.empty : Slot := ⟨0, [], [], 0, none, false, 0, false, false, 0, 0⟩
def State.slot (s : State) (k : Nat) : Slot := (lookup s.slots k).getD Slot.empty
def State.setSlot (s : State) (k : Nat) (v : Slot) : State := { s with slots := assign s.slots k v Slot.empty }

namespace SL
def FREE : Nat := 0
def FILLING : Nat := 1
def AWAIT : Nat := 2
def RESULT : Nat := 3
end SL

def State.slotState (s : State) (k : Nat) : Nat := s.get F.SC_SLOTSTAT_STATE k

/-- A slot becomes FREE. -/
def State.freeSlot (s : State) (k : Nat) : State :=
  { s.setWord .SC_SLOTSTAT k 0 with slots := remove s.slots k }

/-- The slot that chunk `k` uses at a node. -/
def Node.slotFor (n : Node) (k : Nat) : Option Nat := n.slots[k % Nat.max 1 n.slots.length]?

/-- Where output X0 or X1 of a router leads to a stack, the stack (R247). -/
def sinkAt (u out : Nat) : Option Nat := if u < 256 && out = 5 && (portAt u 5).isNone then stackAt u else none

/-- Outputs of CHILDREN that take a RED_DOWN: a stack only where the group's auxiliary entry names it (R237). -/
def State.resultOuts (s : State) (n : Node) : List Nat :=
  n.kids.filter (fun out => match sinkAt n.unit out with
    | none => true
    | some st => s.flagE n.epoch F.RK_GROUPAUX_SINK_VALID n.group && s.getE n.epoch F.RK_GROUPAUX_SINK_STACK n.group == st)

/-- The elements of a payload: one number per element, 33 per B8 block (R92). -/
def elemsOf (fmt : Nat) (bs : List Byte) : List Nat :=
  if fmt = 7 then
    (pieces 264 bs.length bs).flatMap (fun u => (List.range 8).flatMap (fun j =>
      ((u.getD j 0).toNat :: (((u.drop (8 + 32 * j)).take 32).map (fun b => b.toNat)))))
  else (pieces (Nat.max 1 (unitBytes fmt)) bs.length bs).map leNat

/-- The payload that elements fill. -/
def bytesOf (fmt : Nat) (es : List Nat) : List Byte :=
  if fmt = 7 then
    (pieces 264 es.length es).flatMap (fun u =>
      let blks := pieces 33 u.length u
      blks.map (fun b => BitVec.ofNat 8 (b.headD 0)) ++ blks.flatMap (fun b => (b.drop 1).map (BitVec.ofNat 8)))
  else es.flatMap (fun v => leBytes (unitBytes fmt) v)

/-- First and last byte of element `i`. -/
def elemSpan (fmt i : Nat) : Nat × Nat :=
  if fmt = 7 then (264 * (i / 256) + 8 + i % 256, 264 * (i / 256) + 8 + i % 256)
  else (i * unitBytes fmt, i * unitBytes fmt + unitBytes fmt - 1)

/-- Which of `n` elements are taken from poisoned flits; in B8 the flit of the block's scale counts too (R232). -/
def elemPoison (fmt n : Nat) (flits : List Bool) : List Bool :=
  (List.range n).map (fun i =>
    let sp := elemSpan fmt i
    flits.getD (sp.1 / 64) false || flits.getD (sp.2 / 64) false
      || (fmt = 7 && flits.getD ((264 * (i / 256) + i % 256 / 32) / 64) false))

/-- Which flits of `len` bytes hold a poisoned element, or any byte of a poisoned B8 block (R232). -/
def poisonedFlits (fmt len : Nat) (bad : List Bool) : List Bool :=
  (List.range (ceilDiv len 64)).map (fun k =>
    (List.range bad.length).any (fun i => bad.getD i false &&
      (if fmt = 7 then
        let u := 264 * (i / 256)
        let b := i % 256 / 32
        k = (u + b) / 64 || k = (u + 8 + 32 * b) / 64 || k = (u + 8 + 32 * b + 31) / 64
       else k = (elemSpan fmt i).1 / 64 || k = (elemSpan fmt i).2 / 64)))

/-- A RED_UP or RED_DOWN that a node builds from a slot: header fields of input 0 of the chunk, the chunk's own, the FORMAT it
carries, and DST_CHIP of its own chip (R103, R221, R397). -/
def State.slotPacket (s : State) (v : Slot) (opcode fmt : Nat) (es : List Nat) (bad : List Bool) (count : Nat) : Packet :=
  let bytes := bytesOf fmt es
  let h (f : HFld) := (f, hget v.hdr f)
  mkPacket ([(H.OPCODE, opcode), h H.JOB, h H.PARTITION, h H.SRC_CHIP, h H.SRC_EP, h H.SRC_RANK, h H.EPOCH, h H.GROUP,
      h H.SEQ, h H.OP, h H.ADDRESS, h H.LAST_CHUNK, (H.DST_CHIP, s.own), (H.FORMAT, fmt),
      (H.B8_PAD, if fmt = 7 then (256 - count % 256) % 256 else 0)]) bytes
    (if bad.any (fun b => b) then poisonedFlits fmt bytes.length bad else [])

/-- The packet a slot in RESULT copies into output `out`, in the member format: LENGTH 0 where R244 and R245 say so (R221). -/
def State.resultPacket (s : State) (n : Node) (k out : Nat) : Packet :=
  let v := s.slot k
  let zero := (n.root && v.bcast && out = 4) || (v.coreOnly && out != 4)
  if zero then s.slotPacket v Op.RED_DOWN (s.getE n.epoch F.RK_GROUP_FMT_MEMBER n.group) [] [] 0
  else s.slotPacket v Op.RED_DOWN v.fmt v.elems v.bad (v.count.getD 0)

/-- Puts a result into a slot: STATE becomes RESULT and every output of CHILDREN is to get a copy. -/
def State.toResult (s : State) (n : Node) (k : Nat) (v : Slot) : State :=
  let s := s.setSlot k { v with outs := (s.resultOuts n).foldl setBit 0, going := 0 }
  (s.put F.SC_SLOTSTAT_STATE k SL.RESULT).put F.SC_SLOTSTAT_POISON k (b2n (v.bad.any (fun b => b)))

/-- The broadcast release that a port with its parent across the fibre sends when its slot frees (R245). -/
def State.release (s : State) (n : Node) (v : Slot) : State :=
  if v.bcast && 256 ≤ n.unit && n.up = 1 then
    s.portSend (n.unit - 256) (s.slotPacket v Op.RED_UP (hget v.hdr H.FORMAT) [] [] 0)
  else s

/-- A slot whose copies have all left: FREE, but a port with the child across the fibre keeps a broadcast's slot until
the release comes back (R245). -/
def State.settleSlot (s : State) (n : Node) (k : Nat) : State :=
  let v := s.slot k
  if s.slotState k != SL.RESULT || v.outs != 0 || v.going != 0 then s
  else if v.bcast && 256 ≤ n.unit && n.up = 0 then s
  else (s.freeSlot k).release n v

/-- Whether the member core port of a router has invited chunk `k` (R243, R245): the next one of a collective in progress with
the chunk's GROUP and SEQ, up to four chunks ahead of the last it has taken. -/
def State.coreInvites (s : State) (u g q k : Nat) : Bool :=
  s.cmds.any (fun c => c.core == coreAt (rxOf u) (ryOf u) && !c.done && (match c.coll with
    | some r => r.group == g && r.seq == q && r.invited == k && k < r.down + 4
    | none => false))

/-- The core port's invitation of chunk `k` is used up. -/
def State.useInvite (s : State) (u g q k : Nat) : State :=
  { s with cmds := s.cmds.map (fun c =>
      if c.core == coreAt (rxOf u) (ryOf u) && !c.done then
        { c with coll := c.coll.map (fun r => if r.group = g && r.seq = q then { r with invited := k + 1 } else r) }
      else c) }

/-- Whether a slot may copy its result into an output (R219, R245): a member core port must have invited the chunk, and
in a BROADCAST a child node on the die too. -/
def State.copyOpen (s : State) (n : Node) (k out : Nat) : Bool :=
  let v := s.slot k
  if n.unit < 256 && out = 4 then
    s.coreInvites n.unit n.group (s.get F.SC_SLOTSTAT_SEQ k) (s.get F.SC_SLOTSTAT_CHUNK k)
  else if v.bcast && edgeInvites n.unit out then s.invitedTo (n.room out .result)
  else true

/-- RESULT_COPY of a slot into an output. -/
def State.copyResult (s : State) (n : Node) (k out : Nat) : State :=
  let v := s.slot k
  if s.slotState k != SL.RESULT || !bit v.outs out || !s.copyOpen n k out then s
  else
    let p := s.resultPacket n k out
    let s := if v.bcast && edgeInvites n.unit out && !(n.unit < 256 && out = 4) then s.startMove (n.room out .result) else s
    let s := if n.unit < 256 && out = 4 then
      s.useInvite n.unit n.group (s.get F.SC_SLOTSTAT_SEQ k) (s.get F.SC_SLOTSTAT_CHUNK k) else s
    let v := { v with outs := clearBit v.outs out, going := if n.unit < 256 then setBit v.going out else v.going }
    ((s.setSlot k v).sendTree n.unit out p).settleSlot n k

/-! ### Copies on their way out -/

/-- A packet's tail has left input 7 of a router at output `out`: the branch buffer or slot that held it is done. -/
def State.leftUnit (s : State) (m : Mesh) (r out : Nat) (p : Packet) : State :=
  match m with
  | .request =>
    { s with mcBufs := s.mcBufs.filter (fun e =>
        !(e.1 / 64 == r && e.2.going && e.2.branch == some out && e.2.pkt == p)) }
  | .reply =>
    let g := pget p H.GROUP
    match s.node r (pget p H.EPOCH) g with
    | none => s
    | some n =>
      n.slots.foldl (fun s k =>
        if pget p H.OPCODE = Op.RED_DOWN && s.slotState k = SL.RESULT && bit (s.slot k).going out
            && s.get F.SC_SLOTSTAT_SEQ k = pget p H.SEQ && s.get F.SC_SLOTSTAT_GROUP k = g
            && hget (s.slot k).hdr H.ADDRESS = pget p H.ADDRESS then
          (s.setSlot k { s.slot k with going := clearBit (s.slot k).going out }).settleSlot n k
        else s) s

/-- ARBITER_GRANT: the tail at an output has passed; a copy of the Screed unit that it ends is gone, and the waiting
header of lowest rank is granted the output (R45 to R47, R215, R219). -/
def execArbiterGrant (m : Mesh) (r : Fin 256) (out : Fin 8) (s : State) : Host.Outcome State Fault Refusal :=
  live s (fun s =>
    let s := match lookup s.grants (outKey m r.val out.val) with
      | some g => if g.inp = 7 && g.passed && !g.parked then s.leftUnit m r.val out.val g.pkt else s
      | none => s
    s.freeOutput m r.val out.val)

/-! ### Room counts issued -/

/-- How many slots in a row are FREE for the chunks from `k` on (R219, R245). -/
def State.freeRun (s : State) (n : Node) (k : Nat) : Nat :=
  ((List.range n.slots.length).takeWhile (fun j => match n.slotFor (k + j) with
    | some key => s.slotState key == SL.FREE
    | none => false)).length

/-- Inputs of a node that it awaits on an edge: one per slot that is FILLING at that input, and in chunk order one per FREE
slot where the edge is input 0 (R219, R220). -/
def State.awaited (s : State) (n : Node) (edge : Nat) : Nat :=
  let fill := (n.slots.filter (fun k => s.slotState k == SL.FILLING
    && n.order[s.get F.SC_SLOTSTAT_INPUT k]? == some edge)).length
  if (s.run n).halted then 0 else fill + (if n.order[0]? = some edge then s.freeRun n (s.run n).next else 0)

/-- Whether the other bank's node of the same unit and group still holds anything (R236). -/
def State.oldHolds (s : State) (n : Node) : Bool :=
  s.slots.any (fun e => (if e.1 < 1024 then e.1 / 4 else 256 + (e.1 - 1024) / 64) == n.unit
      && s.get F.SC_SLOTSTAT_GROUP e.1 == n.group && s.get F.SC_SLOTSTAT_EPOCH e.1 != n.epoch)
    || s.mcBufs.any (fun e => e.1 / 64 == n.unit && e.2.group == n.group && e.2.epoch != n.epoch)
    || s.merges.any (fun e => e.1 / 64 == n.unit && e.2.group == n.group && e.2.epoch != n.epoch)

/-- The room count of an edge that a node shows its peer (R213): moves taken and moves invited and not yet made. -/
def State.roomCount (s : State) (n : Node) (edge : Nat) (k : RoomKind) : Nat :=
  let open' := match k with
    | .contribution => s.awaited n edge
    | .multicast => if edge = n.up then Nat.min ((n.intakes.filter (fun b => (lookup s.mcBufs b).isNone)).length)
        ((n.mergeKeys.filter (fun m => (lookup s.merges m).isNone)).length) else 0
    | .result => if edge = n.up then s.freeRun n (s.run n).down else 0
  ((s.roomAt (n.room edge k)).taken + (if s.oldHolds n then 0 else open')) % 16

/-- The node that invites a unit's sender on an edge, and its own edge there: an adjacent Screed unit of the die, or the
router's own node for its core port (edge 7). No room count crosses the fibre (R213). -/
def State.peerOf (s : State) (u edge e g : Nat) : Option (Node × Nat) :=
  if u < 256 then
    if edge = 7 then (s.routerNode u e g).map (fun n => (n, 4))
    else
      match facing u edge, portAt u edge with
      | some (r, o), _ => (s.routerNode r e g).map (fun n => (n, o))
      | none, some (p, _) => (s.portNode (s.logical p) e g).map (fun n => (n, 0))
      | none, none => none
  else if edge = 0 then
    let p := s.physOf (u - 256)
    (s.routerNode (16 * portRy p (g % 8) + portRx p (g % 8)) e g).map (fun n => (n, portOutput p (g % 8)))
  else none

/-- Whether a room count is the one that the inviting node shows (R213). -/
def State.shownCount (s : State) (u edge e g : Nat) (k : RoomKind) (count : Nat) : Bool :=
  match s.peerOf u edge e g with
  | some (n, x) => s.roomCount n x k == count
  | none => false

/-! ### Flush and loss of a port (R233, R235) -/

/-- Units that hold an entry for a group, in either bank. -/
def State.unitsOf (s : State) (g : Nat) : List Nat :=
  (List.range 262).filter (fun u => (s.node u 0 g).isSome || (s.node u 1 g).isSome)

/-- A unit toggles the flush generation of a group. -/
def State.toggleGen (s : State) (u g : Nat) : State :=
  let k := 4096 * u + g
  { s with flushGen := if s.flushGen.contains k then removeNat s.flushGen k else insertNat s.flushGen k }

/-- The flush marker of a port with its parent on the die (R233). -/
def State.flushMarker (s : State) (l g q e : Nat) : Packet :=
  mkPacket [(H.OPCODE, Op.RED_DOWN), (H.STATUS, St.ABORTED), (H.EPOCH, e), (H.GROUP, g), (H.SEQ, q), (H.LAST_CHUNK, 1),
    (H.PARTITION, s.getE e F.RK_GROUP_PARTITION g), (H.JOB, s.get F.RK_PARTJOB_JOB (s.getE e F.RK_GROUP_PARTITION g)),
    (H.SRC_CHIP, s.own), (H.SRC_EP, 280 + l)] [] []

/-- A port's part in the flush: the marker, or the wait for it. -/
def State.flushPort (s : State) (l g q : Nat) : State :=
  let e := if (s.portNode l s.parity g).isSome then s.parity else 1 - s.parity
  match s.portNode l e g with
  | none => s
  | some n =>
    let keep (x : Nat × Packet) : Bool := !(x.1 == l && pget x.2 H.GROUP == g && pget x.2 H.SEQ == q
      && (pget x.2 H.OPCODE == Op.RED_UP || pget x.2 H.OPCODE == Op.RED_DOWN))
    let lost := (s.fibreHold.filter (fun x => !keep x)).length
    let s := ({ s with fibreHold := s.fibreHold.filter keep } : State).sat F.SC_ERRCNT_FLUSHED (256 + l) lost
    if n.up = 0 then s.treeToFibre l (s.flushMarker l g q e)
    else if s.markers.contains (l, g, q) then { s with markers := s.markers.erase (l, g, q) }
    else { s with awaitMarker := s.awaitMarker ++ [(l, g, q)] }

/-- A flush marker reaches port `l`: what waited for it goes across the fibre. -/
def State.takeMarker (s : State) (l g q : Nat) : State :=
  if s.awaitMarker.contains (l, g, q) then
    let s := { s with awaitMarker := s.awaitMarker.erase (l, g, q) }
    if s.awaitMarker.any (fun m => m.1 == l && m.2.1 == g) then s
    else
      let go := s.fibreHold.filter (fun x => x.1 == l && pget x.2 H.GROUP == g)
      let s := { s with fibreHold := s.fibreHold.filter (fun x => !(x.1 == l && pget x.2 H.GROUP == g)) }
      go.foldl (fun s x => s.treeToFibre l x.2) s
  else { s with markers := s.markers ++ [(l, g, q)] }

/-- The flush of group `g` after an ABORT of SEQ `q`, at every node of the chip (R233). -/
def State.flushGroup (s : State) (g q : Nat) : State :=
  let hit (k : Nat) : Bool := s.get F.SC_SLOTSTAT_GROUP k == g && s.get F.SC_SLOTSTAT_SEQ k == q
    && s.slotState k != SL.FREE
  let s := ((s.slots.map (fun e => e.1)).filter hit).foldl (fun s k => s.freeSlot k) s
  let units := s.unitsOf g
  let s := units.foldl (fun s u => s.toggleGen u g) s
  let s := { s with nodes := s.nodes.filter (fun e => e.1 % 4096 != g), rooms := s.rooms.filter (fun e => e.1 % 4096 != g) }
  let s := { s with outWait := s.outWait.filter (fun w => !(match w.gate with
    | .room k => k % 4096 == g && pget w.pkt H.SEQ == q && (pget w.pkt H.OPCODE == Op.RED_UP || pget w.pkt H.OPCODE == Op.RED_DOWN)
    | _ => false)) }
  ((units.filter (fun u => 256 ≤ u)).map (fun u => u - 256)).foldl (fun s l => s.flushPort l g q) s

/-- A port unit loses its fibre: slots and multicast buffers discarded, merge entries that await it answered (R235). -/
def State.screedPortLost (s : State) (l : Nat) : State :=
  let s := { s with mcBufs := s.mcBufs.filter (fun e => e.1 / 64 != 256 + l)
                    fibreHold := s.fibreHold.filter (fun x => x.1 != l)
                    awaitMarker := s.awaitMarker.filter (fun m => m.1 != l) }
  let s := ((s.slots.map (fun e => e.1)).filter (fun k => 1024 + 64 * l ≤ k && k < 1024 + 64 * l + 64)).foldl
    (fun s k => s.freeSlot k) s
  let s := { s with nodes := s.nodes.filter (fun e => e.1 / 8192 != 256 + l) }
  (s.merges.filter (fun e => e.1 / 64 == 256 + l && bit e.2.pending 1)).foldl (fun s e =>
    match lookup s.merges e.1 with
    | some m => s.answerBeyond l e.1 m
    | none => s) s

/-! ### Members of a PUT_MC -/

/-- A member's answer to a PUT_MC (R216): an ACK of LENGTH 16 into the tree. -/
def State.memberAnswer (s : State) (ep : Nat) (p : Packet) (st : Nat) : State :=
  let failed := b2n (st != 0)
  let rank := s.rankIn (pget p H.JOB)
  let r := s.replyTo ep p Op.ACK st (if failed = 0 then mergedBytes 0 0 0 0 else mergedBytes 1 rank ep st) []
    [(H.GROUP, pget p H.GROUP)]
  (s.drawn).emit (s.outFifo ep r) .free r

/-- A PUT_MC that passed the checks (R97, R400). -/
def State.doPutMc (s : State) (ep : Nat) (p : Packet) : State :=
  let s := if moveless p then s else s.writePayload ep (pget p H.ADDRESS) (payload p) (flitPoison p)
  (s.signalFlag ep p).memberAnswer ep p (if !moveless p && hasPoison p then St.POISON else St.OK)

/-- The checks of Table 4-7 on a PUT_MC. A member answers it whatever they say (R94, R216); an endpoint that is none refuses it
as any other request (R101, R120). -/
def State.judgeMember (s : State) (e : Nat) (p : Packet) : State :=
  match s.verdict e p with
  | .badHeader => s.discardHead evHeaderBad e p
  | .badOpcode => s.discardHead evBadOpcode e p
  | .refuse st =>
    if 280 ≤ e && e < 286 then s.portEndpoint e p
    else if 286 ≤ e then s.respond e p Op.NACK st
    else s.memberAnswer e p st
  | .repeated => s.memberAnswer e p St.RANGE
  | .stale => s.memberAnswer e p St.RANGE
  | .noOwner => (s.countNoOwner e).memberAnswer e p St.NO_OWNER
  | .accept => s.doPutMc e p


def execPutMcArrival (ep : BitVec 9) (pkt : Packet) (s : State) : Host.Outcome State Fault Refusal :=
  live s (fun s =>
    let e := ep.toNat
    if !(headerBad pkt) && (classOf (pget pkt H.OPCODE)).isSome && pget pkt H.OPCODE != Op.PUT_MC then s
    else if !s.waitsAt e pkt || (!s.takes e && !s.coreRst.contains e) then s
    else
      let s := s.takeIn e pkt
      (if e < 256 && s.coreRst.contains e then s.resetDiscard e pkt
       else s.judgeMember e pkt).flow)

end Sys2Proof.Machine
end

