-- ==== Sys2Proof/Machine/Ending.lean ====
section
/-! DEFINITION. Collectives at a member: their descriptor (Table 10-6), what a member writes (Table 10-8) and the
completion record of R249. -/

namespace Sys2Proof.Machine

namespace C
def SRC_ADDR : DFld := ⟨2, 0, 32⟩
def DST_ADDR : DFld := ⟨2, 32, 32⟩
def GROUP : DFld := ⟨3, 0, 12⟩
def SEQ : DFld := ⟨3, 16, 16⟩
def FORMAT : DFld := ⟨3, 32, 4⟩
def OP : DFld := ⟨3, 36, 4⟩
def STORE : DFld := ⟨3, 40, 1⟩
def COUNT : DFld := ⟨4, 0, 32⟩
def MEMBERS : DFld := ⟨5, 0, 21⟩
def POSITION : DFld := ⟨5, 32, 21⟩
def OPERAND : DFld := ⟨6, 0, 64⟩
end C

/-! Command codes of collectives (Table 6-2). -/
namespace CC
def BARRIER : Nat := 0x20
def SCALAR_REDUCE : Nat := 0x21
def REDUCE : Nat := 0x22
def ALL_REDUCE : Nat := 0x23
def BROADCAST : Nat := 0x24
def REDUCE_SCATTER : Nat := 0x25
def ALL_GATHER : Nat := 0x26
end CC

/-- Number of the router at core `i`'s position. -/
def routerOf (i : Nat) : Nat := 16 * coreRy i + coreRx i

/-- Whether core `i` is the root member of a group: its router is the Screed root with output C in CHILDREN. -/
def State.isRootMember (s : State) (i e g : Nat) : Bool :=
  match s.routerNode (routerOf i) e g with
  | some n => n.root && n.kids.contains 4
  | none => false

/-- Whether a collective's member writes chunk `k` (Table 10-8, R262). -/
def State.writesChunk (s : State) (c : Cmd) (r : CollRun) (k : Nat) : Bool :=
  let cmd := dget c.words D.CMD
  if dget c.words C.COUNT = 0 then false
  else if cmd = CC.REDUCE then s.isRootMember c.core r.parity r.group
  else if cmd = CC.BROADCAST then !s.isRootMember c.core r.parity r.group
  else if cmd = CC.REDUCE_SCATTER then k % Nat.max 1 (dget c.words C.MEMBERS) = dget c.words C.POSITION
  else cmd = CC.ALL_REDUCE || cmd = CC.ALL_GATHER

/-- Byte offset from DST_ADDR at which a member writes chunk `k` (Table 10-8, R401). -/
def State.chunkOffset (s : State) (c : Cmd) (r : CollRun) (k : Nat) : Nat :=
  let cb := s.chunkBytes r.parity r.group
  if dget c.words D.CMD = CC.REDUCE_SCATTER then k / Nat.max 1 (dget c.words C.MEMBERS) * cb else k * cb

/-- The status of several causes, by the order of R249: ORDER, ABORTED, TIMEOUT, FENCED, RANGE, NO_OWNER, POISON. -/
def collStatus (l : List Nat) : Nat :=
  ([St.ORDER, St.ABORTED, St.TIMEOUT, St.FENCED, St.RANGE, St.NO_OWNER, St.POISON].find? (fun st => l.contains st)).getD 0

/-- Notes a chunk that the member was to write and did not write intact. -/
def CollRun.fail (r : CollRun) (off : Nat) (st : Nat) : CollRun :=
  { r with failed := r.failed + 1, first := if r.failed = 0 then off else Nat.min r.first off, stats := r.stats ++ [st] }

/-- Bytes of chunk `k` in the member format (R218, R240). -/
def State.chunkLen (s : State) (c : Cmd) (r : CollRun) (k : Nat) : Nat :=
  let e := chunkOf (s.formats r.parity r.group)
  sizeOf' (s.getE r.parity F.RK_GROUP_FMT_MEMBER r.group) (Nat.min e (dget c.words C.COUNT - k * e))

/-- The parts of a member's destination buffer, chunk by chunk: address and bytes (Table 10-8). -/
def State.destParts (s : State) (c : Cmd) (r : CollRun) : List (Nat × Nat) :=
  if dget c.words D.CMD < CC.REDUCE then
    (if dflag c.words C.STORE then [(dget c.words C.DST_ADDR, 8)] else [])
  else ((List.range r.chunks).filter (fun k => s.writesChunk c r k)).map (fun k =>
    (dget c.words C.DST_ADDR + s.chunkOffset c r k, s.chunkLen c r k))

/-- After ORDER, ABORTED, TIMEOUT or FENCED the destination buffer is undefined (R267): each chunk keeps what it holds, an
earlier content or a result, or holds the poison pattern, as a free value decides. -/
def State.leaveBuffers (s : State) (c : Cmd) (r : CollRun) : State :=
  (s.destParts c r).foldl (fun s a =>
    let s := s.drawn
    if Config.undefinedChunk s.freeCtr && s.coreOwnsAll c.core a.1 a.2 (some r.group) then s.poisonBytes c.core a.1 a.2 else s) s

/-- A core's last collective that wrote a destination in a group is kept, for an ABORT that comes after it (R267). -/
def State.noteColl (s : State) (c : Cmd) (r : CollRun) : State :=
  if (s.destParts c r).isEmpty then s
  else { s with lastColls := upsert s.lastColls (4096 * c.core + r.group) { c with pkts := [], coll := some r } }

/-- Completes a collective at its member; the chunks it was still to write count in FAILED (R249). A collective whose only
failed chunks are missing ones has a free status, since Table 10-9 names none. -/
def State.finishColl (s : State) (c : Cmd) (r : CollRun) (st : Nat) : State :=
  let miss := if dget c.words D.CMD < CC.REDUCE then []
    else ((List.range r.chunks).drop r.down).filter (fun k => s.writesChunk c r k)
  let r' := match miss with
    | [] => r
    | k :: _ => { r with failed := r.failed + miss.length
                         first := if r.failed = 0 then s.chunkOffset c r k else r.first }
  let status := collStatus (st :: r.stats)
  let s := if [St.ORDER, St.ABORTED, St.TIMEOUT, St.FENCED].contains status then s.leaveBuffers c r else s.noteColl c r
  if status = 0 && r'.failed != 0 then
    (s.drawn).complete { c with coll := some r' } (Config.missingStatus s.freeCtr).toNat
  else s.complete { c with coll := some r' } status

/-- Whether a command is a collective of (g, q) in progress. -/
def isColl (c : Cmd) (g q : Nat) : Bool :=
  !c.done && (match c.coll with | some r => r.group == g && r.seq == q | none => false)

/-- The chunks that stack sink `st` has written of a result, to offset `n`, become undefined (R247, R267). -/
def State.leaveSink (s : State) (st g n : Nat) : State :=
  let cb := s.chunkBytes s.parity g
  let base := s.get F.RK_GROUPAUX_SINK_BASE g
  if cb = 0 || !s.flag F.RK_GROUPAUX_SINK_VALID g || s.get F.RK_GROUPAUX_SINK_STACK g != st then s
  else (List.range (ceilDiv n cb)).foldl (fun s k =>
    let s := s.drawn
    if Config.undefinedChunk s.freeCtr then s.poisonBytes (256 + st) (base + k * cb) (Nat.min cb (n - k * cb)) else s) s

/-- A stack sink has written a result's bytes up to offset `n` (R267). -/
def State.noteSink (s : State) (st g q n : Nat) : State :=
  let old := match lookup s.sinkRuns (4096 * st + g) with
    | some r => if r.1 = q then r.2 else 0
    | none => 0
  { s with sinkRuns := upsert s.sinkRuns (4096 * st + g) (q, Nat.max old n) }

/-- An ABORT of (g, q) leaves undefined the destinations of members that had completed that collective, and those of stack
sinks as far as they had written (R267). A sink's key: 4096 × stack + group. -/
def State.leaveDone (s : State) (g q : Nat) : State :=
  let s := s.lastColls.foldl (fun s e => match e.2.coll with
    | some r => if e.1 % 4096 = g && r.seq = q then s.leaveBuffers e.2 r else s
    | none => s) s
  let s := s.sinkRuns.foldl (fun s e =>
    if e.1 % 4096 = g && e.2.1 = q then s.leaveSink (e.1 / 4096) g e.2.2 else s) s
  { s with lastColls := s.lastColls.filter (fun e => !(e.1 % 4096 == g && (match e.2.coll with | some r => r.seq == q | none => false)))
           sinkRuns := s.sinkRuns.filter (fun e => !(e.1 % 4096 == g && e.2.1 == q)) }

/-- Ends every collective of (g, q) in progress at core `i` (R265). -/
def State.endAt (s : State) (i g q st : Nat) : State :=
  (s.cmds.filter (fun c => c.core == i && isColl c g q)).foldl (fun s c => match c.coll with
    | some r => s.finishColl c r st
    | none => s) s

/-- Number of core-port members of a group on this chip. -/
def State.membersHere (s : State) (e g : Nat) : Nat :=
  ((List.range 4).map (fun j => popcount 64 (s.getE e F.PL_MEMBERS_MASK (4 * g + j)))).sum

/-- Whether core `i` is a Plumb member of a group. -/
def State.isMember (s : State) (e g i : Nat) : Bool :=
  bit (s.getE e F.PL_MEMBERS_MASK (4 * g + i / 64)) (i % 64)

/-- Histogram bin of a LAG (R271). -/
def lagBin (lag : Nat) : Nat := if lag ≤ 1 then 0 else if 32767 < lag then 15 else Nat.log2 lag

/-- Notes an input of a collective, and records the slowest when it is the last of `total` (R271). A key below 16 is a
child port, from 16 on a member core. -/
def State.noteInput (s : State) (g q key total : Nat) : State :=
  let a : Arrivals := match lookup s.arrivals g with
    | some a => if a.seq = q then a else ⟨q, s.now, []⟩
    | none => ⟨q, s.now, []⟩
  if a.seen.contains key then s
  else
    let a := { a with seen := a.seen ++ [key] }
    if a.seen.length < total then { s with arrivals := upsert s.arrivals g a }
    else
      let lag := s.now - a.first
      let b := lagBin lag
      let s := { s with arrivals := remove s.arrivals g }
      let s := (((s.put F.TM_SLOWEST_SEQ g q).put F.TM_SLOWEST_EDGE g (if key < 16 then key else 15)).put F.TM_SLOWEST_EP g
        (if key < 16 then 0 else key - 16)).put F.TM_SLOWEST_LAG g (Nat.min lag 0xFFFFF)
      let s := s.put F.TM_SLOWEST_VALID g 1
      let f := [F.TM_SLOWHIST_BIN0, F.TM_SLOWHIST_BIN1, F.TM_SLOWHIST_BIN2, F.TM_SLOWHIST_BIN3].getD (b % 4) F.TM_SLOWHIST_BIN0
      s.sat f (4 * g + b / 4)

/-- Inputs that a data collective's record waits for: the chip's members and the ports with the child across the fibre. -/
def State.treeInputs (s : State) (e g : Nat) : Nat :=
  s.membersHere e g + ((List.range 6).filter (fun l => match s.portNode l e g with
    | some n => n.up == 0
    | none => false)).length

/-- Notes an input of a data collective, groups of one member apart. -/
def State.noteTreeInput (s : State) (e g q key : Nat) : State :=
  if s.getE e F.RK_GROUP_MEMBERS g ≤ 1 then s else s.noteInput g q key (s.treeInputs e g)

end Sys2Proof.Machine
end

