-- ==== Sys2Proof/Machine/Aborts.lean ====
section
/-! DEFINITION. ABORT: raising it, recording it, its flood and what it ends (R263 to R266, R371). -/

namespace Sys2Proof.Machine

def evCollAbort : Event := ⟨0x504, 1⟩

/-- Key of a group's run at a Plumb node: 0 the hubs, 2 + c the node of cluster c. -/
def plumbKey (n g : Nat) : Nat := 4096 * n + g

/-- The group that carries the epoch protocol in the epoch in effect (Table 12-12). -/
def State.epochGroup (s : State) : Nat := s.get F.RK_EPOCH_EPOCH_GROUP % 4096

/-- Logical ports on which a group has an edge of its primary or its standby tree. -/
def State.plumbPorts (s : State) (g : Nat) : List Nat :=
  if !s.flag F.PL_GROUP_VALID g then []
  else (List.range 6).filter (fun l =>
    s.get F.PL_GROUP_PRI_PARENT g == l || bit (s.get F.PL_GROUP_PRI_CHILDREN g) l
      || s.get F.PL_GROUP_SBY_PARENT g == l || bit (s.get F.PL_GROUP_SBY_CHILDREN g) l)

/-- Records an ABORT in PL_GROUPSTATE (R264). -/
def State.recordAbort (s : State) (g q : Nat) : State :=
  let s := s.put F.PL_GROUPSTATE_ABORT_SEQ1 g (s.get F.PL_GROUPSTATE_ABORT_SEQ0 g)
  let s := s.put F.PL_GROUPSTATE_ABORT_VALID1 g (s.get F.PL_GROUPSTATE_ABORT_VALID0 g)
  (s.put F.PL_GROUPSTATE_ABORT_SEQ0 g q).put F.PL_GROUPSTATE_ABORT_VALID0 g 1

/-- A collective of SEQ `q` opens: what was raised for the group a quarter of the SEQ range away or more is of an earlier turn of
SEQ (R263; DESIGN CHOICE, log entry 52). -/
def State.forgetAborts (s : State) (g q : Nat) : State :=
  { s with raised := s.raised.filter (fun r => r.2.1 != g || (q + 2 ^ 14 + 2 ^ 16 - r.2.2) % 2 ^ 16 < 2 ^ 15) }

/-- Clears a barrier or scalar reduction of (g, q) at the chip's hubs and cluster nodes (R264). -/
def State.clearPlumb (s : State) (g q : Nat) : State :=
  let hub := match lookup s.plumb (plumbKey 0 g) with | some r => r.seq == q | none => false
  let s := { s with plumb := s.plumb.filter (fun e => !(e.1 % 4096 == g && e.2.seq == q))
                    copies := s.copies.filter (fun c => !(M.GROUP c.2.2 == g && M.SEQ c.2.2 == q)) }
  if hub then (s.put F.PL_GROUPSTATE_BUSY g 0).put F.PL_GROUPSTATE_ARRIVED g 0 else s

/-- Word 2 of an answer to APPLY_EPOCH (Table 13-8). -/
def State.epochData (s : State) : List Word :=
  [BitVec.ofNat 64 (s.get F.RK_EPOCH_NUMBER 0 + 2 ^ 16 * s.get F.RK_EPOCH_PARITY 0 + 2 ^ 17 * s.get F.RK_EPOCH_ARMED 0
    + 2 ^ 18 * s.get F.RK_EPOCH_SHADOW 0 + 2 ^ 20 * s.get F.RK_EPOCH_ROUNDS 0)]

/-- The arm barrier of EPOCH_GROUP has ended with an ABORT: the chip is unarmed and a waiting APPLY_EPOCH is answered
(R371); a retirement round that ends so counts as non-zero (R329). -/
def State.armEnded (s : State) (g q st : Nat) : State :=
  if g != s.epochGroup then s
  else
    let s := if q = s.get F.RK_EPOCH_NUMBER then { s with epochCtl := { s.epochCtl with round := false } } else s
    if s.epochCtl.arrived = some q then
      let s := (s.put F.RK_EPOCH_ARMED 0 0)
      let s := { s with epochCtl := { s.epochCtl with arrived := none } }
      s.endAll AC.APPLY_EPOCH (fun _ => true) (if st = St.ORDER then AS.ORDER else AS.ABORTED) 0 s.epochData
    else s

/-! ### Plumb messages on the die -/

/-- A Plumb message leaves one agent of the chip for another. -/
def State.plumbSend (s : State) (src dst : Nat) (m : PlumbMsg) : State :=
  { s with plumbOut := s.plumbOut ++ [⟨src, dst, m⟩] }

/-- A Plumb message has arrived: it is no longer on its way. -/
def State.plumbTake (s : State) (src dst : Nat) (m : PlumbMsg) : State :=
  { s with plumbOut := s.plumbOut.erase ⟨src, dst, m⟩ }

def hubNo : Hub → Nat
  | .a => 0
  | .b => 1
def otherHub : Hub → Hub
  | .a => .b
  | .b => .a

/-- The hubs that are in service (R256). -/
def State.hubsUp (s : State) : List Nat := if s.hubDown.contains 0 then (if s.hubDown.contains 1 then [0] else [1])
  else if s.hubDown.contains 1 then [0] else [0, 1]

/-- A message in copies from the hubs to a cluster node or a port (R253, R254). -/
def State.plumbCopies (s : State) (dst : Nat) (m : PlumbMsg) : State := s.hubsUp.foldl (fun s h => s.plumbSend h dst m) s

/-- A message from the hubs to a logical port that is ADMITTED: VL0 is open there only (R253, R298). -/
def State.toPort (s : State) (l : Nat) (m : PlumbMsg) : State :=
  if s.admitted (s.physOf l) then s.plumbCopies (18 + l) m else s

/-- The one flit of a Plumb FIFO's stage that holds a message (R100), and the message of a flit. -/
def plumbStage (m : PlumbMsg) (bad : Bool := false) : Packet := ⟨⟨m.zeroExtend 512, bad⟩, []⟩
def stageMsg (p : Packet) : PlumbMsg := p.head.data.truncate 128

/-- Plumb FIFOs: out and in of Alorn, and of a physical port. -/
def alornOut : Nat := 256 * 16 + 4
def alornIn : Nat := 256 * 16 + 5
def plumbOutOf (p : Nat) : Nat := 256 * 17 + 34 * p + 32
def plumbInOf (p : Nat) : Nat := 256 * 17 + 34 * p + 33

/-- Whether the oldest stage of a Plumb FIFO holds a message. -/
def State.stands (s : State) (n : Nat) (m : PlumbMsg) : Bool :=
  match s.front n with
  | some p => stageMsg p == m
  | none => false

/-- A node reads a message out of a Plumb FIFO; a word of bad parity is counted (R66, R68). -/
def State.takeStage (s : State) (n : Nat) (m : PlumbMsg) : State := if s.stands n m then s.popFifo n else s

/-- A release or result reaches a member's core port: its barrier or scalar reduction completes (R249, Table 10-8). An ABORT
ends its collective of that sequence (R265). -/
def State.memberTakes (s : State) (i : Nat) (m : PlumbMsg) : State :=
  let scalar := M.OPCODE m = Op.SRED_DOWN
  if M.OPCODE m = Op.ABORT then s.endAt i (M.GROUP m) (M.SEQ m) (if M.STATUS m = St.ORDER then St.ORDER else St.ABORTED)
  else
    match s.cmds.find? (fun c => c.core == i && isColl c (M.GROUP m) (M.SEQ m)
        && dget c.words D.CMD == (if scalar then CC.SCALAR_REDUCE else CC.BARRIER)) with
    | none => s
    | some c =>
      match c.coll with
      | none => s
      | some r =>
        if !scalar then s.finishColl c r St.OK
        else
          let bad := M.STATUS m != 0
          let a := dget c.words C.DST_ADDR
          let store := dflag c.words C.STORE
          let owned := s.coreOwnsAll i a 8 (some r.group)
          let s := if store && owned then s.writeBytes i a (leBytes 8 (M.VALUE m)) else s
          let r := if store && !owned then r.fail 0 St.NO_OWNER else if store && bad then r.fail 0 St.POISON else r
          s.finishColl { c with result := BitVec.ofNat 64 (M.VALUE m) } r (if bad then St.POISON else St.OK)

/-- A core port takes the Plumb messages of its in FIFO, while its clocked half works (R66, R398). -/
def State.drainPlumb (s : State) (i : Nat) : Nat → State
  | 0 => s
  | fuel + 1 =>
    if !s.coreRuns i then s
    else
      match s.front (coreFifo i 5) with
      | none => s
      | some p => ((s.popFifo (coreFifo i 5)).memberTakes i (stageMsg p)).drainPlumb i fuel

/-- Messages that wait for room in a Plumb in FIFO. -/
def State.heldFor (s : State) (dst : Nat) : List PlumbSent := s.plumbOut.filter (fun x => x.dst == dst)

/-- A node's message for an in FIFO without room waits at the node (R67), which keeps the time since when (R374). -/
def State.holdPlumb (s : State) (n : Nat) : State :=
  ({ s with plumbHeld := upsert s.plumbHeld n ((lookup s.plumbHeld n).getD s.now) } : State).put F.XB_FIFO_HELD n 1

/-- It waits no longer. -/
def State.unholdPlumb (s : State) (n : Nat) : State :=
  ({ s with plumbHeld := remove s.plumbHeld n } : State).put F.XB_FIFO_HELD n 0

/-- A message is admitted to a core port's Plumb in FIFO and read at once while the port's clocked half works; during the
port's reset it is discarded (R67, R77, R81). -/
def State.admitMember (s : State) (i : Nat) (m : PlumbMsg) : State :=
  if s.coreRst.contains i then s.sat F.XB_ERRORS_DISCARDS (i / 16)
  else (s.pushFifo (coreFifo i 5) (plumbStage m)).drainPlumb i 8

/-- A message from a cluster node to a member's core port. -/
def State.toMember (s : State) (i : Nat) (m : PlumbMsg) : State :=
  let n := coreFifo i 5
  if !s.coreRst.contains i && (s.room n = 0 || !(s.heldFor (32 + i)).isEmpty) then (s.holdPlumb n).plumbSend (2 + i / 16) (32 + i) m
  else s.admitMember i m

/-- A message from the hubs to Alorn's Plumb in FIFO. -/
def State.toAlorn (s : State) (m : PlumbMsg) : State :=
  if s.room alornIn = 0 || !(s.heldFor 24).isEmpty then (s.holdPlumb alornIn).plumbSend 0 24 m
  else s.pushFifo alornIn (plumbStage m)

/-- A message of Alorn to the hubs, through its Plumb out FIFO (R66). -/
def State.fromAlorn (s : State) (m : PlumbMsg) : State :=
  if s.room alornOut = 0 then s.plumbSend 24 0 m else s.pushFifo alornOut (plumbStage m)

/-! ### The flood -/

/-- The core ports of the chip that an ABORT of a group reaches through their cluster nodes (R264): its members, and any with
that collective in progress. -/
def State.abortCores (s : State) (g q : Nat) : List Nat :=
  (List.range 256).filter (fun i => s.present i && (s.isMember s.parity g i || s.cmds.any (fun c => c.core == i && isColl c g q)))

/-- One ABORT reaches the chip, through logical port `src` or from an agent of the chip (R264 to R266). -/
def State.spreadOne (s : State) (g q st : Nat) (src : Option Nat) : State :=
  if s.abortRecorded g q then s
  else
    let s := s.recordAbort g q
    let s := if st = St.UNREACHABLE then s.put F.PL_GROUPSTATE_STANDBY g 1 else s
    let s := s.clearPlumb g q
    let m := mkPlumb Op.ABORT g q s.parity st (s.get F.RK_GROUP_PARTITION g)
    let s := ((s.plumbPorts g).filter (fun l => some l != src)).foldl (fun s l => s.toPort l m) s
    let s := s.flushGroup g q
    let s := match lookup s.arrivals g with
      | some a => if a.seq = q then { s with arrivals := remove s.arrivals g } else s
      | none => s
    let s := (s.leaveDone g q)
    ((s.abortCores g q).foldl (fun s i => s.toMember i m) s).armEnded g q st

/-- Sequences of the barriers and scalar reductions of a group that are in progress on the chip: at its Plumb nodes, and at
members that have started one. -/
def State.plumbSeqs (s : State) (g : Nat) : List Nat :=
  (((s.plumb.filter (fun e => e.1 % 4096 == g)).map (fun e => e.2.seq))
    ++ s.cmds.filterMap (fun c => match c.coll with
      | some r => if r.group == g && !c.done && dget c.words D.CMD < CC.REDUCE then some r.seq else none
      | none => none)).eraseDups

/-- An ABORT; where it switches the group to its standby tree, every barrier and scalar reduction in progress ends too
(R266). -/
def State.spreadAbort (s : State) (g q st : Nat) (src : Option Nat) : State :=
  let was := s.flag F.PL_GROUPSTATE_STANDBY g
  let s := s.spreadOne g q st src
  if !was && s.flag F.PL_GROUPSTATE_STANDBY g then (s.plumbSeqs g).foldl (fun s r => s.spreadOne g r St.ABORTED none) s
  else s

/-- An agent raises an ABORT for (g, q), once (R263): counted, logged, and spread. `agent` is an endpoint, 512 + a
Screed unit, or 1024 + a Plumb node; a record names the raising endpoint, or 0x1FF with the node in WINDOW and UNIT. -/
def State.raiseAbort (s : State) (agent g q st cause : Nat) : State :=
  if s.raised.contains (agent, g, q) then s
  else
    let s := { s with raised := s.raised ++ [(agent, g, q)] }
    let (window, unit, ep) :=
      if agent < 512 then (epWindow agent, s.unitOf agent, agent)
      else if agent < 1024 then (5, agent - 512, 0x1FF) else (4, agent - 1024, 0x1FF)
    let s := (s.sat F.PL_ERRCNT_ABORTS 0).event evCollAbort window unit
      (g + 2 ^ 12 * q + 2 ^ 28 * st + 2 ^ 32 * cause) ep
    s.spreadAbort g q st none

/-- Ends a collective at its member and raises ABORTED for it (R268 to R270, R365). -/
def State.abortColl (s : State) (c : Cmd) (st cause : Nat) : State :=
  match c.coll with
  | none => s
  | some r => (s.finishColl c r st).raiseAbort c.core r.group r.seq St.ABORTED cause

/-- The Plumb FIFO by which an input's messages reach the cluster node or the hubs; none for a cluster node's (R250). -/
def State.outFifoOf (s : State) : PlumbFrom → Option Nat
  | .member i => some (coreFifo i.val 4)
  | .cluster _ => none
  | .port l => some (plumbOutOf (s.physOf l.val))
  | .alorn => some alornOut

/-- A message of an input is taken: read out of its Plumb FIFO, or no longer on its way. -/
def State.takeInput (s : State) (src : PlumbFrom) (m : PlumbMsg) : State :=
  match s.outFifoOf src, src with
  | some n, .alorn => (s.takeStage n m).plumbTake 24 0 m
  | some n, _ => s.takeStage n m
  | none, .cluster c => s.plumbTake (2 + c.val) 0 m
  | none, _ => s

/-- ABORT reaches the chip's hubs: from the fibre, or from an agent of the chip. -/
def execAbort (src : PlumbFrom) (m : PlumbMsg) (s : State) : Host.Outcome State Fault Refusal :=
  live s (fun s =>
    let s := s.takeInput src m
    if M.OPCODE m != Op.ABORT then s
    else (s.spreadAbort (M.GROUP m) (M.SEQ m) (M.STATUS m) (match src with | .port p => some p.val | _ => none)).flow)

end Sys2Proof.Machine
end

