-- ==== Sys2Proof/Machine/Keying.lean ====
section
/-! DEFINITION. Keying: the offers and results two ends exchange, the checks of Table 11-6, and the keys of R294 (R291
to R296). Here `p` is a physical port. -/

namespace Sys2Proof.Machine

/-- A field of a control message's 256 bytes. -/
def cget (m : BitVec 2048) (lo n : Nat) : Nat := (m >>> lo).toNat % 2 ^ n

/-- A control message with a field set. -/
def cput (m : BitVec 2048) (lo n v : Nat) : BitVec 2048 :=
  let k : BitVec 2048 := BitVec.ofNat 2048 (2 ^ n - 1) <<< lo
  (m &&& ~~~k) ||| ((BitVec.ofNat 2048 v <<< lo) &&& k)

/-! Message numbers (Table 11-4). -/
namespace CM
def KEY_OFFER : Nat := 0x01
def KEY_RESULT : Nat := 0x02
def DELAY_PROBE : Nat := 0x03
def DELAY_ECHO : Nat := 0x04
def PATCH_REQ : Nat := 0x10
def PORT_OPEN : Nat := 0x20
def PORT_CLOSE : Nat := 0x21
end CM

/-! KEY_OFFER (Table 11-5). -/
namespace KO
def PROTO_MIN (m : BitVec 2048) : Nat := cget m 8 8
def PROTO_MAX (m : BitVec 2048) : Nat := cget m 16 8
def PORT (m : BitVec 2048) : Nat := cget m 24 3
def ADDR (m : BitVec 2048) : Nat := cget m 32 12
def SET (m : BitVec 2048) : Nat := cget m 47 1
def COORDS (m : BitVec 2048) : Nat := cget m 32 16
def EPOCH (m : BitVec 2048) : Nat := cget m 64 16
def CRYPT (m : BitVec 2048) : Nat := cget m 80 6
def SIGNED (m : BitVec 2048) : Bool := cget m 89 1 != 0
def CHIP_ID (m : BitVec 2048) : Nat := cget m 96 64
def SHARED (m : BitVec 2048) : Nat := cget m 160 16
def RESERVED (m : BitVec 2048) : Nat := cget m 176 8
def NONCE (m : BitVec 2048) : BitVec 128 := m.extractLsb' 192 128
def EPH_KEY (m : BitVec 2048) : BitVec 392 := m.extractLsb' 320 392
def ID_KEY (m : BitVec 2048) : BitVec 392 := m.extractLsb' 712 392
def SIG (m : BitVec 2048) : BitVec 768 := m.extractLsb' 1104 768
end KO

/-- The first `n` bytes of a message. -/
def cbytes (m : BitVec 2048) (n : Nat) : List Byte := (List.range n).map (fun k => m.extractLsb' (8 * k) 8)

/-- The octets of a key, octet 0 at the lowest byte. -/
def keyBytes (k : BitVec 392) : List Byte := (List.range 49).map (fun j => k.extractLsb' (8 * j) 8)

/-! Verdicts (Table 11-6). -/
namespace VD
def OK : Nat := 0
def CABLE : Nat := 1
def VERSION : Nat := 2
def COORDS : Nat := 3
def NO_PLAN : Nat := 4
def EPOCH : Nat := 5
def IDENTITY : Nat := 6
end VD

def evCableSwap : Event := ⟨0x808, 1⟩

/-- The event of a verdict other than OK. -/
def evVerdict (v : Nat) : Event := ⟨[0, 0x805, 0x802, 0x803, 0x804, 0x806, 0x807].getD v 0, 1⟩

/-- A control message waits for a CONTROL parcel. -/
def State.control (s : State) (p : Nat) (m : BitVec 2048) : State :=
  s.modPort p (fun q => { q with control := q.control ++ [m] })

/-- Whether a VL is encrypted on the link: agreed, and keys are held (R289, R294). -/
def Port.encrypts (q : Port) (vl : Nat) : Bool := bit q.key.crypt vl && q.key.keys.isSome

/-- Alorn is RUNNING and has its clock: it carries Keying out (R17, R382). -/
def State.alornRuns (s : State) : Bool := s.get F.AL_STATUS_STATE 0 == 0 && !s.mgLost

def evSealCorrupt : Event := ⟨0xA06, 2⟩

/-- A slot of the sealed store whose digest fails is treated as empty and logged (R354). -/
def State.corruptSlot (s : State) (k : Nat) : State :=
  if (lookup s.sealStore k).isSome then
    ({ s with sealStore := remove s.sealStore k } : State).event evSealCorrupt 9 0 k
  else s

/-- The digest of a slot is checked before the slot is used; whether it holds is a free value (R354). -/
def State.useSlot (s : State) (k : Nat) : State :=
  if Config.digestHolds s.freeCtr then s.drawn else s.drawn.corruptSlot k

/-- Whether the chip signs its offers: PROVISIONED or DEPLOYED, with an identity key in slot 8 (R291, R358). -/
def State.signs (s : State) : Bool :=
  (s.fuse.lifecycle = 1 || s.fuse.lifecycle = 2) && (lookup s.sealStore 8).isSome

/-- The chip's identity public key. -/
def State.identity (s : State) : BitVec 392 := match lookup s.sealStore 8 with | some k => k.key | none => 0

/-- The KEY_OFFER of a port, with the nonce and ephemeral secret of this Keying (Table 11-5, R291). -/
def State.ownOffer (s : State) (p : Nat) (nonce : BitVec 128) (secret : BitVec 384) (crypt : Nat) : BitVec 2048 :=
  let l := s.logical p
  let m : BitVec 2048 := [(0, 8, CM.KEY_OFFER), (8, 8, 2), (16, 8, 3), (24, 3, l), (28, 3, p), (32, 12, s.own),
    (47, 1, s.get F.RK_COORDS_SET), (48, 8, 3), (56, 8, 0xB0), (64, 16, s.get F.RK_EPOCH_NUMBER), (80, 6, crypt),
    (88, 1, s.get F.OP_PLAN_VALID l), (89, 1, b2n s.signs), (96, 64, s.fuse.chipId.toNat), (160, 16, 1664), (176, 8, 64),
    (192, 128, nonce.toNat)].foldl (fun m e => cput m e.1 e.2.1 e.2.2) 0
  match lookup s.sealStore 8 with
  | some k =>
    if !s.signs then m
    else
      let m := cput (cput m 320 392 (Config.publicKey secret).toNat) 712 392 k.key.toNat
      cput m 1104 768 (Config.ecdsaSign k.secret (Config.sha384 (cbytes m 138))).toNat
  | none => m

/-- Whether a port has a valid transit entry, on either side (check 6). -/
def State.transitAt (s : State) (l : Nat) : Bool :=
  (List.range 64).any (fun n => s.flag F.RK_TRANSIT_VALID n && s.get F.RK_TRANSIT_PORT n == l)

/-- Check 7: the peer signs, its signature verifies and, with KEY_CHECK, its identity is the plan's. -/
def State.identityOk (s : State) (l : Nat) (o : BitVec 2048) : Bool :=
  KO.SIGNED o && KO.EPH_KEY o != 0 && KO.ID_KEY o != 0
    && Config.ecdsaVerify (KO.ID_KEY o) (Config.sha384 (cbytes o 138)) (KO.SIG o)
    && (!s.flag F.OP_PLAN_KEY_CHECK l || some (Config.sha384 (keyBytes (KO.ID_KEY o))) == lookup s.planKeys l)

/-- The agreed level: the lesser of both maxima. -/
def agreedLevel (o : BitVec 2048) : Nat := Nat.min 3 (KO.PROTO_MAX o)

/-- This end's verdict on the peer's offer: the first check of Table 11-6 that fails. -/
def State.keyVerdict (s : State) (p : Nat) (o : BitVec 2048) : Nat :=
  let l := s.logical p
  let crypt := (s.port p).key.planCrypt ||| KO.CRYPT o
  if agreedLevel o < Nat.max 2 (KO.PROTO_MIN o) then VD.VERSION
  else if !s.flag F.RK_COORDS_SET || KO.SET o = 0 then VD.COORDS
  else if !s.flag F.OP_PLAN_VALID l then VD.NO_PLAN
  else if KO.ADDR o != s.get F.OP_PLAN_NBR_CHIP l || KO.PORT o != s.get F.OP_PLAN_NBR_PORT l then VD.CABLE
  else if KO.EPOCH o != s.get F.RK_EPOCH_NUMBER then VD.EPOCH
  else if agreedLevel o != 3 && (crypt != 0 || s.transitAt l) then VD.VERSION
  else if (crypt != 0 || s.flag F.OP_PLAN_KEY_CHECK l) && !s.identityOk l o then VD.IDENTITY
  else VD.OK

/-- The KEY_RESULT that answers the peer (Table 11-4). -/
def State.keyResultOf (s : State) (p : Nat) : BitVec 2048 :=
  let l := s.logical p
  [(0, 8, CM.KEY_RESULT), (8, 8, s.get F.OP_PORTSTATE_VERDICT p), (16, 8, s.get F.OP_PORTSTATE_LEVEL p),
    (24, 8, s.get F.OP_PORTSTATE_CRYPT p), (32, 16, s.get F.OP_PLAN_NBR_CHIP l), (48, 8, s.get F.OP_PLAN_NBR_PORT l)].foldl
    (fun m e => cput m e.1 e.2.1 e.2.2) (0 : BitVec 2048)

/-- Whether this end is locally admitted (R292). -/
def State.localAdmit (s : State) (p : Nat) : Bool :=
  let l := s.logical p
  (s.flag F.OP_PLAN_VALID l && s.flag F.OP_PLAN_AUTO_ADMIT l) || s.flag F.OP_PORTCTL_ADMIT p

/-- ADMIT_LOCAL of OP_PORTSTATE follows it. -/
def State.showAdmit (s : State) (p : Nat) : State := s.put F.OP_PORTSTATE_ADMIT_LOCAL p (b2n (s.localAdmit p))

/-- Takes the peer's offer into OP_PORTSTATE and OP_PEERID, with this end's verdict, level and CRYPT, and logs a verdict
other than OK. -/
def State.judgeOffer (s : State) (p : Nat) (o : BitVec 2048) : State :=
  let v := s.keyVerdict p o
  let lvl := agreedLevel o
  let crypt := if lvl = 3 then (s.port p).key.planCrypt ||| KO.CRYPT o else 0
  let s := ((s.put F.OP_PORTSTATE_VERDICT p v).put F.OP_PORTSTATE_LEVEL p lvl).put F.OP_PORTSTATE_PEER_CHIP p (KO.ADDR o)
  let s := (s.put F.OP_PORTSTATE_PEER_SET p (KO.SET o)).put F.OP_PORTSTATE_PEER_PORT p (KO.PORT o)
  let s := (s.put F.OP_PEERID_CHIP_ID p (KO.CHIP_ID o)).showAdmit p
  let s := if (s.port p).seqOn && s.portState p != PS.QUARANTINE then s else s.put F.OP_PORTSTATE_CRYPT p crypt
  if v = 0 then s
  else s.event (evVerdict v) 7 p (KO.COORDS o + 2 ^ 16 * KO.PORT o + 2 ^ 19 * KO.PROTO_MAX o + 2 ^ 27 * KO.EPOCH o)
    (KO.CHIP_ID o)

/-- Sends eight DELAY_PROBEs; each is stamped as its parcel leaves (R295). -/
def State.sendProbes (s : State) (p : Nat) : State :=
  (List.range 8).foldl (fun s _ => s.control p (BitVec.ofNat 2048 CM.DELAY_PROBE))
    (s.modPort p (fun q => { q with delays := [] }))

/-- A KEY_OFFER goes out with a nonce and an ephemeral key of its own (R291; the nonce is DESIGN CHOICE, log entry 19). -/
def State.sendOffer (s : State) (p : Nat) : State :=
  let s := s.useSlot 8
  let w (k : Nat) : Nat := (Config.random (s.freeCtr + k)).toNat
  let nonce : BitVec 128 := BitVec.ofNat 128 (w 0 + 2 ^ 64 * w 1)
  let secret : BitVec 384 := BitVec.ofNat 384 (w 2 + 2 ^ 64 * w 3 + 2 ^ 128 * w 4 + 2 ^ 192 * w 5 + 2 ^ 256 * w 6 + 2 ^ 320 * w 7)
  let s := s.drawn 8
  let own := s.ownOffer p nonce secret (s.port p).key.planCrypt
  (s.modPort p (fun q => { q with key := { q.key with nonce := nonce, secret := secret, own := own } })).control p own

/-- Keying starts on a port: a fresh nonce and ephemeral key, an offer and eight probes. On a port that Keying has left
in QUARANTINE or ADMITTED the peer's last offer is judged anew, and keys already agreed are kept (R292, R294). -/
def State.startKeying (s : State) (p : Nat) (rerun : Bool) : State :=
  let s := s.modPort p (fun q =>
    { q with key := { (if rerun then q.key else { Keying.initial with planCrypt := q.key.planCrypt }) with
      peerDone := false, rerun := rerun } })
  let s := (s.sendOffer p).sendProbes p
  match rerun, (s.port p).key.offer with
  | true, some o => s.judgeOffer p o
  | _, _ => s.put F.OP_LINKDELAY_VALID p 0

/-- The two keys of R294: this end's transmitter and receiver. Side 0 is the end with the lower CHIP_ID. -/
def State.deriveKeys (s : State) (p : Nat) : State :=
  let k := (s.port p).key
  match k.offer with
  | none => s
  | some o =>
    if k.keys.isSome || KO.EPH_KEY k.own = 0 || KO.EPH_KEY o = 0 then s
    else
      let side0 := s.fuse.chipId.toNat < KO.CHIP_ID o
      let shared := Config.ecdh k.secret (KO.EPH_KEY o)
      let salt : BitVec 256 := if side0 then (KO.NONCE o) ++ k.nonce else k.nonce ++ (KO.NONCE o)
      let k0 := Config.hkdf shared salt 0
      let k1 := Config.hkdf shared salt 1
      s.modPort p (fun q => { q with key := { k with
        keys := some (if side0 then (k0, k1) else (k1, k0)), secret := 0, sent := [], got := [] } })

/-- Sequencing starts: SEQ from zero both ways, every credit pool at what the peer declared (R283). -/
def State.startSeq (s : State) (p : Nat) (o : BitVec 2048) : State :=
  let s := s.modPort p (fun q => { q with
    nextSeq := 0, expSeq := 0, lastAck := 0, seqOn := true, askReplay := false, replay := [], replayAck := none
    replayRun := 0, sent := [], crCount := [], freed := [], crTurn := 0, tx := [], retry := []
    key := { q.key with crypt := s.get F.OP_PORTSTATE_CRYPT p } })
  let s := (List.range 7).foldl (fun s k =>
    s.setWord .OP_CREDIT (7 * p + k) (fieldPut (s.word .OP_CREDIT (7 * p + k)) 0 28 (if k = 6 then KO.SHARED o else KO.RESERVED o))) s
  (List.range 64).foldl (fun s n =>
    if s.flag F.RK_TRANSIT_VALID n && s.get F.RK_TRANSIT_PORT n == s.logical p && s.flag F.RK_TRANSIT_SIDE n then
      s.put F.RK_TRANSIT_OCCUPANCY n 0 else s) s

/-- Whether both verdicts are OK. -/
def State.verdictsOk (s : State) (p : Nat) : Bool :=
  s.get F.OP_PORTSTATE_VERDICT p == 0 && s.get F.OP_PORTSTATE_PEER_VERDICT p == 0

/-- CABLE_SWAP: port `p` and another both ended Keying with CABLE, and each one's peer is the other's expected neighbour
(R296). -/
def State.cableSwap (s : State) (p : Nat) : State :=
  let sees (a b : Nat) : Bool := s.get F.OP_PORTSTATE_PEER_CHIP a == s.get F.OP_PLAN_NBR_CHIP (s.logical b)
    && s.get F.OP_PORTSTATE_PEER_PORT a == s.get F.OP_PLAN_NBR_PORT (s.logical b)
  let bad (a : Nat) : Bool := s.get F.OP_PORTSTATE_VERDICT a == VD.CABLE && s.portState a == PS.QUARANTINE
  match (List.range 6).find? (fun q => q != p && bad p && bad q && sees p q && sees q p && (s.port p).swap != some q) with
  | none => s
  | some q =>
    let s := (s.modPort p (fun x => { x with swap := some q })).modPort q (fun x => { x with swap := some p })
    s.event evCableSwap 7 p (s.logical p + 8 * s.logical q)

/-- Ports held in QUARANTINE with verdict COORDS, NO_PLAN or EPOCH repeat Keying (R292). -/
def State.repeatKeying (s : State) : State :=
  (List.range 6).foldl (fun s p =>
    let v := s.get F.OP_PORTSTATE_VERDICT p
    if s.portState p = PS.QUARANTINE && (v = VD.COORDS || v = VD.NO_PLAN || v = VD.EPOCH) then s.startKeying p true else s) s

end Sys2Proof.Machine
end

