-- ==== Sys2Proof/Machine/Epoch.lean ====
section
/-! DEFINITION. The epoch protocol at one chip: the count of packets of the old parity, the switch, the token, and
retirement (R321 to R330, Table 12-11). -/

namespace Sys2Proof.Machine

def evEpochSwitch : Event := ⟨0x903, 0⟩
def evEpochRetired : Event := ⟨0x904, 0⟩
def evEpochMismatch : Event := ⟨0x905, 1⟩
def evEpochUnarmed : Event := ⟨0x906, 1⟩

/-! States of SHADOW in RK_EPOCH (R321). -/
namespace SH
def CLEAN : Nat := 0
def PENDING : Nat := 1
def INCOMPLETE : Nat := 2
def RETIRING : Nat := 3
end SH

/-- SHADOW of RK_EPOCH. -/
def State.shadow (s : State) : Nat := s.get F.RK_EPOCH_SHADOW 0

/-- The epoch number after `n` (R314). -/
def nextEpoch (n : Nat) : Nat := if n < 0xFFFE then n + 1 else 1

/-! ### The old parity -/

/-- How many of a list of packets carry a parity other than `e`. -/
def oldPackets (e : Nat) (l : List Packet) : Nat := (l.filter (fun p => pget p H.EPOCH != e)).length

/-- OLD_COUNT: what of the old parity the chip holds (R328). A packet on its way over the die counts once, at the router where it
joined a mesh, or in the buffer of a neighbour channel; one of which an encrypted part has arrived counts when it is whole. -/
def State.oldCount (s : State) : Nat :=
  let e := s.parity
  let heads (f : Fifo) : Nat := (f.stages.filter (fun w => stageHead w && hget (stageData w) H.EPOCH != e)).length
  let flits (l : List Flit) : Nat := match l with
    | [] => 0
    | f :: _ => if hget f.data H.EPOCH = e then 0 else 1
  let n := (s.fifos.map (fun x => heads x.2)).sum
    + oldPackets e ((s.outWait.filter (fun w => w.form.isNone)).map (fun w => w.pkt))
    + (s.links.map (fun x => if 4096 ≤ x.1 && x.1 < 8192 then oldPackets e x.2.ready else 0)).sum
    + oldPackets e ((s.grants.filter (fun g => !g.2.parked && !g.2.passed && 4 ≤ g.2.inp)).map (fun g => g.2.pkt))
    + oldPackets e ((s.waits.filter (fun w => 4 ≤ w.inp)).map (fun w => w.pkt))
    + (s.ports.map (fun x => oldPackets e (x.2.staging.map (fun t => t.pkt)) + oldPackets e (x.2.pool.map (fun t => t.pkt))
        + ((x.2.rx.filter (fun r => !x.2.encrypts r.vl)).map (fun r => flits r.flits)).sum + (x.2.tx.filter (fun t => t.epoch != e)).length
        + (x.2.retry.filter (fun t => t.2.epoch != e)).length)).sum
    + (s.slots.filter (fun x => s.get F.SC_SLOTSTAT_STATE x.1 != 0 && s.get F.SC_SLOTSTAT_EPOCH x.1 != e)).length
    + (s.mcBufs.filter (fun x => x.2.epoch != e)).length + oldPackets e (s.fibreHold.map (fun x => x.2))
    + (s.cmds.filter (fun c => !c.done && (match c.coll with | some r => r.parity != e | none => false))).length
  Nat.min 0xFFFF n

/-! ### Copying a bank -/

/-- Whether a key of the register file is of a register of class E. -/
def epochKey (k : Nat) : Bool := Reg.all.any (fun r => r.num == k % 256 / 2 && r.info.cls = .epoch)

/-- The mask of the class E fields of the register a key belongs to. -/
def epochMask (k : Nat) : Word := match Reg.all.find? (fun r => r.num == k % 256 / 2) with
  | some r => r.info.cfg
  | none => 0

/-- Makes bank `dst` of every class E register a copy of bank `src`, with Alorn's own tables where banks 0 and 1 of those
are the values in effect and the shadow's. -/
def State.copyRegs (s : State) (src dst : Nat) : State :=
  let ks := (s.regs.filter (fun e => epochKey e.1)).map (fun e => e.1 - e.1 % 2)
  ks.foldl (fun s k =>
    let m := epochMask k
    let v := ((lookup s.regs (k + src)).getD 0 &&& m) ||| ((lookup s.regs (k + dst)).getD 0 &&& ~~~m)
    { s with regs := assign s.regs (k + dst) v 0 }) s

/-- A table with in-effect keys below `n` and shadow keys `n` above: the shadow becomes a copy. -/
def shadowCopy {α : Type} (t : Tbl α) (n : Nat) : Tbl α :=
  let live := t.filter (fun e => e.1 < n)
  live ++ live.map (fun e => (e.1 + n, e.2))

/-- The same table with the two halves exchanged. -/
def shadowSwap {α : Type} (t : Tbl α) (n : Nat) : Tbl α :=
  (t.filter (fun e => n ≤ e.1)).map (fun e => (e.1 - n, e.2)) ++ (t.filter (fun e => e.1 < n)).map (fun e => (e.1 + n, e.2))

/-- GUARD masks: an even key is in effect, the odd key after it the shadow's. -/
def guardCopy (t : Tbl Word) : Tbl Word :=
  (t.filter (fun e => e.1 % 2 = 0)).flatMap (fun e => [e, (e.1 + 1, e.2)])
def guardSwap (t : Tbl Word) : Tbl Word := t.foldl (fun r e => upsert r (if e.1 % 2 = 0 then e.1 + 1 else e.1 - 1) e.2) []

/-- The bank in effect is copied into the shadow (R321). -/
def State.cleanShadow (s : State) : State :=
  let s := s.copyRegs s.parity (1 - s.parity)
  ({ s with tune := shadowCopy s.tune 256, planKeys := shadowCopy s.planKeys 256, guard := guardCopy s.guard } : State).put
    F.RK_EPOCH_SHADOW 0 SH.CLEAN

/-! ### Retirement -/

/-- The partition a group's entry names. -/
def State.groupPart (s : State) (g : Nat) : Nat := s.get F.RK_GROUP_PARTITION g

/-- The chip retires the old bank (R329). -/
def State.retireBank (s : State) : State :=
  let s := s.cleanShadow
  let s := { s with epochCtl := { s.epochCtl with round := false } }
  let s := s.event evEpochRetired 8 0 (s.get F.RK_EPOCH_NUMBER 0 + 2 ^ 16 * s.get F.RK_EPOCH_ROUNDS 0)
  s.endAll AC.APPLY_EPOCH (fun w => w == 2) AS.OK 0 s.epochData

/-- Alorn sends a retirement round, or outside the trees of EPOCH_GROUP retires alone once nothing is left (R329). -/
def State.sendRound (s : State) : State :=
  let g := s.epochGroup
  let old := s.oldCount != 0
  if !s.flag F.PL_GROUP_VALID g then (if old then s else s.retireBank)
  else
    let v := b2n (s.flag F.RK_EPOCH_OLD_SEEN 0 || old)
    let s := (s.put F.RK_EPOCH_OLD_SEEN 0 (b2n old)).sat F.RK_EPOCH_ROUNDS 0
    let s := { s with epochCtl := { s.epochCtl with round := true } }
    s.fromAlorn (mkPlumb Op.SRED_UP g (s.get F.RK_EPOCH_NUMBER 0) s.parity 0 (s.groupPart g) 0 5 v)

/-- RETIREMENT_ROUND_RESULT: the SRED_DOWN of the round reaches Alorn. -/
def execRetirementRoundResult (m : PlumbMsg) (s : State) : Host.Outcome State Fault Refusal :=
  live s (fun s =>
    let s := s.takeStage alornIn m
    if M.OPCODE m != Op.SRED_DOWN || M.GROUP m != s.epochGroup || s.shadow != SH.RETIRING || !s.epochCtl.round
        || M.SEQ m != s.get F.RK_EPOCH_NUMBER 0 then s
    else if M.VALUE m = 0 && M.STATUS m = 0 then s.retireBank
    else { s with epochCtl := { s.epochCtl with round := false } })

/-- EPOCH_POLL_EXPIRY: the next round. -/
def execEpochPollExpiry (s : State) : Host.Outcome State Fault Refusal :=
  live s (fun s => if s.shadow != SH.RETIRING || s.epochCtl.round || !s.alornRuns then s else s.sendRound)

/-- EPOCH_SETTLE_EXPIRY: loads and APPLY_EPOCH are accepted again (R327). -/
def execEpochSettleExpiry (s : State) : Host.Outcome State Fault Refusal :=
  live s (fun s => { s with epochCtl := { s.epochCtl with settle := none } })

/-! ### The switch -/

/-- Clears STANDBY in every PL_GROUPSTATE (R266). -/
def State.clearStandby (s : State) : State :=
  ((s.regs.filter (fun e => e.1 % 256 / 2 = Reg.PL_GROUPSTATE.num)).map (fun e => e.1 / 256)).foldl
    (fun s g => s.put F.PL_GROUPSTATE_STANDBY g 0) s

/-- ADMITTED ports whose plan names another neighbour or KEY_CHECK in the new bank (step 6 of Table 12-11). -/
def State.planChanged (s : State) : List Nat :=
  (List.range 6).filter (fun p =>
    let l := s.logical p
    s.admitted p && [F.OP_PLAN_NBR_CHIP, F.OP_PLAN_NBR_PORT, F.OP_PLAN_KEY_CHECK].any
      (fun f => s.getE 0 f l != s.getE 1 f l))

/-- The switch to epoch `e` (Table 12-11); `arrival` is the logical port the token came by, 7 at the root. -/
def State.switchEpoch (s : State) (e arrival : Nat) : State :=
  let ps := s.planChanged
  let s := ((s.put F.RK_EPOCH_NUMBER 0 e).put F.RK_EPOCH_ARMED 0 0).put F.RK_EPOCH_SHADOW 0 SH.RETIRING
  let s := ((s.put F.RK_EPOCH_OLD_SEEN 0 1).put F.RK_EPOCH_ROUNDS 0 0).put F.RK_EPOCH_PARITY 0 (e % 2)
  let s := (s.put F.RK_EPOCH_EPOCH_GROUP 0 s.epochCtl.nextGroup).clearStandby
  let s := s.put F.RK_STENCIL_NEW_PARTS 0 0
  let s := { s with tune := shadowSwap s.tune 256, planKeys := shadowSwap s.planKeys 256, guard := guardSwap s.guard
                    transitOff := false, epochCtl := { s.epochCtl with arrived := none, settle := none, round := false } }
  let s := (s.event evEpochSwitch 8 0 (e + 2 ^ 16 * arrival)).pulse 1
  let s := s.endAll AC.APPLY_EPOCH (fun w => w == 1) AS.OK 0 s.epochData
  let s := (ps.foldl (fun s p => s.startKeying p true) s).repeatKeying
  if s.alornRuns then s.sendRound else s

/-- A hub clears its state of the arm barrier of `e` (R324). -/
def State.clearArm (s : State) (g e : Nat) : State :=
  match lookup s.plumb (plumbKey 0 g) with
  | some r =>
    if r.seq = e then (({ s with plumb := remove s.plumb (plumbKey 0 g) } : State).put F.PL_GROUPSTATE_BUSY g 0).put
      F.PL_GROUPSTATE_ARRIVED g 0
    else s
  | none => s

/-- An EPOCH token at the chip's hubs (R324, R327): none of the ports where the chip originates it. -/
def State.takeToken (s : State) (port : Option Nat) (m : PlumbMsg) : State :=
  let g := s.epochGroup
  let e := M.SEQ m
  let n := s.get F.RK_EPOCH_NUMBER 0
  let s := s.clearArm g e
  if e = n then s
  else if e != nextEpoch n then s.event evEpochMismatch 8 0 (e + 2 ^ 16 * n)
  else if !s.flag F.RK_EPOCH_ARMED 0 && s.epochCtl.settle != some e then s.event evEpochUnarmed 8 0 (e + 2 ^ 16 * n)
  else
    let outs := (List.range 6).filter (fun l => s.admitted (s.physOf l) && some l != port)
    outs.foldl (fun s l => s.toPort l m) (s.switchEpoch e (port.getD 7))

/-- EPOCH: a token at the chip's hubs, from logical port `port` or originated here. -/
def execEpoch (port : Option (Fin 6)) (m : PlumbMsg) (s : State) : Host.Outcome State Fault Refusal :=
  live s (fun s =>
    let s := match port with | some p => s.takeInput (.port p) m | none => s
    if M.OPCODE m != Op.EPOCH then s else (s.takeToken (port.map (fun p => p.val)) m).flow)

end Sys2Proof.Machine
end

