-- ==== Sys2Proof/Machine/Feed.lean ====
section
/-! DEFINITION. What a member sends in a data collective: its contributions, or the chunks of a BROADCAST at the root, one
by one as its Screed node invites them (R213, R214, R218, R243, R246, Table 10-8). -/

namespace Sys2Proof.Machine

/-- Whether a member sends data in chunk `k`, and where it reads it from (Table 10-8). -/
def chunkSource (c : Cmd) (cb k : Nat) : Option Nat :=
  let m := Nat.max 1 (dget c.words C.MEMBERS)
  if dget c.words C.COUNT = 0 then none
  else if dget c.words D.CMD = CC.ALL_GATHER then
    (if k % m = dget c.words C.POSITION then some (dget c.words C.SRC_ADDR + k / m * cb) else none)
  else some (dget c.words C.SRC_ADDR + k * cb)

/-- Operator of a group's reductions; none for ALL_GATHER and BROADCAST (Table 10-8). -/
def State.collOp (s : State) (c : Cmd) (r : CollRun) : Nat :=
  let cmd := dget c.words D.CMD
  if cmd = CC.ALL_GATHER || cmd = CC.BROADCAST then 0 else s.getE r.parity F.RK_GROUP_OP r.group

/-- Where chunk `k`'s bytes lie and how many there are; none where the member sends LENGTH 0. -/
def State.chunkBytesAt (s : State) (c : Cmd) (r : CollRun) (k : Nat) : Nat × Nat :=
  match chunkSource c (s.chunkBytes r.parity r.group) k with
  | none => (0, 0)
  | some a => (a, s.chunkLen c r k)

/-- The header of chunk `k`'s packet; its payload is read as it is written (R97, R246). -/
def State.chunkPacket (s : State) (c : Cmd) (r : CollRun) (k : Nat) : Packet :=
  let cb := s.chunkBytes r.parity r.group
  let part := s.getE r.parity F.RK_GROUP_PARTITION r.group
  mkPacket [(H.OPCODE, if dget c.words D.CMD = CC.BROADCAST then Op.RED_DOWN else Op.RED_UP), (H.EPOCH, r.parity),
    (H.PARTITION, part), (H.JOB, s.get F.RK_PARTJOB_JOB part), (H.GROUP, r.group), (H.SEQ, r.seq), (H.ADDRESS, k * cb),
    (H.LAST_CHUNK, b2n (k + 1 == r.chunks)), (H.FORMAT, s.getE r.parity F.RK_GROUP_FMT_MEMBER r.group),
    (H.OP, s.collOp c r), (H.DST_CHIP, s.own), (H.SRC_CHIP, s.own), (H.SRC_EP, c.core),
    (H.SRC_RANK, s.get F.RK_PARTJOB_OWN_RANK part)] (List.replicate (s.chunkBytesAt c r k).2 0) []

/-- The core port's side of edge C of its router: invitations for what a collective sends. -/
def collRoom (c : Cmd) (r : CollRun) : Nat :=
  roomKey (routerOf c.core) r.parity 7 r.group (if dget c.words D.CMD = CC.BROADCAST then .result else .contribution)

/-- Moves that a sender has been invited to and has neither started nor formed yet (R213). -/
def State.invitesLeft (s : State) (k : Nat) : Nat :=
  ((s.roomAt k).seen + 16 - (s.roomAt k).started) % 16 - (s.outWait.filter (fun w => w.gate == .room k)).length

/-- Forms and sends the next `n` chunks of a collective. -/
def State.sendChunks (s : State) (c : Cmd) (r : CollRun) : Nat → State
  | 0 => s
  | n + 1 =>
    if r.chunks ≤ r.up then s
    else
      let p := s.chunkPacket c r r.up
      let at' := s.chunkBytesAt c r r.up
      let f : Form := ⟨r.up, c.pos, pget p H.PARTITION, none, at'.1, at'.2, some r.group⟩
      let r := { r with up := r.up + 1 }
      let s := (s.setCmd { c with coll := some r }).enqueue (s.outFifo c.core p) c.queue (.room (collRoom c r)) f p
      s.sendChunks { c with coll := some r } r n

/-- The first data collective of a core port that has chunks left to send towards a room count: collectives of one group
send one after another. -/
def State.nextSender (s : State) (i k : Nat) : Option (Cmd × CollRun) :=
  s.cmds.findSome? (fun c => match c.coll with
    | some r => if c.core == i && !c.done && r.up < r.chunks && CC.REDUCE ≤ dget c.words D.CMD && collRoom c r == k then
        some (c, r) else none
    | none => none)

/-- Sends what one room count lets a core port send, collective after collective. -/
def State.feedRoom (s : State) (i k : Nat) : Nat → State
  | 0 => s
  | fuel + 1 =>
    match s.nextSender i k with
    | none => s
    | some (c, r) =>
      let n := s.invitesLeft k
      if n = 0 then s
      else (s.sendChunks c r (Nat.min n (r.chunks - r.up))).feedRoom i k fuel

/-- Sends what the collectives in progress at a core port have been invited to send; a stopped port sends nothing. -/
def State.feed (s : State) (i : Nat) : State :=
  if !s.coreRuns i then s
  else
    let keys := (s.cmds.filterMap (fun c => match c.coll with
      | some r => if c.core == i && !c.done then some (collRoom c r) else none
      | none => none)).eraseDups
    keys.foldl (fun s k => s.feedRoom i k 16) s

end Sys2Proof.Machine
end

