-- ==== Sys2Proof/Machine/Pool.lean ====
section
/-! DEFINITION. The receive pool of an optical port: the parcels a packet holds and their return (R127, R131, R287,
R288). Here `p` is a physical port. -/

namespace Sys2Proof.Machine

/-- Counts parcels freed in a pool: 0 to 5 reserved, 6 shared, 16 + account (R288). -/
def State.countFreed (s : State) (p k n : Nat) : State :=
  if n = 0 then s
  else s.modPort p (fun q => { q with freed := assign q.freed k (((lookup q.freed k).getD 0 + n) % 4096) 0 })

/-- Frees the parcels a packet held: those of its VL's reserved part, of the shared part and of its account. -/
def State.freeParcels (s : State) (p vl res shared : Nat) (account : Option Nat) (entry : Option Nat) : State :=
  let s := (s.countFreed p vl res).countFreed p 6 shared
  let s := match account with
    | some a => s.countFreed p (16 + a) shared
    | none => s
  match entry with
  | some n => s.put F.RK_TRANSIT_OCCUPANCY n (s.get F.RK_TRANSIT_OCCUPANCY n - shared)
  | none => s

/-- Frees a pooled packet's parcels. -/
def State.freePooled (s : State) (p : Nat) (e : Pooled) : State :=
  s.freeParcels p e.vl e.res e.shared e.account e.grant

/-- The packet as it came from the fibre that PORT_INGRESS has not taken yet. -/
def State.arrivedAt (s : State) (p vl : Nat) (pkt : Packet) : Option Pooled :=
  (s.port p).pool.find? (fun e => e.vl == vl && e.next == .arrived && e.pkt == pkt)

/-- Whether an earlier packet of the same VL stands before entry `k` in its queue: one for the same next resource, of
the same group for a tree packet, or one not yet routed (R128). -/
def State.queuedBehind (s : State) (p k : Nat) (e : Pooled) : Bool :=
  ((s.port p).pool.take k).any (fun x => x.vl == e.vl && (x.next == .arrived || (x.next == e.next
    && (e.next != .screed || pget x.pkt H.GROUP == pget e.pkt H.GROUP))))

end Sys2Proof.Machine
end

