-- ==== Sys2Proof/Machine/Screed.lean ====
section
/-! DEFINITION. What reaches a Screed unit: tree packets, room counts, contributions and their folding, merged answers
and copies out of its stores (R212 to R232, R235, R245, R268). -/

namespace Sys2Proof.Machine

def evScreedOrder : Event := ⟨0x603, 2⟩
def evResidue : Event := ⟨0x604, 2⟩

/-! ### Where a tree packet stands -/

/-- Whether a packet reaches a unit by an edge: inputs 0 to 6 of a router, the die or the fibre of a port. -/
def treeEdge (u inp : Nat) : Bool := if u < 256 then inp < 7 else inp < 2

/-- The tree packet in a port's receive pool, where no earlier packet of its queue stands before it (R128). -/
def State.pooledTree (s : State) (p : Nat) (pkt : Packet) : Option Pooled :=
  let pool := (s.port p).pool
  match pool.findIdx? (fun e => e.next == .screed && e.pkt == pkt) with
  | none => none
  | some k => (pool[k]?).bind (fun e => if s.queuedBehind p k e then none else some e)

/-- The mesh on which a tree packet stands at a router's output to its Screed unit, from an input. -/
def State.atScreed (s : State) (u inp : Nat) (pkt : Packet) : Option Mesh :=
  [Mesh.request, Mesh.reply].find? (fun m => match lookup s.grants (outKey m u 7) with
    | some g => !g.parked && !g.passed && g.inp = inp && g.pkt = pkt
    | none => false)

/-- The in FIFO of a port unit in which a tree packet from the die stands first. -/
def State.unitFifo (s : State) (l : Nat) (pkt : Packet) : Option Nat :=
  [1, 3].map (fun k => 256 * 17 + 34 * s.physOf l + 4 * (pget pkt H.GROUP % 8) + k) |>.find? (fun n => s.front n = some pkt)

/-- Whether a tree packet stands at a unit's edge: at the output that leads to the unit, in the port's in FIFO, or in its
receive pool (R46, R54, R66, R128). -/
def State.treeStands (s : State) (u inp : Nat) (pkt : Packet) : Bool :=
  if u < 256 then (s.atScreed u inp pkt).isSome
  else if inp = 0 then (s.unitFifo (u - 256) pkt).isSome
  else (s.pooledTree (s.physOf (u - 256)) pkt).isSome

/-- A tree packet leaves where it stood: the outputs of its path, a port's in FIFO, or its receive pool, whose parcels are
freed. -/
def State.dropTree (s : State) (u inp : Nat) (pkt : Packet) : State :=
  if u < 256 then
    match s.atScreed u inp pkt with
    | some m => s.passTail m longestPath u 7
    | none => s
  else if inp = 0 then
    match s.unitFifo (u - 256) pkt with
    | some n => s.popFifo n
    | none => s
  else
    let p := s.physOf (u - 256)
    match s.pooledTree p pkt with
    | some e => (s.modPort p (fun q => { q with pool := q.pool.erase e })).freePooled p e
    | none => s

/-- A header error at a Screed unit (R86). -/
def State.screedHead (s : State) (e : Event) (u : Nat) (pkt : Packet) : State :=
  (s.sat F.SC_ERRCNT_HEADER u).headEvent e 5 u pkt

/-- Whether a unit takes tree packets: a port unit only while its port is ADMITTED (R235). -/
def State.unitOpen (s : State) (u : Nat) : Bool := u < 256 || s.admitted (s.physOf (u - 256))

/-! ### Chunks in flight -/

/-- Marks a slot as holding chunk `k` of (g, q). -/
def State.markSlot (s : State) (n : Node) (key q k state input : Nat) : State :=
  let s := (s.put F.SC_SLOTSTAT_STATE key state).put F.SC_SLOTSTAT_INPUT key input
  let s := (s.put F.SC_SLOTSTAT_GROUP key n.group).put F.SC_SLOTSTAT_SEQ key q
  (s.put F.SC_SLOTSTAT_CHUNK key k).put F.SC_SLOTSTAT_EPOCH key n.epoch

/-- Elements that a payload of `len` bytes with `pad` added ones carries (R397). -/
def elemCount (fmt len pad : Nat) : Nat :=
  if fmt = 7 then len / 264 * 256 - pad else len / Nat.max 1 (unitBytes fmt)

/-- A slot's contents as a packet brings them. -/
def slotOf (p : Packet) : Slot :=
  let fmt := pget p H.FORMAT
  let es := elemsOf fmt (payload p)
  { Slot.empty with
    hdr := p.head.data, elems := es, fmt := fmt
    bad := elemPoison fmt (if fmt = 7 then es.length / 33 * 32 else es.length) (flitPoison p)
    count := some (elemCount fmt (pget p H.LENGTH) (pget p H.B8_PAD)), filled := pget p H.LENGTH != 0 }

/-- Whether a slot holds a packet's chunk in a state. -/
def State.slotHolds (s : State) (n : Node) (key state : Nat) (p : Packet) : Bool :=
  s.slotState key == state && s.get F.SC_SLOTSTAT_GROUP key == n.group
    && s.get F.SC_SLOTSTAT_SEQ key == pget p H.SEQ
    && s.get F.SC_SLOTSTAT_CHUNK key == s.chunkIndex n.epoch n.group (pget p H.ADDRESS)

/-- A RED_DOWN from a node's parent: the result of a chunk in AWAIT, or a broadcast chunk for a FREE slot (R219, R245).
It waits where the node has not invited it. -/
def State.takeDown (s : State) (n : Node) (p : Packet) : Option State :=
  let k := s.chunkIndex n.epoch n.group (pget p H.ADDRESS)
  match n.slotFor k with
  | none => none
  | some key =>
    let s := s.put F.PL_GROUPSTATE_SEQ n.group (pget p H.SEQ)
    if s.slotHolds n key SL.AWAIT p then some ((s.toResult n key (slotOf p)).settleSlot n key)
    else if s.slotState key = SL.FREE && !s.oldHolds n && (s.run n).down = k then
      let s := s.setRun n { s.run n with down := if pflag p H.LAST_CHUNK then 0 else k + 1 }
      let s := (s.countMove (n.room n.up .result)).markSlot n key (pget p H.SEQ) k SL.RESULT 0
      some ((s.toResult n key { slotOf p with bcast := true }).settleSlot n key)
    else none

/-- The broadcast release of a chunk from across the fibre frees the slot that waits for it (R245). -/
def State.takeRelease (s : State) (n : Node) (p : Packet) : Option State :=
  if n.unit < 256 || n.up != 0 || pget p H.LENGTH != 0 then none
  else
    match n.slots.find? (fun key => s.slotHolds n key SL.RESULT p && (s.slot key).bcast && (s.slot key).outs == 0) with
    | some key => some (s.freeSlot key)
    | none => none

/-- A tree packet with an entry at an open unit. None: it waits for an invitation or for the command that takes it. -/
def State.enterNode (s : State) (n : Node) (inp : Nat) (p : Packet) : Option State :=
  let op := pget p H.OPCODE
  if op = Op.PUT_MC then
    if inp != n.up || s.oldHolds n || (freeKey s.mcBufs n.intakes).isNone || (freeKey s.merges n.mergeKeys).isNone then none
    else
      match freeKey s.mcBufs n.intakes with
      | some k =>
        let s := s.takeMulticast n p
        some (if n.kids.length ≤ 1 then s.forkCopy n k else s)
      | none => none
  else if op = Op.RED_DOWN then (if inp = n.up then s.takeDown n p else none)
  else if op = Op.RED_UP && inp != n.up then s.takeRelease n p
  else none

/-- A tree packet reaches a Screed unit (R86, R87, R212, R233, R235, Table 10-12). None: it waits. -/
def State.treeArrive (s : State) (u inp : Nat) (p : Packet) : Option State :=
  let op := pget p H.OPCODE
  let g := pget p H.GROUP
  let q := pget p H.SEQ
  let red := op = Op.RED_UP || op = Op.RED_DOWN
  let t := s.dropTree u inp p
  if !s.treeStands u inp p then none
  else if headerBad p then some (t.screedHead evHeaderBad u p)
  else if (classOf op).isNone then some (t.screedHead evBadOpcode u p)
  else if !treePacket p || !treeEdge u inp then none
  else
    match s.node u (pget p H.EPOCH) g with
    | none => some (t.noEntry u p)
    | some n =>
      if red && 256 ≤ u && inp = 1 && n.up = 1 && op = Op.RED_DOWN && pget p H.LENGTH = 0
          && pget p H.STATUS = St.ABORTED then some (t.takeMarker (u - 256) g q)
      else if red && s.abortRecorded g q then some (t.sat F.SC_ERRCNT_FLUSHED u)
      else if red && !s.unitOpen u then some (t.raiseAbort (280 + (u - 256)) g q St.UNREACHABLE 5)
      else if !s.unitOpen u && inp = 1 then none
      else t.enterNode n inp p

/-- The first packet of chunk 0 from a child edge across the fibre enters its port (R271). -/
def State.noteEntry (s : State) (u inp : Nat) (p : Packet) : State :=
  let e := pget p H.EPOCH
  let g := pget p H.GROUP
  match s.node u e g with
  | none => s
  | some n =>
    if 256 ≤ u && inp = 1 && n.up = 0 && pget p H.OPCODE = Op.RED_UP && pget p H.ADDRESS = 0 && s.unitOpen u then
      s.noteTreeInput e g (pget p H.SEQ) (u - 256)
    else s

/-- TREE_PACKET_ARRIVAL: a tree packet reaches a Screed unit and finds its group's entry, or is discarded. A
contribution and an answer stay until CONTRIBUTION_TAKEN and MERGE_ANSWER_ARRIVAL take them. -/
def execTreePacketArrival (u : Unit9) (inp : Fin 8) (pkt : Packet) (s : State) : Host.Outcome State Fault Refusal :=
  live s (fun s =>
    match s.treeArrive (unitNo u) inp.val pkt with
    | some t => t.flow
    | none =>
      if headerBad pkt || !s.treeStands (unitNo u) inp.val pkt then s else s.noteEntry (unitNo u) inp.val pkt)

/-! ### Contributions (R219 to R224) -/

/-- The format expected on an input edge: member from a core port, die from a child node, the link's from the fibre. -/
def State.edgeFormat (s : State) (n : Node) (inp : Nat) : Nat :=
  if n.unit < 256 then s.getE n.epoch (if inp = 4 then F.RK_GROUP_FMT_MEMBER else F.RK_GROUP_FMT_DIE) n.group
  else if inp = 1 then s.levelFormat n.epoch n.group (n.unit - 256)
  else s.getE n.epoch F.RK_GROUP_FMT_DIE n.group

/-- The format a node's slot holds: the add format, or what its port sends up (R223). -/
def State.slotFormat (s : State) (n : Node) : Nat :=
  if 256 ≤ n.unit && n.up = 1 then s.levelFormat n.epoch n.group (n.unit - 256)
  else s.getE n.epoch F.RK_GROUP_FMT_DIE n.group

/-- The values of a B8 payload's blocks. -/
def b8Values (es : List Nat) : List Val := (pieces 33 es.length es).flatMap decodeB8

/-- B8 blocks of 32 values each, the last unit completed with +0 (R228, R397). -/
def b8Blocks (vs : List Val) : List Nat :=
  let vs := vs ++ List.replicate ((256 - vs.length % 256) % 256) (Val.fin false 0)
  (pieces 32 vs.length vs).flatMap encodeB8

/-- Converts `count` elements between formats, one rounding each; equal formats pass every bit (R223, R227, R228). -/
def convElems (src dst op count : Nat) (es : List Nat) : List Nat :=
  if src = dst then es
  else if src = 7 then
    match floatOf dst with
    | some f => ((b8Values es).take count).map (encodeF f)
    | none => es
  else if dst = 7 then
    match floatOf src with
    | some f => b8Blocks (es.map (decodeF f))
    | none => es
  else es.map (elemConv src dst op)

/-- Folds one input's elements into the accumulator (R220, R225, R226, R229). -/
def foldElems (fmt op : Nat) (acc es : List Nat) : List Nat :=
  if fmt = 7 then
    (if op = 1 then (List.zipWith addB8 (pieces 33 acc.length acc) (pieces 33 es.length es)).flatMap (fun b => b) else acc)
  else List.zipWith (elemOp fmt op) acc es

/-- Fits poison flags to the elements a format holds: the elements B8 adds are not poisoned. -/
def fitBad (fmt count : Nat) (bad : List Bool) : List Bool :=
  let n := if fmt = 7 then ceilDiv count 256 * 256 else count
  (List.range n).map (fun i => bad.getD i false)

/-- The slot that awaits a contribution on an edge, its chunk and the input's position: of the chunks in FILLING the one
taken up first; for input 0 also the next chunk, where its slot is FREE (R219, R220). -/
def State.awaiting (s : State) (n : Node) (inp : Nat) : Option (Nat × Nat × Nat) :=
  let filling := n.slots.filter (fun key => s.slotState key == SL.FILLING && s.get F.SC_SLOTSTAT_GROUP key == n.group
    && n.order[s.get F.SC_SLOTSTAT_INPUT key]? == some inp)
  let low := filling.foldl (fun (b : Option Nat) key => match b with
    | none => some key
    | some x => if (s.slot key).born < (s.slot x).born then some key else some x) none
  match low with
  | some key => some (key, s.get F.SC_SLOTSTAT_CHUNK key, s.get F.SC_SLOTSTAT_INPUT key)
  | none =>
    let k := (s.run n).next
    match n.slotFor k with
    | some key => if n.order[0]? = some inp && s.slotState key = SL.FREE && !s.oldHolds n then some (key, k, 0) else none
    | none => none

/-- The number of the next slot that a node takes up. -/
def State.nextBorn (s : State) (n : Node) : Nat := (n.slots.map (fun key => (s.slot key).born)).foldl Nat.max 0 + 1

/-- Whether LENGTH and B8_PAD match the chunk's size in a format (R222, R224, R397): the size the first input with data
gave, the full size of a chunk that is not the last, no more than that in the last; LENGTH 0 under None, or in a
collective of length zero. -/
def lengthFits (fmt op full k : Nat) (count : Option Nat) (p : Packet) : Bool :=
  let len := pget p H.LENGTH
  let pad := pget p H.B8_PAD
  let last := pflag p H.LAST_CHUNK
  let n := elemCount fmt len pad
  let exact := sizeOf' fmt n == len && (if fmt = 7 then pad == (256 - n % 256) % 256 else pad == 0)
  if op = 0 && len = 0 then pad == 0
  else if !exact then false
  else
    match count with
    | some c => n == c
    | none => if !last then n == full else if len = 0 then k == 0 else n ≤ full

/-- The first field in which a contribution fails R222, numbered as SCREED_ORDER numbers it. -/
def State.badField (s : State) (n : Node) (key k pos inp : Nat) (p : Packet) : Option Nat :=
  let v := s.slot key
  let want (f : HFld) : Option Nat :=
    if pos != 0 then some (hget v.hdr f)
    else (s.run n).ref.map (fun r => if f = H.SEQ then r.1 else r.2)
  let differs (f : HFld) : Bool := match want f with
    | some x => x != pget p f
    | none => false
  let full := chunkOf (s.formats n.epoch n.group)
  if differs H.SEQ then some 0
  else if differs H.OP then some 1
  else if pget p H.FORMAT != s.edgeFormat n inp then some 2
  else if pget p H.ADDRESS != k * s.chunkBytes n.epoch n.group then some 3
  else if pos != 0 && pget p H.LAST_CHUNK != hget v.hdr H.LAST_CHUNK then some 4
  else if !lengthFits (pget p H.FORMAT) (pget p H.OP) full k v.count p then some 5
  else if pget p H.OP = 0 && pget p H.LENGTH != 0 && v.filled then some 6
  else none

/-- A contribution that fails R222: logged and counted, no further input is taken for the group, and an ABORT with ORDER
is raised for each SEQ seen. -/
def State.orderFault (s : State) (n : Node) (key k pos field : Nat) (p : Packet) : State :=
  let got := pget p H.SEQ
  let held := if pos != 0 then hget (s.slot key).hdr H.SEQ else match (s.run n).ref with
    | some r => r.1
    | none => got
  let s := (s.sat F.SC_ERRCNT_ORDER n.unit).event evScreedOrder 5 n.unit
    (n.group + 2 ^ 12 * held + 2 ^ 28 * got + 2 ^ 44 * field) (pos + 2 ^ 3 * k)
  let s := (s.setRun n { s.run n with halted := true }).put F.PL_GROUPSTATE_SEQ n.group got
  (s.raiseAbort (512 + n.unit) n.group held St.ORDER 0).raiseAbort (512 + n.unit) n.group got St.ORDER 0

/-- Which elements of a slot lie in the flits that hold element `i`, or any byte of its B8 block: all of them are poisoned with
it (R232). -/
def flitMates (fmt count i n : Nat) : List Bool :=
  elemPoison fmt n (poisonedFlits fmt (sizeOf' fmt count) ((List.range n).map (fun j => j == i)))

/-- What one mismatch of the residue checks leaves (R232): it is counted, and after a failed repeat the flits that hold the
element are poisoned, counted and logged. -/
def State.residueOne (s : State) (n : Node) (q k fmt count : Nat) (bad : List Bool) (r : Residue) : List Bool × State :=
  match r with
  | .ok => (bad, s)
  | .repeated => (bad, s.sat F.SC_ERRCNT_RESIDUE n.unit)
  | .failed i path =>
    let s := s.sat F.SC_ERRCNT_RESIDUE n.unit
    if count ≤ i then (bad, s)
    else
      let one := (List.range bad.length).map (fun j => j == i)
      let flits := ((poisonedFlits fmt (sizeOf' fmt count) one).filter (fun b => b)).length
      let s := (s.sat F.SC_ERRCNT_POISONED n.unit flits).event evResidue 5 n.unit
        (n.group + 2 ^ 12 * q + 2 ^ 28 * k + 2 ^ 44 * ((elemSpan fmt i).1 / 64)) path.val
      (List.zipWith (fun a b => a || b) bad (flitMates fmt count i bad.length), s)

/-- What the residue checks of a contribution leave, mismatch after mismatch. -/
def State.residue (s : State) (n : Node) (q k fmt count : Nat) (bad : List Bool) (l : List Residue) : List Bool × State :=
  l.foldl (fun x r => x.2.residueOne n q k fmt count x.1 r) (bad, s)

/-- Converts a contribution and folds it into its slot (R220). -/
def State.foldInput (s : State) (n : Node) (key k pos : Nat) (p : Packet) (r : List Residue) : State :=
  let v := s.slot key
  let src := pget p H.FORMAT
  let dst := s.slotFormat n
  let op := pget p H.OP
  let v := if pos = 0 then { v with hdr := p.head.data, fmt := dst, born := s.nextBorn n } else v
  if pget p H.LENGTH = 0 then
    s.setSlot key (if op = 0 then v else { v with count := some 0, filled := true })
  else
    let x := slotOf p
    let count := x.count.getD 0
    let es := convElems src dst op count x.elems
    let acc := if v.filled then foldElems dst op v.elems es else es
    let inBad := fitBad dst count x.bad
    let bad := if v.filled then List.zipWith (fun a b => a || b) v.bad inBad else inBad
    let (bad, s) := s.residue n (pget p H.SEQ) k dst count bad r
    (s.setSlot key { v with elems := acc, bad := bad, count := some count, filled := true }).put
      F.SC_SLOTSTAT_POISON key (b2n (bad.any (fun b => b)))

/-- The sums of full slots go up, in chunk order, where the parent invites; across the fibre at once (R219). -/
def State.sendSum (s : State) (n : Node) (key : Nat) : State :=
  let fibre := 256 ≤ n.unit && n.up = 1
  if s.slotState key != SL.FILLING || s.get F.SC_SLOTSTAT_GROUP key != n.group
      || s.get F.SC_SLOTSTAT_EPOCH key != n.epoch || s.get F.SC_SLOTSTAT_INPUT key != n.order.length
      || !(fibre || s.invitedTo (n.room n.up .contribution)) then s
  else
    let v := s.slot key
    let s := if fibre then s else s.startMove (n.room n.up .contribution)
    (s.put F.SC_SLOTSTAT_STATE key SL.AWAIT).sendTree n.unit n.up
      (s.slotPacket v Op.RED_UP v.fmt v.elems v.bad (v.count.getD 0))

/-- The full slots of a node in the order of their chunks, and their sending. -/
def State.sendSums (s : State) (n : Node) : State :=
  let order := n.slots.foldl (fun (l : Tbl Nat) key => upsert l (4096 * (s.slot key).born + key) key) []
  order.foldl (fun s e => s.sendSum n e.2) s

/-- Whether the member at the root's core port runs a REDUCE of (g, q): its results carry data to output C only (R244). -/
def State.rootReduces (s : State) (n : Node) (q : Nat) : Bool :=
  s.cmds.any (fun c => c.core == coreAt (rxOf n.unit) (ryOf n.unit) && isColl c n.group q
    && dget c.words D.CMD == CC.REDUCE)

/-- The root has taken every input: the sum in the member format is the result (R219, R221). -/
def State.rootResult (s : State) (n : Node) (key : Nat) : State :=
  let v := s.slot key
  let fmt := s.getE n.epoch F.RK_GROUP_FMT_MEMBER n.group
  let count := v.count.getD 0
  let es := if v.elems.isEmpty then [] else convElems v.fmt fmt (hget v.hdr H.OP) count v.elems
  let bad := if v.elems.isEmpty then [] else fitBad fmt count v.bad
  (s.toResult n key { v with elems := es, bad := bad, fmt := fmt
                             coreOnly := s.rootReduces n (s.get F.SC_SLOTSTAT_SEQ key) }).settleSlot n key

/-- The node's progress after a contribution: the next chunk after input 0, chunk 0 again after the last. -/
def State.advanceNode (s : State) (n : Node) (k pos : Nat) (p : Packet) : State :=
  if pos != 0 then s
  else if pflag p H.LAST_CHUNK then s.setRun n ⟨0, none, false, (s.run n).down⟩
  else s.setRun n ⟨k + 1, some (pget p H.SEQ, pget p H.OP), false, (s.run n).down⟩

/-- A contribution that passed R222 is taken into its slot. -/
def State.acceptInput (s : State) (n : Node) (key k pos inp : Nat) (p : Packet) (r : List Residue) : State :=
  let q := pget p H.SEQ
  let s := if n.unit < 256 || inp = 0 then s.countMove (n.room inp .contribution) else s
  let s := s.put F.PL_GROUPSTATE_SEQ n.group q
  let s := if n.unit < 256 && inp = 4 && k = 0 then
      s.noteTreeInput n.epoch n.group q (16 + coreAt (rxOf n.unit) (ryOf n.unit)) else s
  let s := (s.foldInput n key k pos p r).markSlot n key q k SL.FILLING (pos + 1)
  let s := s.advanceNode n k pos p
  if pos + 1 < n.order.length then s
  else if n.root then s.rootResult n key
  else s.sendSums n

/-! ### Members whose intake has stopped (R268) -/

/-- Whether QUIESCE has stopped a core port's intake. -/
def State.intakeStopped (s : State) (i : Nat) : Bool :=
  match s.partOfCore i with
  | some p => (s.part p).quiesced || (s.part p).draining
  | none => false

/-- Whether a core port has a collective of (g, q) in progress. -/
def State.runsColl (s : State) (i g q : Nat) : Bool := s.cmds.any (fun c => c.core == i && isColl c g q)

/-- Whether a node waits in vain for a member: its intake has stopped with no collective of (g, q) in progress. -/
def State.gone (s : State) (i g q : Nat) : Bool := s.intakeStopped i && !s.runsColl i g q

/-- A router slot in FILLING that comes to await such a member raises ABORT (R268). -/
def State.stallSlot (s : State) (key : Nat) : State :=
  let g := s.get F.SC_SLOTSTAT_GROUP key
  let q := s.get F.SC_SLOTSTAT_SEQ key
  if 1024 ≤ key || s.slotState key != SL.FILLING then s
  else
    match s.routerNode (key / 4) (s.get F.SC_SLOTSTAT_EPOCH key) g with
    | none => s
    | some n =>
      if n.order[s.get F.SC_SLOTSTAT_INPUT key]? = some 4 && s.gone (coreAt (rxOf n.unit) (ryOf n.unit)) g q then
        s.raiseAbort (512 + n.unit) g q St.ABORTED 2
      else s

/-- The same for every slot of the chip. -/
def State.stallSlots (s : State) : State := (s.slots.map (fun e => e.1)).foldl (fun s k => s.stallSlot k) s

/-- One contribution at a node, checked and taken, or refused as out of order. -/
def State.contribute (s : State) (u inp : Nat) (p : Packet) (r : List Residue) : State :=
  let g := pget p H.GROUP
  match s.node u (pget p H.EPOCH) g with
  | none => s
  | some n =>
    if (s.run n).halted || s.abortRecorded g (pget p H.SEQ) || !s.unitOpen u then s
    else
      match s.awaiting n inp with
      | none => s
      | some (key, k, pos) =>
        let t := s.dropTree u inp p
        match s.badField n key k pos inp p with
        | some f => t.orderFault n key k pos f p
        | none => (t.acceptInput n key k pos inp p r).stallSlot key

/-- CONTRIBUTION_TAKEN: a node takes the invited input of a chunk, converts it and folds it into the slot. -/
def execContributionTaken (u : Unit9) (inp : Fin 8) (pkt : Packet) (res : List Residue) (s : State) :
    Host.Outcome State Fault Refusal :=
  live s (fun s =>
    if headerBad pkt || pget pkt H.OPCODE != Op.RED_UP || !treeEdge (unitNo u) inp.val
        || !s.treeStands (unitNo u) inp.val pkt then s
    else (s.contribute (unitNo u) inp.val pkt res).flow)

/-! ### Room counts, forks, answers, results -/

/-- A room count reaches the sender of an edge (R213, R233): a count of another flush generation is ignored. -/
def State.roomArrive (s : State) (u edge g : Nat) (k : RoomKind) (e count : Nat) (gen : Bool) : State :=
  match s.node u e g with
  | none => s
  | some n =>
    if gen != s.generation u g then s
    else
      let key := n.room edge k
      let s := s.setRoom key { s.roomAt key with seen := count }
      match k with
      | .contribution => if edge = n.up then s.sendSums n else s
      | .multicast => n.bufs.foldl (fun s b => s.forkCopy n b) s
      | .result => s

/-- ROOM_COUNT_ARRIVAL: the room count that the inviting node shows lets its sender start the moves it has been invited to
make; edge 7 of a router is its own core port. -/
def execRoomCountArrival (u : Unit9) (edge : Fin 8) (group : BitVec 12) (kind : RoomKind) (epoch : Bool)
    (count : BitVec 4) (gen : Bool) (s : State) : Host.Outcome State Fault Refusal :=
  live s (fun s =>
    let t := if s.shownCount (unitNo u) edge.val (b2n epoch) group.toNat kind count.toNat then
      s.roomArrive (unitNo u) edge.val group.toNat kind (b2n epoch) count.toNat gen else s
    (if unitNo u < 256 && edge.val = 7 then t.feed (coreAt (rxOf (unitNo u)) (ryOf (unitNo u))) else t).flow)

/-- FORK_COPY: a PUT_MC in an intake buffer is copied into each branch buffer that is free, and branch buffers send. -/
def execForkCopy (u : Unit9) (buf : Fin 64) (s : State) : Host.Outcome State Fault Refusal :=
  live s (fun s =>
    let k := 64 * unitNo u + buf.val
    match lookup s.mcBufs k with
    | none => s
    | some b =>
      match s.node (unitNo u) b.epoch b.group with
      | none => s
      | some n => (s.forkCopy n k).flow)

/-- MERGE_ANSWER_ARRIVAL: a member's or child's answer enters its merge entry. -/
def execMergeAnswerArrival (u : Unit9) (out : Fin 8) (pkt : Packet) (s : State) : Host.Outcome State Fault Refusal :=
  live s (fun s =>
    let n := unitNo u
    if headerBad pkt || isTree (pget pkt H.OPCODE) || !treePacket pkt || !treeEdge n out.val
        || (s.node n (pget pkt H.EPOCH) (pget pkt H.GROUP)).isNone || (!s.unitOpen n && out.val = 1)
        || !s.treeStands n out.val pkt then s
    else ((s.dropTree n out.val pkt).takeAnswerAt n out.val pkt).flow)

/-- MERGE_TIMEOUT: a merge entry still waiting is freed without sending, counted and logged (R217). -/
def execMergeTimeout (u : Unit9) (entry : Fin 64) (s : State) : Host.Outcome State Fault Refusal :=
  live s (fun s =>
    let k := 64 * unitNo u + entry.val
    match lookup s.merges k with
    | none => s
    | some m =>
      (({ s with merges := remove s.merges k } : State).sat F.SC_ERRCNT_MERGE_EXPIRED (unitNo u)).event evMergeExpired 5
        (unitNo u) (m.group + 2 ^ 12 * pget m.pkt H.TAG))

/-- RESULT_COPY: a slot in RESULT copies the result into one output of CHILDREN once invited. -/
def execResultCopy (u : Unit9) (slot : Fin 64) (out : Fin 8) (s : State) : Host.Outcome State Fault Refusal :=
  live s (fun s =>
    let n := unitNo u
    let key := if n < 256 then 4 * n + slot.val else 1024 + 64 * (n - 256) + slot.val
    if n < 256 && 4 ≤ slot.val then s
    else
      match s.node n (s.get F.SC_SLOTSTAT_EPOCH key) (s.get F.SC_SLOTSTAT_GROUP key) with
      | none => s
      | some nd => (s.copyResult nd key out.val).flow)

end Sys2Proof.Machine
end

