-- ==== Sys2Proof/Machine/Plumb.lean ====
section
/-! DEFINITION. The Plumb network on the die: arrivals and their combination at cluster nodes and hubs, releases and
results on their way down, and the two hub copies (R250 to R256, R259, R264, R324, R369). The two hubs keep one state in
step (PL_GROUPSTATE) and stand as one node here; only the copies they send to a cluster node are told apart. -/

namespace Sys2Proof.Machine

def evMismatch : Event := ⟨0x501, 2⟩
def evPlumbHub : Event := ⟨0x502, 1⟩
def evPlumbOrder : Event := ⟨0x503, 2⟩

/-- Number of a node, as UNIT names it: 0 the hubs, 2 + c a cluster node; 18 + l logical port l. -/
def plumbNo : PlumbNode → Nat
  | .hubs => 0
  | .cluster c => 2 + c.val
  | .port l => 18 + l.val

/-- Key of an input of a node: members and clusters by index, ports from 16, Alorn 22. -/
def inputKey : PlumbFrom → Nat
  | .member i => i.val % 16
  | .cluster c => c.val
  | .port p => 16 + p.val
  | .alorn => 22

/-- Whether an input is wired to a node (R250). -/
def wired : PlumbNode → PlumbFrom → Bool
  | .cluster c, .member i => i.val / 16 == c.val
  | .hubs, .cluster _ => true
  | .hubs, .port _ => true
  | .hubs, .alorn => true
  | _, _ => false

/-- Child ports of a group's tree in use: the standby tree after an ABORT with UNREACHABLE (R266). -/
def State.childPorts (s : State) (e g : Nat) : List Nat :=
  let m := s.getE e (if s.flag F.PL_GROUPSTATE_STANDBY g then F.PL_GROUP_SBY_CHILDREN else F.PL_GROUP_PRI_CHILDREN) g
  (List.range 6).filter (fun l => bit m l)

/-- The parent of the tree in use: a logical port, or 7 at the root. -/
def State.parentPort (s : State) (e g : Nat) : Nat :=
  s.getE e (if s.flag F.PL_GROUPSTATE_STANDBY g then F.PL_GROUP_SBY_PARENT else F.PL_GROUP_PRI_PARENT) g

/-- Local indices of the member core ports in a cluster, and the clusters that have a member. -/
def State.clusterMembers (s : State) (e g c : Nat) : List Nat :=
  (List.range 16).filter (fun l => s.isMember e g (16 * c + l))
def State.memberClusters (s : State) (e g : Nat) : List Nat :=
  (List.range 16).filter (fun c => s.getE e F.PL_MEMBERS_MASK (4 * g + c / 4) / 2 ^ (16 * (c % 4)) % 2 ^ 16 != 0)

/-- Keys of the inputs a node takes for a group (R251): EPOCH_GROUP has Alorn as its sole member on the chip (R323). -/
def State.plumbInputs (s : State) (n e g : Nat) : List Nat :=
  if 2 ≤ n then s.clusterMembers e g (n - 2)
  else (if g = s.epochGroup then [22] else s.memberClusters e g) ++ (s.childPorts e g).map (fun l => 16 + l)

/-- Inputs that count as taken although nothing came: child ports of EPOCH_GROUP that are not ADMITTED (R369). -/
def State.absentInputs (s : State) (n e g : Nat) : List Nat :=
  if n = 0 && g = s.epochGroup then
    ((s.childPorts e g).filter (fun l => !s.admitted (s.physOf l))).map (fun l => 16 + l)
  else []

/-- The fold of the inputs taken, in ascending order of clusters or members and then child ports; an absent child port
of EPOCH_GROUP contributes zero (R252, R369). -/
def foldPlumb (r : PlumbRun) (keys : List Nat) : Nat :=
  let vs := keys.map (fun k => ((lookup r.vals k).getD 0).toNat)
  match vs with
  | [] => 0
  | v :: t => t.foldl (elemOp r.fmt r.op) v

/-- An arrival of a sequence other than the one in progress (R259). -/
def State.plumbOrder (s : State) (n g held got : Nat) : State :=
  let s := (s.sat F.PL_ERRCNT_ORDER 0).event evPlumbOrder 4 n (g + 2 ^ 12 * held + 2 ^ 28 * got)
  (s.raiseAbort (1024 + n) g held St.ORDER 0).raiseAbort (1024 + n) g got St.ORDER 0

/-- A release or result goes down from the hubs, in two copies, to every child port and to every member cluster; the
result of EPOCH_GROUP goes to Alorn (R251, R323). -/
def State.plumbDown (s : State) (g e : Nat) (m : PlumbMsg) : State :=
  let s := (s.childPorts e g).foldl (fun s l => s.toPort l m) s
  let s := { s with plumb := remove s.plumb (plumbKey 0 g) }
  let s := (s.put F.PL_GROUPSTATE_BUSY g 0).put F.PL_GROUPSTATE_ARRIVED g 0
  if g = s.epochGroup then s.toAlorn m
  else (s.memberClusters e g).foldl (fun s c => s.plumbCopies (2 + c) m) s

/-- Whether the value that an input's message carries is poisoned: the stage that holds it is, or, from a cluster node, an input
of its collective was (DESIGN CHOICE, log entry 51). -/
def State.plumbBad (s : State) (src : PlumbFrom) (m : PlumbMsg) : Bool :=
  match s.outFifoOf src, src with
  | some n, _ => (match s.front n with
    | some p => stageMsg p == m && p.head.poison
    | none => false)
  | none, .cluster c => (match lookup s.plumb (plumbKey (2 + c.val) (M.GROUP m)) with
    | some r => r.seq == M.SEQ m && r.poison
    | none => false)
  | none, _ => false

/-- A node that has taken every input: the combined arrival goes up, or at the root the release, the result or the EPOCH
token is formed (R251, R252, R324). -/
def State.settlePlumb (s : State) (n g : Nat) : State :=
  match lookup s.plumb (plumbKey n g) with
  | none => s
  | some r =>
    let keys := s.plumbInputs n r.parity g
    let gone := s.absentInputs n r.parity g
    if r.sent || !keys.all (fun k => (lookup r.vals k).isSome || gone.contains k) then s
    else
      let v := if r.scalar then foldPlumb r keys else 0
      let st := if r.poison then St.POISON else St.OK
      let msg (op : Nat) (st : Nat) : PlumbMsg := if r.scalar then mkPlumb op g r.seq r.parity st r.part r.fmt r.op v
        else mkPlumb op g r.seq r.parity 0 r.part
      let s := { s with plumb := upsert s.plumb (plumbKey n g) { r with sent := true } }
      let up := if r.scalar then Op.SRED_UP else Op.BAR_ARRIVE
      if 2 ≤ n then s.plumbSend n 0 (msg up 0)
      else if s.parentPort r.parity g != 7 then s.toPort (s.parentPort r.parity g) (msg up 0)
      else if r.scalar then s.plumbDown g r.parity (msg Op.SRED_DOWN st)
      else if g = s.epochGroup then
        s.takeToken none (mkPlumb Op.EPOCH 0 r.seq (r.seq % 2) 0 r.part)
      else s.plumbDown g r.parity (msg Op.BAR_RELEASE 0)

/-- Whether a node drops an arrival as aborted: EPOCH_GROUP's hubs take arrivals whatever is recorded (R264, R371). -/
def State.dropsArrival (s : State) (n g q : Nat) : Bool := s.abortRecorded g q && !(n = 0 && g = s.epochGroup)

/-- BAR_ARRIVE or SRED_UP is absorbed at a node (R134, R251, R252, R259); their STATUS is no field of theirs (R84). -/
def State.plumbArrive (s : State) (node : PlumbNode) (src : PlumbFrom) (m : PlumbMsg) (scalar bad : Bool) : State :=
  let n := plumbNo node
  let g := M.GROUP m
  let q := M.SEQ m
  let key := inputKey src
  if !wired node src || s.dropsArrival n g q || !(s.plumbInputs n (M.EPOCH m) g).contains key then s
  else
    let fresh : PlumbRun := ⟨q, M.EPOCH m, scalar, M.FORMAT m, M.OP m, M.PARTITION m, [], false, false⟩
    let r := (lookup s.plumb (plumbKey n g)).getD fresh
    let s := s.put F.PL_GROUPSTATE_SEQ g q
    if r.seq != q then s.plumbOrder n g r.seq q
    else
      let r := { r with vals := upsert r.vals key (BitVec.ofNat 64 (M.VALUE m)), poison := r.poison || bad }
      let s := { s with plumb := upsert s.plumb (plumbKey n g) r }
      let s := if n = 0 then (s.put F.PL_GROUPSTATE_BUSY g 1).put F.PL_GROUPSTATE_ARRIVED g r.vals.length else s
      s.settlePlumb n g

/-- Inputs of a group's Plumb collective that R271 times: the chip's members and the child ports of the tree in use. -/
def State.timeInput (s : State) (e g q key : Nat) : State :=
  if s.flagE e F.RK_GROUP_VALID g && s.getE e F.RK_GROUP_MEMBERS g = 1 then s
  else s.noteInput g q key (s.membersHere e g + (s.childPorts e g).length)

/-- The arrival of a member at its cluster node is timed. -/
def State.timeMember (s : State) (src : PlumbFrom) (m : PlumbMsg) : State :=
  match src with
  | .member i =>
    if s.abortRecorded (M.GROUP m) (M.SEQ m) || !s.isMember (M.EPOCH m) (M.GROUP m) i.val then s
    else s.timeInput (M.EPOCH m) (M.GROUP m) (M.SEQ m) (16 + i.val)
  | _ => s

/-- BAR_ARRIVE or SRED_UP of an input: it leaves its FIFO, its time is noted, and the node absorbs it. -/
def State.plumbInput (s : State) (n : PlumbNode) (src : PlumbFrom) (m : PlumbMsg) (scalar : Bool) : State :=
  (((s.takeInput src m).timeMember src m).plumbArrive n src m scalar (s.plumbBad src m))

/-! ### Members whose intake has stopped (R268) -/

/-- A cluster node whose collective in progress awaits such a member, or the hubs whose collective in progress awaits a
cluster with such a member, raises ABORT. -/
def State.stallRun (s : State) (n g : Nat) (r : PlumbRun) : State :=
  let stuck (c : Nat) (taken : Nat → Bool) : Bool := (s.clusterMembers r.parity g c).any (fun l =>
    !taken l && s.gone (16 * c + l) g r.seq)
  let bad := if r.sent then false
    else if 2 ≤ n then stuck (n - 2) (fun l => (lookup r.vals l).isSome)
    else if g = s.epochGroup then false
    else (s.memberClusters r.parity g).any (fun c => (lookup r.vals c).isNone && (lookup s.plumb (plumbKey (2 + c) g)).isNone
      && !s.plumbOut.any (fun x => x.src == 2 + c && x.dst == 0 && M.GROUP x.msg == g) && stuck c (fun _ => false))
  if bad then s.raiseAbort (1024 + n) g r.seq St.ABORTED 2 else s

/-- The same for every collective in progress on Plumb. -/
def State.stallPlumb (s : State) : State :=
  s.plumb.foldl (fun s e => match lookup s.plumb e.1 with
    | some r => s.stallRun (e.1 / 4096) (e.1 % 4096) r
    | none => s) s

/-- BAR_ARRIVE at a node. -/
def execBarArrive (n : PlumbNode) (src : PlumbFrom) (m : PlumbMsg) (s : State) : Host.Outcome State Fault Refusal :=
  live s (fun s =>
    if M.OPCODE m != Op.BAR_ARRIVE || !wired n src then s
    else (s.plumbInput n src m false).stallPlumb.flow)

/-- SRED_UP at a node. -/
def execSredUp (n : PlumbNode) (src : PlumbFrom) (m : PlumbMsg) (s : State) : Host.Outcome State Fault Refusal :=
  live s (fun s =>
    if M.OPCODE m != Op.SRED_UP || !wired n src then s
    else (s.plumbInput n src m true).stallPlumb.flow)

/-! ### Down to the members -/

/-- A cluster node acts on a release or result: its members get it and its run ends. -/
def State.clusterDown (s : State) (c : Nat) (m : PlumbMsg) : State :=
  let g := M.GROUP m
  let s := { s with plumb := remove s.plumb (plumbKey (2 + c) g) }
  (s.clusterMembers (M.EPOCH m) g c).foldl (fun s l => s.toMember (16 * c + l) m) s

/-- Whether a node has a collective of (g, q) in progress. -/
def State.plumbRuns (s : State) (n g q : Nat) : Bool :=
  match lookup s.plumb (plumbKey n g) with
  | some r => r.seq == q
  | none => false

/-- A release or result for which nothing is in progress is dropped (R251). -/
def State.plumbStray (s : State) (n : Nat) (m : PlumbMsg) : State :=
  let g := M.GROUP m
  if s.abortRecorded g (M.SEQ m) then s
  else (s.sat F.PL_ERRCNT_ORDER 0).event evPlumbOrder 4 n (g + 2 ^ 12 * s.get F.PL_GROUPSTATE_SEQ g + 2 ^ 28 * M.SEQ m)

/-! ### The two hub copies (R253 to R256) -/

/-- Two copies are of one message: they agree in GROUP, SEQ and opcode. -/
def sameHead (a b : PlumbMsg) : Bool := M.GROUP a == M.GROUP b && M.SEQ a == M.SEQ b && M.OPCODE a == M.OPCODE b

/-- Two copies agree in GROUP, SEQ, opcode, STATUS and VALUE (R253). -/
def copiesAgree (a b : PlumbMsg) : Bool := sameHead a b && M.STATUS a == M.STATUS b && M.VALUE a == M.VALUE b

/-- A copy from a hub that is not what the hub sent, while the hub has sent something to the node: its wires have altered it. -/
def State.altered (s : State) (n : Nat) (h : Hub) (m : PlumbMsg) : Bool :=
  !s.plumbOut.contains ⟨hubNo h, n, m⟩ && s.plumbOut.any (fun x => x.src == hubNo h && x.dst == n)

/-- A hub's copy has arrived at a node: the message itself, or where it comes altered the oldest on its way. -/
def State.copyTake (s : State) (n : Nat) (h : Hub) (m : PlumbMsg) : State :=
  if s.altered n h m then
    match s.plumbOut.find? (fun x => x.src == hubNo h && x.dst == n) with
    | some x => { s with plumbOut := s.plumbOut.erase x }
    | none => s
  else s.plumbTake (hubNo h) n m

/-- The other hub's copy that a copy from `h` pairs with at a node: the first of the same GROUP, SEQ and opcode; else the first
that hub `h` has no copy of on its way, so that one of the two came altered (R255; DESIGN CHOICE, log entry 49). -/
def State.pairOf (s : State) (n : Nat) (h : Hub) (m : PlumbMsg) : Option PlumbMsg :=
  let ws := (s.copies.filter (fun c => c.1 == n && c.2.1 == otherHub h && c.2.2 != 0)).map (fun c => c.2.2)
  match ws.find? (fun x => sameHead x m) with
  | some x => some x
  | none => ws.find? (fun x => !s.plumbOut.contains ⟨hubNo h, n, x⟩)

/-- A copy that waits for the other hub's, or the mark (message 0) of one that failed parity. -/
def State.keepCopy (s : State) (n : Nat) (h : Hub) (m : PlumbMsg) : State := { s with copies := s.copies ++ [(n, h, m)] }
def State.dropCopy (s : State) (n : Nat) (h : Hub) (m : PlumbMsg) : State := { s with copies := s.copies.erase (n, h, m) }

/-- Logs and counts two copies that differ: hub A's stands (R255). `w` and `u` are WINDOW and UNIT of the node or port. -/
def State.copyMismatch (s : State) (w u : Nat) (a b : PlumbMsg) : State :=
  (s.sat F.PL_ERRCNT_MISMATCH 0).event evMismatch w u (M.GROUP a + 2 ^ 12 * M.SEQ a + 2 ^ 28 * M.OPCODE a) (M.VALUE a)
    (some (M.VALUE b, M.STATUS a + 2 ^ 4 * M.STATUS b))

/-- A message with another STATUS. -/
def withStatus (m : PlumbMsg) (st : Nat) : PlumbMsg :=
  mkPlumb (M.OPCODE m) (M.GROUP m) (M.SEQ m) (M.EPOCH m) st (M.PARTITION m) (M.FORMAT m) (M.OP m) (M.VALUE m)

/-- What is delivered of two copies that differ: hub A's, an SRED_DOWN with STATUS POISON (R255). -/
def afterMismatch (a : PlumbMsg) : PlumbMsg := if M.OPCODE a = Op.SRED_DOWN then withStatus a St.POISON else a

/-- Two copies match: neither hub misses in a row (R256). -/
def State.copiesMatch (s : State) : State := { s with hubMiss := [] }

/-- A cluster node acts on a message without a second copy: nothing is in progress for a stray one (R251, R256). -/
def State.clusterAlone (s : State) (c : Nat) (m : PlumbMsg) : State :=
  if s.plumbRuns (2 + c) (M.GROUP m) (M.SEQ m) then s.clusterDown c m else s.plumbStray (2 + c) m

/-- The second copy at a cluster node. A result was waiting for it; a release was acted on at its first copy, unless hub A's
second copy is another message. -/
def State.clusterPair (s : State) (c : Nat) (h : Hub) (m first : PlumbMsg) : State :=
  let (a, b) := if hubNo h = 0 then (m, first) else (first, m)
  if copiesAgree a b then (if M.OPCODE a = Op.SRED_DOWN then s.copiesMatch.clusterDown c a else s.copiesMatch)
  else
    let s := s.copyMismatch 4 (2 + c) a b
    if M.OPCODE a = Op.SRED_DOWN || !sameHead a b then
      (if s.plumbRuns (2 + c) (M.GROUP a) (M.SEQ a) then s.clusterDown c (afterMismatch a) else s)
    else s

/-- A copy of a release or a result from hub `h` reaches a cluster node (R254 to R256); `altered` where it is not what the hub
sent. -/
def State.copyDown (s : State) (c : Nat) (h : Hub) (m : PlumbMsg) (altered : Bool) : State :=
  let n := 2 + c
  match s.pairOf n h m with
  | some first => (s.dropCopy n (otherHub h) first).clusterPair c h m first
  | none =>
    if s.copies.contains (n, otherHub h, 0) then (s.dropCopy n (otherHub h) 0).clusterAlone c m
    else if !s.plumbRuns n (M.GROUP m) (M.SEQ m) then (if altered then s.keepCopy n h m else s.plumbStray n m)
    else if s.hubDown.contains (hubNo (otherHub h)) then s.clusterDown c m
    else if M.OPCODE m = Op.SRED_DOWN then s.keepCopy n h m
    else (s.keepCopy n h m).clusterDown c m

/-- A packet that a port still holds in staging for the fibre becomes another. -/
def State.restage (s : State) (p : Nat) (old new : Packet) : State :=
  s.modPort p (fun q => { q with staging := q.staging.map (fun t => if t.vl = 0 && t.pkt = old then { t with pkt := new } else t) })

/-- Poison of the value that the hubs send to a port: an input of theirs was poisoned (log entry 51). -/
def State.hubBad (s : State) (m : PlumbMsg) : Bool :=
  match lookup s.plumb (plumbKey 0 (M.GROUP m)) with
  | some r => M.OPCODE m == Op.SRED_UP && r.seq == M.SEQ m && r.poison
  | none => false

/-- A logical port sends a Plumb message once on VL0 (R253). -/
def State.portSends (s : State) (l : Nat) (m : PlumbMsg) : State := s.plumbToFibre l m (s.hubBad m)

/-- A copy from hub `h` at logical port `l`: the first is sent, the second compared with it and discarded; where they differ
hub A's is what the port sends, as far as the first has not left yet (R253, R255, R256). The node number 64 higher keeps what was
sent when the second copy was given up. -/
def State.portCopyIn (s : State) (l : Nat) (h : Hub) (m : PlumbMsg) : State :=
  let n := 18 + l
  let p := s.physOf l
  match s.pairOf n h m with
  | some first =>
    let s := s.dropCopy n (otherHub h) first
    let (a, b) := if hubNo h = 0 then (m, first) else (first, m)
    if copiesAgree a b then s.copiesMatch
    else (s.copyMismatch 7 p a b).restage p (s.plumbPacket l first (s.hubBad first)) (s.plumbPacket l (afterMismatch a) (s.hubBad a))
  | none =>
    match s.copies.find? (fun c => c.1 == n + 64 && c.2.1 == otherHub h && sameHead c.2.2 m) with
    | some c => s.dropCopy c.1 c.2.1 c.2.2
    | none =>
      if s.copies.contains (n, otherHub h, 0) then (s.dropCopy n (otherHub h) 0).portSends l m
      else if s.hubDown.contains (hubNo (otherHub h)) then s.portSends l m
      else (s.keepCopy n h m).portSends l m

/-- A copy that fails parity is discarded and counted; the node acts on the other alone, now or when it comes (R256; the count
is DESIGN CHOICE, log entry 50). -/
def State.copyFails (s : State) (n : Nat) (h : Hub) : State :=
  let s := s.sat F.PL_ERRCNT_PAIR_TIMEOUT 0
  match s.copies.find? (fun c => c.1 == n && c.2.1 == otherHub h && c.2.2 != 0) with
  | none => s.keepCopy n h 0
  | some (_, o, x) =>
    let s := s.dropCopy n o x
    if n < 18 && M.OPCODE x = Op.SRED_DOWN then s.clusterAlone (n - 2) x else s

/-- A copy of a release or result at a cluster node, sound or not. -/
def State.clusterTakes (s : State) (c : Nat) (h : Hub) (m : PlumbMsg) (sound : Bool) : State :=
  let t := s.copyTake (2 + c) h m
  if sound then t.copyDown c h m (s.altered (2 + c) h m) else t.copyFails (2 + c) h

/-- A release or result at the hubs, from the parent port: passed down (R251). -/
def State.hubDownward (s : State) (m : PlumbMsg) : State :=
  let s := match s.parentPort (M.EPOCH m) (M.GROUP m) with
    | 7 => s
    | l => s.takeStage (plumbOutOf (s.physOf l)) m
  if s.plumbRuns 0 (M.GROUP m) (M.SEQ m) then s.plumbDown (M.GROUP m) (M.EPOCH m) m else s.plumbStray 0 m

/-- BAR_RELEASE at the hubs, which take a port's message at once, or one hub's copy at a cluster node; a port takes its copies
as they are admitted. -/
def execBarRelease (n : PlumbNode) (hub : Hub) (m : HubCopy) (s : State) : Host.Outcome State Fault Refusal :=
  live s (fun s =>
    if M.OPCODE m.msg != Op.BAR_RELEASE then s
    else
      (match n with
      | .hubs => s.hubDownward m.msg
      | .cluster c => s.clusterTakes c.val hub m.msg m.sound
      | .port _ => s).flow)

/-- SRED_DOWN likewise; a cluster node waits for both copies (R254). -/
def execSredDown (n : PlumbNode) (hub : Hub) (m : HubCopy) (s : State) : Host.Outcome State Fault Refusal :=
  live s (fun s =>
    if M.OPCODE m.msg != Op.SRED_DOWN then s
    else
      (match n with
      | .hubs => s.hubDownward m.msg
      | .cluster c => s.clusterTakes c.val hub m.msg m.sound
      | .port _ => s).flow)

/-- The second copy of a message has not come from hub `late`: counted and logged; 16 in a row put the hub out of service
(R256). -/
def State.missCopy (s : State) (w u late : Nat) (m : PlumbMsg) : State :=
  let miss := Nat.min 16 ((lookup s.hubMiss late).getD 0 + 1)
  let s := { s with hubMiss := upsert s.hubMiss late miss
                    hubDown := if miss = 16 then insertNat s.hubDown late else s.hubDown }
  (s.sat F.PL_ERRCNT_PAIR_TIMEOUT 0).event evPlumbHub w u (late + 2 * M.GROUP m + 2 ^ 13 * M.SEQ m) miss

/-- PLUMB_PAIR_EXPIRY: a node whose second copy has not come acts on the one it has; after 16 such events from one hub
without a match the hub is out of service (R256). -/
def execPlumbPairExpiry (n : PlumbNode) (m : PlumbMsg) (s : State) : Host.Outcome State Fault Refusal :=
  live s (fun s =>
    let k := plumbNo n
    match s.copies.find? (fun x => x.1 == k && x.2.2 == m && m != 0) with
    | none => s
    | some (_, h, _) =>
      let s := s.dropCopy k h m
      let late := hubNo (otherHub h)
      match n with
      | .hubs => s
      | .cluster c =>
        let s := s.missCopy 4 k late m
        (if M.OPCODE m = Op.SRED_DOWN then s.clusterAlone c.val m else s).flow
      | .port l => (s.missCopy 7 (s.physOf l.val) late m).keepCopy (k + 64) h m)

/-! ### Plumb in FIFOs (R67, R250) -/

/-- A port reads what its Plumb in FIFO holds, while its clock runs; bit 128 of a stage tells the hub (log entry 49). -/
def State.portReads (s : State) (p : Nat) : Nat → State
  | 0 => s
  | fuel + 1 =>
    if !s.hasEdges 17 then s
    else
      match s.front (plumbInOf p) with
      | none => s
      | some x =>
        let h : Hub := if x.head.data.getLsbD 128 then .b else .a
        let t := s.popFifo (plumbInOf p)
        (if x.head.poison then t.copyFails (18 + s.logical p) h
         else t.portCopyIn (s.logical p) h (stageMsg x)).portReads p fuel

/-- IN_FIFO_ADMIT at the Plumb in FIFO of physical port `p`: what the wires of hub `h` bring of the message that the hub has sent
longest or that this is. -/
def State.admitCopy (s : State) (p : Nat) (h : Hub) (x : Packet) : State :=
  let n := 18 + s.logical p
  if !s.plumbOut.any (fun e => e.src == hubNo h && e.dst == n) then s
  else if s.room (plumbInOf p) = 0 then s.holdPlumb (plumbInOf p)
  else
    let w : Packet := ⟨⟨x.head.data ||| (if h = .b then 1#512 <<< 128 else 0), x.head.poison⟩, []⟩
    ((((s.copyTake n h (stageMsg x)).unholdPlumb (plumbInOf p)).pushFifo (plumbInOf p) w).portReads p 8).flow

/-- IN_FIFO_ADMIT of a message that waits for room in the Plumb in FIFO `n` of a core port or Alorn. -/
def State.admitHeld (s : State) (n src dst : Nat) (m : PlumbMsg) (enter : State → State) : State :=
  if (s.heldFor dst).head? != some ⟨src, dst, m⟩ then s
  else if s.room n = 0 then s.holdPlumb n
  else
    let s := s.plumbTake src dst m
    (enter (if (s.heldFor dst).isEmpty then s.unholdPlumb n else s)).flow

/-- IN_FIFO_ADMIT: a packet that stands before an in FIFO is admitted, or held (R67, R81). -/
def execInFifoAdmit (f : FifoId) (pkt : Packet) (s : State) : Host.Outcome State Fault Refusal :=
  live s (fun s =>
    if fifoOut (fifoCopy f) then s
    else
      match s.standBefore f pkt with
      | some w => s.admitHeader f w pkt
      | none =>
        let m := stageMsg pkt
        match f with
        | .core i k => if k = 5 then s.admitHeld (coreFifo i.val 5) (2 + i.val / 16) (32 + i.val) m (fun s => s.admitMember i.val m) else s
        | .alorn k => if k = 5 then s.admitHeld alornIn 0 24 m (fun s => s.pushFifo alornIn (plumbStage m)) else s
        | .portPlumb p _ => s.admitCopy p.val .a pkt
        | .portCopy p h => s.admitCopy p.val h pkt
        | _ => s)

/-! ### From the fibre -/

/-- The compact form of a Plumb packet at a chip, with PARTITION taken afresh (R100, R105). -/
def State.compact (s : State) (p : Packet) : PlumbMsg :=
  mkPlumb (pget p H.OPCODE) (pget p H.GROUP) (pget p H.SEQ) (pget p H.EPOCH) (pget p H.STATUS)
    ((s.partOfJob (pget p H.JOB)).getD 0) (pget p H.FORMAT) (pget p H.OP) (payloadNat p 8)

/-- The hubs look again at EPOCH_GROUP after a port has left ADMITTED (R369). -/
def State.recheckHubs (s : State) : State := s.settlePlumb 0 s.epochGroup

end Sys2Proof.Machine
end

