-- ==== Sys2Proof/Machine/Guard.lean ====
section
/-! DEFINITION. The command guard over Alorn's register writes (R349, R350, Table 13-9), and the bank handovers of a
Stencil load (R310, Table 12-5). -/

namespace Sys2Proof.Machine

def evGuardRefused : Event := ⟨0xA03, 2⟩

/-- The mask that covers a list of fields. -/
def fieldsMask (l : List Fld) : Word := l.foldl (fun m f => m ||| fieldMask f.lo f.width) 0

/-- The NEXT fields of an ownership register. -/
def nextMask : Word :=
  fieldsMask [F.CP_BANKOWN_NEXT_SHARED, F.CP_BANKOWN_NEXT_NET, F.CP_BANKOWN_NEXT_PART, F.CP_BANKOWN_NEXT_EP, F.CP_BANKOWN_NEXT_GROUP]

/-- The default command mask of a register copy (Table 13-9). -/
def State.defaultMask (s : State) (r : Reg) (n : Nat) : Word :=
  match r with
  | .CP_BANKOWN => nextMask
  | .SP_BANKOWN => nextMask
  | .OP_PORTCTL =>
    fieldsMask ([F.OP_PORTCTL_ADMIT, F.OP_PORTCTL_HOLD_DOWN]
      ++ (if s.flag F.OP_PLAN_REMAP_OK (s.get F.OP_PORTCTL_LOGICAL n) then [F.OP_PORTCTL_LOGICAL] else []))
  | .RK_COORDS => fieldsMask [F.RK_COORDS_ADDR, F.RK_COORDS_SET]
  | .TM_TIMESTAMP => BitVec.allOnes 64
  | _ => 0

/-- The command mask in effect: the default mask and the GUARD record of the instance (R350). -/
def State.guardMask (s : State) (r : Reg) (n : Nat) : Word :=
  s.defaultMask r n &&& (lookup s.guard (regKey r n 0)).getD (BitVec.allOnes 64)

/-- The first of a command's writes that the guard would refuse (R349). -/
def State.guardStops (s : State) (ws : List (Reg × Nat × Word)) : Option (Reg × Nat) :=
  (ws.find? (fun w => (s.word w.1 w.2.1 ^^^ w.2.2) &&& ~~~ s.guardMask w.1 w.2.1 != 0)).map (fun w => (w.1, w.2.1))

/-- A guard refusal is counted, recorded and logged (R349). -/
def State.noteGuard (s : State) (r : Reg) (n cmd : Nat) : State :=
  let s := s.sat F.AL_ERRCNT_GUARD 0
  let s := s.setWord .AL_GUARD 0 (BitVec.ofNat 64 (r.info.code + 2 ^ 16 * n + 2 ^ 48 * cmd + 2 ^ 63))
  s.event evGuardRefused 9 0 (s.word .AL_GUARD 0).toNat

/-- Makes the writes of a command. -/
def State.doWrites (s : State) (ws : List (Reg × Nat × Word)) : State :=
  ws.foldl (fun s w => s.setWord w.1 w.2.1 w.2.2) s

/-! ### Handovers by Alorn -/

/-- The ownership register with the NEXT fields that a handover writes. -/
def State.nextImage (s : State) (h : Handover) : Word :=
  [(F.CP_BANKOWN_NEXT_SHARED, h.shared), (F.CP_BANKOWN_NEXT_NET, h.net), (F.CP_BANKOWN_NEXT_PART, h.part),
    (F.CP_BANKOWN_NEXT_EP, h.ep), (F.CP_BANKOWN_NEXT_GROUP, h.group)].foldl
      (fun (w : Word) (e : Fld × Nat) => fieldPut w e.1.lo e.1.width e.2) (s.word (bankReg h.mem) (bankCopy h.mem h.bank))

/-- The guard's answer to a handover's write. -/
def State.handoverStops (s : State) (h : Handover) : Option (Reg × Nat) :=
  s.guardStops [(bankReg h.mem, bankCopy h.mem h.bank, s.nextImage h)]

/-- The bank and next owner that a BANKS record names for one of its banks (Table 12-5). -/
def recordOwner (w : Word) (ep b : Nat) : Handover :=
  { mem := ep, bank := b, shared := fieldGet w 17 1, net := fieldGet w 18 1, group := fieldGet w 19 12, part := fieldGet w 31 4
    ep := fieldGet w 35 9 }

/-- Whether a record matches the bank's present owner (R310); GROUP counts with NET. -/
def State.ownerMatches (s : State) (h : Handover) : Bool :=
  s.bank F.CP_BANKOWN_STATE h.mem h.bank != 0
    && s.bank F.CP_BANKOWN_SHARED h.mem h.bank = h.shared && s.bank F.CP_BANKOWN_NET_HELD h.mem h.bank = h.net
    && s.bank F.CP_BANKOWN_OWNER_PART h.mem h.bank = h.part && s.bank F.CP_BANKOWN_OWNER_EP h.mem h.bank = h.ep
    && (h.net = 0 || s.bank F.CP_BANKOWN_GROUP h.mem h.bank = h.group)

/-- An UNOWNED bank passes straight to OWNED (R310): the owner fields are the record's, with NET_HELD and GROUP. -/
def State.ownBank (s : State) (h : Handover) : State :=
  let s := s.setWord (bankReg h.mem) (bankCopy h.mem h.bank) (s.nextImage h)
  let s := s.setBank h.mem h.bank [(F.CP_BANKOWN_STATE, 1), (F.CP_BANKOWN_SHARED, h.shared), (F.CP_BANKOWN_NET_HELD, h.net),
    (F.CP_BANKOWN_OWNER_PART, h.part), (F.CP_BANKOWN_OWNER_EP, h.ep), (F.CP_BANKOWN_GROUP, h.group)]
  s.memEvent evBankMoved h.mem (h.mem + 512 * h.bank) (s.word (bankReg h.mem) (bankCopy h.mem h.bank)).toNat

/-- Carries out one record of a load for one bank: none where no RK_HANDOVER entry is free for it yet. -/
def State.loadHandover (s : State) (h : Handover) : Option State :=
  if s.ownerMatches h then some s
  else
    match s.handoverStops h with
    | some w => some (s.noteGuard w.1 w.2 0)
    | none =>
      if s.bank F.CP_BANKOWN_STATE h.mem h.bank = 0 then some (s.ownBank h)
      else
        let (st, s) := s.alornHandover h
        if st = St.REFUSED then none else some s

/-- Carries out the handovers of the last load that have not been started, each as soon as an entry is free (R310). -/
def State.loadHandovers (s : State) : State :=
  match s.alorn.banksToDo.foldl (fun (x : State × Tbl Word) e =>
      match x.1.loadHandover (recordOwner e.2 (e.1 / 256) (e.1 % 256)) with
      | some t => (t, x.2)
      | none => (x.1, e :: x.2)) (s, []) with
  | (s, left) => s.modAlorn (fun a => { a with banksToDo := left.reverse })

end Sys2Proof.Machine
end

