-- ==== Sys2Proof/Machine/Queue.lean ====
section
/-! DEFINITION. Commands of a core port's queues: what starts them, the checks of Tables 6-5 and 7-5, the cutting of
transfers into packets, send flow contexts and end-to-end retry (R138 to R166, R178 to R188). -/

namespace Sys2Proof.Machine

/-- The descriptor at a position of a queue. -/
def State.descriptor (s : State) (i q pos : Nat) : List Word :=
  (List.range 8).map (fun k =>
    BitVec.ofNat 64 (s.readNat i (s.get F.CP_QBASE_DESC_BASE (qCopy i q) + 64 * (pos % 256) + 8 * k) 8))

/-- A command that has not issued a packet: its SERIAL is a free value, since Table 6-6 names that of an issue. -/
def State.beginCmd (s : State) (i q pos : Nat) (ws : List Word) : Cmd × State :=
  ({ Cmd.begin i q pos ws with serial := (Config.noSerial s.freeCtr).toNat }, s.drawn)

/-- Reads the descriptor at a position, which counts its SRAM errors (R196); an uncorrectable word has the value its bytes
hold, which the poison pattern leaves free (log entry 9). -/
def State.fetchCmd (s : State) (i q pos : Nat) : Cmd × State :=
  (s.countReads i (s.get F.CP_QBASE_DESC_BASE (qCopy i q) + 64 * (pos % 256)) 64).beginCmd i q pos (s.descriptor i q pos)

/-! ### Starting (R138, R141, R153, R241) -/

/-- Whether both arrays of a queue lie in banks its core port owns (R138). -/
def State.arraysOwned (s : State) (i q : Nat) : Bool :=
  s.coreOwnsAll i (s.get F.CP_QBASE_DESC_BASE (qCopy i q)) 0x4000
    && s.coreOwnsAll i (s.get F.CP_QBASE_COMP_BASE (qCopy i q)) 0x2000

/-- Whether a core port's partition is fenced: what is submitted then completes at check 2 (R380). -/
def State.fencedCore (s : State) (i : Nat) : Bool :=
  match s.partOfCore i with
  | some p => (s.part p).fenced
  | none => false

/-- Whether a queue has a command that it may start as far as the queue itself goes: enabled, not empty, intake not
stopped, and no earlier command still issuing or holding the queue (R141, R241). -/
def State.queueOpen (s : State) (i q : Nat) : Bool :=
  s.present i && s.coreRuns i && s.flag F.CP_QCTL_ENABLE (qCopy i q)
    && s.get F.CP_QSTAT_HEAD (qCopy i q) != s.get F.CP_QTAIL_TAIL (qCopy i q) && (!s.intakeStopped i || s.fencedCore i)
    && !s.cmds.any (fun c => c.core == i && c.queue == q && !c.done && (c.coll.isSome || s.outWait.any (fun w => waitsFor c w)))

/-- What HEAD waits on: its counter (R153), its fence, its send flow context. -/
def State.headWaits (s : State) (i : Nat) (ws : List Word) : Bool :=
  dflag ws D.WAIT_EN
    && 2 ^ 31 ≤ (s.get F.CP_EVCNT_VALUE (evCopy i (dget ws D.WAIT_CTR)) + 2 ^ 32 - dget ws D.WAIT_VALUE) % 2 ^ 32
def State.headFenced (s : State) (i q : Nat) (ws : List Word) : Bool :=
  dflag ws D.FENCE && s.get F.CP_QSTAT_RETIRE (qCopy i q) != s.get F.CP_QSTAT_HEAD (qCopy i q)
def State.headFlowBusy (s : State) (ws : List Word) : Bool :=
  dflag ws D.FLOW_EN && s.flag F.RK_FLOWSEQ_BUSY (dget ws D.FLOW)

/-! ### The forms of a descriptor (R142, R143, R183) -/

def D.SIGNAL_OPERAND : DFld := ⟨6, 0, 32⟩

/-- The common words of a descriptor (Table 6-1). -/
def commonFields : List DFld :=
  [D.CMD, D.FENCE, D.WAIT_EN, D.WAIT_CTR, D.LSIG_EN, D.LSIG_CTR, D.ACK_REQ, D.RSIG_EN, D.RSIG_CTR, D.FLOW_EN, D.FLOW,
    D.WAIT_VALUE]

/-- The body fields a command uses (Tables 6-3, 6-4, 7-4 and 10-6); none for a reserved code. -/
def bodyFields (cmd : Nat) : Option (List DFld) :=
  let rows := [D.LOCAL_ADDR, D.REMOTE_ADDR, D.ROW_BYTES, D.ROWS, D.LOCAL_STRIDE, D.REMOTE_STRIDE]
  let data := [C.GROUP, C.SEQ, C.SRC_ADDR, C.DST_ADDR, C.COUNT]
  if cmd = 0 then some []
  else if cmd = 1 || cmd = 2 then some (rows ++ [D.RANK, D.ENDPOINT])
  else if cmd = 3 then some (rows ++ [D.GROUP])
  else if cmd = 4 || cmd = 5 then
    some [D.LOCAL_ADDR, D.REMOTE_ADDR, D.RANK, D.ENDPOINT, D.FORMAT, D.STORE, D.OPERAND]
  else if cmd = 6 then some [D.RANK, D.ENDPOINT, D.TARGET_CTR, D.SIGNAL_OPERAND]
  else if cmd = 0x10 then some [D.LOCAL_ADDR, D.CHANNEL, D.AM_HANDLER, D.EXPECT_REPLY, D.AM_LENGTH]
  else if cmd = 0x11 then
    some [D.LOCAL_ADDR, D.RANK, D.ENDPOINT, D.RING, D.AM_LENGTH, D.REPLY_HANDLER, D.REPLY_TAG]
  else if cmd = CC.BARRIER then some [C.GROUP, C.SEQ]
  else if cmd = CC.SCALAR_REDUCE then some [C.GROUP, C.SEQ, C.DST_ADDR, C.FORMAT, C.OP, C.STORE, C.OPERAND]
  else if cmd = CC.REDUCE || cmd = CC.ALL_REDUCE || cmd = CC.BROADCAST then some data
  else if cmd = CC.REDUCE_SCATTER || cmd = CC.ALL_GATHER then some (data ++ [C.MEMBERS, C.POSITION])
  else none

/-- An address that only STORE uses is zero without it (Tables 6-4 and 10-6). -/
def storeUsed (ws : List Word) : Bool :=
  let cmd := dget ws D.CMD
  if cmd = 4 || cmd = 5 then dflag ws D.STORE || dget ws D.LOCAL_ADDR = 0
  else cmd != CC.SCALAR_REDUCE || dflag ws C.STORE || dget ws C.DST_ADDR = 0

/-- The code is known and every bit outside the fields it uses is zero (R142). -/
def wellDescribed (ws : List Word) : Bool :=
  match bodyFields (dget ws D.CMD) with
  | some fs => onlyFields ws (commonFields ++ fs) && storeUsed ws
  | none => false

/-- A piece of a transfer: what one packet moves. -/
structure Piece where
  src : Nat
  addr : Nat
  len : Nat
  off : Nat
deriving DecidableEq, Repr

/-- Where a row's pieces begin and end, for cuts at multiples of `cut` of the remote address (R146). -/
def rowCuts (cut remote n : Nat) : List (Nat × Nat) :=
  let b := cut - remote % cut
  if n ≤ b then [(0, n)]
  else (0, b) :: (List.range (ceilDiv (n - b) cut)).map (fun k => (b + k * cut, Nat.min cut (n - b - k * cut)))

/-- The shape that moves no data (R152). -/
def zeroShape (ws : List Word) : Bool :=
  let cmd := dget ws D.CMD
  (cmd = 1 || cmd = 2 || cmd = 3) && (dget ws D.ROWS = 0 || dget ws D.ROW_BYTES = 0)

/-- The start of row `r` in local memory, exactly, and at the destination, modulo 2^32. -/
def localRow (ws : List Word) (r : Nat) : Int :=
  (dget ws D.LOCAL_ADDR : Int) + (r : Int) * signedOf 32 (dget ws D.LOCAL_STRIDE)
def remoteRow (ws : List Word) (r : Nat) : Nat :=
  wrapInt 32 ((dget ws D.REMOTE_ADDR : Int) + (r : Int) * signedOf 32 (dget ws D.REMOTE_STRIDE))

/-- Bytes at whose multiples a transfer is cut (R146). -/
def cutOf (ws : List Word) : Nat := if dget ws D.CMD = 3 then 1024 else 4096

/-- The pieces of a command, in issue order (R146); `addr` is the ring of an AM. -/
def cmdPieces (ws : List Word) (ring : Nat) : List Piece :=
  let cmd := dget ws D.CMD
  if zeroShape ws then [⟨0, dget ws D.REMOTE_ADDR, 0, 0⟩]
  else if cmd = 1 || cmd = 2 || cmd = 3 then
    (List.range (dget ws D.ROWS)).flatMap (fun r =>
      (rowCuts (cutOf ws) (remoteRow ws r) (dget ws D.ROW_BYTES)).map (fun x =>
        ⟨(localRow ws r).toNat + x.1, (remoteRow ws r + x.1) % 2 ^ 32, x.2, r * dget ws D.ROW_BYTES + x.1⟩))
  else if cmd = 0x10 || cmd = 0x11 then [⟨dget ws D.LOCAL_ADDR, ring, dget ws D.AM_LENGTH, 0⟩]
  else if cmd = 6 then [⟨0, dget ws D.SIGNAL_OPERAND, 0, 0⟩]
  else [⟨0, dget ws D.REMOTE_ADDR, 0, 0⟩]

/-- Whether a PUT produces more than one packet. -/
def manyPackets (ws : List Word) : Bool :=
  !zeroShape ws && (1 < dget ws D.ROWS || 1 < (rowCuts 4096 (dget ws D.REMOTE_ADDR) (dget ws D.ROW_BYTES)).length)

/-- The pairings that are allowed (R143, R183), with the FORMAT of an atomic (R90). -/
def pairingOk (ws : List Word) : Bool :=
  let cmd := dget ws D.CMD
  let flow := dflag ws D.FLOW_EN
  let rsig := dflag ws D.RSIG_EN
  if cmd = 0 then !flow
  else if cmd = 1 then !(flow && manyPackets ws)
  else if cmd = 2 then !rsig && !flow
  else if cmd = 3 then !flow
  else if cmd = 4 || cmd = 5 then !rsig && (atomicLen (cmd = 4) (dget ws D.FORMAT)).isSome
  else if cmd = 6 then !rsig
  else if cmd = 0x10 then !rsig && !(flow && dflag ws D.EXPECT_REPLY) && dget ws D.AM_LENGTH ≤ 4096
  else if cmd = 0x11 then !rsig && !flow && !dflag ws D.ACK_REQ && dget ws D.AM_LENGTH ≤ 4096
  else true

/-! ### Where a command's packets go -/

/-- The destination of a command's packets, and the gate they take. -/
structure Dest where
  opcode : Nat
  chip : Nat
  ep : Nat
  group : Nat
  /-- the rank that names the chip; none for a group, and for a target of the chip itself -/
  rank : Option Nat
  gate : Gate
deriving DecidableEq, Repr

/-- A destination, or the status of the check that fails. -/
inductive Aim where
  | bad (st : Nat)
  | at (d : Dest)
deriving DecidableEq, Repr

/-- The chip of a rank of a partition's job (R106). -/
def State.translate (s : State) (part rank : Nat) : Option Nat := s.translateE s.parity part rank

/-- Whether a send flow context is bound to this core port and this destination (R159). -/
def State.sendBound (s : State) (i part f rank ep : Nat) : Bool :=
  s.flag F.RK_FLOWCTX_VALID f && s.get F.RK_FLOWCTX_ROLE f = 1 && s.get F.RK_FLOWCTX_PARTITION f = part
    && s.get F.RK_FLOWCTX_ENDPOINT f = i && s.get F.RK_FLOWCTX_PEER_RANK f = rank && s.get F.RK_FLOWCTX_PEER_EP f = ep

/-- Checks 6 to 9 of Table 6-5, or 8 to 11 of Table 7-5, for a rank and an endpoint. -/
def State.aimAt (s : State) (i part opcode rank ep : Nat) (flow : Option Nat) : Aim :=
  match s.translate part rank with
  | none => .bad St.RANGE
  | some chip =>
    if (280 ≤ ep && ep < 286) || (chip = s.own && !s.present ep) then .bad St.RANGE
    else if !(match flow with | some f => s.sendBound i part f rank ep | none => true) then .bad St.RANGE
    else
      match s.routeOf (windowSource i) (mkPacket [(H.OPCODE, opcode), (H.EPOCH, s.parity), (H.DST_CHIP, chip)] [] []) with
      | .here => .at ⟨opcode, chip, ep, 0, some rank, .free⟩
      | .none => .bad St.RANGE
      | .shut => .bad St.UNREACHABLE
      | .out w => .at ⟨opcode, chip, ep, 0, some rank, .window w⟩

/-- A target of a multicast tree: an endpoint of this chip, or a rank and an endpoint beyond a fibre edge. -/
inductive McTarget where
  | here (ep : Nat)
  | beyond (rank ep : Nat)
deriving DecidableEq, Repr

/-- The targets of a multicast tree beyond a router's output that leads to logical port `l`, by SC_PORTBEYOND (Table 9-14):
how many, and one of them. -/
def State.mcBeyond (s : State) (e g l : Nat) : Nat × Option McTarget :=
  match s.node (256 + l) e g with
  | some n =>
    if n.kids.contains 1 then
      match s.beyond l e g with
      | some (c, r, ep) => (c, some (.beyond r ep))
      | none => (0, none)
    else (0, none)
  | none => (0, none)

/-- How many targets a multicast tree has from a router on, and one of them (R103, R149). -/
def State.mcTargets (s : State) (e g : Nat) : Nat → Nat → Nat × Option McTarget
  | 0, _ => (0, none)
  | fuel + 1, r =>
    match s.routerNode r e g with
    | none => (0, none)
    | some n =>
      n.kids.foldl (fun acc out =>
        let x := rxOf r
        let y := ryOf r
        let got : Nat × Option McTarget :=
          if out = 0 then s.mcTargets e g fuel (16 * (y + 1) + x)
          else if out = 1 then s.mcTargets e g fuel (16 * y + (x + 1))
          else if out = 2 then s.mcTargets e g fuel (16 * (y - 1) + x)
          else if out = 3 then s.mcTargets e g fuel (16 * y + (x - 1))
          else if out = 4 then (1, some (.here (coreAt x y)))
          else
            match portAt r out with
            | some pa => s.mcBeyond e g (s.get F.OP_PORTCTL_LOGICAL pa.1)
            | none => match sinkAt r out with
              | some st => (1, some (.here (256 + st)))
              | none => (0, none)
        (acc.1 + got.1, acc.2.or got.2)) (0, none)

/-- Check 6 for a PUT_MC: the group is valid for the partition, and the core is its root member (R214). A group of one
target is sent to it as PUT (R103, R149, R152). -/
def State.aimGroup (s : State) (i part g : Nat) : Aim :=
  let e := s.parity
  if !s.flag F.RK_GROUP_VALID g || s.get F.RK_GROUP_PARTITION g != part then .bad St.RANGE
  else
    match s.routerNode (routerOf i) e g with
    | none => .bad St.RANGE
    | some n =>
      if !n.root then .bad St.RANGE
      else match s.mcTargets e g 256 (routerOf i) with
        | (1, some (.here t)) => .at ⟨Op.PUT, s.own, t, 0, none, .free⟩
        | (1, some (.beyond r t)) => s.aimAt i part Op.PUT r t none
        | _ => .at ⟨Op.PUT_MC, s.own, 0, g, none, .room (roomKey (routerOf i) e 7 g .multicast)⟩

/-- Member deliveries that one packet of a command stands for (R158): a PUT_MC's, the members of its group. -/
def State.fanoutOf (s : State) (i : Nat) (ws : List Word) (d : Dest) : Nat :=
  if dget ws D.CMD = 3 && d.opcode = Op.PUT_MC then (s.mcTargets s.parity d.group 256 (routerOf i)).1 else 1

/-- The opcode a command sends (Table 6-2). -/
def cmdOpcode (cmd : Nat) : Nat :=
  if cmd = 1 then Op.PUT else if cmd = 2 then Op.GET_REQ else if cmd = 3 then Op.PUT_MC else if cmd = 4 then Op.ATOM_ADD
  else if cmd = 5 then Op.ATOM_SWAP else if cmd = 6 then Op.SIGNAL else if cmd = 0x10 then Op.AM else Op.AM_REPLY

/-- The flow context a command names. -/
def cmdFlow (ws : List Word) : Option Nat := if dflag ws D.FLOW_EN then some (dget ws D.FLOW) else none

/-- Copy of the channel registers that a command names. -/
def cmdChan (i : Nat) (ws : List Word) : Nat := chCopy i (dget ws D.CHANNEL)

/-- Where a command's packets go, or the status that stops it; `bind` asks for the check of its flow context. -/
def State.aim (s : State) (i part : Nat) (ws : List Word) (bind : Bool) : Aim :=
  let cmd := dget ws D.CMD
  let flow := if bind then cmdFlow ws else none
  if cmd = 3 then s.aimGroup i part (dget ws D.GROUP)
  else if cmd = 0x10 then
    s.aimAt i part Op.AM (s.get F.CP_AMCHAN_RANK (cmdChan i ws)) (s.get F.CP_AMCHAN_ENDPOINT (cmdChan i ws)) flow
  else s.aimAt i part (cmdOpcode cmd) (dget ws D.RANK) (dget ws D.ENDPOINT) flow

/-! ### Packets -/

/-- Bytes of local memory that a piece of a command reads and sends. -/
def readsLocal (cmd : Nat) : Bool := cmd = 1 || cmd = 3 || cmd = 0x10 || cmd = 0x11

/-- The header fields a command sets beside the common ones (Table 4-3). -/
def State.cmdFields (s : State) (c : Cmd) (x : Piece) (last : Bool) : List (HFld × Nat) :=
  let ws := c.words
  let cmd := dget ws D.CMD
  let sig := dflag ws D.RSIG_EN && last
  let handler := if cmd = 6 then dget ws D.TARGET_CTR else if cmd = 0x10 then dget ws D.AM_HANDLER
    else if cmd = 0x11 then dget ws D.REPLY_HANDLER else if sig then dget ws D.RSIG_CTR else 0
  let ack := cmd = 0x10 || ((cmd = 1 || cmd = 3 || cmd = 6) && (dflag ws D.ACK_REQ || dflag ws D.FLOW_EN))
  let flow := match cmdFlow ws with
    | some f => [(H.FLOW_VALID, 1), (H.FLOW, s.get F.RK_FLOWCTX_PEER_FLOW f), (H.SEQ, s.get F.RK_FLOWSEQ_SEQ f)]
    | none => if cmd = 2 then [(H.SEQ, x.len)] else []
  [(H.ACK_REQ, b2n ack), (H.SIGNAL, b2n sig), (H.RETRY, b2n (c.tries != 0)), (H.HANDLER, handler), (H.ADDRESS, x.addr),
    (H.TAG, if cmd = 0x11 then dget ws D.REPLY_TAG else cmdTag c),
    (H.FORMAT, if cmd = 4 || cmd = 5 then dget ws D.FORMAT else 0)] ++ flow

/-- The packet of one piece as its command names it (R105, R107, R146 to R151, R155, R159, R188). What it carries of the
core's SRAM, its EPOCH and DST_CHIP are filled in when it is written. -/
def State.cmdPacket (s : State) (c : Cmd) (part : Nat) (d : Dest) (x : Piece) (last : Bool) : Packet :=
  let cmd := dget c.words D.CMD
  let bytes := if readsLocal cmd then List.replicate x.len 0
    else if cmd = 4 || cmd = 5 then leBytes ((atomicLen (cmd = 4) (dget c.words D.FORMAT)).getD 0) (dget c.words D.OPERAND)
    else []
  mkPacket ([(H.OPCODE, d.opcode), (H.EPOCH, s.parity), (H.PARTITION, part), (H.JOB, s.get F.RK_PARTJOB_JOB part),
      (H.GROUP, d.group), (H.DST_CHIP, d.chip), (H.DST_EP, d.ep), (H.SRC_CHIP, s.own), (H.SRC_EP, c.core),
      (H.SRC_RANK, s.get F.RK_PARTJOB_OWN_RANK part)] ++ s.cmdFields c x last) bytes []

/-- How the packet of a piece is built when it is written. -/
def cmdForm (c : Cmd) (part : Nat) (d : Dest) (x : Piece) : Form :=
  { off := x.off, pos := c.pos, part := part, rank := d.rank, src := x.src
    len := if readsLocal (dget c.words D.CMD) then x.len else 0, coll := none }

/-- The ring that an AM names by its channel, or that an AM_REPLY echoes. -/
def State.cmdRing (s : State) (i : Nat) (ws : List Word) : Nat :=
  if dget ws D.CMD = 0x10 then s.get F.CP_AMCHAN_RING (cmdChan i ws) else dget ws D.RING

/-- Carries out a packet addressed to the core port's own endpoint (R145). -/
def State.carryOut (s : State) (i : Nat) (p : Packet) : State :=
  let op := pget p H.OPCODE
  if op = Op.AM_REPLY then s.takeAmReply i p
  else s.judge i p (fun s =>
    if op = Op.PUT then s.doPut i p
    else if op = Op.GET_REQ then s.doGet i p
    else if op = Op.ATOM_ADD then s.doAtomic true i p
    else if op = Op.ATOM_SWAP then s.doAtomic false i p
    else if op = Op.SIGNAL then s.doSignal i p
    else s.doAm i p)

/-- One packet of an issue: to the core port's own endpoint it is carried out at once (R145), else it joins those that wait
at the core port. -/
def State.issueOne (s : State) (c : Cmd) (d : Dest) (f : Form) (p : Packet) : State :=
  let n := s.outFifo c.core p
  if d.opcode != Op.PUT_MC && d.ep = c.core && d.chip = s.own then
    let w : OutWait := ⟨n, c.queue, d.gate, some f, false, p⟩
    match s.build w with
    | .ok b => (s.countReads c.core f.src f.len).carryOut c.core b.pkt
    | .bad st => s.dropForm w st
  else s.enqueue n c.queue d.gate f p

/-- Issues every packet of a command under a new SERIAL (R146, R147). -/
def State.issue (s : State) (c : Cmd) (part : Nat) (d : Dest) : State :=
  match s.takeSerial c.core c.queue with
  | (n, s) =>
    let c := { c with serial := n, fanout := s.fanoutOf c.core c.words d }
    let xs := cmdPieces c.words (s.cmdRing c.core c.words)
    let recs := (List.range xs.length).map (fun k =>
      let x := xs.getD k ⟨0, 0, 0, 0⟩
      (cmdForm c part d x, (⟨s.cmdPacket c part d x (k + 1 == xs.length), x.off, true, none⟩ : PktRec)))
    let s := s.setCmd { c with pkts := recs.map (fun r => r.2) }
    recs.foldl (fun s r => s.issueOne c d r.1 r.2.pkt) s

/-! ### The checks at command start -/

/-- Checks 4 and 5: every local byte within the SRAM, everything aligned, every local bank owned. -/
def State.localCheck (s : State) (i : Nat) (ws : List Word) : Option Nat :=
  let cmd := dget ws D.CMD
  let inside (a : Int) (n : Nat) : Bool := 0 ≤ a && a + (n : Int) ≤ 0x300000
  if cmd = 1 || cmd = 2 || cmd = 3 then
    let rb := dget ws D.ROW_BYTES
    let aligned := [dget ws D.LOCAL_ADDR, dget ws D.REMOTE_ADDR, dget ws D.LOCAL_STRIDE, dget ws D.REMOTE_STRIDE, rb].all
      (fun v => v % 8 = 0)
    if zeroShape ws then none
    else if !inside (localRow ws 0) rb || !inside (localRow ws (dget ws D.ROWS - 1)) rb || !aligned then some St.RANGE
    else if !(List.range (dget ws D.ROWS)).all (fun r => s.coreOwnsAll i (localRow ws r).toNat rb) then some St.NO_OWNER
    else none
  else if cmd = 4 || cmd = 5 then
    let a := dget ws D.LOCAL_ADDR
    if dget ws D.REMOTE_ADDR % Nat.max 1 ((atomicLen (cmd = 4) (dget ws D.FORMAT)).getD 1) != 0 then some St.RANGE
    else if !dflag ws D.STORE then none
    else if a % 8 != 0 || !inside a 8 then some St.RANGE
    else if !s.coreOwnsAll i a 8 then some St.NO_OWNER
    else none
  else if cmd = 0x10 || cmd = 0x11 then
    let a := dget ws D.LOCAL_ADDR
    let n := dget ws D.AM_LENGTH
    if n = 0 then none
    else if a % 8 != 0 || !inside a n then some St.RANGE
    else if !s.coreOwnsAll i a n then some St.NO_OWNER
    else none
  else none

/-- Flits of an AM. -/
def amFlits (ws : List Word) : Nat := 1 + ceilDiv (dget ws D.AM_LENGTH) 64

/-- Units of the reply reservation that an AM takes (R184). -/
def State.amUnits (s : State) (i : Nat) (ws : List Word) : Nat :=
  if dflag ws D.EXPECT_REPLY then 1 + s.get F.CP_AMCREDIT_REPLY_UNITS (cmdChan i ws) else 0

/-- Checks 6 and 7 of Table 7-5. -/
def State.channelCheck (s : State) (i : Nat) (ws : List Word) : Option Nat :=
  let n := cmdChan i ws
  if dget ws D.CMD != 0x10 then none
  else if !(s.flag F.CP_AMCHAN_VALID n && s.get F.CP_AMCHAN_ROLE n = 1) then some St.CHANNEL
  else if s.get F.CP_AMCREDIT_FLITS n < amFlits ws then some St.RANGE
  else if dflag ws D.EXPECT_REPLY
      && (s.get F.CP_AMCREDIT_REPLY_UNITS n = 0 || s.get F.CP_AMCREDIT_RHOLD n < s.amUnits i ws) then some St.RANGE
  else none

/-- Check 12 of Table 7-5. -/
def State.channelFull (s : State) (i : Nat) (ws : List Word) : Bool :=
  let n := cmdChan i ws
  dget ws D.CMD = 0x10 && (s.get F.CP_AMCREDIT_FLITS n < s.get F.CP_AMSTAT_OUT n + amFlits ws
    || (dflag ws D.EXPECT_REPLY && s.get F.CP_AMCREDIT_RHOLD n < s.get F.CP_AMSTAT_RUSED n + s.amUnits i ws))

/-- Takes the send flow context of a command: BUSY, SEQ advanced (R159). -/
def State.takeFlow (s : State) (c : Cmd) : Cmd × State :=
  match cmdFlow c.words with
  | some f => ({ c with flow := some f }, (s.put F.RK_FLOWSEQ_BUSY f 1).wrap F.RK_FLOWSEQ_SEQ f)
  | none => (c, s)

/-- Takes the channel credit and the reply reservation of an AM (R180, R184). -/
def State.takeCredit' (s : State) (c : Cmd) : Cmd × State :=
  if dget c.words D.CMD != 0x10 then (c, s)
  else
    let n := cmdChan c.core c.words
    let u := s.amUnits c.core c.words
    ({ c with outFlits := amFlits c.words, rused := u },
      (s.put F.CP_AMSTAT_OUT n (s.get F.CP_AMSTAT_OUT n + amFlits c.words)).put F.CP_AMSTAT_RUSED n (s.get F.CP_AMSTAT_RUSED n + u))

/-- A command whose local checks have passed: its route, its channel, then its packets (Tables 6-5 and 7-5). -/
def State.send (s : State) (c : Cmd) (part : Nat) : State :=
  match s.aim c.core part c.words true with
  | .bad st => s.complete c st
  | .at d =>
    if s.channelFull c.core c.words then (s.wrap F.CP_AMSTAT_FULLS (cmdChan c.core c.words)).complete c St.QUEUE_FULL
    else
      match s.takeFlow c with
      | (c, s) => match s.takeCredit' c with
        | (c, s) => s.issue c part d

/-- The partition of a core port that is not fenced (check 2; a core in no valid partition counts as fenced, R366). -/
def State.livePart (s : State) (i : Nat) : Option Nat :=
  (s.partOfCore i).bind (fun p => if (s.part p).fenced then none else some p)

/-- A command that moves data or messages starts: the checks of Table 6-5 or 7-5 in order (R144, R184). -/
def State.startTransfer (s : State) (c : Cmd) : State :=
  let ws := c.words
  if !wellDescribed ws || !pairingOk ws then s.complete c St.RANGE
  else
    match s.livePart c.core with
    | none => s.complete c St.FENCED
    | some part =>
      if dget ws D.CMD = 0 || (zeroShape ws && !dflag ws D.RSIG_EN && !dflag ws D.ACK_REQ) then s.complete c St.OK
      else
        match (s.localCheck c.core ws).or (s.channelCheck c.core ws) with
        | some st => s.complete c st
        | none => s.send c part

/-- A queue's command row: where HEAD names a command of a code that `takes`, and every start condition holds, HEAD
advances and the command starts by `run`. -/
def State.startHead (s : State) (i q : Nat) (takes : Nat → Bool) (run : State → Cmd → State) : State :=
  if !s.queueOpen i q then s
  else if !s.arraysOwned i q then s.put F.CP_QSTAT_BASE_ERR (qCopy i q) 1
  else
    let pos := s.get F.CP_QSTAT_HEAD (qCopy i q)
    let ws := s.descriptor i q pos
    if !takes (dget ws D.CMD) || s.headWaits i ws || s.headFenced i q ws || s.headFlowBusy ws then s
    else
      match s.fetchCmd i q pos with
      | (c, s) => run (s.put F.CP_QSTAT_HEAD (qCopy i q) ((pos + 1) % 512)) c

/-- The row of a transfer command of code `cmd`. -/
def State.transferRow (s : State) (i q cmd : Nat) : State :=
  (s.startHead i q (fun k => k == cmd) State.startTransfer).flow

/-- NOP, and the reserved codes, which complete with RANGE (Table 6-2). -/
def execNop (i : Fin 256) (q : Fin 16) (s : State) : Host.Outcome State Fault Refusal :=
  live s (fun s => (s.startHead i.val q.val (fun k => k == 0 || (bodyFields k).isNone) State.startTransfer).flow)

def execPut (i : Fin 256) (q : Fin 16) (s : State) : Host.Outcome State Fault Refusal :=
  live s (fun s => s.transferRow i.val q.val 1)

def execGet (i : Fin 256) (q : Fin 16) (s : State) : Host.Outcome State Fault Refusal :=
  live s (fun s => s.transferRow i.val q.val 2)

def execPutMc (i : Fin 256) (q : Fin 16) (s : State) : Host.Outcome State Fault Refusal :=
  live s (fun s => s.transferRow i.val q.val 3)

def execAtomAdd (i : Fin 256) (q : Fin 16) (s : State) : Host.Outcome State Fault Refusal :=
  live s (fun s => s.transferRow i.val q.val 4)

def execAtomSwap (i : Fin 256) (q : Fin 16) (s : State) : Host.Outcome State Fault Refusal :=
  live s (fun s => s.transferRow i.val q.val 5)

def execSignal (i : Fin 256) (q : Fin 16) (s : State) : Host.Outcome State Fault Refusal :=
  live s (fun s => s.transferRow i.val q.val 6)

def execAm (i : Fin 256) (q : Fin 16) (s : State) : Host.Outcome State Fault Refusal :=
  live s (fun s => s.transferRow i.val q.val 0x10)

def execAmReply (i : Fin 256) (q : Fin 16) (s : State) : Host.Outcome State Fault Refusal :=
  live s (fun s => s.transferRow i.val q.val 0x11)

/-! ### Timeout and retry (R163, R164) -/

/-- Whether a command may be issued again. -/
def retryable (ws : List Word) : Bool :=
  let cmd := dget ws D.CMD
  cmd = 2 || ((cmd = 1 || cmd = 3) && !dflag ws D.RSIG_EN) || dflag ws D.FLOW_EN

/-- Issues a command again: translated and routed afresh (R162), the answers so far cleared. A SERIAL with answers
outstanding is skipped for one further timeout (R147). -/
def State.reissue (s : State) (c : Cmd) : State :=
  let s := s.sat F.CP_ERRCNT_RETRIES c.core
  let s := { s with stale := s.stale ++ [(qCopy c.core c.queue, c.serial, s.now + s.timeoutTicks c.core c.queue)] }
  let c := { c with tries := c.tries + 1, status := 0, result := 0, origRefused := false, mcFailed := 0 }
  match s.partOfCore c.core with
  | none => s.complete { c with pkts := c.pkts.map (fun k => { k with sent := false, answer := none }) } St.RANGE
  | some part =>
    match s.aim c.core part c.words false with
    | .bad st => s.complete { c with pkts := c.pkts.map (fun k => { k with sent := false, answer := none }) } st
    | .at d => s.issue c part d

/-- REQUEST_TIMEOUT: the timer of a command with answers outstanding expires (R163). -/
def execRequestTimeout (i : Fin 256) (q : Fin 16) (pos : BitVec 9) (s : State) : Host.Outcome State Fault Refusal :=
  live s (fun s =>
    match s.cmds.find? (fun c => c.core == i.val && c.queue == q.val && c.pos == pos.toNat && !c.done && c.coll.isNone) with
    | none => s
    | some c =>
      if !s.coreRuns i.val || !expectsAnswers c.words || s.outWait.any (fun w => waitsFor c w) || allAnswered c then s
      else if retryable c.words && c.tries < s.get F.CP_QCTL_RETRIES (qCopy i.val q.val) then (s.reissue c).flow
      else
        let s := s.complete c St.TIMEOUT
        (if dget c.words D.CMD = 0x10 then s.showRing i.val (s.get F.CP_AMCHAN_REPLY_RING (cmdChan i.val c.words)) else s).flow)

end Sys2Proof.Machine
end

