-- ==== Sys2Proof/Machine/Writes.lean ====
section
/-! DEFINITION. What a core's writes to its own CP_ block do: queues, event counters, handover requests, the ring table
and ring actions, and the class rules of the other registers (R7 to R12, R19, R139, R153, R165 to R171, R201, R205). -/

namespace Sys2Proof.Machine

def evRingConfig : Event := ⟨0x101, 1⟩

/-- A core reaches its block: it is present, its clock runs and CORE_RESET is released. -/
def State.coreWrites (s : State) (i : Nat) : Bool := s.present i && s.coreRuns i

/-- The bits of a field in a word written. -/
def written (v : Word) (f : Fld) : Nat := fieldGet v f.lo f.width

/-- A refused write by a core to its block (R8, R12, R19). -/
def State.refuseWrite (s : State) (i off : Nat) : State :=
  (s.put F.CP_ERRAUX_REFUSED i 1).put F.CP_ERRAUX_REFUSED_OFFSET i off

/-! ### Queues -/

/-- CP_QTAIL (R139). -/
def State.writeTail (s : State) (i q : Nat) (v : Word) : State :=
  let n := qCopy i q
  let new := written v F.CP_QTAIL_TAIL
  let r := s.get F.CP_QSTAT_RETIRE n
  let d := (new + 512 - r) % 512
  if 256 < d then (s.put F.CP_QSTAT_FULL n 1).put F.CP_QSTAT_SUBMIT n St.QUEUE_FULL
  else if d < (s.get F.CP_QTAIL_TAIL n + 512 - r) % 512 then s.put F.CP_QSTAT_SUBMIT n St.RANGE
  else (s.put F.CP_QTAIL_TAIL n new).put F.CP_QSTAT_SUBMIT n St.OK

/-- SKIP: the command at HEAD, which has not started, completes with ABORTED (R165); also in a queue whose arrays lie in banks
the core port does not own (DESIGN CHOICE, log entry 57). -/
def State.skipHead (s : State) (i q : Nat) : State :=
  let n := qCopy i q
  let pos := s.get F.CP_QSTAT_HEAD n
  if pos = s.get F.CP_QTAIL_TAIL n then s
  else
    match s.fetchCmd i q pos with
    | (c, s) => (s.put F.CP_QSTAT_HEAD n ((pos + 1) % 512)).complete c St.ABORTED

/-- CP_QBASE (R166). -/
def State.writeBase (s : State) (i q : Nat) (v : Word) : State :=
  let n := qCopy i q
  let d := written v F.CP_QBASE_DESC_BASE
  let c := written v F.CP_QBASE_COMP_BASE
  if !s.flag F.CP_QCTL_ENABLE n && s.get F.CP_QSTAT_RETIRE n = s.get F.CP_QTAIL_TAIL n && d % 0x4000 = 0 && c % 0x2000 = 0
      && d + 0x4000 ≤ 0x300000 && c + 0x2000 ≤ 0x300000 then
    (s.put F.CP_QBASE_DESC_BASE n d).put F.CP_QBASE_COMP_BASE n c
  else s.put F.CP_QSTAT_BASE_ERR n 1

/-- CP_QCTL: its fields take effect together, then SKIP acts; a reserved TIMEOUT_US refuses the whole write (R8, R10). -/
def State.writeQctl (s : State) (i q off : Nat) (v : Word) : State :=
  let t := written v F.CP_QCTL_TIMEOUT_US
  if t = 0 || 4000000 < t then s.refuseWrite i off
  else
    let n := qCopy i q
    let s := ((s.put F.CP_QCTL_ENABLE n (written v F.CP_QCTL_ENABLE)).put F.CP_QCTL_RETRIES n (written v F.CP_QCTL_RETRIES)).put
      F.CP_QCTL_TIMEOUT_US n t
    if written v F.CP_QCTL_SKIP = 1 then s.skipHead i q else s

def execCpQtailWrite (i : Fin 256) (q : Fin 16) (v : Word) (s : State) : Host.Outcome State Fault Refusal :=
  live s (fun s => if s.coreWrites i.val then s.writeTail i.val q.val v else s)

def execSkip (i : Fin 256) (q : Fin 16) (s : State) : Host.Outcome State Fault Refusal :=
  live s (fun s => if s.coreWrites i.val then (s.skipHead i.val q.val).flow else s)

def execCpQbaseWrite (i : Fin 256) (q : Fin 16) (v : Word) (s : State) : Host.Outcome State Fault Refusal :=
  live s (fun s => if s.coreWrites i.val then s.writeBase i.val q.val v else s)

/-- CP_EVCNT: the value written, then the increments that come with the write (R153). -/
def execCpEvcntWrite (i : Fin 256) (k : Fin 64) (v : Word) (inc : BitVec 32) (s : State) : Host.Outcome State Fault Refusal :=
  live s (fun s =>
    if s.coreWrites i.val then
      s.put F.CP_EVCNT_VALUE (evCopy i.val k.val) ((written v F.CP_EVCNT_VALUE + inc.toNat) % 2 ^ 32)
    else s)

/-! ### Handover requests -/

/-- The request that CP_HANDOVER spells. -/
def handoverOf (v : Word) : Handover :=
  { mem := written v F.CP_HANDOVER_BANK_EP, bank := written v F.CP_HANDOVER_BANK, shared := written v F.CP_HANDOVER_NEW_SHARED
    net := written v F.CP_HANDOVER_NEW_NET, group := written v F.CP_HANDOVER_NEW_GROUP, part := written v F.CP_HANDOVER_NEW_PART
    ep := written v F.CP_HANDOVER_NEW_EP }

/-- CP_HANDOVER: the request is decided at once under Table 8-4 and RESULT shows it (R201). -/
def State.writeHandover (s : State) (i : Nat) (v : Word) : State :=
  if !s.flag F.CP_HANDOVER_ANSWERED i then s
  else
    let s := [F.CP_HANDOVER_BANK_EP, F.CP_HANDOVER_BANK, F.CP_HANDOVER_NEW_SHARED, F.CP_HANDOVER_NEW_NET,
      F.CP_HANDOVER_NEW_GROUP, F.CP_HANDOVER_NEW_PART, F.CP_HANDOVER_NEW_EP].foldl (fun s f => s.put f i (written v f)) s
    match s.coreHandover i (handoverOf v) with
    | (st, s) => s.put F.CP_HANDOVER_RESULT i st

def execCpHandoverWrite (i : Fin 256) (v : Word) (s : State) : Host.Outcome State Fault Refusal :=
  live s (fun s => if s.coreWrites i.val then (s.writeHandover i.val v).loadHandovers else s)

/-- Step 7 of Table 8-5 for a bank that has drained. -/
def execHandoverDrainDone (ep : BitVec 9) (bank : BitVec 8) (s : State) : Host.Outcome State Fault Refusal :=
  live s (fun s => if bank.toNat < bankCount ep.toNat then (s.finishHandover ep.toNat bank.toNat).loadHandovers else s)

/-- The lease of a PENDING bank ends (R205): it is measured in ticks, which stop with CLK_MG (R204, R382). -/
def execHandoverLeaseExpiry (ep : BitVec 9) (bank : BitVec 8) (s : State) : Host.Outcome State Fault Refusal :=
  live s (fun s =>
    if bank.toNat < bankCount ep.toNat && !s.mgLost then s.breakHandover ep.toNat bank.toNat 1 else s)

/-! ### Rings -/

/-- Whether a ring of core `i` is enabled. -/
def State.anyRing (s : State) (i : Nat) : Bool := s.rings.any (fun e => e.1 / 4096 == i)

/-- CP_RINGTAB (R171). -/
def State.writeRingtab (s : State) (i : Nat) (v : Word) : State :=
  let base := written v F.CP_RINGTAB_BASE
  if s.anyRing i || (written v F.CP_RINGTAB_VALID = 1 && (base % 0x20000 != 0 || 0x300000 < base + 0x20000)) then
    s.put F.CP_RINGTAB_TAB_ERR i 1
  else
    let s := if written v F.CP_RINGTAB_TAB_ERR = 1 then s.put F.CP_RINGTAB_TAB_ERR i 0 else s
    (s.put F.CP_RINGTAB_BASE i base).put F.CP_RINGTAB_VALID i (written v F.CP_RINGTAB_VALID)

def execCpRingtabWrite (i : Fin 256) (v : Word) (s : State) : Host.Outcome State Fault Refusal :=
  live s (fun s => if s.coreWrites i.val then s.writeRingtab i.val v else s)

/-- A refused enable: counted and logged with word 0 of the entry (R168). -/
def State.refuseRing (s : State) (i k word : Nat) : State := (s.sat F.CP_RINGERR_CFGERR i).event evRingConfig 0 i k word

/-- Enables a ring, or refuses to (R168). -/
def State.enableRing (s : State) (i k : Nat) : State :=
  if !s.flag F.CP_RINGTAB_VALID i then s.refuseRing i k 0
  else if (lookup s.rings (ringKey i k)).isSome then (s.refuseRing i k (Config.ringWord s.freeCtr).toNat).drawn
  else
    let a := s.ringEntry i k
    let w : Word := BitVec.ofNat 64 (s.readNat i a 8)
    let s := s.countReads i a 8
    let base := fieldGet w 0 22
    let lg := fieldGet w 24 5
    let size := 2 ^ lg
    if lg < 8 || 20 < lg || base % size != 0 || 0x300000 < base + size || !s.coreOwnsAll i base size
        || !s.coreOwnsAll i (s.get F.CP_RINGTAB_BASE i) 0x20000 then
      let w1 : Word := BitVec.ofNat 64 (s.readNat i (a + 8) 8)
      (s.refuseRing i k w.toNat).writeBytes i (a + 8) (leBytes 8 (w1 ||| (1#64 <<< 23)).toNat)
    else
      let r : Ring := ⟨base, size, fieldGet w 32 1 = 1, fieldGet w 33 6, 0, 0, 0⟩
      ({ s with rings := upsert s.rings (ringKey i k) r } : State).showRing i k

/-- Disables a ring: what it holds is answered with RANGE or dropped, and words 1 and 2 keep their values with ENABLED
clear (R169). -/
def State.disableRing (s : State) (i k : Nat) : State :=
  match lookup s.rings (ringKey i k) with
  | none => s
  | some r =>
    let held := s.holds.filter (fun h => h.core == i && h.ring == k)
    let s := { s with rings := remove s.rings (ringKey i k) }
    let s := held.foldl (fun s h =>
      let s := s.freeHold h
      if h.reply then (match s.cmdOf i (pget h.pkt H.TAG) with | some c => s.dropReply c | none => s)
      else (s.cacheReply h.pkt Op.NACK St.RANGE 0).respond i h.pkt Op.NACK St.RANGE) s
    s.writeBytes i (s.ringEntry i k + 8) (leBytes 8 (ringWord1 r false false false))

/-- Returns ring space and writes the held messages that now fit, or counts a bad advance (R170, R175). -/
def State.advanceRing (s : State) (i k pos : Nat) : State :=
  match lookup s.rings (ringKey i k) with
  | none => s.sat F.CP_RINGERR_BADADV i
  | some r =>
    if pos % 64 != 0 || 2 * r.size ≤ pos || r.used < (r.writePos + 2 * r.size - pos) % (2 * r.size) then
      s.sat F.CP_RINGERR_BADADV i
    else
      let s := { s with rings := upsert s.rings (ringKey i k) { r with readPos := pos } }
      (s.drainRing i k s.holds.length).showRing i k

/-- CP_RINGCTL; a reserved ACTION is refused (R8). -/
def State.writeRingctl (s : State) (i off : Nat) (v : Word) : State :=
  let k := written v F.CP_RINGCTL_RING
  match written v F.CP_RINGCTL_ACTION with
  | 0 => s.advanceRing i k (written v F.CP_RINGCTL_READ_POS)
  | 1 => s.enableRing i k
  | 2 => s.disableRing i k
  | _ => s.refuseWrite i off

def execRingAdvance (i : Fin 256) (ring : BitVec 12) (pos : BitVec 21) (s : State) : Host.Outcome State Fault Refusal :=
  live s (fun s => if s.coreWrites i.val then (s.advanceRing i.val ring.toNat pos.toNat).flow else s)

def execRingEnable (i : Fin 256) (ring : BitVec 12) (s : State) : Host.Outcome State Fault Refusal :=
  live s (fun s => if s.coreWrites i.val then s.enableRing i.val ring.toNat else s)

def execRingDisable (i : Fin 256) (ring : BitVec 12) (s : State) : Host.Outcome State Fault Refusal :=
  live s (fun s => if s.coreWrites i.val then (s.disableRing i.val ring.toNat).flow else s)

/-! ### Any register of the block -/

/-- The register and its number at an offset of a window, or of a core's block. -/
def regAt (window off : Nat) : Option (Reg × Nat) :=
  Reg.all.findSome? (fun r =>
    let f := r.info
    if f.window = window && f.offset ≤ off && (off - f.offset) % f.stride = 0 && (off - f.offset) / f.stride < f.count then
      some (r, (off - f.offset) / f.stride)
    else none)

/-- A core's write of a whole word at an offset of its block: the registers with an action of their own act, fields of
class S and E are refused, W1C bits clear, RO fields ignore it (R7 to R12, R19, Table 0-3). -/
def State.coreWrite (s : State) (i off : Nat) (v : Word) : State :=
  match regAt 0 off with
  | none => s
  | some (r, n) =>
    if r = .CP_QCTL then s.writeQctl i n off v
    else if r = .CP_QBASE then s.writeBase i n v
    else if r = .CP_QTAIL then s.writeTail i n v
    else if r = .CP_EVCNT then s.put F.CP_EVCNT_VALUE (evCopy i n) (written v F.CP_EVCNT_VALUE)
    else if r = .CP_RINGTAB then s.writeRingtab i v
    else if r = .CP_RINGCTL then s.writeRingctl i off v
    else if r = .CP_HANDOVER then s.writeHandover i v
    else if r.info.cfg != 0 then s.refuseWrite i off
    else
      let c := coreCopy r i n
      s.setWord r c (s.word r c &&& ~~~(v &&& r.info.w1c))

end Sys2Proof.Machine
end

