-- ==== Sys2Proof/Machine/Colls.lean ====
section
/-! DEFINITION. Collective commands at a member: the checks of Table 10-7, what a member sends and takes, RED_DOWN at a
member and at a stack sink, the collective's timer, and what QUIESCE and FENCE do to it (R239 to R249, R261, R262, R268 to
R270, R401). -/

namespace Sys2Proof.Machine

def evSinkRefused : Event := ⟨0x201, 1⟩

/-! ### The checks at the start (Table 10-7) -/

/-- A collective that moves data through the trees. -/
def isData (cmd : Nat) : Bool := CC.REDUCE ≤ cmd && cmd ≤ CC.ALL_GATHER

/-- Checks 3 and 4: the group is the partition's, and the core port a member that may issue the command. -/
def State.memberCheck (s : State) (i part : Nat) (ws : List Word) : Bool :=
  let cmd := dget ws D.CMD
  let g := dget ws C.GROUP
  let e := s.parity
  s.flag F.RK_GROUP_VALID g && s.get F.RK_GROUP_PARTITION g == part && s.isMember e g i
    && (!isData cmd || (match s.routerNode (routerOf i) e g with
      | some n => n.kids.contains 4
      | none => false))
    && (!(cmd = CC.REDUCE || cmd = CC.BROADCAST) || s.flag F.RK_GROUP_ROOT_MEMBER g)

/-- FORMAT and OP of a scalar reduction (Table 10-6). -/
def scalarForm (fmt op : Nat) : Bool :=
  (fmt = 0 || fmt = 1 || fmt = 2) && (1 ≤ op && op ≤ 3 || ((op = 4 || op = 5) && fmt != 2))

/-- Check 5. -/
def State.shapeCheck (s : State) (ws : List Word) : Bool :=
  let cmd := dget ws D.CMD
  let g := dget ws C.GROUP
  if cmd = CC.SCALAR_REDUCE then scalarForm (dget ws C.FORMAT) (dget ws C.OP)
  else if isData cmd then
    ceilDiv (dget ws C.COUNT) (chunkOf (s.formats s.parity g)) ≤ 65536
      && (s.get F.RK_GROUP_FMT_MEMBER g != 7 || dget ws C.COUNT % 256 = 0)
      && (!(cmd = CC.REDUCE_SCATTER || cmd = CC.ALL_GATHER)
        || (dget ws C.MEMBERS = s.get F.RK_GROUP_MEMBERS g && dget ws C.POSITION < dget ws C.MEMBERS))
  else true

/-- The progress of a collective when it starts. -/
def State.newRun (s : State) (ws : List Word) : CollRun :=
  let g := dget ws C.GROUP
  { group := g, seq := dget ws C.SEQ, parity := s.parity
    chunks := if isData (dget ws D.CMD) then Nat.max 1 (ceilDiv (dget ws C.COUNT) (chunkOf (s.formats s.parity g))) else 0
    up := 0, down := 0, failed := 0, first := 0, stats := [], arrived := false, invited := 0, netHeld := [] }

/-- The source buffer: address and bytes; no bytes at a member that reads none (R239, Table 10-8). -/
def State.srcBuffer (s : State) (c : Cmd) (r : CollRun) : Nat × Nat :=
  let cmd := dget c.words D.CMD
  let a := dget c.words C.SRC_ADDR
  let cb := s.chunkBytes r.parity r.group
  let reads := isData cmd && (cmd != CC.BROADCAST || s.isRootMember c.core r.parity r.group)
  if !reads then (a, 0)
  else
    let ends := (List.range r.chunks).filterMap (fun k => (chunkSource c cb k).map (fun x => x + s.chunkLen c r k - a))
    (a, ends.foldl Nat.max 0)

/-- The destination buffer. -/
def State.dstBuffer (s : State) (c : Cmd) (r : CollRun) : Nat × Nat :=
  let a := dget c.words C.DST_ADDR
  (a, ((s.destParts c r).map (fun x => x.1 + x.2 - a)).foldl Nat.max 0)

/-- Check 6: buffers within the SRAM at multiples of 8, and no overlap but the one R246 allows. -/
def bufferCheck (cmd : Nat) (src dst : Nat × Nat) : Bool :=
  let fits (b : Nat × Nat) : Bool := b.2 = 0 || (b.1 % 8 = 0 && b.1 + b.2 ≤ 0x300000)
  let apart := src.2 = 0 || dst.2 = 0 || src.1 + src.2 ≤ dst.1 || dst.1 + dst.2 ≤ src.1
  fits src && fits dst && (apart || ((cmd = CC.REDUCE || cmd = CC.ALL_REDUCE) && src.1 = dst.1))

/-- Check 7: a destination bank is OWNED by the core port with SHARED 1, or NET_HELD for the group. -/
def State.destOwned (s : State) (i part g b : Nat) : Bool :=
  s.bank F.CP_BANKOWN_STATE i b = 1 && s.bank F.CP_BANKOWN_OWNER_EP i b = i && s.bank F.CP_BANKOWN_OWNER_PART i b = part
    && (if s.bank F.CP_BANKOWN_NET_HELD i b = 1 then s.bank F.CP_BANKOWN_GROUP i b = g
        else s.bank F.CP_BANKOWN_SHARED i b = 1)

/-- Check 10: every port with a tree edge of the group here is ADMITTED. -/
def State.treeOpen (s : State) (g : Nat) : Bool :=
  (List.range 6).all (fun l => (s.portEntry s.parity l g).isNone || s.admitted (s.physOf l))

/-- Checks 1 to 8 and 10 of Table 10-7 that fail, the first of them (R239, R240). -/
def State.collCheck (s : State) (c : Cmd) (r : CollRun) : Option Nat :=
  let ws := c.words
  let cmd := dget ws D.CMD
  if !wellDescribed ws || dflag ws D.RSIG_EN || dflag ws D.ACK_REQ || dflag ws D.FLOW_EN then some St.RANGE
  else
    match s.livePart c.core with
    | none => some St.FENCED
    | some part =>
      let src := s.srcBuffer c r
      let dst := s.dstBuffer c r
      if !s.memberCheck c.core part ws || !s.shapeCheck ws || !bufferCheck cmd src dst then some St.RANGE
      else if !s.coreOwnsAll c.core src.1 src.2 (some r.group)
          || !(banksOf c.core dst.1 dst.2).all (fun b => s.destOwned c.core part r.group b) then some St.NO_OWNER
      else if s.abortRecorded r.group r.seq then some St.ABORTED
      else if s.get F.RK_GROUP_MEMBERS r.group != 1 && isData cmd && !s.treeOpen r.group then some St.UNREACHABLE
      else none

/-! ### Starting -/

/-- Copies bytes within an SRAM bit for bit, words with bad check bits included. -/
def State.copyBytes (s : State) (i src dst n : Nat) : State :=
  let s := s.countReads i src n
  let bytes := s.readBytes i src n
  let bad := (List.range (ceilDiv n 8)).filter (fun k => s.isBad i (src + 8 * k) (Nat.min 8 (n - 8 * k)))
  let s := s.writeBytes i dst bytes
  { s with badWords := bad.foldl (fun l k => insertNat l ((memBase i + dst) / 8 + k)) s.badWords }

/-- The operand of a scalar reduction in its format (Table 10-6). -/
def scalarValue (ws : List Word) : Nat :=
  if dget ws C.FORMAT = 1 then dget ws C.OPERAND else dget ws C.OPERAND % 2 ^ 32

/-- A group of one member moves nothing through the trees (R261). -/
def State.localColl (s : State) (c : Cmd) (r : CollRun) : State :=
  let ws := c.words
  let cmd := dget ws D.CMD
  if cmd = CC.SCALAR_REDUCE then
    let s := if dflag ws C.STORE then s.writeBytes c.core (dget ws C.DST_ADDR) (leBytes 8 (dget ws C.OPERAND)) else s
    s.complete { c with result := BitVec.ofNat 64 (dget ws C.OPERAND) } St.OK
  else if isData cmd && cmd != CC.BROADCAST then
    (s.copyBytes c.core (dget ws C.SRC_ADDR) (dget ws C.DST_ADDR)
      (sizeOf' (s.get F.RK_GROUP_FMT_MEMBER r.group) (dget ws C.COUNT))).complete c St.OK
  else s.complete c St.OK

/-- A member's arrival at its cluster node, through its Plumb out FIFO. -/
def State.arriveAt (s : State) (c : Cmd) (r : CollRun) : State :=
  let ws := c.words
  let part := s.getE r.parity F.RK_GROUP_PARTITION r.group
  let m := if dget ws D.CMD = CC.SCALAR_REDUCE then
      mkPlumb Op.SRED_UP r.group r.seq r.parity 0 part (dget ws C.FORMAT) (dget ws C.OP) (scalarValue ws)
    else mkPlumb Op.BAR_ARRIVE r.group r.seq r.parity 0 part
  s.emit (coreFifo c.core 4) .free (plumbStage m) c.queue

/-- A collective starts (R240 to R243). -/
def State.startColl (s : State) (c : Cmd) : State :=
  let cmd := dget c.words D.CMD
  let r := s.newRun c.words
  match s.collCheck c r with
  | some st => (if st = St.ABORTED then s.leaveBuffers c r else s).complete c st
  | none =>
    let s := (s.put F.PL_GROUPSTATE_SEQ r.group r.seq).forgetAborts r.group r.seq
    if s.get F.RK_GROUP_MEMBERS r.group = 1 then s.localColl c r
    else if !isData cmd then
      let r := { r with arrived := true }
      let c := { c with coll := some r }
      (s.setCmd c).arriveAt c r
    else
      let sends := cmd != CC.BROADCAST || s.isRootMember c.core r.parity r.group
      let dst := s.dstBuffer c r
      let held := (banksOf c.core dst.1 dst.2).filter (fun b => s.bank F.CP_BANKOWN_NET_HELD c.core b = 1)
      (s.setCmd { c with coll := some { r with up := if sends then 0 else r.chunks, netHeld := held } }).feed c.core

/-- The row of a collective of code `cmd`. -/
def State.collRow (s : State) (i q cmd : Nat) : State :=
  (s.startHead i q (fun k => k == cmd) State.startColl).flow

def execBarrier (i : Fin 256) (q : Fin 16) (s : State) : Host.Outcome State Fault Refusal :=
  live s (fun s => s.collRow i.val q.val CC.BARRIER)

def execScalarReduce (i : Fin 256) (q : Fin 16) (s : State) : Host.Outcome State Fault Refusal :=
  live s (fun s => s.collRow i.val q.val CC.SCALAR_REDUCE)

def execReduce (i : Fin 256) (q : Fin 16) (s : State) : Host.Outcome State Fault Refusal :=
  live s (fun s => s.collRow i.val q.val CC.REDUCE)

def execAllReduce (i : Fin 256) (q : Fin 16) (s : State) : Host.Outcome State Fault Refusal :=
  live s (fun s => s.collRow i.val q.val CC.ALL_REDUCE)

def execBroadcast (i : Fin 256) (q : Fin 16) (s : State) : Host.Outcome State Fault Refusal :=
  live s (fun s => s.collRow i.val q.val CC.BROADCAST)

def execReduceScatter (i : Fin 256) (q : Fin 16) (s : State) : Host.Outcome State Fault Refusal :=
  live s (fun s => s.collRow i.val q.val CC.REDUCE_SCATTER)

def execAllGather (i : Fin 256) (q : Fin 16) (s : State) : Host.Outcome State Fault Refusal :=
  live s (fun s => s.collRow i.val q.val CC.ALL_GATHER)

/-- HOLD of a core (R242): a collective is in progress at one of its port's queues. -/
def State.hold (s : State) (i : Nat) : Bool := s.cmds.any (fun c => c.core == i && !c.done && c.coll.isSome)

/-! ### Results at a member (R245, R248, R401) -/

/-- Notes chunks that never came. -/
def State.missChunks (s : State) (c : Cmd) (r : CollRun) (k : Nat) : CollRun :=
  match ((List.range k).drop r.down).filter (fun j => s.writesChunk c r j) with
  | [] => r
  | j :: t => { r with failed := r.failed + 1 + t.length, first := if r.failed = 0 then s.chunkOffset c r j else r.first }

/-- Checks 3 to 6 of Table 4-7 on a RED_DOWN at a member. -/
def State.downCheck (s : State) (i : Nat) (p : Packet) : Option Nat :=
  if !s.present i then some St.RANGE
  else
    match s.partCheck i p with
    | some st => some st
    | none => if 8 ≤ pget p H.FORMAT || 6 ≤ pget p H.OP || pflag p H.FLOW_VALID then some St.RANGE else none

/-- Whether a result may be written to a bank of its member: check 10, and the bank has neither been handed over nor taken
back from the network since the collective started (R207, R246). -/
def State.resultOwned (s : State) (i : Nat) (r : CollRun) (p : Packet) (b : Nat) : Bool :=
  s.netOwns p i b && s.destOwned i (pget p H.PARTITION) r.group b
    && (!r.netHeld.contains b || s.bank F.CP_BANKOWN_NET_HELD i b = 1)

/-- A member writes a chunk, under checks 7, 10 and 11 at the bytes it is written at (R97, R401). -/
def State.writeChunk (s : State) (i : Nat) (run : CollRun) (a : Nat) (p : Packet) : Option Nat × State :=
  let n := pget p H.LENGTH
  if a % 8 != 0 || 0x300000 < a + n || 4096 < n || n % Nat.max 1 (unitBytes (pget p H.FORMAT)) != 0 then (some St.RANGE, s)
  else if !(banksOf i a n).all (fun b => s.resultOwned i run p b) then (some St.NO_OWNER, s.countNoOwner i)
  else (if hasPoison p then some St.POISON else none, s.writePayload i a (payload p) (flitPoison p))

/-- A RED_DOWN is taken for the collective it belongs to. -/
def State.takeChunk (s : State) (i : Nat) (c : Cmd) (r : CollRun) (p : Packet) : State :=
  let k := s.chunkIndex r.parity r.group (pget p H.ADDRESS)
  let r := s.missChunks c r k
  let off := if dget c.words D.CMD = CC.REDUCE_SCATTER then s.chunkOffset c r k else pget p H.ADDRESS
  let writes := s.writesChunk c r k && pget p H.LENGTH != 0
  let (st, s) := match s.downCheck i p with
    | some st => (some st, s)
    | none => if writes then s.writeChunk i r (dget c.words C.DST_ADDR + off) p else (none, s)
  let r := match st with
    | some st => if s.writesChunk c r k then r.fail off st else { r with stats := r.stats ++ [st] }
    | none => r
  let r := { r with down := Nat.max r.down (k + 1) }
  if pflag p H.LAST_CHUNK then s.finishColl c r St.OK else s.setCmd { c with coll := some r }

/-- A RED_DOWN that passed R86 and R87 at a core port: its collective takes it, or it is stray (R401), as every one is at a
port whose fabric side alone acts (R248, R376, R380). -/
def State.redDown (s : State) (i : Nat) (p : Packet) : State :=
  match s.cmds.find? (fun c => c.core == i && isColl c (pget p H.GROUP) (pget p H.SEQ) && isData (dget c.words D.CMD)) with
  | none => s.stray i p
  | some c => match c.coll with
    | some r => if s.answersStray i then s.stray i p else s.takeChunk i c r p
    | none => s

/-- A RED_DOWN at an endpoint other than a stack port: the members take it, an optical port and the host bridge and Alorn
discard it (R120, R399). -/
def State.takeDownAt (s : State) (e : Nat) (p : Packet) : State :=
  if headerBad p then s.discardHead evHeaderBad e p
  else if (classOf (pget p H.OPCODE)).isNone then s.discardHead evBadOpcode e p
  else if e < 256 then s.redDown e p
  else if e < 286 then s.portEndpoint e p
  else s.discardHead evHeaderBad e p

/-- RED_DOWN_ARRIVAL at a core port, an optical port, the host bridge or Alorn; a stack port takes its own row. -/
def execRedDownArrival (ep : BitVec 9) (pkt : Packet) (s : State) : Host.Outcome State Fault Refusal :=
  live s (fun s =>
    let e := ep.toNat
    if !(headerBad pkt) && (classOf (pget pkt H.OPCODE)).isSome && pget pkt H.OPCODE != Op.RED_DOWN then s
    else if (256 ≤ e && e < 280) || !s.waitsAt e pkt || (!s.takes e && !s.coreRst.contains e) then s
    else
      let s := s.takeIn e pkt
      (if e < 256 && s.coreRst.contains e then s.resetDiscard e pkt else s.takeDownAt e pkt).flow)

/-! ### Results at a stack sink (R247) -/

/-- A sink refuses a result: no reply; counted and logged. -/
def State.sinkRefuse (s : State) (st : Nat) (p : Packet) (status : Nat) : State :=
  (s.sat F.SP_ERRCNT_NOOWNER st).event evSinkRefused 1 st
    (pget p H.GROUP + 2 ^ 12 * pget p H.SEQ + 2 ^ 28 * status) (pget p H.ADDRESS)

/-- A result with data at a sink, checked and written at SINK_BASE + ADDRESS. -/
def State.sinkWrite (s : State) (st : Nat) (p : Packet) : State :=
  let ep := 256 + st
  let e := pget p H.EPOCH
  let g := pget p H.GROUP
  let a := s.getE e F.RK_GROUPAUX_SINK_BASE g + pget p H.ADDRESS
  let n := pget p H.LENGTH
  if !(s.flagE e F.RK_GROUPAUX_SINK_VALID g && s.getE e F.RK_GROUPAUX_SINK_STACK g == st) then s.sinkRefuse st p St.RANGE
  else
    match s.partCheck ep (pset p [(H.ADDRESS, a)]) with
    | some status => s.sinkRefuse st p status
    | none =>
      if 8 ≤ pget p H.FORMAT || 6 ≤ pget p H.OP || pflag p H.FLOW_VALID || a % 8 != 0 || memSize ep < a + n || 4096 < n
          || n % Nat.max 1 (unitBytes (pget p H.FORMAT)) != 0 then s.sinkRefuse st p St.RANGE
      else if !(banksOf ep a n).all (fun b => s.netOwns p ep b) then s.sinkRefuse st p St.NO_OWNER
      else (s.writePayload ep a (payload p) (flitPoison p)).noteSink st g (pget p H.SEQ) (pget p H.ADDRESS + n)

/-- STACK_SINK_RED_DOWN. -/
def execStackSinkRedDown (st : Fin 24) (pkt : Packet) (s : State) : Host.Outcome State Fault Refusal :=
  live s (fun s =>
    let ep := 256 + st.val
    if !(headerBad pkt) && (classOf (pget pkt H.OPCODE)).isSome && pget pkt H.OPCODE != Op.RED_DOWN then s
    else if !s.waitsAt ep pkt then s
    else
      let s := s.takeIn ep pkt
      (if headerBad pkt then s.discardHead evHeaderBad ep pkt
       else if (classOf (pget pkt H.OPCODE)).isNone then s.discardHead evBadOpcode ep pkt
       else if pget pkt H.LENGTH = 0 then s
       else s.sinkWrite st.val pkt).flow)

/-! ### Timer, QUIESCE, FENCE and reset (R268 to R270, R365) -/

/-- The collective in progress on a queue. -/
def State.collOn (s : State) (i q : Nat) : Option Cmd :=
  s.cmds.find? (fun c => c.core == i && c.queue == q && !c.done && c.coll.isSome)

/-- COLLECTIVE_TIMEOUT: the timer of a collective expires; a stopped port has none (R77, R270). -/
def execCollectiveTimeout (i : Fin 256) (q : Fin 16) (s : State) : Host.Outcome State Fault Refusal :=
  live s (fun s =>
    match s.collOn i.val q.val with
    | some c => if s.coreRuns i.val then (s.abortColl c St.TIMEOUT 1).flow else s
    | none => s)

/-- Whether a collective has issued all its contributions (R268). -/
def State.issuedAll (s : State) (c : Cmd) (r : CollRun) : Bool :=
  (if isData (dget c.words D.CMD) then r.chunks ≤ r.up else r.arrived) && !s.outWait.any (fun w => collWaits c w)

/-- The collectives in progress at core ports `is` that `pick` chooses all end with a status, and then each port raises
ABORTED for its own (R263, R268, R269). -/
def State.endOwn (s : State) (is : List Nat) (pick : Cmd → CollRun → Bool) (st cause : Nat) : State :=
  let due := s.cmds.filterMap (fun c => match c.coll with
    | some r => if is.contains c.core && !c.done && pick c r then some (c, r) else none
    | none => none)
  let t := due.foldl (fun t x => t.finishColl x.1 x.2 st) s
  due.foldl (fun t x => t.raiseAbort x.1.core x.2.group x.2.seq St.ABORTED cause) t

/-- QUIESCE stops the intake of core ports: collectives that have not issued all contributions end (R268). -/
def State.quiesceColls (s : State) (is : List Nat) : State := s.endOwn is (fun c r => !s.issuedAll c r) St.ABORTED 2

/-- FENCE: every collective in progress at core ports `is` ends with FENCED (R269). -/
def State.fenceColls (s : State) (is : List Nat) : State := s.endOwn is (fun _ _ => true) St.FENCED 3

/-- Core port reset: ABORT is raised for every collective in progress at the port, whose commands are lost (R365). -/
def State.resetColls (s : State) (i : Nat) : State :=
  let runs := (s.cmds.filter (fun c => c.core == i && !c.done)).filterMap (fun c => c.coll)
  let s := { s with cmds := s.cmds.filter (fun c => !(c.core == i && c.coll.isSome)) }
  runs.foldl (fun s r => s.raiseAbort i r.group r.seq St.ABORTED 6) s

end Sys2Proof.Machine
end

