-- ==== Sys2Proof/Machine/Counters.lean ====
section
/-! DEFINITION. Reading registers, with the fields that show state held elsewhere; the event log's writer and reader
(R18, R345, R385 to R393, R396). -/

namespace Sys2Proof.Machine

/-! ### Registers as they read -/

/-- An instance of RK_CENSUS (R28, R29). -/
def State.census (s : State) (n : Nat) : Word :=
  BitVec.ofNat 64 ((List.range 64).foldl (fun v j => if s.present (64 * n + j) then v + 2 ^ j else v) 0)

/-- A word with fields laid over it. -/
def overlay (w : Word) (l : List (Fld × Nat)) : Word := l.foldl (fun w e => fieldPut w e.1.lo e.1.width e.2) w

/-- The fields of CP_QSTAT that show what holds a queue up. -/
def State.queueShows (s : State) (n : Nat) : List (Fld × Nat) :=
  let i := n / 16
  let q := n % 16
  let ws := s.descriptor i q (s.get F.CP_QSTAT_HEAD n)
  let waits := s.queueOpen i q
  [(F.CP_QSTAT_WAIT, b2n (waits && s.headWaits i ws)), (F.CP_QSTAT_FENCE, b2n (waits && s.headFenced i q ws)),
    (F.CP_QSTAT_FLOW_BUSY, b2n (waits && s.headFlowBusy ws)), (F.CP_QSTAT_STOPPED, b2n (s.intakeStopped i)),
    (F.CP_QSTAT_WINDOW, b2n (s.outWait.any (fun w => w.queue == q && fifoCore w.fifo == i && (match w.gate with
      | .window g => !s.gateOpen w.gate (flitsOf w.pkt).length && g < 576
      | _ => false))))]

/-- A time in microseconds, in a field of 20 bits that saturates (Tables 8-10 and 13-13). -/
def ageUs (ticks : Nat) : Nat := Nat.min 0xFFFFF (ticks * 4 / 625)

/-- Whether the log holds a record that no READ_EVENTS has passed (R392). -/
def State.unread (s : State) : Bool :=
  match s.log.getLast? with
  | none => false
  | some r => s.readNext ≤ fieldGet r.w0 32 32

/-- The edges of the clock of domain `d` in 160 ticks while it runs: 800 of CLK_MG, 1,600 of CLK_LK, and of a cluster clock
what its source gives between 0.4 and 2.0 GHz, a free value (R59, Table 3-7). -/
def State.fullFreq (s : State) (d : Nat) : Nat :=
  if d = 16 then 800 else if d = 17 then 1600 else 409 + (Config.domainFreq (s.freeCtr + d)).toNat % 1640

/-- FREQ: the edges of the last 160 ticks; while some of them lie before the clock's start or after its stop, at most those of
a clock that runs, a free value; none at chip reset and once the clock has stopped for 160 ticks (R59, R78). -/
def State.freq (s : State) (d : Nat) : Nat :=
  let part := (Config.partFreq (s.freeCtr + d)).toNat % (s.fullFreq d + 1)
  match lookup s.clkStopped d with
  | some t => if t + 144 ≤ s.now then 0 else part
  | none =>
    let since := (lookup s.clkSince d).getD 0
    if s.now = 0 then 0 else if !s.hasEdges d || s.now < since + 160 then part else s.fullFreq d

/-- A register as READ_COUNTERS returns it: the value in effect (R14), reserved bits zero (R7), with the fields that show
fuses, inputs and state held elsewhere. -/
def State.readReg (s : State) (r : Reg) (n : Nat) : Word :=
  let w := s.word r n (r.bank s.parity) &&& r.info.used
  match r with
  | .RK_CENSUS => s.census n
  | .AL_STATUS => overlay w [(F.AL_STATUS_LIFECYCLE, s.fuse.lifecycle), (F.AL_STATUS_WIPED, b2n s.wiped)]
  | .AL_LOCK => s.lockImage
  | .CP_QSTAT => overlay w (s.queueShows n)
  | .CP_BANKOWN => overlay w [(F.CP_BANKOWN_INFLIGHT, Nat.min 255 (s.inflight (n / 48) (n % 48)))]
  | .RK_TRANSIT => overlay w [(F.RK_TRANSIT_OCCUPANCY, s.get F.RK_TRANSIT_OCCUPANCY n)]
  | .RK_HANDOVER =>
    if s.flag F.RK_HANDOVER_VALID n then
      overlay w [(F.RK_HANDOVER_AGE_US, ageUs (s.now - (lookup s.hoSince n).getD s.now))]
    else w
  | .RK_EPOCH =>
    let old := s.oldCount
    overlay w [(F.RK_EPOCH_OLD_COUNT, old), (F.RK_EPOCH_OLD_SEEN, b2n (s.flag F.RK_EPOCH_OLD_SEEN 0 || old != 0))]
  | .XB_DOMAIN =>
    overlay w [(F.XB_DOMAIN_FREQ, s.freq n), (F.XB_DOMAIN_STOPPED, b2n (!s.clockRuns n)),
      (F.XB_DOMAIN_IN_RESET, b2n (s.coreRst.any (fun i => i / 16 == n)))]
  | .XB_FIFO =>
    overlay w [(F.XB_FIFO_FILL, (s.fifo n).stages.length), (F.XB_FIFO_PACKETS, (s.fifo n).packets),
      (F.XB_FIFO_DEPTH, fifoDepth n), (F.XB_FIFO_KIND, fifoKind n)]
  | .TM_LOGSTAT => overlay w [(F.TM_LOGSTAT_UNREAD, b2n s.unread)]
  | _ => w

/-- The register and copy at a byte offset of a window; CP_ blocks lie 0x0001_0000 apart (Table 13-6, R396). -/
def windowReg (window off : Nat) : Option (Reg × Nat) :=
  if window = 0 then
    if off / 0x10000 < 256 then (regAt 0 (off % 0x10000)).map (fun e => (e.1, coreCopy e.1 (off / 0x10000) e.2)) else none
  else regAt window off

/-- READ_COUNTERS with CLEAR: the fields of a register that it may clear go to zero (R345, R385). -/
def State.clearReg (s : State) (r : Reg) (n : Nat) : State :=
  if r.info.clear = 0 then s else s.setWord r n (s.word r n &&& ~~~ r.info.clear)

/-! ### The event log -/

/-- Appends a record with the next SEQ to the ring of 4,096 (R387), raises ALERT and sets EVENTS (R392). -/
def State.record (s : State) (w0 : Nat) (w1 w2 w3 : Word) : State :=
  let q := s.get F.TM_LOGSTAT_NEXT_SEQ 0
  let log := s.log ++ [⟨BitVec.ofNat 64 (w0 + 2 ^ 32 * q), w1, w2, w3⟩]
  let s := { s with log := if 4096 < log.length then log.drop 1 else log }
  let s := (s.put F.TM_LOGSTAT_NEXT_SEQ 0 ((q + 1) % 2 ^ 32)).put F.TM_LOGSTAT_HELD 0 s.log.length
  (s.put F.AL_MBCTL_EVENTS 0 1).pulse 0

/-- Word 0 of a record without SEQ (Table 15-3). -/
def LogEntry.head (e : LogEntry) (code : Nat) (more : Bool) : Nat :=
  code + 2 ^ 12 * e.window + 2 ^ 16 * b2n more + 2 ^ 18 * e.severity + 2 ^ 20 * (e.unit % 4096)

/-- One record is written: the oldest entry's, or the EXCERPT of an entry whose first record stands (R388, R390). -/
def State.writeRecord (s : State) : State :=
  match s.logIntake with
  | [] => s
  | e :: rest =>
    match e.more with
    | some (a, b) =>
      if e.half then ({ s with logIntake := rest } : State).record (e.head 0 false) e.time a b
      else ({ s with logIntake := { e with half := true } :: rest } : State).record (e.head e.code true) e.time e.arg0 e.arg1
    | none => ({ s with logIntake := rest } : State).record (e.head e.code false) e.time e.arg0 e.arg1

/-- LOG_RECORD_WRITE: TM_ writes a record in this tick; without CLK_MG it has no clock (R382). -/
def execLogRecordWrite (s : State) : Host.Outcome State Fault Refusal :=
  live s (fun s => if s.mgLost then s else s.writeRecord)

/-- The records that a READ_EVENTS returns, with the lost count and the SEQ of the first (R391). -/
def State.eventsFrom (s : State) (first most : Nat) : List LogRec × Nat × Nat :=
  let next := s.get F.TM_LOGSTAT_NEXT_SEQ 0
  let behind := (next + 2 ^ 32 - first) % 2 ^ 32
  let held := s.log.length
  if 2 ^ 31 ≤ behind then ([], 0, first)
  else
    let lost := behind - held
    let recs := (s.log.drop (held - behind)).take most
    let whole := match recs.getLast? with
      | some r => if fieldGet r.w0 16 1 = 1 then recs.dropLast else recs
      | none => recs
    (whole, lost, (first + lost) % 2 ^ 32)

end Sys2Proof.Machine
end

