-- ==== Sys2Proof/Machine/Fabric.lean ====
section
/-! DEFINITION. THROTTLE, the fabric measurements, the loss of the rack reference and the test logic (R56 to R58, R362, R381, R382,
Table 2-7). -/

namespace Sys2Proof.Machine

/-- Events of the telemetry unit (Table 15-4). -/
def evThrottleOn : Event := ⟨0xB01, 0⟩
def evThrottleOff : Event := ⟨0xB02, 0⟩
def evUndervolt : Event := ⟨0xB03, 1⟩
def evHot : Event := ⟨0xB04, 1⟩
def evBrownout : Event := ⟨0xB05, 2⟩
def evRefLost : Event := ⟨0xB06, 2⟩
def evRefBack : Event := ⟨0xB07, 0⟩

/-- Logs an event of TM_ with the image of TM_FABCORNER. -/
def State.cornerEvent (s : State) (e : Event) : State := s.event e 10 0 (s.word .TM_FABCORNER 0).toNat

/-- THROTTLE asserted: steps 1 and 2 of Table 2-7. -/
def execThrottleAssert (s : State) : Host.Outcome State Fault Refusal :=
  live s (fun s =>
    if s.flag F.TM_FABCORNER_THROTTLE then s
    else ((s.put F.TM_FABCORNER_THROTTLE 0 1).put F.TM_FABCORNER_THROTTLED 0 1).cornerEvent evThrottleOn)

/-- THROTTLE released: steps 5 and 6 of Table 2-7; THROTTLED stays for the next measurement. -/
def execThrottleRelease (s : State) : Host.Outcome State Fault Refusal :=
  live s (fun s =>
    if s.flag F.TM_FABCORNER_THROTTLE then (s.put F.TM_FABCORNER_THROTTLE 0 0).cornerEvent evThrottleOff else s)

/-- Whether a measured temperature, in quarter degrees of two's complement, lies above 105 °C. -/
def isHot (temp : BitVec 12) : Bool := (420 : Int) < temp.toInt

/-- What a measurement says of the corner while THROTTLE is released (R58, step 7 of Table 2-7). -/
def State.judgeSupply (s : State) (vdd : Nat) : State :=
  if s.flag F.TM_FABCORNER_THROTTLE then s
  else if vdd < 680 then
    ((s.put F.TM_FABCORNER_THROTTLED 0 1).put F.TM_FABCORNER_LOWV 0 1).cornerEvent evUndervolt
  else s.put F.TM_FABCORNER_THROTTLED 0 0

/-- One measurement of VDD_FAB in mV, temperature and speed (R58, R381). Without CLK_MG the unit measures nothing. -/
def execFabricMeasurement (vdd temp : BitVec 12) (speed : BitVec 16) (s : State) : Host.Outcome State Fault Refusal :=
  live s (fun s =>
    if s.mgLost then s
    else
      let s := s.put F.TM_FABCORNER_VDD 0 vdd.toNat
      let s := s.put F.TM_FABCORNER_TEMP 0 temp.toNat
      let s := s.put F.TM_FABCORNER_SPEED 0 speed.toNat
      let s := s.put F.TM_FABCORNER_HOT 0 (b2n (isHot temp))
      let s := s.judgeSupply vdd.toNat
      let s := if isHot temp then s.cornerEvent evHot else s
      let s := { s with fabLow := vdd.toNat < 600 }
      if vdd.toNat < 600 then s.cornerEvent evBrownout else s)

/-- Loss of the rack reference: CLK_MG and CLK_LK hold over, and the event is logged (R382). -/
def execRefLost (s : State) : Host.Outcome State Fault Refusal :=
  live s (fun s =>
    match s.refLostAt with
    | some _ => s
    | none => ({ s with refLostAt := some s.now } : State).event evRefLost 10 0)

/-- The rack reference is back; the record carries the ticks counted in holdover (Table 15-4). -/
def execRefBack (s : State) : Host.Outcome State Fault Refusal :=
  live s (fun s =>
    match s.refLostAt with
    | none => s
    | some t => ({ s with refLostAt := none } : State).event evRefBack 10 0 (s.now - t))

/-- Test-logic reset reaches the TAP controller and its instruction register only (R362): both take the value
TEST-LOGIC-RESET has in this model, zero (log entry 3). -/
def execTestLogicReset (s : State) : Host.Outcome State Fault Refusal :=
  live s (fun s => { s with tapState := 0, tapIr := 0 })

/-- CLK_MG lost: the timestamp and every tick-counted timer stop, and nothing is logged (R382). -/
def execClkMgLost (s : State) : Host.Outcome State Fault Refusal :=
  live s (fun s => { (if s.mgLost then s else s.pulsesStop) with mgLost := true })

end Sys2Proof.Machine
end

