-- ==== Sys2Proof/Machine/Fec.lean ====
section
/-! DEFINITION. Frames of an optical port: the RS(544,514) code, the stream of parcels over its codewords, the striping over lanes,
PAM4 levels, PRBS31 and the alignment blocks that a transmitter forms (R272 to R276, R282, R297, R302, Tables 11-1 and 11-2). Here
`p` is a physical port. -/

namespace Sys2Proof.Machine

/-! ### The field GF(2¹⁰) of the code: x¹⁰ + x³ + 1 (PRESUMED: IEEE 802.3, log entry 18) -/

/-- The product of two symbols. -/
def gfMul (a b : Nat) : Nat :=
  let wide := (List.range 10).foldl (fun r i => if b.testBit i then r ^^^ (a <<< i) else r) 0
  (List.range 9).foldl (fun r i => if r.testBit (18 - i) then r ^^^ (0x409 <<< (8 - i)) else r) wide

/-- α to the power `k`, where α is the symbol 2. -/
def gfAlpha (k : Nat) : Nat :=
  ((List.range 10).foldl (fun (x : Nat × Nat) i => (gfMul x.1 x.1, if (k % 1023).testBit i then gfMul x.2 x.1 else x.2)) (2, 1)).2

/-- The inverse of a symbol, as its power 1022; 0 of 0. -/
def gfInv (a : Nat) : Nat :=
  ((List.range 9).foldl (fun (x : Nat × Nat) _ => (gfMul x.1 x.1, gfMul x.2 (gfMul x.1 x.1))) (a, 1)).2

/-- A polynomial at `x`, highest power first. -/
def gfEval (p : List Nat) (x : Nat) : Nat := p.foldl (fun r c => gfMul r x ^^^ c) 0

/-- Coefficient-wise sum of two polynomials, lowest power first. -/
def gfAdd : List Nat → List Nat → List Nat
  | [], b => b
  | a, [] => a
  | x :: a, y :: b => (x ^^^ y) :: gfAdd a b

/-- The generator polynomial without its leading 1, highest power first: roots α⁰ to α²⁹ (log entry 18). -/
def rsGenerator : List Nat :=
  ((List.range 30).foldl (fun g j => List.zipWith (fun a b => a ^^^ b) (g ++ [0]) (0 :: g.map (gfMul (gfAlpha j)))) [1]).drop 1

/-- The codeword of 514 message symbols: the message first, then 30 parity symbols (R274). -/
def rsEncode (m : List Nat) : List Nat :=
  m ++ m.foldl (fun r d =>
    let f := d ^^^ r.headD 0
    List.zipWith (fun a g => a ^^^ gfMul f g) (r.drop 1 ++ [0]) rsGenerator) (List.replicate 30 0)

/-- The 30 syndromes of a received word: all zero at a codeword. -/
def rsSyndromes (r : List Nat) : List Nat := (List.range 30).map (fun i => gfEval r (gfAlpha i))

/-- The state of the Berlekamp and Massey search: locator, its last version with another length, length, shift, discrepancy. -/
structure Search where
  loc : List Nat
  old : List Nat
  len : Nat
  shift : Nat
  disc : Nat
deriving DecidableEq, Repr

/-- One step of the search, at syndrome `n`. -/
def Search.next (t : Search) (syn : List Nat) (n : Nat) : Search :=
  let d := (List.range (t.len + 1)).foldl (fun r i => r ^^^ gfMul (t.loc.getD i 0) (syn.getD (n - i) 0)) 0
  if d = 0 then { t with shift := t.shift + 1 }
  else
    let f := gfMul d (gfInv t.disc)
    let loc := gfAdd t.loc (List.replicate t.shift 0 ++ t.old.map (gfMul f))
    if 2 * t.len ≤ n then ⟨loc, t.loc, n + 1 - t.len, 1, d⟩ else { t with loc := loc, shift := t.shift + 1 }

/-- The error locator of a word, lowest power first, with its length. -/
def rsLocator (syn : List Nat) : Search := (List.range 30).foldl (fun t n => t.next syn n) ⟨[1], [1], 0, 1, 1⟩

/-- The symbol to correct at place `j`, by Forney's formula; place j is the coefficient of the power 543 - j. -/
def rsValue (syn loc : List Nat) (j : Nat) : Nat :=
  let x := gfAlpha (543 - j)
  let y := gfInv x
  let omega := (List.range 30).map (fun n =>
    (List.range (n + 1)).foldl (fun r i => r ^^^ gfMul (loc.getD i 0) (syn.getD (n - i) 0)) 0)
  let deriv := (List.range loc.length).map (fun i => if i % 2 = 0 then loc.getD (i + 1) 0 else 0)
  gfMul x (gfMul (gfEval omega.reverse y) (gfInv (gfEval deriv.reverse y)))

/-- Decodes a received word of 544 symbols: the codeword within 13 symbols of it with the places corrected, or none: the codeword is
uncorrectable (R274). -/
def rsDecode (r : List Nat) : Option (List Nat × List Nat) :=
  let syn := rsSyndromes r
  if syn.all (fun x => x == 0) then some (r, [])
  else
    let t := rsLocator syn
    if 13 < t.len then none
    else
      let places := (List.range 544).filter (fun j => gfEval t.loc.reverse (gfAlpha (480 + j)) == 0)
      let word := (List.range 544).map (fun j => if places.contains j then r.getD j 0 ^^^ rsValue syn t.loc j else r.getD j 0)
      if places.length ≤ 13 && (rsSyndromes word).all (fun x => x == 0) then some (word, places) else none

/-! ### The stream of a frame (R275) -/

/-- Message bits of a codeword, and of a parcel; parcels in a frame (Table 11-1). -/
def wordBits : Nat := 5140
def parcelBits : Nat := 2112
def frameParcels : Nat := 20560

/-- The `n` symbols of a number, lowest bits first. -/
def symbolsOf (n x : Nat) : List Nat := (List.range n).map (fun j => x / 2 ^ (10 * j) % 1024)

/-- The number whose symbols these are. -/
def ofSymbols (l : List Nat) : Nat := l.foldr (fun d r => d + 1024 * r) 0

/-- The message bits of a codeword, in stream order. -/
def messageOf (w : List Nat) : Nat := ofSymbols (w.take 514)

/-- The first codeword that parcel `n` of a frame touches, and where in its message the parcel begins. -/
def firstWord (n : Nat) : Nat := parcelBits * n / wordBits
def parcelAt (n : Nat) : Nat := parcelBits * n % wordBits

/-- Whether parcel `n` runs on into a second codeword. -/
def touchesTwo (n : Nat) : Bool := wordBits < parcelAt n + parcelBits

/-- Parcel `n` of a frame out of the messages of the one or two codewords it touches. -/
def parcelFrom (n a b : Nat) : Parcel :=
  BitVec.ofNat 2112 ((a / 2 ^ parcelAt n + if touchesTwo n then b * 2 ^ (wordBits - parcelAt n) else 0) % 2 ^ parcelBits)

/-! ### Striping and levels (R272, R274) -/

/-- The 34 symbols of a codeword that logical lane `n` carries: symbol j travels on lane j mod 16. -/
def laneSymbols (w : List Nat) (n : Nat) : BitVec 340 :=
  BitVec.ofNat 340 (ofSymbols ((List.range 34).map (fun k => w.getD (16 * k + n) 0)))

/-- Bit pairs to PAM4 levels, or back: 00, 01, 11, 10 are the levels 0, 1, 2, 3. The level of the unit interval t of symbol k stands
in bits 10k + 2t and 10k + 2t + 1. -/
def gray (b : BitVec 340) : BitVec 340 := b ^^^ ((b >>> 1) &&& BitVec.ofNat 340 ((4 ^ 170 - 1) / 3))

/-- `n` bits of PRBS31 (x³¹ + x²⁸ + 1, inverted) from a register, the first in bit 0, and the register after them (PRESUMED: ITU-T
O.150, log entry 18). -/
def prbs31 (n : Nat) (r : BitVec 31) : BitVec 340 × BitVec 31 :=
  (List.range n).foldl (fun x i =>
    let b := x.2.getLsbD 30 ^^ x.2.getLsbD 27
    (if b then x.1 else x.1 ||| (1#340 <<< i), (x.2 <<< 1) ||| (if b then 1#31 else 0#31))) (0#340, r)

/-! ### Lanes -/

/-- Copies of OP_LANEMAP: lane `l` of port `p`, 0 transmit and 1 receive. -/
def laneCopy (p d l : Nat) : Nat := 36 * p + 18 * d + l

/-! LOGICAL of OP_LANEMAP beside the logical lanes 0 to 15. -/
namespace LM
def SPARE : Nat := 16
def RETIRED : Nat := 17
def UNTRAINED : Nat := 31
end LM

/-- LOGICAL of a lane: `d` 0 transmit, 1 receive. -/
def State.laneOf (s : State) (p d l : Nat) : Nat := s.get F.OP_LANEMAP_LOGICAL (laneCopy p d l)
def State.setLane (s : State) (p d l v : Nat) : State := s.put F.OP_LANEMAP_LOGICAL (laneCopy p d l) v

/-- Whether a receive lane is locked. -/
def State.rxLocked (s : State) (p l : Nat) : Bool := s.flag F.OP_LANEMAP_LOCKED (laneCopy p 1 l)

/-- The transmitter modulates, except in DOWN with HOLD_DOWN (R297). -/
def State.modulates (s : State) (p : Nat) : Bool := !(s.portState p == PS.DOWN && s.flag F.OP_PORTCTL_HOLD_DOWN p)

/-! ### Alignment blocks that a port sends (Table 11-2) -/

/-- LOGICAL of a block on a transmit lane. Before step 3 of Table 11-8 a lane is neither assigned, spare nor retired: its LOGICAL is a
free value. -/
def State.blockLogical (s : State) (p l : Nat) : Nat :=
  let n := s.laneOf p 0 l
  if n < 16 then n else if n = LM.SPARE then 0x3FE else if n = LM.RETIRED then 0x3FF else (Config.untrainedLane l).toNat

/-- FRAME: frames of 2,872,660 bits at 224.375 Gbit/s, 1,436 bits in a tick, since the last TRAINING began. -/
def State.frameCount (s : State) (p : Nat) : Nat := (s.now - (s.port p).trainStart) * 718 / 1436330 % 2 ^ 40

/-- The alignment block of physical transmit lane `l`. MODE 1 is sent from step 5 of Table 11-8 on, in KEYING, QUARANTINE, ADMITTED
and DRAINING; HOLD in DOWN (R297). -/
def State.txBlock (s : State) (p l : Nat) : BitVec 340 :=
  let q := s.port p
  let st := s.portState p
  let data := (st = PS.TRAINING && q.sendData) || (2 ≤ st && st ≤ 5)
  let lock := (List.range 18).foldl (fun n k => if s.rxLocked p k then setBit n k else n) 0
  let fields := [l, s.blockLogical p l] ++ symbolsOf 4 (s.frameCount p) ++ [b2n data] ++ symbolsOf 2 lock
    ++ [b2n q.trainDone + 2 * b2n (st == PS.DOWN), q.txPatchId, 0, 0, 0, 0, 0, 0]
  BitVec.ofNat 340 (ofSymbols (((List.range 16).map (fun k => if k % 2 = 0 then 0x155 else 0x2AA)) ++ fields
    ++ [fields.foldl Nat.xor 0]))

/-- A frame begins: every lane that modulates sends its alignment block. -/
def State.formBlocks (s : State) (p : Nat) : State :=
  let bs := if s.modulates p then (List.range 18).map (fun l => (l, s.txBlock p l)) else []
  s.modPort p (fun q => { q with blocks := bs })

/-! ### Sending a parcel (R275, R282) -/

/-- A codeword is complete: the lanes carry its symbols, spare and retired lanes PRBS31 (R274, R276). -/
def State.sendWord (s : State) (p message : Nat) : State :=
  let w := rsEncode (symbolsOf 514 message)
  let (noise, reg) := prbs31 340 (s.port p).prbs
  let levels := (List.range 18).map (fun l =>
    let n := s.laneOf p 0 l
    (l, gray (if n < 16 then laneSymbols w n else noise)))
  s.modPort p (fun q => { q with levels := levels, prbs := reg })

/-- The parcel last sent joins the message bits of the frame, which leave codeword by codeword; after 20,560 parcels the next frame
begins. -/
def State.stripe (s : State) (p : Nat) : State :=
  let q := s.port p
  let acc := q.txAcc + q.lastSent.toNat * 2 ^ q.txBits
  let n := q.txBits + parcelBits
  let last := q.txParcel + 1 = frameParcels
  let full := wordBits ≤ n
  let s := if full then s.sendWord p (acc % 2 ^ wordBits) else s
  let s := s.modPort p (fun q => { q with
    txAcc := if full then acc / 2 ^ wordBits else acc, txBits := if full then n - wordBits else n
    txParcel := if last then 0 else q.txParcel + 1 })
  if last then s.formBlocks p else s

/-! ### Receiving a codeword (R273 to R275) -/

/-- The physical receive lane that carries logical lane `n`. -/
def State.rxLane (s : State) (p n : Nat) : Option Nat := (List.range 18).find? (fun l => s.laneOf p 1 l == n)

/-- The word that the levels of the 18 receive lanes spell, each lane's 34 symbols in 340 bits; a logical lane that no lane carries
reads as zero. -/
def State.rxWord (s : State) (p : Nat) (levels : BitVec 6120) : List Nat :=
  let lanes := (List.range 16).map (fun n => match s.rxLane p n with
    | some l => (gray (levels.extractLsb' (340 * l) 340)).toNat
    | none => 0)
  (List.range 544).map (fun j => lanes.getD (j % 16) 0 / 2 ^ (10 * (j / 16)) % 1024)

/-- Counts a decoded codeword: the symbols corrected, with their lanes, or an uncorrectable one (R301, Table 11-19). -/
def State.countWord (s : State) (p : Nat) (d : Option (List Nat × List Nat)) : State :=
  match d with
  | none => s.sat F.OP_LINKERR_UNCORR p
  | some (_, places) =>
    if places.isEmpty then s
    else
      let add (t : Tbl Nat) (j : Nat) : Tbl Nat := match s.rxLane p (j % 16) with
        | some l => upsert t l ((lookup t l).getD 0 + 1)
        | none => t
      (s.sat F.OP_LINKERR_CORRECTED p places.length).modPort p (fun q => { q with corrected := places.foldl add q.corrected })

/-- Parcel `n` of a frame, out of the levels of the codewords it touches, or none where one of them is uncorrectable; each codeword
is counted at the first parcel that touches it. -/
def State.receive (s : State) (p n : Nat) (a b : BitVec 6120) : State × Option Parcel :=
  let da := rsDecode (s.rxWord p a)
  let s := if parcelAt n = 0 then s.countWord p da else s
  if !touchesTwo n then (s, da.map (fun x => parcelFrom n (messageOf x.1) 0))
  else
    let db := rsDecode (s.rxWord p b)
    (s.countWord p db, match da, db with
      | some x, some y => some (parcelFrom n (messageOf x.1) (messageOf y.1))
      | _, _ => none)

end Sys2Proof.Machine
end

