-- ==== Sys2Proof/Machine/Ports.lean ====
section
/-! DEFINITION. The states of an optical port and every move between them, Keying's messages and the control exchanges
that open and close a port (R291 to R300, R402, Table 11-7). Here `p` is a physical port. -/

namespace Sys2Proof.Machine

def evPortState : Event := ⟨0x801, 0⟩

/-! Causes of PORT_STATE (Table 15-4). -/
namespace PC
def LIGHT : Nat := 0
def TRAINED : Nat := 1
def RETRAIN : Nat := 2
def LIGHT_LOST : Nat := 3
def KEYED : Nat := 4
def KEY_TIMEOUT : Nat := 5
def OPEN : Nat := 6
def QUARANTINE : Nat := 7
def CLOSE : Nat := 8
def TAG_FAILURES : Nat := 9
def DRAINED : Nat := 10
def DRAIN_LIMIT : Nat := 11
def NO_SPARE : Nat := 12
def PATCH_BUDGET : Nat := 13
def ACK_STALL : Nat := 14
def SIGNAL_LOST : Nat := 15
def HOLD_DOWN : Nat := 16
def HOLD_OVER : Nat := 17
def PEER_TRAINS : Nat := 18
end PC

/-- States in which MODE 1 frames run: from KEYING to DRAINING (R297). -/
def State.inData (s : State) (p : Nat) : Bool := 2 ≤ s.portState p && s.portState p ≤ 5

/-- Packets that a port holds in staging when it leaves service (R122): requests answered with UNREACHABLE, the others
discarded; tree packets and Plumb messages end under R235. VL1 stays where `keepMgmt` says so. -/
def State.flushStaging (s : State) (p : Nat) (keepMgmt : Bool) : State :=
  let all := (s.port p).staging
  let s := s.modPort p (fun q => { q with staging := all.filter (fun t => keepMgmt && t.vl == 1) })
  (all.filter (fun t => !(keepMgmt && t.vl == 1))).foldl (fun s t =>
    if t.src = noSource then s else s.portRefuse p t.src St.UNREACHABLE t.pkt) s

/-- Sequences that a port's ABORTs name for a group: those of the slots it holds, else the last SEQ (Table 10-12). -/
def State.heldSeqs (s : State) (l g : Nat) : List Nat :=
  let held := (((s.slots.map (fun e => e.1)).filter (fun k => 1024 + 64 * l ≤ k && k < 1024 + 64 * l + 64
    && s.slotState k != SL.FREE && s.get F.SC_SLOTSTAT_GROUP k == g)).map (fun k => s.get F.SC_SLOTSTAT_SEQ k)).eraseDups
  if held.isEmpty then [s.get F.PL_GROUPSTATE_SEQ g] else held

/-- Groups with a tree edge on a logical port: a Screed edge in the bank in effect, or a Plumb edge. -/
def State.groupsAt (s : State) (l : Nat) : List Nat :=
  let sc := ((List.range 256).map (fun k => 256 * l + k)).filterMap (fun n =>
    if s.flag F.SC_PORTTREE_VALID n then some (s.get F.SC_PORTTREE_GROUP n) else none)
  let pl := ((s.regs.filter (fun e => e.1 % 256 / 2 = Reg.PL_GROUP.num && e.1 % 2 = s.parity)).map (fun e => e.1 / 256)).filter
    (fun g => (s.plumbPorts g).contains l)
  (sc ++ pl).eraseDups

/-- A port leaves ADMITTED: its Screed stores go, every collective with an edge on it is aborted, and the hubs look at
EPOCH_GROUP again (R235, R263, R299, R369). -/
def State.leaveService (s : State) (p : Nat) : State :=
  let l := s.logical p
  let todo := (s.groupsAt l).flatMap (fun g => (s.heldSeqs l g).map (fun q => (g, q)))
  let s := (s.screedPortLost l).shutPort l
  (todo.foldl (fun s x => s.raiseAbort (280 + l) x.1 x.2 St.UNREACHABLE 4) s).recheckHubs

/-- Training starts afresh: no lane is locked or assigned, FRAME counts from 0 (Table 11-8). -/
def State.startTraining (s : State) (p : Nat) : State :=
  let s := s.modPort p (fun q => { q with
    good := [], badBlk := [], mode0 := [], rxFrame := none, rxlockRun := 0, cleanRun := 0, trainDone := false, peerDone := false, mode1 := 0
    sendData := false, patch := [], txPatch := [], trainStart := s.now, txAcc := 0, txBits := 0, txParcel := 0, corrected := []
    prbsErrs := [], frameClean := true })
  let s := (List.range 36).foldl (fun s k => s.put F.OP_LANEMAP_LOGICAL (36 * p + k) 31) s
  let s := (List.range 18).foldl (fun s k => s.put F.OP_LANEMAP_LOCKED (laneCopy p 1 k) 0) s
  s.put F.OP_PORTSTATE_SPARES p 0

/-- What a transmitter sends in its state: it modulates, except in DOWN with HOLD_DOWN, and its alignment blocks tell MODE and HOLD
(R297). -/
def State.showLight (s : State) (p : Nat) : State :=
  let on := b2n (s.modulates p)
  ((List.range 18).foldl (fun s k => s.put F.OP_LANEMAP_LOCKED (laneCopy p 0 k) on) s).formBlocks p

/-- The link is cut: the retry buffer and every packet not complete are emptied, tree packets in the pool discarded, and
sequencing stops (R235, R300). -/
def State.cutLink (s : State) (p : Nat) : State :=
  let q := s.port p
  let s := q.rx.foldl (fun s r => s.freeParcels p r.vl r.res r.shared r.account none) s
  let trees := q.pool.filter (fun e => treePacket e.pkt)
  let s := trees.foldl (fun s e => s.freePooled p e) s
  let s := s.modPort p (fun q => { q with
    pool := q.pool.filter (fun e => !treePacket e.pkt), rx := [], tx := [], control := [], retry := [], replay := [], replayRun := 0
    replayAck := none, seqOn := false, askReplay := false, spareWait := [], closeSent := false, closeGot := false
    openSent := false, openGot := false, swap := none })
  s.put F.OP_PORTSTATE_ADMIT_PEER p 0

/-- A port moves to another state (Table 11-7), with everything that goes with leaving the old state and entering the
new one. -/
def State.movePort (s : State) (p new cause : Nat) : State :=
  let old := s.portState p
  if old = new then s
  else
    let waiting := (s.port p).spareWait
    let s := s.put F.OP_PORTSTATE_STATE p new
    let s := s.event evPortState 7 p (old + 8 * new + 2 ^ 8 * cause)
    let s := if old = PS.ADMITTED then s.leaveService p else s
    let s := if new = PS.DRAINING then s
      else if old = PS.ADMITTED || old = PS.DRAINING then s.flushStaging p (new = PS.QUARANTINE)
      else if new = PS.TRAINING || new = PS.DOWN || new = PS.DARK then s.flushStaging p false
      else s
    let s := if new = PS.TRAINING || new = PS.DOWN || new = PS.DARK then (s.cutLink p).startTraining p else s
    let s := if new = PS.TRAINING || new = PS.DOWN then
        waiting.foldl (fun s w => s.finalAnswer w.2 (s.responseWords AC.LANE_SPARE AS.REFUSED w.2.tag DT.NO_SPARE [])) s
      else s
    let s := if s.flag F.AL_LOCK_HELD 0 && s.get F.AL_LOCK_SRC 0 = 2 && s.get F.AL_LOCK_ID 0 = s.logical p
        && 3 ≤ old && old ≤ 5 && !(3 ≤ new && new ≤ 5) then s.breakLock 1 else s
    let s := if new = PS.TRAINING then
        let s := if 2 ≤ old && old ≤ 5 then s.sat F.OP_ERRCNT_RETRAINS p else s
        (s.put F.OP_PORTCTL_ADMIT p 0).showAdmit p
      else if new = PS.KEYING then
        let s := (s.put F.OP_PORTSTATE_TRAIN_FAILS p 0).modPort p (fun q => { q with
          downHold := 1, key := { Keying.initial with planCrypt := s.get F.OP_PLAN_CRYPT (s.logical p) } })
        s.startKeying p false
      else if new = PS.DRAINING then
        (s.control p (BitVec.ofNat 2048 CM.PORT_CLOSE)).modPort p (fun q => { q with closeSent := true })
      else if new = PS.QUARANTINE then
        (s.modPort p (fun q => { q with closeSent := false, closeGot := false, openSent := false, openGot := q.openGot && old == PS.KEYING })).put
          F.OP_PORTSTATE_ADMIT_PEER p (b2n ((s.port p).openGot && old == PS.KEYING))
      else s
    s.showLight p

/-! ### Keying's messages (R291 to R294) -/

/-- PORT_OPEN goes out once both verdicts are OK and this end is locally admitted; ADMITTED once it has been sent and
received (R292). -/
def State.tryOpen (s : State) (p cause : Nat) : State :=
  if s.portState p != PS.QUARANTINE || !s.verdictsOk p || !s.localAdmit p || !(s.port p).seqOn then s
  else
    let s := if (s.port p).openSent then s
      else (s.control p (BitVec.ofNat 2048 CM.PORT_OPEN)).modPort p (fun q => { q with openSent := true })
    if (s.port p).openGot then s.movePort p PS.ADMITTED cause else s

/-- Keying ends once both results have been exchanged and the pool is empty where sequencing has to start (R283, R292,
R300): keys are derived, and the port goes to QUARANTINE or ADMITTED, or an ADMITTED port drains (R324). -/
def State.endKeying (s : State) (p : Nat) : State :=
  let q := s.port p
  match q.key.offer with
  | none => s
  | some o =>
    if !q.key.ownDone || !q.key.peerDone || !s.inData p then s
    else if !q.seqOn && !q.pool.isEmpty then s
    else
      let s := s.deriveKeys p
      let s := if !q.seqOn then s.startSeq p o
        else if s.portState p = PS.QUARANTINE then
          s.modPort p (fun x => { x with key := { x.key with crypt := s.get F.OP_PORTSTATE_CRYPT p } })
        else s
      if s.portState p = PS.ADMITTED then (if s.verdictsOk p then s else s.movePort p PS.DRAINING PC.KEYED)
      else
        let s := if s.portState p = PS.KEYING then s.movePort p PS.QUARANTINE PC.KEYED else s
        (s.tryOpen p (if q.openGot then PC.KEYED else PC.OPEN)).cableSwap p

/-- KEY_OFFER received: checked under Table 11-6 and answered with KEY_RESULT. -/
def execKeyOffer (p : Fin 6) (payload : BitVec 2048) (s : State) : Host.Outcome State Fault Refusal :=
  live s (fun s =>
    if !s.inData p.val || !s.alornRuns || cget payload 0 8 != CM.KEY_OFFER then s
    else
      let s := s.modPort p.val (fun q => { q with key := { q.key with offer := some payload, ownDone := true } })
      let s := s.judgeOffer p.val payload
      ((s.control p.val (s.keyResultOf p.val)).endKeying p.val).flow)

/-- KEY_RESULT received: the peer's verdict is taken and answered with this end's own, once it has one. -/
def execKeyResult (p : Fin 6) (payload : BitVec 2048) (s : State) : Host.Outcome State Fault Refusal :=
  live s (fun s =>
    if !s.inData p.val || !s.alornRuns || cget payload 0 8 != CM.KEY_RESULT then s
    else
      let s := s.put F.OP_PORTSTATE_PEER_VERDICT p.val (cget payload 8 8)
      let s := s.modPort p.val (fun q => { q with key := { q.key with
        peerDone := true, peerExpects := BitVec.ofNat 16 (cget payload 32 12 + 2 ^ 12 * cget payload 48 3) } })
      let s := if (s.port p.val).key.ownDone then s.control p.val (s.keyResultOf p.val) else s
      (s.endKeying p.val).flow)

/-- PORT_OPEN received: with both verdicts OK and local admission the port becomes ADMITTED; answered once while this end
is locally admitted (Table 11-4). -/
def execPortOpen (p : Fin 6) (s : State) : Host.Outcome State Fault Refusal :=
  live s (fun s =>
    if !s.inData p.val then s
    else
      let st := s.portState p.val
      if st = PS.DRAINING then s
      else
        let s := (s.modPort p.val (fun q => { q with openGot := true })).put F.OP_PORTSTATE_ADMIT_PEER p.val 1
        let sent := (s.port p.val).openSent
        let s := if s.localAdmit p.val && s.verdictsOk p.val && sent then s.control p.val (BitVec.ofNat 2048 CM.PORT_OPEN) else s
        (s.tryOpen p.val PC.OPEN).flow)

/-- PORT_CLOSE received: an ADMITTED port drains; answered once each time while draining (Table 11-4). -/
def execPortClose (p : Fin 6) (s : State) : Host.Outcome State Fault Refusal :=
  live s (fun s =>
    let st := s.portState p.val
    if st = PS.ADMITTED then ((s.movePort p.val PS.DRAINING PC.CLOSE).modPort p.val (fun q => { q with closeGot := true })).flow
    else if st = PS.DRAINING then
      (s.control p.val (BitVec.ofNat 2048 CM.PORT_CLOSE)).modPort p.val (fun q => { q with closeGot := true })
    else s)

/-- The PATCH_REQ of a Patch in progress (Table 11-4). -/
def patchMessage (x : Patch) : BitVec 2048 :=
  cput (cput (cput (cput (BitVec.ofNat 2048 CM.PATCH_REQ) 8 8 x.logical) 16 8 x.src) 24 8 x.dst) 32 16 x.id

/-- CONTROL_REPEAT_EXPIRY: a message is sent again while what it waits for has not come (Table 11-4). -/
def execControlRepeatExpiry (p : Fin 6) (msg : Repeated) (s : State) : Host.Outcome State Fault Refusal :=
  live s (fun s =>
    let q := s.port p.val
    if !s.inData p.val then s
    else
      match msg with
      | .keyOffer => if q.key.peerDone || q.key.own = 0 || !s.alornRuns then s else s.sendOffer p.val
      | .patchReq => q.patch.foldl (fun s x => s.control p.val (patchMessage x)) s
      | .portOpen => if q.openSent && !q.openGot then s.control p.val (BitVec.ofNat 2048 CM.PORT_OPEN) else s
      | .portClose => if q.closeSent && !q.closeGot then s.control p.val (BitVec.ofNat 2048 CM.PORT_CLOSE) else s)

/-! ### Timers and light (Table 11-7) -/

/-- LIGHT_DETECTED: light held on at least 16 lanes for 1 ms. -/
def execLightDetected (p : Fin 6) (s : State) : Host.Outcome State Fault Refusal :=
  live s (fun s => if s.portState p.val = PS.DARK && !s.lkLost then (s.movePort p.val PS.TRAINING PC.LIGHT).flow else s)

/-- Every receive lane has lost its signal. -/
def State.allDark (s : State) (p : Nat) : State :=
  (List.range 18).foldl (fun s k => s.put F.OP_LANEMAP_LOS (laneCopy p 1 k) 1) s

/-- LIGHT_LOST on every lane: TRAINING goes to DARK, a later state to DOWN (R402). -/
def execLightLost (p : Fin 6) (s : State) : Host.Outcome State Fault Refusal :=
  live s (fun s =>
    let s := s.allDark p.val
    (if s.portState p.val = PS.TRAINING then s.movePort p.val PS.DARK PC.LIGHT_LOST
     else if s.inData p.val then s.movePort p.val PS.DOWN PC.SIGNAL_LOST
     else s).flow)

/-- LOSS_OF_SIGNAL on receive lanes `lanes`: more of them active than there are spares left takes the port DOWN. -/
def execLossOfSignal (p : Fin 6) (lanes : BitVec 18) (s : State) : Host.Outcome State Fault Refusal :=
  live s (fun s =>
    let lost := (List.range 18).filter (fun k => lanes.getLsbD k)
    let active := (lost.filter (fun k => s.get F.OP_LANEMAP_LOGICAL (laneCopy p.val 1 k) < 16)).length
    let s := lost.foldl (fun s k => s.put F.OP_LANEMAP_LOS (laneCopy p.val 1 k) 1) s
    if s.inData p.val && s.get F.OP_PORTSTATE_SPARES p.val < active then (s.movePort p.val PS.DOWN PC.SIGNAL_LOST).flow else s)

/-- RETRAIN_EXPIRY: training not done; the failure is counted and the hold time doubles, up to 64 s. -/
def execRetrainExpiry (p : Fin 6) (s : State) : Host.Outcome State Fault Refusal :=
  live s (fun s =>
    if s.portState p.val != PS.TRAINING then s
    else
      let s := s.sat F.OP_PORTSTATE_TRAIN_FAILS p.val
      let s := s.modPort p.val (fun q => { q with downHold := Nat.min 64 (2 * q.downHold) })
      (s.movePort p.val PS.DOWN PC.RETRAIN).flow)

/-- KEY_TIMEOUT_EXPIRY: Keying not finished. -/
def execKeyTimeoutExpiry (p : Fin 6) (s : State) : Host.Outcome State Fault Refusal :=
  live s (fun s => if s.portState p.val = PS.KEYING then (s.movePort p.val PS.DOWN PC.KEY_TIMEOUT).flow else s)

/-- DRAIN_COMPLETE: staging empty, every parcel acknowledged and PORT_CLOSE both ways (R299). -/
def execDrainComplete (p : Fin 6) (s : State) : Host.Outcome State Fault Refusal :=
  live s (fun s =>
    let q := s.port p.val
    if s.portState p.val = PS.DRAINING && (q.staging.all (fun t => t.vl == 1)) && q.retry.isEmpty && q.tx.isEmpty && q.closeSent && q.closeGot
    then (s.movePort p.val PS.QUARANTINE PC.DRAINED).flow else s)

/-- DRAIN_LIMIT_EXPIRY: the port leaves DRAINING with what staging still holds treated under R122. -/
def execDrainLimitExpiry (p : Fin 6) (s : State) : Host.Outcome State Fault Refusal :=
  live s (fun s => if s.portState p.val = PS.DRAINING then (s.movePort p.val PS.QUARANTINE PC.DRAIN_LIMIT).flow else s)

/-- DOWN_HOLD_EXPIRY: the hold time is over, with light present or not. -/
def execDownHoldExpiry (p : Fin 6) (light : Bool) (s : State) : Host.Outcome State Fault Refusal :=
  live s (fun s =>
    if s.portState p.val != PS.DOWN || s.flag F.OP_PORTCTL_HOLD_DOWN p.val || s.lkLost then s
    else (s.movePort p.val (if light then PS.TRAINING else PS.DARK) PC.HOLD_OVER).flow)

/-- ACK_STALL: ACK has not advanced for the Patch budget while parcels are unacknowledged (R286). -/
def execAckStall (p : Fin 6) (s : State) : Host.Outcome State Fault Refusal :=
  live s (fun s =>
    if s.inData p.val && !(s.port p.val).retry.isEmpty then (s.movePort p.val PS.TRAINING PC.ACK_STALL).flow else s)

/-- Every port goes DOWN while CLK_LK is absent (R382). -/
def State.allDown (s : State) : State :=
  (List.range 6).foldl (fun s p => s.movePort p PS.DOWN PC.SIGNAL_LOST) s

/-- CLK_LK_LOST. -/
def execClkLkLost (s : State) : Host.Outcome State Fault Refusal :=
  live s (fun s => (({ s with lkLost := true } : State).allDown).flow)

end Sys2Proof.Machine
end

