-- ==== Sys2Proof/Machine/Ingress.lean ====
section
/-! DEFINITION. What the receiving side of an optical port does with packets from the fibre: the rewriting of PARTITION,
the choice of the next resource, refusals, and the way on (R28, R105, R115 to R130, R298, R383). Here `p` is the
physical port. -/

namespace Sys2Proof.Machine

/-- A packet leaves the receive pool; its parcels are freed. -/
def State.dropPooled (s : State) (p : Nat) (e : Pooled) : State :=
  (s.modPort p (fun q => { q with pool := q.pool.erase e })).freePooled p e

/-- The receiving port answers a request, a management request among them, or discards a reply (R93, R117, R120, R122,
R130). -/
def State.answerIngress (s : State) (p st : Nat) (pkt : Packet) : State :=
  let cls := classOf (pget pkt H.OPCODE)
  if cls = some .request || (cls = some .management && !pflag pkt H.RESPONSE) then s.nack (280 + s.logical p) pkt st else s

/-- The refusal that counts the packet in ROUTE of OP_ERRCNT and, with an event, logs it. -/
def State.refuseIngress (s : State) (p st : Nat) (log : Option Event) (pkt : Packet) : State :=
  let s := s.sat F.OP_ERRCNT_ROUTE p
  let s := match log with
    | some e => s.headEvent e 7 p pkt
    | none => s
  s.answerIngress p st pkt

/-- The RK_TRANSIT entry that grants transit of a job arriving at a logical port, in the tables of parity `e` (R130). -/
def State.transitGrant (s : State) (e l job : Nat) : Option Nat :=
  (List.range 64).find? (fun n => s.flagE e F.RK_TRANSIT_VALID n && s.getE e F.RK_TRANSIT_SIDE n == 0
    && s.getE e F.RK_TRANSIT_JOB n == job && s.getE e F.RK_TRANSIT_PORT n == l)

/-- PARTITION as an arriving packet gets it: the partition that holds its job, or zero (R105). -/
def State.rewritePart (s : State) (pkt : Packet) : Packet :=
  pset pkt [(H.PARTITION, (s.partOfJob (pget pkt H.JOB)).getD 0)]

/-- Whether a turn from logical port `q` to `l` obeys R117. -/
def turnAllowed (q l : Nat) : Bool := l < 6 && (l == opposite q || axis q < axis l)

/-- What becomes of a packet on arrival. -/
inductive Fate where
  | queue (n : Next) (grant : Option Nat)
  /-- refused with a status; counted in ROUTE; the event logged -/
  | refuse (st : Nat) (log : Option Event)
  /-- transit that is not granted, or that is addressed to this chip: counted in ROUTE, not logged (R105, R130) -/
  | noTransit
  /-- a MGMT packet for another chip (R119) -/
  | strayMgmt
  /-- a tree packet at a port not ADMITTED (R235) -/
  | deadTree
deriving DecidableEq, Repr

/-- The next resource of a MGMT packet (R119, R120, R337). -/
def State.mgmtFate (s : State) (pkt : Packet) : Fate :=
  let ep := pget pkt H.DST_EP
  if pget pkt H.DST_CHIP != s.own && s.flag F.RK_COORDS_SET then .strayMgmt
  else if ep = 287 then .queue .alorn none
  else if (280 ≤ ep && ep < 286) || !s.present ep then .refuse St.RANGE (some evRouteTurn)
  else .queue .die none

/-- A packet as it goes on from the receive pool: PARTITION of this chip, and before SET_COORDS a MGMT packet is taken as addressed
to it (R105, R337). -/
def State.entering (s : State) (pkt : Packet) : Packet :=
  let q := s.rewritePart pkt
  if classOf (pget pkt H.OPCODE) = some .management && !s.flag F.RK_COORDS_SET then pset q [(H.DST_CHIP, s.own)] else q

/-- The next resource of a request or reply, by the tables its EPOCH selects (R28, R105, R115 to R122, R126, R130). -/
def State.unicastFate (s : State) (l : Nat) (pkt : Packet) : Fate :=
  let e := pget pkt H.EPOCH
  let here := pget pkt H.DST_CHIP == s.own
  let transit := (s.partOfJob (pget pkt H.JOB)).isNone
  let grant := if s.transitOff then none else s.transitGrant e l (pget pkt H.JOB)
  let ep := pget pkt H.DST_EP
  if here && ((280 ≤ ep && ep < 286) || !s.present ep) then .refuse St.RANGE (some evRouteTurn)
  else if transit && (here || grant.isNone) then .noTransit
  else if here then .queue .die none
  else
    let o := s.getE e F.RK_CHIPROUTE_PORT (pget pkt H.DST_CHIP)
    if !turnAllowed l o then .refuse St.RANGE (some evRouteTurn)
    else if !s.admitted (s.physOf o) || s.window (egwin o (winClass pkt) (22 + l)) = 0 then .refuse St.UNREACHABLE none
    else .queue (.egress o) (if transit then grant else none)

/-- What becomes of a packet that arrived through physical port `p`. A tree packet is addressed to this chip at every hop, so
one whose job has no partition here is refused (R103, R105). -/
def State.fate (s : State) (p : Nat) (pkt : Packet) : Fate :=
  if classOf (pget pkt H.OPCODE) = some .management then s.mgmtFate pkt
  else if treePacket pkt && (s.partOfJob (pget pkt H.JOB)).isNone then .noTransit
  else if treePacket pkt then (if s.admitted p then .queue .screed none else .deadTree)
  else s.unicastFate (s.logical p) pkt

/-- A packet from the fibre takes its next resource, or is refused; `e` is its entry in the pool. -/
def State.ingress (s : State) (p : Nat) (e : Pooled) (pkt : Packet) : State :=
  let l := s.logical p
  let gone := s.dropPooled p e
  let pkt' := s.entering pkt
  match s.fate p pkt with
  | .refuse st log => gone.refuseIngress p st log pkt'
  | .noTransit => gone.refuseIngress p St.RANGE none pkt'
  | .strayMgmt => gone.headEvent evRouteTurn 7 p pkt
  | .deadTree => if pget pkt H.OPCODE = Op.RED_UP || pget pkt H.OPCODE = Op.RED_DOWN then
      gone.raiseAbort (280 + l) (pget pkt H.GROUP) (pget pkt H.SEQ) St.UNREACHABLE 5 else gone
  | .queue n grant =>
    let e' := { e with next := n, pkt := pkt', grant := grant }
    let pool := (s.port p).pool
    let s := s.modPort p (fun q => { q with pool := if pool.contains e then pool.replace e e' else pool ++ [e'] })
    let s := match grant with
      | some k => s.put F.RK_TRANSIT_OCCUPANCY k (s.get F.RK_TRANSIT_OCCUPANCY k + e.shared)
      | none => s
    match n with
    | .egress o =>
      let w := egwin o (winClass pkt) (22 + l)
      if s.gateOpen (.window w) (flitsOf pkt).length then s else s.wrap F.OP_EGWIN_WAITS w
    | _ => s

/-- Keying ends once a pool that held it up is empty (R300). -/
def State.poolEmptied (s : State) (p : Nat) : State :=
  if !(s.port p).seqOn && (s.port p).pool.isEmpty then s.endKeying p else s

/-- PORT_INGRESS: a packet other than a Plumb message has come from the fibre on `vl`. In QUARANTINE a VL other than VL1
is closed: the packet is discarded and counted (R298). -/
def execPortIngress (p : Fin 6) (vl : Fin 6) (pkt : Packet) (s : State) : Host.Outcome State Fault Refusal :=
  live s (fun s =>
    let l := s.logical p.val
    let st := s.portState p.val
    match s.arrivedAt p.val vl.val pkt with
    | none => s
    | some e =>
      if !headerBad pkt && classOf (pget pkt H.OPCODE) = some .plumb then s
      else if st = PS.QUARANTINE && vl.val != 1 then (s.dropPooled p.val e).sat F.OP_ERRCNT_QDISCARD p.val
      else if headerBad pkt then ((s.dropPooled p.val e).discardHead evHeaderBad (280 + l) pkt).poolEmptied p.val
      else if (classOf (pget pkt H.OPCODE)).isNone then
        ((s.dropPooled p.val e).discardHead evBadOpcode (280 + l) pkt).poolEmptied p.val
      else ((s.ingress p.val e pkt).poolEmptied p.val).flow)

/-- Whether a Plumb packet's value is poisoned (R89, Table 4-2). -/
def plumbPoison (p : Packet) : Bool := pget p H.OPCODE == Op.SRED_UP && hasPoison p

/-- A sound Plumb packet leaves the pool in compact form for the port's Plumb out FIFO, which delivers it to both hubs, once there is
room (R66, R100, R253); the arrival of an input is timed (R271). -/
def State.plumbInward (s : State) (p : Nat) (e : Pooled) (pkt : Packet) : State :=
  let l := s.logical p
  let n := plumbOutOf p
  if s.room n = 0 then s
  else
    let s := s.dropPooled p e
    let m := s.compact pkt
    let op := M.OPCODE m
    let s := if (op = Op.BAR_ARRIVE || op = Op.SRED_UP) && (s.childPorts (M.EPOCH m) (M.GROUP m)).contains l
        && !s.abortRecorded (M.GROUP m) (M.SEQ m) then s.timeInput (M.EPOCH m) (M.GROUP m) (M.SEQ m) l else s
    (s.pushFifo n (plumbStage m (plumbPoison pkt))).poolEmptied p

/-- PLUMB_PORT_INGRESS: a packet on VL0 goes to the hubs; in QUARANTINE it is discarded and counted (R253, R298). -/
def execPlumbPortIngress (p : Fin 6) (pkt : Packet) (s : State) : Host.Outcome State Fault Refusal :=
  live s (fun s =>
    let l := s.logical p.val
    let cls := classOf (pget pkt H.OPCODE)
    match s.arrivedAt p.val 0 pkt with
    | none => s
    | some e =>
      if !headerBad pkt && cls.isSome && cls != some .plumb then s
      else if s.portState p.val = PS.QUARANTINE then (s.dropPooled p.val e).sat F.OP_ERRCNT_QDISCARD p.val
      else if headerBad pkt then ((s.dropPooled p.val e).discardHead evHeaderBad (280 + l) pkt).poolEmptied p.val
      else if cls.isNone then ((s.dropPooled p.val e).discardHead evBadOpcode (280 + l) pkt).poolEmptied p.val
      else s.plumbInward p.val e pkt)

/-- A pooled packet goes on to its next resource where that has room; its parcels are freed (R128, R288). -/
def State.forwardPooled (s : State) (p : Nat) (e : Pooled) : State :=
  let l := s.logical p
  let n := s.outFifo (280 + l) e.pkt
  let f := (flitsOf e.pkt).length
  let ontoDie (g : Gate) : State :=
    if f ≤ s.room n && s.gateOpen g f then (s.dropPooled p e).emit n g e.pkt else s
  match e.next with
  | .arrived => s
  | .die => ontoDie .free
  | .alorn => ontoDie .free
  | .egress o =>
    let w := egwin o (winClass e.pkt) (22 + l)
    if !s.admitted (s.physOf o) || s.window w = 0 then (s.dropPooled p e).refuseIngress p St.UNREACHABLE none e.pkt
    else ontoDie (.window w)
  | .screed => (s.treeArrive (256 + l) 1 e.pkt).getD s

/-- POOL_FORWARD: the packet at place `k` of the receive pool leaves towards its next resource. -/
def execPoolForward (p : Fin 6) (k : Nat) (s : State) : Host.Outcome State Fault Refusal :=
  live s (fun s =>
    match (s.port p.val).pool[k]? with
    | none => s
    | some e => if s.queuedBehind p.val k e then s else ((s.forwardPooled p.val e).poolEmptied p.val).flow)

end Sys2Proof.Machine
end

