-- ==== Sys2Proof/Machine/Lanes.lean ====
section
/-! DEFINITION. The lanes of an optical port: alignment blocks, training, Patch, and the lasers that light them (R272 to
R276, R301 to R305, R402, Tables 11-8 and 11-10). Here `p` is a physical port. -/

namespace Sys2Proof.Machine

def evLanePatch : Event := ⟨0x80A, 0⟩
def evPatchFail : Event := ⟨0x80B, 2⟩
def evLaserLow : Event := ⟨0x80C, 1⟩
def evLaserPulled : Event := ⟨0x80D, 1⟩
def evLaserFault : Event := ⟨0x80E, 2⟩
def evLaserFeed : Event := ⟨0x80F, 2⟩

/-- Locked spare receive lanes, rising. -/
def State.lockedSpares (s : State) (p : Nat) : List Nat :=
  (List.range 18).filter (fun l => s.laneOf p 1 l == LM.SPARE && s.rxLocked p l)

/-- SPARES of OP_PORTSTATE counts them. -/
def State.showSpares (s : State) (p : Nat) : State := s.put F.OP_PORTSTATE_SPARES p (s.lockedSpares p).length

/-! ### Patch (R301 to R303) -/

/-- The argument of LANE_PATCH and PATCH_FAIL: direction 0 receive, 1 transmit. -/
def patchArg (x : Patch) (dir : Nat) : Nat := x.logical + 2 ^ 4 * x.src + 2 ^ 9 * x.dst + 2 ^ 14 * dir + 2 ^ 16 * x.id

/-- Patch starts for an active receive lane: the lowest locked spare is asked for with a new PATCH_ID; without one the
port goes to TRAINING. It is not started twice for a lane, nor on a lane that carries MODE 0 frames (R402). -/
def State.startPatch (s : State) (p l : Nat) : State :=
  let q := s.port p
  if !s.inData p || 16 ≤ s.laneOf p 1 l || q.patch.any (fun x => x.src == l) || (lookup q.mode0 l).getD 0 != 0 then s
  else
    match (s.lockedSpares p).find? (fun d => !q.patch.any (fun x => x.dst == d)) with
    | none => s.movePort p PS.TRAINING PC.NO_SPARE
    | some d =>
      let x : Patch := ⟨s.laneOf p 1 l, l, d, (q.patchId + 1) % 1024⟩
      (s.modPort p (fun q => { q with patch := q.patch ++ [x], patchId := x.id })).control p (patchMessage x)

/-- The receiver moves a logical lane to the spare that now carries it; a LANE_SPARE that waits for it is answered. -/
def State.switchLane (s : State) (p : Nat) (x : Patch) : State :=
  let s := (s.setLane p 1 x.dst x.logical).setLane p 1 x.src LM.RETIRED
  let s := ((s.sat F.OP_ERRCNT_PATCHES p).event evLanePatch 7 p (patchArg x 0)).showSpares p
  let asked := (s.port p).spareWait.filter (fun w => w.1 == x.src)
  let s := s.modPort p (fun q => { q with patch := q.patch.erase x, spareWait := q.spareWait.filter (fun w => w.1 != x.src) })
  asked.foldl (fun s w => s.finalAnswer w.2 (s.responseWords AC.LANE_SPARE AS.OK w.2.tag 0 [])) s

/-- PATCH_REQ received: taken where its from-lane carries the logical lane and its to-lane is a spare (R302). -/
def execPatchReq (p : Fin 6) (payload : BitVec 2048) (s : State) : Host.Outcome State Fault Refusal :=
  live s (fun s =>
    let x : Patch := ⟨cget payload 8 8, cget payload 16 8, cget payload 24 8, cget payload 32 10⟩
    let q := s.port p.val
    if !s.inData p.val || cget payload 0 8 != CM.PATCH_REQ || 16 ≤ x.logical || 18 ≤ x.src || 18 ≤ x.dst
        || s.laneOf p.val 0 x.src != x.logical || s.laneOf p.val 0 x.dst != LM.SPARE || q.txPatch.contains x then s
    else s.modPort p.val (fun q => { q with txPatch := q.txPatch ++ [x] }))

/-- The transmitter applies a request that still meets the conditions of R302. -/
def State.applyPatch (s : State) (p : Nat) (x : Patch) : State :=
  if s.laneOf p 0 x.src != x.logical || s.laneOf p 0 x.dst != LM.SPARE then s
  else
    let s := (s.setLane p 0 x.dst x.logical).setLane p 0 x.src LM.RETIRED
    ((s.modPort p (fun q => { q with txPatchId := x.id })).sat F.OP_ERRCNT_PATCHES p).event evLanePatch 7 p (patchArg x 1)

/-- PATCH_APPLY: the first frame that begins at least 1 µs after the request; its alignment blocks carry the PATCH_ID (R302). -/
def execPatchApply (p : Fin 6) (s : State) : Host.Outcome State Fault Refusal :=
  live s (fun s =>
    let xs := (s.port p.val).txPatch
    (xs.foldl (fun s x => s.applyPatch p.val x) (s.modPort p.val (fun q => { q with txPatch := [] }))).formBlocks p.val)

/-- PATCH_FAIL: the receiver has not switched within the Patch budget. -/
def execPatchFail (p : Fin 6) (s : State) : Host.Outcome State Fault Refusal :=
  live s (fun s =>
    match (s.port p.val).patch with
    | [] => s
    | x :: _ =>
      if !s.inData p.val then s
      else ((s.event evPatchFail 7 p.val (patchArg x 0)).movePort p.val PS.TRAINING PC.PATCH_BUDGET).flow)

/-- LANE_SIGNAL_LOST: a receive lane has lost its signal for 100 ns. -/
def execLaneSignalLost (p : Fin 6) (lane : Fin 18) (s : State) : Host.Outcome State Fault Refusal :=
  live s (fun s =>
    let k := laneCopy p.val 1 lane.val
    let s := ((s.put F.OP_LANEMAP_LOS k 1).put F.OP_LANEMAP_LOCKED k 0).showSpares p.val
    (s.startPatch p.val lane.val).flow)

/-- SER_WINDOW_EXPIRY: a window of 1 ms ends with the symbols that the decoder has corrected on a receive lane in it; above
PATCH_SER Patch starts. -/
def execSerWindowExpiry (p : Fin 6) (lane : Fin 18) (corrected : BitVec 20) (s : State) : Host.Outcome State Fault Refusal :=
  live s (fun s =>
    let n := (lookup (s.port p.val).corrected lane.val).getD 0
    if corrected.toNat != Nat.min 0xFFFFF n then s
    else
      let s := s.modPort p.val (fun q => { q with corrected := remove q.corrected lane.val })
      let s := s.put F.OP_LANEMAP_SER (laneCopy p.val 1 lane.val) corrected.toNat
      (if s.tuneOf 8 65536 < n then s.startPatch p.val lane.val else s).flow)

/-! ### Alignment blocks (Table 11-2, Table 11-8) -/

/-- Symbol `k` of an alignment block. -/
def sym (b : BitVec 340) (k : Nat) : Nat := (b.extractLsb' (10 * k) 10).toNat

namespace AB
def LOGICAL (b : BitVec 340) : Nat := sym b 17
def FRAME (b : BitVec 340) : Nat := (b.extractLsb' 180 40).toNat
def MODE (b : BitVec 340) : Nat := sym b 22
def RXLOCK (b : BitVec 340) : Nat := (b.extractLsb' 230 18).toNat
def TRAIN_DONE (b : BitVec 340) : Bool := sym b 25 % 2 = 1
end AB

/-- PATTERN and CHECK of a block hold. -/
def blockGood (b : BitVec 340) : Bool :=
  (List.range 16).all (fun k => sym b k == if k % 2 = 0 then 0x155 else 0x2AA)
    && sym b 33 == ((List.range 17).map (fun k => sym b (16 + k))).foldl Nat.xor 0

/-- LOGICAL of OP_LANEMAP as a block names it. -/
def blockLane (b : BitVec 340) : Option Nat :=
  let n := AB.LOGICAL b
  if n < 16 then some n else if n = 0x3FE then some LM.SPARE else if n = 0x3FF then some LM.RETIRED else none

/-- Step 3 of Table 11-8: logical lanes on the 16 lowest lanes the peer has locked, spares on its other locked lanes. -/
def State.assignTx (s : State) (p rxlock : Nat) : State :=
  let locked := bitsOf 18 rxlock
  (List.range 18).foldl (fun s l => s.setLane p 0 l (match locked.idxOf? l with
    | some k => if k < 16 then k else LM.SPARE
    | none => LM.RETIRED)) s

/-- Whether all 16 logical lanes are mapped onto locked receive lanes. -/
def State.rxMapped (s : State) (p : Nat) : Bool :=
  (List.range 16).all (fun n => (List.range 18).any (fun l => s.laneOf p 1 l == n && s.rxLocked p l))

/-- What a new frame brings in TRAINING: RXLOCK towards the assignment of lanes, and a clean frame towards TRAIN_DONE. -/
def State.trainFrame (s : State) (p : Nat) (b : BitVec 340) : State :=
  let run := if 16 ≤ popcount 18 (AB.RXLOCK b) then (s.port p).rxlockRun + 1 else 0
  let s := if run = 2 && s.laneOf p 0 0 = LM.UNTRAINED then s.assignTx p (AB.RXLOCK b) else s
  let clean := if s.rxMapped p && (s.port p).frameClean then (s.port p).cleanRun + 1 else 0
  (s.modPort p (fun q => { q with
    rxFrame := some (AB.FRAME b), rxlockRun := run, cleanRun := clean, trainDone := q.trainDone || 15 < clean, frameClean := true })).formBlocks p

/-- A block's part in the lane map: lock after four good ones in a row, and the logical lane it names. -/
def State.mapLane (s : State) (p l : Nat) (b : BitVec 340) : State :=
  let s := if 3 < (lookup (s.port p).good l).getD 0 then s.put F.OP_LANEMAP_LOCKED (laneCopy p 1 l) 1 else s
  match blockLane b with
  | some n => (s.setLane p 1 l n).showSpares p
  | none => s.showSpares p

/-- What a block says of the peer: TRAIN_DONE, and MODE 1 on logical lane `n`; MODE 1 is sent from step 5 on. -/
def Port.hearBlock (q : Port) (n : Nat) (b : BitVec 340) : Port :=
  let done := q.peerDone || AB.TRAIN_DONE b
  { q with peerDone := done, sendData := q.trainDone && done
           mode1 := if AB.MODE b == 1 && n < 16 then setBit q.mode1 n else q.mode1 }

/-- Counts the PRBS31 errors of a lane; on a logical lane any of them, or skew above 100 ns, spoils the frame for step 4 of
Table 11-8 (R276). -/
def Port.noteNoise (q : Port) (l errors skew : Nat) (logical : Bool) : Port :=
  { q with prbsErrs := assign q.prbsErrs l ((lookup q.prbsErrs l).getD 0 + errors) 0
           frameClean := q.frameClean && (!logical || (errors == 0 && skew ≤ 100)) }

/-- A good block in TRAINING; KEYING follows once MODE 1 is seen on every logical lane. -/
def State.trainBlock (s : State) (p l : Nat) (b : BitVec 340) (errors skew : Nat) : State :=
  let s := s.mapLane p l b
  let s := if (s.port p).rxFrame == some (AB.FRAME b) then s else s.trainFrame p b
  let s := s.modPort p (fun q => q.noteNoise l errors skew (s.laneOf p 1 l < 16))
  let s := s.modPort p (fun q => q.hearBlock (s.laneOf p 1 l) b)
  let q := s.port p
  if q.trainDone && q.peerDone && popcount 16 q.mode1 == 16 then s.movePort p PS.KEYING PC.TRAINED else s

/-- A good block in data mode: PRBS31 errors on a lane that carries no logical lane are counted; the switch of a Patch, and MODE 0
on every logical lane for two frames (R276, R302, R402). -/
def State.dataBlock (s : State) (p l : Nat) (b : BitVec 340) (errors : Nat) : State :=
  let s := if 16 ≤ s.laneOf p 1 l then s.modPort p (fun q => q.noteNoise l errors 0 false) else s
  let s := s.modPort p (fun q => { q with
    mode0 := assign q.mode0 l (if AB.MODE b = 0 then (lookup q.mode0 l).getD 0 + 1 else 0) 0 })
  let s := match (s.port p).patch.find? (fun x => x.dst == l && x.logical == AB.LOGICAL b) with
    | some x => s.switchLane p x
    | none => s
  let active := (List.range 18).filter (fun k => s.laneOf p 1 k < 16)
  if active.all (fun k => 2 ≤ (lookup (s.port p).mode0 k).getD 0) then s.movePort p PS.TRAINING PC.PEER_TRAINS else s

/-- ALIGNMENT_BLOCK_RECEIVE: a block on a receive lane. A bad one is ignored and counted against its lane, and two in a
row on an active lane start Patch (R276, R301). -/
def execAlignmentBlockReceive (p : Fin 6) (lane : Fin 18) (b : HeardBlock) (s : State) : Host.Outcome State Fault Refusal :=
  live s (fun s =>
    let l := lane.val
    if s.portState p.val != PS.TRAINING && !s.inData p.val then s
    else if !blockGood b.block then
      let bad := (lookup (s.port p.val).badBlk l).getD 0 + 1
      let s := s.modPort p.val (fun q => { q with badBlk := upsert q.badBlk l bad, good := remove q.good l })
      (if 2 ≤ bad then s.startPatch p.val l else s).flow
    else
      let s := s.modPort p.val (fun q => { q with
        badBlk := remove q.badBlk l, good := upsert q.good l ((lookup q.good l).getD 0 + 1) })
      let s := s.put F.OP_LANEMAP_LOS (laneCopy p.val 1 l) 0
      (if s.portState p.val = PS.TRAINING then s.trainBlock p.val l b.block b.errors.toNat b.skew.toNat
       else s.dataBlock p.val l b.block b.errors.toNat).flow)

/-! ### Lasers (R304, R305, Table 11-10) -/

/-! STATE of OP_LASER. -/
namespace LS
def EMPTY : Nat := 0
def INSERTED : Nat := 1
def RAMPING : Nat := 2
def RUN : Nat := 3
def PREPARED : Nat := 4
def FAULT : Nat := 5
end LS

def State.laserState (s : State) (k : Nat) : Nat := s.get F.OP_LASER_STATE k

/-- Whether a slot gives light, which the module splits into two feeds for each port. -/
def State.lit (s : State) : Bool := (List.range 8).any (fun k => s.laserState k == LS.RUN || s.laserState k == LS.RAMPING)

/-- TXPOWER of the lanes of a port: nominal with both feeds, 3 dB below it with one (R304, R305). -/
def State.showPower (s : State) (p : Nat) : State :=
  let n := b2n (s.flag F.OP_PORTSTATE_FEED_A p) + b2n (s.flag F.OP_PORTSTATE_FEED_B p)
  let w : BitVec 11 := if n = 0 then Config.darkPower else if n = 1 then Config.nominalPower - 30 else Config.nominalPower
  (List.range 18).foldl (fun s l => s.put F.OP_LANEMAP_POWER (laneCopy p 0 l) w.toNat) s

/-- Sets or clears one feed of a port. -/
def State.setFeed (s : State) (p feed v : Nat) : State :=
  (s.put (if feed = 0 then F.OP_PORTSTATE_FEED_A else F.OP_PORTSTATE_FEED_B) p v).showPower p

/-- A port without either feed is dark and goes DOWN, from the states in which loss of signal takes it there (R305,
Table 11-7). -/
def State.darken (s : State) (p : Nat) : State :=
  if s.flag F.OP_PORTSTATE_FEED_A p || s.flag F.OP_PORTSTATE_FEED_B p || !s.inData p then s
  else s.movePort p PS.DOWN PC.SIGNAL_LOST

/-- The first slot that gives light lights both feeds of every port, and the last that goes leaves every port dark; `was`
tells whether there was light. -/
def State.relight (was : Bool) (s : State) : State :=
  let feeds (v : Nat) (s : State) : State := (List.range 6).foldl (fun s p => (s.setFeed p 0 v).setFeed p 1 v) s
  if s.lit = was then s
  else if s.lit then feeds 1 s
  else ((List.range 6).foldl State.darken (feeds 0 s)).flow

/-- The slots other than `k` that run are raised to full rating. -/
def State.raiseOthers (s : State) (k : Nat) : State :=
  (List.range 8).foldl (fun s j => if j != k && s.laserState j = LS.RUN then s.put F.OP_LASER_LEVEL j 100 else s) s

/-- A laser command that runs on a slot ends as refused (Tables 13-4 and 13-6). -/
def State.endLaser (s : State) (k : Nat) : State :=
  (s.endAll AC.LASER_PREPARE (fun a => a == k) AS.REFUSED DT.SLOT_STATE).endAll AC.LASER_RESTORE (fun a => a == k) AS.REFUSED
    DT.SLOT_STATE

/-- LASER_SLOT_REMOVED: a slot pulled prepared goes EMPTY; one pulled unprepared is counted and logged, and the others
are raised to full rating. -/
def execLaserSlotRemoved (k : Fin 8) (s : State) : Host.Outcome State Fault Refusal :=
  live s (fun s =>
    let st := s.laserState k.val
    let was := s.lit
    if st = LS.EMPTY then s
    else
      let quiet := st = LS.PREPARED || st = LS.INSERTED || st = LS.FAULT
      let s := ((s.put F.OP_LASER_STATE k.val LS.EMPTY).put F.OP_LASER_LEVEL k.val 0).put F.OP_LASER_OUTPUT k.val 0
      let s := ({ s with ramps := remove s.ramps k.val } : State).endLaser k.val
      if quiet then s
      else (((s.sat F.OP_LASER_FAULTS k.val).event evLaserPulled 7 k.val).raiseOthers k.val).relight was)

/-- LASER_SLOT_INSERTED. -/
def execLaserSlotInserted (k : Fin 8) (s : State) : Host.Outcome State Fault Refusal :=
  live s (fun s => if s.laserState k.val = LS.EMPTY then s.put F.OP_LASER_STATE k.val LS.INSERTED else s)

/-- LASER_FAULT: a slot that lights fails, with its measured output. -/
def execLaserFault (k : Fin 8) (output : BitVec 12) (s : State) : Host.Outcome State Fault Refusal :=
  live s (fun s =>
    let st := s.laserState k.val
    let was := s.lit
    if st != LS.RAMPING && st != LS.RUN then s
    else
      let s := (s.put F.OP_LASER_STATE k.val LS.FAULT).put F.OP_LASER_OUTPUT k.val output.toNat
      let s := ({ s with ramps := remove s.ramps k.val } : State).endLaser k.val
      (((s.sat F.OP_LASER_FAULTS k.val).event evLaserFault 7 k.val output.toNat).raiseOthers k.val).relight was)

/-- LASER_FEED: a lit feed of a port is lost (0 A, 1 B): its lanes fall 3 dB; without either the port is dark and goes DOWN. -/
def execLaserFeed (p : Fin 6) (feed : Fin 2) (s : State) : Host.Outcome State Fault Refusal :=
  live s (fun s =>
    if !s.flag (if feed.val = 0 then F.OP_PORTSTATE_FEED_A else F.OP_PORTSTATE_FEED_B) p.val then s
    else (((s.setFeed p.val feed.val 0).event evLaserFeed 7 p.val feed.val).darken p.val).flow)

/-- LASER_LOW: the transmit power of a lane has fallen 1 dB below nominal. More than 3.5 dB below it the port no longer runs
(R304): it goes DOWN (DESIGN CHOICE, log entry 18). -/
def execLaserLow (p : Fin 6) (lane : Fin 18) (power : BitVec 11) (s : State) : Host.Outcome State Fault Refusal :=
  live s (fun s =>
    let s := (s.put F.OP_LANEMAP_POWER (laneCopy p.val 0 lane.val) power.toNat).event evLaserLow 7 p.val
      (lane.val + 2 ^ 16 * power.toNat)
    if power.toInt + 35 < Config.nominalPower.toInt && s.inData p.val then (s.movePort p.val PS.DOWN PC.SIGNAL_LOST).flow
    else s)

/-- LASER_RAMP_DONE: a ramp reaches its target: PREPARED at zero, else RUN at 7/8 with the others back at 7/8; the
background command is answered. -/
def execLaserRampDone (k : Fin 8) (s : State) : Host.Outcome State Fault Refusal :=
  live s (fun s =>
    match lookup s.ramps k.val with
    | none => s
    | some target =>
      let was := s.lit
      let s : State := { s with ramps := remove s.ramps k.val }
      if target = 0 then
        let s := (((s.put F.OP_LASER_STATE k.val LS.PREPARED).put F.OP_LASER_LEVEL k.val 0).raiseOthers k.val).relight was
        s.endAll AC.LASER_PREPARE (fun a => a == k.val) AS.OK
      else
        let s := (s.put F.OP_LASER_STATE k.val LS.RUN).put F.OP_LASER_LEVEL k.val Config.sevenEighths.toNat
        let s := (List.range 8).foldl (fun s j =>
          if s.laserState j = LS.RUN then s.put F.OP_LASER_LEVEL j Config.sevenEighths.toNat else s) s
        s.endAll AC.LASER_RESTORE (fun a => a == k.val) AS.OK)

end Sys2Proof.Machine
end

