-- ==== Sys2Proof/Machine/Link.lean ====
section
/-! DEFINITION. The link protocol of an optical port: parcels and their credit, sequence, acknowledgement and replay,
encryption, and link delay (R123, R131, R275 to R290, R295). Here `p` is a physical port. -/

namespace Sys2Proof.Machine

def evLinkAuth : Event := ⟨0x809, 1⟩

/-! ### The trailer (Table 11-3) -/

/-- A field of a parcel's trailer. -/
def tget (x : Parcel) (lo n : Nat) : Nat := (x >>> (2048 + lo)).toNat % 2 ^ n

/-- A parcel with a trailer field set. -/
def tput (x : Parcel) (lo n v : Nat) : Parcel :=
  let m : Parcel := BitVec.ofNat 2112 (2 ^ n - 1) <<< (2048 + lo)
  (x &&& ~~~m) ||| ((BitVec.ofNat 2112 v <<< (2048 + lo)) &&& m)

namespace TR
def TYPE (x : Parcel) : Nat := tget x 0 2
def VL (x : Parcel) : Nat := tget x 2 3
def START (x : Parcel) : Bool := tget x 5 1 != 0
def END (x : Parcel) : Bool := tget x 6 1 != 0
def POISON (x : Parcel) : Nat := tget x 7 4
def SHARED (x : Parcel) : Bool := tget x 11 1 != 0
def TRANSIT (x : Parcel) : Bool := tget x 12 1 != 0
def ACCOUNT (x : Parcel) : Nat := tget x 13 4
def SEQ (x : Parcel) : Nat := tget x 17 13
def ACK (x : Parcel) : Nat := tget x 30 13
def REPLAY (x : Parcel) : Bool := tget x 43 1 != 0
def CR_POOL (x : Parcel) : Nat := tget x 44 5
def CR_COUNT (x : Parcel) : Nat := tget x 49 12
/-- bits 16:2, as the additional data of R289 takes them -/
def AAD (x : Parcel) : Nat := tget x 2 15
end TR

/-! TYPE of a parcel. -/
namespace PT
def IDLE : Nat := 0
def DATA : Nat := 1
def TAG : Nat := 2
def CONTROL : Nat := 3
end PT

/-- A parcel's payload flits. -/
def parcelFlits (x : Parcel) : List Flit :=
  (List.range 4).map (fun j => ⟨x.extractLsb' (512 * j) 512, (TR.POISON x).testBit j⟩)

/-- A DATA parcel of up to four flits. -/
def dataParcel (vl : Nat) (start last shared : Bool) (account : Option Nat) (fs : List Flit) : Parcel :=
  let body : Parcel := (List.range fs.length).foldl
    (fun b j => b ||| ((fs.getD j ⟨0, false⟩).data.zeroExtend 2112 <<< (512 * j))) 0
  let poison := (List.range fs.length).foldl (fun n j => if (fs.getD j ⟨0, false⟩).poison then setBit n j else n) 0
  [(0, 2, PT.DATA), (2, 3, vl), (5, 1, b2n start), (6, 1, b2n last), (7, 4, poison), (11, 1, b2n shared),
    (12, 1, b2n account.isSome), (13, 4, account.getD 0)].foldl (fun b e => tput b e.1 e.2.1 e.2.2) body

/-- A TAG parcel (R289). -/
def tagParcel (vl : Nat) (tag : BitVec 128) : Parcel :=
  tput (tput (tag.zeroExtend 2112) 0 2 PT.TAG) 2 3 vl

/-- Replaces a parcel's payload by ciphertext flits; the trailer stays. -/
def fillParcel (x : Parcel) (ds : List (BitVec 512)) : Parcel :=
  ((x >>> 2048) <<< 2048) ||| (List.range ds.length).foldl
    (fun b j => b ||| ((ds.getD j 0).zeroExtend 2112 <<< (512 * j))) (0 : Parcel)

/-- The additional data of a packet's parcels: two octets each (R289). -/
def aadOf (xs : List Parcel) : List Byte := xs.flatMap (fun x => leBytes 2 (TR.AAD x))

/-- The IV of packet `n` of a VL (R289). -/
def ivOf (vl n : Nat) : BitVec 96 := BitVec.ofNat 96 (vl + 2 ^ 32 * (n % 2 ^ 64))

/-! ### Credit (R281, R287, R288, R131) -/

/-- Parcels outstanding on a pool: 0 to 5 the reserved part of a VL, 6 the shared part, 16 + account. -/
def State.outstanding (s : State) (p k : Nat) : Nat :=
  let q := s.port p
  ((lookup q.sent k).getD 0 + 4096 - (lookup q.crCount k).getD 0 % 4096) % 4096

/-- The valid SIDE 1 entry of a packet's job at the port it leaves through, by the tables of its EPOCH (R131); tree
packets, Plumb messages and management travel on no account. -/
def State.transitSide1 (s : State) (p : Nat) (pkt : Packet) : Option Nat :=
  let e := pget pkt H.EPOCH
  let cls := classOf (pget pkt H.OPCODE)
  if (cls = some .request || cls = some .reply) && !treePacket pkt && s.get F.OP_PORTSTATE_LEVEL p = 3 then
    (List.range 64).find? (fun n => s.flagE e F.RK_TRANSIT_VALID n && s.flagE e F.RK_TRANSIT_SIDE n
      && s.getE e F.RK_TRANSIT_JOB n == pget pkt H.JOB && s.getE e F.RK_TRANSIT_PORT n == s.logical p)
  else none

/-- Shows a pool's outstanding parcels in OP_CREDIT, or in the SIDE 1 entries of its account. -/
def State.showCredit (s : State) (p k : Nat) : State :=
  let n := s.outstanding p k
  if k < 7 then s.put F.OP_CREDIT_OUTSTANDING (7 * p + k) n
  else (List.range 64).foldl (fun s m =>
    if s.flag F.RK_TRANSIT_VALID m && s.flag F.RK_TRANSIT_SIDE m && s.get F.RK_TRANSIT_PORT m == s.logical p
        && 16 + s.get F.RK_TRANSIT_ACCOUNT m == k then s.put F.RK_TRANSIT_OCCUPANCY m n else s) s

/-- Takes `n` credits of a pool. -/
def State.takeCredit (s : State) (p k n : Nat) : State :=
  if n = 0 then s
  else (s.modPort p (fun q => { q with sent := assign q.sent k (((lookup q.sent k).getD 0 + n) % 4096) 0 })).showCredit p k

/-- The limit of account `a`: QUOTA of its SIDE 1 entry in effect, which replaces the old one for every packet at an epoch switch, or,
where the bank in effect has none, that of entry `m` in the tables of the packet's EPOCH (R131, R287). -/
def State.quotaOf (s : State) (p a e m : Nat) : Nat :=
  match (List.range 64).find? (fun n => s.flag F.RK_TRANSIT_VALID n && s.flag F.RK_TRANSIT_SIDE n
      && s.get F.RK_TRANSIT_PORT n == s.logical p && s.get F.RK_TRANSIT_ACCOUNT n == a) with
  | some n => s.get F.RK_TRANSIT_QUOTA n
  | none => s.getE e F.RK_TRANSIT_QUOTA m

/-- The credits a packet of `n` parcels takes: how many reserved ones, and its account; none where it must wait (R281). -/
def State.creditFor (s : State) (p vl n : Nat) (pkt : Packet) : Option (Nat × Option Nat) :=
  let free (k : Nat) : Nat := s.get F.OP_CREDIT_LIMIT (7 * p + k) - s.outstanding p k
  match s.transitSide1 p pkt with
  | some m =>
    let e := pget pkt H.EPOCH
    let a := s.getE e F.RK_TRANSIT_ACCOUNT m
    if n ≤ free 6 && s.outstanding p (16 + a) + n ≤ s.quotaOf p a e m then some (0, some a) else none
  | none =>
    let r := Nat.min n (free vl)
    if n - r ≤ free 6 then some (r, none) else none

/-! ### From staging to parcels -/

/-- Whether the port sends packets of a VL: sequencing is active, and in QUARANTINE only VL1 is open (R283, R298). -/
def State.vlOpen (s : State) (p vl : Nat) : Bool :=
  let st := s.portState p
  (s.port p).seqOn && (st = PS.ADMITTED || st = PS.DRAINING || (st = PS.QUARANTINE && vl = 1))


/-- The parcels of a packet: the first `r` on reserved credit, the others on shared (R277, R287). -/
def cutPacket (vl r : Nat) (account : Option Nat) (pkt : Packet) : List Parcel :=
  let groups := pieces 4 (flitsOf pkt).length (flitsOf pkt)
  (List.range groups.length).map (fun k =>
    dataParcel vl (k == 0) (k + 1 == groups.length) (r ≤ k) account (groups.getD k []))

/-- A packet's parcels as they are sent: on an encrypted VL the flits are ciphertext and a TAG parcel follows (R289). -/
def sealParcels (q : Port) (vl : Nat) (pkt : Packet) (xs : List Parcel) : List Parcel :=
  match q.key.keys with
  | some (k, _) =>
    if !bit q.key.crypt vl then xs
    else
      let (c, tag) := Config.gcmSeal k (ivOf vl ((lookup q.key.sent vl).getD 0)) (aadOf xs) ((flitsOf pkt).map (fun f => f.data))
      let gs := pieces 4 c.length c
      (List.range xs.length).map (fun j => fillParcel (xs.getD j 0) (gs.getD j [])) ++ [tagParcel vl tag]
  | none => xs

/-- A staged packet starts on its VL. -/
def State.startPacket (s : State) (p : Nat) (t : Staged) (r : Nat) (account : Option Nat) : State :=
  let xs := cutPacket t.vl r account t.pkt
  let q := s.port p
  let enc := q.encrypts t.vl
  let ys := sealParcels q t.vl t.pkt xs
  let s := s.modPort p (fun q => { q with
    staging := q.staging.erase t
    tx := q.tx ++ ys.map (fun y => ⟨t.vl, pget t.pkt H.EPOCH, y⟩)
    key := if enc then { q.key with sent := upsert q.key.sent t.vl ((lookup q.key.sent t.vl).getD 0 + 1) } else q.key })
  let s := (s.takeCredit p t.vl r).takeCredit p 6 (xs.length - r)
  let s := match account with
    | some a => s.takeCredit p (16 + a) (xs.length - r)
    | none => s
  s.releaseFor p t.src t.pkt

/-- STAGING_DEPARTURE: the oldest packet of a VL leaves staging once the link holds credit for all its parcels; one that
must wait is counted in STALLS once. -/
def execStagingDeparture (p : Fin 6) (vl : Fin 6) (s : State) : Host.Outcome State Fault Refusal :=
  live s (fun s =>
    match (s.port p.val).staging.find? (fun t => t.vl == vl.val) with
    | none => s
    | some t =>
      if !s.vlOpen p.val vl.val then s
      else
        match s.creditFor p.val vl.val (ceilDiv (flitsOf t.pkt).length 4) t.pkt with
        | some (r, a) => s.startPacket p.val t r a
        | none =>
          if t.stalled then s
          else
            let s := s.modPort p.val (fun q => { q with
              staging := updateAt q.staging (q.staging.idxOf t) (fun t => { t with stalled := true }) })
            s.wrap F.OP_CREDIT_STALLS (7 * p.val + (if (s.transitSide1 p.val t.pkt).isSome then 6 else vl.val)))

/-! ### Sending (R279, R280, R283 to R288, R295) -/

/-- The pools a port reports in turn (R288). -/
def State.reportOrder (s : State) (p : Nat) : List Nat :=
  List.range 7 ++ ((List.range 16).filter (fun a => (List.range 64).any (fun n => s.flag F.RK_TRANSIT_VALID n
    && !s.flag F.RK_TRANSIT_SIDE n && s.get F.RK_TRANSIT_PORT n == s.logical p && s.get F.RK_TRANSIT_ACCOUNT n == a))).map
    (fun a => 16 + a)

/-- Sets ACK, REPLAY and the credit report of a parcel that leaves, zero before sequencing, and keeps it as the parcel
last sent. -/
def State.sendParcel (s : State) (p : Nat) (x : Parcel) : State :=
  let q := s.port p
  if !q.seqOn then s.modPort p (fun q => { q with lastSent := x })
  else
    let order := s.reportOrder p
    let turn := q.crTurn % order.length
    let k := order.getD turn 0
    let y := [(30, 13, q.expSeq), (43, 1, b2n q.askReplay), (44, 5, k), (49, 12, (lookup q.freed k).getD 0)].foldl
      (fun b e => tput b e.1 e.2.1 e.2.2) x
    s.modPort p (fun q => { q with lastSent := y, crTurn := (turn + 1) % order.length })

/-- A timestamp in units of 2⁻¹⁶ tick, with its free fraction. -/
def State.stamp (s : State) : Nat :=
  (s.word .TM_TIMESTAMP 0).toNat + 2 ^ 64 * (Config.tickFraction s.freeCtr).toNat

/-- A control message as it leaves: probes and echoes are stamped (R295). -/
def State.stampControl (s : State) (m : BitVec 2048) : BitVec 2048 :=
  if cget m 0 8 = CM.DELAY_PROBE then cput m 64 80 s.stamp
  else if cget m 0 8 = CM.DELAY_ECHO then cput m 224 80 s.stamp
  else m

/-- Sends the oldest waiting control message. -/
def State.sendControl (s : State) (p : Nat) (m : BitVec 2048) (rest : List (BitVec 2048)) : State :=
  let x := tput ((s.stampControl m).zeroExtend 2112) 0 2 PT.CONTROL
  ((s.modPort p (fun q => { q with control := rest, replayRun := 0 })).drawn).sendParcel p x

/-- Sends a DATA or TAG parcel for the first time: it takes the next SEQ and enters the retry buffer (R282, R283). -/
def State.sendNew (s : State) (p : Nat) (t : TxParcel) : State :=
  let q := s.port p
  let y := { t with bits := tput t.bits 17 13 q.nextSeq }
  let s := s.modPort p (fun q => { q with
    tx := q.tx.erase t, retry := q.retry ++ [(q.nextSeq, y)], nextSeq := (q.nextSeq + 1) % 8192
    turn := if 2 ≤ t.vl then t.vl else q.turn })
  (s.wrap F.TM_VLCOUNT_PARCELS (12 * p + t.vl)).sendParcel p y.bits

/-- The next new parcel of a VL that the port's state lets it send, none while 4,096 are unacknowledged (R283, R298). -/
def State.ready (s : State) (p vl : Nat) : Option TxParcel :=
  if 4096 ≤ (s.port p).retry.length || !s.vlOpen p vl then none else (s.port p).tx.find? (fun t => t.vl == vl)

/-- VL2 to VL5 in round-robin order after the one served last. -/
def State.nextTurn (s : State) (p : Nat) : Option TxParcel :=
  ((List.range 4).map (fun j => 2 + ((s.port p).turn - 2 + 1 + j) % 4)).findSome? (fun vl => s.ready p vl)

/-- A parcel time without a replay: VL0, CONTROL, VL1, then VL2 to VL5 in turn; IDLE where none is ready (R279, R280). -/
def State.sendFresh (s : State) (p : Nat) : State :=
  match s.ready p 0, (s.port p).control, s.ready p 1, s.nextTurn p with
  | some t, _, _, _ => s.sendNew p t
  | none, m :: rest, _, _ => s.sendControl p m rest
  | none, [], some t, _ => s.sendNew p t
  | none, [], none, some t => s.sendNew p t
  | none, [], none, none => s.sendParcel p 0

/-- The next parcel of a replay, with a waiting CONTROL parcel after every 15 (R280). -/
def State.sendNext (s : State) (p : Nat) : State :=
  let q := s.port p
  match q.replay, q.control with
  | [], _ => s.sendFresh p
  | (_, t) :: rest, m :: more =>
    if 15 ≤ q.replayRun then s.sendControl p m more
    else (s.modPort p (fun q => { q with replay := rest, replayRun := q.replayRun + 1 })).sendParcel p t.bits
  | (_, t) :: rest, [] => (s.modPort p (fun q => { q with replay := rest, replayRun := q.replayRun + 1 })).sendParcel p t.bits

/-- PARCEL_SEND: one parcel time of a port in data mode: the parcel chosen goes through FEC and striping (R280, R282). -/
def execParcelSend (p : Fin 6) (s : State) : Host.Outcome State Fault Refusal :=
  live s (fun s => if s.inData p.val then (s.sendNext p.val).stripe p.val else s)

/-! ### Receiving (R278, R284, R285, R287, R290) -/

/-- A replay starts: every unacknowledged parcel is sent again, oldest first (R285). -/
def State.startReplay (s : State) (p ack : Nat) : State :=
  if (s.port p).retry.isEmpty then s
  else (s.modPort p (fun q => { q with replay := q.retry, replayRun := 0, replayAck := some (ack, s.now) })).sat
    F.OP_LINKERR_REPLAYS p

/-- One measured round trip in ticks, rounded up; zero before a measurement (R285, R295). -/
def State.roundTrip (s : State) (p : Nat) : Nat :=
  if s.flag F.OP_LINKDELAY_VALID p then ceilDiv (2 * s.get F.OP_LINKDELAY_DELAY p) 256 else 0

/-- The ACK, REPLAY and credit fields of a parcel (R285, R287). -/
def State.takeReport (s : State) (p : Nat) (x : Parcel) : State :=
  let ack := TR.ACK x
  let older (n : Nat) : Bool := let d := (ack + 8192 - n) % 8192; 1 ≤ d && d ≤ 4096
  let s := s.modPort p (fun q => { q with
    retry := q.retry.filter (fun e => !older e.1), replay := q.replay.filter (fun e => !older e.1), lastAck := ack })
  let again := match (s.port p).replayAck with
    | some (a, t) => a == ack && s.now < t + s.roundTrip p
    | none => false
  let s := if TR.REPLAY x && !again then s.startReplay p ack else s
  let k := TR.CR_POOL x
  if k < 7 || 16 ≤ k then
    (s.modPort p (fun q => { q with crCount := assign q.crCount k (TR.CR_COUNT x) 0 })).showCredit p k
  else s

/-- The packet that a list of flits spells, as long as its header says. -/
def packetIn (fs : List Flit) : Option Packet :=
  match fs with
  | [] => none
  | h :: t => some ⟨h, t.take (payloadFlits ⟨h, []⟩)⟩

/-- A complete packet enters the receive pool. -/
def State.enterPool (s : State) (p : Nat) (r : OpenRx) (pkt : Packet) : State :=
  (s.modPort p (fun q => { q with pool := q.pool ++ [⟨r.vl, .arrived, pkt, r.res, r.shared, r.account, none⟩] })).noteOld
    (pget pkt H.EPOCH)

/-- Ends the open packet of a VL without delivering it. -/
def State.dropOpen (s : State) (p : Nat) (r : OpenRx) : State :=
  (s.modPort p (fun q => { q with rx := q.rx.erase r })).freeParcels p r.vl r.res r.shared r.account none

/-- A DATA parcel accepted in sequence. -/
def State.acceptData (s : State) (p : Nat) (x : Parcel) : State :=
  let vl := TR.VL x
  let old := (s.port p).rx.find? (fun r => r.vl == vl)
  let (s, cur) : State × Option OpenRx :=
    if TR.START x then
      ((match old with | some r => (s.dropOpen p r).sat F.OP_LINKERR_UNCORR p | none => s),
        some ⟨vl, [], 0, 0, none, [], false⟩)
    else ((match old with | some r => s.modPort p (fun q => { q with rx := q.rx.erase r }) | none => s), old)
  let acct := if TR.TRANSIT x then some (TR.ACCOUNT x) else none
  match cur with
  | none => s.freeParcels p vl (b2n !(TR.SHARED x)) (b2n (TR.SHARED x)) acct none
  | some r =>
    let r := { r with flits := r.flits ++ parcelFlits x, res := r.res + b2n !(TR.SHARED x)
                      shared := r.shared + b2n (TR.SHARED x), account := if acct.isSome then acct else r.account
                      aad := r.aad ++ leBytes 2 (TR.AAD x), ended := TR.END x }
    if TR.END x && !(s.port p).encrypts vl then
      match packetIn r.flits with
      | some pkt => s.enterPool p r pkt
      | none => s
    else
      let s := match r.flits with
        | f :: _ => if (s.port p).encrypts vl then s else s.noteOld (hget f.data H.EPOCH)
        | [] => s
      s.modPort p (fun q => { q with rx := q.rx ++ [r] })

/-- The flits of an encrypted packet, where its tag verifies: the ciphertext ends in the last parcel. -/
def openPacket (q : Port) (r : OpenRx) (tag : BitVec 128) : Option Packet :=
  match q.key.keys with
  | none => none
  | some (_, k) =>
    let iv := ivOf r.vl ((lookup q.key.got r.vl).getD 0)
    let cs := r.flits.map (fun f => f.data)
    ((List.range 4).map (fun j => r.flits.length - j)).findSome? (fun n =>
      match Config.gcmOpen k iv r.aad (cs.take n) tag with
      | some ps => packetIn (List.zipWith (fun d (f : Flit) => ⟨d, f.poison⟩) ps r.flits)
      | none => none)

/-- A tag failure: counted, logged, and after 16 within one second the port drains (R290). -/
def State.authFailure (s : State) (p : Nat) (r : OpenRx) : State :=
  let s := (s.dropOpen p r).sat F.OP_ERRCNT_AUTH p
  let fails := ((s.port p).authFails.filter (fun t => s.now < t + 156250000)) ++ [s.now]
  let s := (s.modPort p (fun q => { q with authFails := fails })).event evLinkAuth 7 p
    (r.vl + 2 ^ 8 * Nat.min 31 fails.length)
  if 16 ≤ fails.length && s.portState p = PS.ADMITTED then s.movePort p PS.DRAINING PC.TAG_FAILURES else s

/-- A TAG parcel accepted in sequence: the packet it ends enters the pool if its tag verifies (R290). -/
def State.acceptTag (s : State) (p : Nat) (x : Parcel) : State :=
  let vl := TR.VL x
  match (s.port p).rx.find? (fun r => r.vl == vl && r.ended) with
  | none => s
  | some r =>
    let res := openPacket (s.port p) r (x.extractLsb' 0 128)
    let s := s.modPort p (fun q => { q with
      key := { q.key with got := upsert q.key.got vl ((lookup q.key.got vl).getD 0 + 1) } })
    match res with
    | some pkt => (s.modPort p (fun q => { q with rx := q.rx.erase r })).enterPool p r pkt
    | none => s.authFailure p r

/-- A DATA or TAG parcel against the SEQ expected (R284). -/
def State.takeSequenced (s : State) (p : Nat) (x : Parcel) : State :=
  let e := (s.port p).expSeq
  let n := TR.SEQ x
  if n = e then
    let s := s.modPort p (fun q => { q with expSeq := (e + 1) % 8192, askReplay := false })
    if 6 ≤ TR.VL x then s
    else
      let s := s.wrap F.TM_VLCOUNT_PARCELS (12 * p + 6 + TR.VL x)
      if TR.TYPE x = PT.DATA then s.acceptData p x else s.acceptTag p x
  else
    let d := (e + 8192 - n) % 8192
    if 1 ≤ d && d ≤ 4096 then s else s.modPort p (fun q => { q with askReplay := true })

/-- A parcel that FEC has delivered, or one discarded for an uncorrectable codeword: REPLAY is asked for while sequencing is active
(R275, R284). A control message is carried out by the command of its own. -/
def State.takeParcel (s : State) (p : Nat) (x : Option Parcel) : State :=
  if !(s.port p).seqOn then s
  else
    match x with
    | none => s.modPort p (fun q => { q with askReplay := true })
    | some x =>
      let s := s.takeReport p x
      (if TR.TYPE x = PT.DATA || TR.TYPE x = PT.TAG then s.takeSequenced p x else s).flow

/-- PARCEL_RECEIVE: parcel `n` of a frame, out of the levels on the lanes in the codewords it touches: FEC decoding first (R282). -/
def execParcelReceive (p : Fin 6) (n : Fin 20560) (w : ParcelLevels) (s : State) : Host.Outcome State Fault Refusal :=
  live s (fun s =>
    if !s.inData p.val then s
    else
      let (t, x) := s.receive p.val n.val w.first w.second
      t.takeParcel p.val x)

/-- LINK_RETRY_EXPIRY: ACK has not advanced while parcels are unacknowledged (R285). -/
def execLinkRetryExpiry (p : Fin 6) (s : State) : Host.Outcome State Fault Refusal :=
  live s (fun s => if (s.port p.val).seqOn then s.startReplay p.val (s.port p.val).lastAck else s)

/-! ### Link delay (R295) -/

/-- DELAY_PROBE received: stamped and answered; T3 is stamped as the echo leaves. -/
def execDelayProbe (p : Fin 6) (payload : BitVec 2048) (s : State) : Host.Outcome State Fault Refusal :=
  live s (fun s =>
    if !s.inData p.val || cget payload 0 8 != CM.DELAY_PROBE then s
    else
      (s.control p.val (cput (cput (BitVec.ofNat 2048 CM.DELAY_ECHO) 64 80 (cget payload 64 80)) 144 80 s.stamp)).drawn)

/-- A stamp of a message, in units of 2⁻¹⁶ tick. -/
def stampAt (m : BitVec 2048) (lo : Nat) : Int := (cget m lo 64 * 65536 + cget m (lo + 64) 16 : Nat)

/-- The exchange of least round trip. -/
def bestExchange : List (Int × Int) → Option (Int × Int)
  | [] => none
  | x :: t => match bestExchange t with
    | some y => if x.1 ≤ y.1 then some x else some y
    | none => some x

/-- DELAY_ECHO received: one exchange is complete; after eight the best gives DELAY and OFFSET. -/
def execDelayEcho (p : Fin 6) (payload : BitVec 2048) (s : State) : Host.Outcome State Fault Refusal :=
  live s (fun s =>
    if !s.inData p.val || cget payload 0 8 != CM.DELAY_ECHO then s
    else
      let t1 := stampAt payload 64
      let t2 := stampAt payload 144
      let t3 := stampAt payload 224
      let t4 : Int := ((s.word .TM_TIMESTAMP 0).toNat * 65536 + (Config.tickFraction s.freeCtr).toNat : Nat)
      let l := (s.port p.val).delays ++ [((t4 - t1) - (t3 - t2), (t2 - t1) - (t4 - t3))]
      let s := s.drawn
      if l.length < 8 then s.modPort p.val (fun q => { q with delays := l })
      else
        let s := s.modPort p.val (fun q => { q with delays := [] })
        match bestExchange l with
        | some (rt, off) => ((s.put F.OP_LINKDELAY_DELAY p.val (wrapInt 24 (rt / 512))).put F.OP_LINKDELAY_OFFSET p.val
            (wrapInt 32 (off / 512))).put F.OP_LINKDELAY_VALID p.val 1
        | none => s)

/-- DELAY_PERIOD_EXPIRY: eight probes while sequencing is active. -/
def execDelayPeriodExpiry (p : Fin 6) (s : State) : Host.Outcome State Fault Refusal :=
  live s (fun s => if s.inData p.val && (s.port p.val).seqOn then s.sendProbes p.val else s)

end Sys2Proof.Machine
end

