-- ==== Sys2Proof/Machine/Partitions.lean ====
section
/-! DEFINITION. The life of a partition: QUIESCE, RESUME, FENCE, and the fences of TABLE_ECC (R366, R373 to R380, R383,
Table 14-7). -/

namespace Sys2Proof.Machine

def evTableEcc : Event := ⟨0x907, 2⟩
def evQuiesceDrained : Event := ⟨0xA09, 0⟩
def evQuiesceStuck : Event := ⟨0xA0A, 1⟩

/-- How a command of Alorn is answered: STATUS, DETAIL and the data words. -/
structure Final where
  status : Nat
  detail : Nat
  data : List Word
deriving DecidableEq, Repr

/-- An answer without data. -/
def plainFinal (st : Nat) (detail : Nat := 0) : Option Final := some ⟨st, detail, []⟩
def finalOk : Option Final := plainFinal AS.OK
def finalRange : Option Final := plainFinal AS.RANGE
def refusedFor (detail : Nat) : Option Final := plainFinal AS.REFUSED detail

/-- A background command has started: answered IN_PROGRESS (R339). -/
def State.startBackground (s : State) (a : Asker) (cmd arg : Nat) : State × Option Final :=
  (s.modAlorn (fun al => { al with background := al.background ++ [⟨a.src, a.tag, cmd, arg⟩] }), plainFinal AS.IN_PROGRESS)

/-! ### QUIESCE -/

/-- Whether core port `i` has a packet part-written in an out FIFO. -/
def State.partWritten (s : State) (i : Nat) : Bool :=
  [0, 2, 4].any (fun k => match (s.fifo (coreFifo i k)).stages.getLast? with
    | some w => !stageTail w
    | none => false)

/-- Whether a core port is still issuing a command it has begun (step 3 of Table 14-7). -/
def State.issuing (s : State) (i : Nat) : Bool :=
  s.outWait.any (fun w => w.form.isSome && w.queue < 16 && fifoCore w.fifo == i && w.fifo < 4096)

/-- The level INTAKE_IDLE of core port `i` (Table 3-6): intake stopped, no command part-issued, no packet part-written. While
its clock is stopped the level stays as it was at the stop (R77). -/
def State.intakeIdle (s : State) (i : Nat) : Bool :=
  if s.clockRuns (i / 16) then s.intakeStopped i && !s.issuing i && !s.partWritten i else s.idleHeld.contains i

/-- Whether core port `i` has drained: INTAKE_IDLE, no command started and no collective in progress, or the port in reset
(R373). -/
def State.coreDrained (s : State) (i : Nat) : Bool :=
  s.coreRst.contains i || (s.intakeIdle i && !s.cmds.any (fun c => c.core == i))

/-- Whether every core port of a partition has drained. -/
def State.partDrained (s : State) (p : Nat) : Bool := (s.coresOf p).all s.coreDrained

/-- Step 7 of Table 14-7: the partition enters the quiesced state, a QUIESCE that waits answers DRAINED, and the time taken is
logged. -/
def State.finishDrain (s : State) (p : Nat) : State :=
  let v := s.part p
  let asked := (s.backgroundOf AC.QUIESCE).any (fun b => b.arg == p)
  let s := s.setPart p { v with quiesced := true, draining := false, reported := asked }
  (s.event evQuiesceDrained 9 0 p ((s.now - v.since) / 156250)).endAll AC.QUIESCE (fun a => a == p) AS.DRAINED

/-- Steps 2 to 4 of Table 14-7 at the core ports of a partition whose clocks run. -/
def State.stopIntake (s : State) (p : Nat) : State := s.quiesceColls ((s.coresOf p).filter s.coreRuns)

/-- QUIESCE of partition `p` (R377, Table 14-7). -/
def State.doQuiesce (s : State) (a : Asker) (p : Nat) : State × Option Final :=
  let v := s.part p
  if !s.flag F.RK_PARTJOB_VALID p then (s, finalRange)
  else if v.quiesced || v.fenced then (s.setPart p { v with reported := true }, plainFinal AS.DRAINED)
  else
    let s := s.setPart p { v with draining := true, since := s.now }
    let s := (s.stopIntake p).stallSlots.stallPlumb
    s.startBackground a AC.QUIESCE p

/-- QUIESCE_DRAINED: a stopped partition has drained; Alorn notices it. -/
def execQuiesceDrained (p : Fin 16) (s : State) : Host.Outcome State Fault Refusal :=
  live s (fun s =>
    if (s.part p.val).draining && s.partDrained p.val && s.alornRuns then s.finishDrain p.val else s)

/-- The Plumb router output that a full Plumb in FIFO holds: bits 14:0 of word 2 of a STUCK answer. A core port's is output C
of its own router; of an optical port's and Alorn's the manual gives no router: free values (log entry 53). -/
def State.plumbOutput (s : State) (n : Nat) : Nat :=
  let i := fifoCore n
  if n < 4096 then coreRx i + 2 ^ 4 * coreRy i + 2 ^ 9 + 2 ^ 12 * 4
  else 2 ^ 9 + ((Config.noHeldOutput s.freeCtr).toNat &&& 0x70FF)

/-- Router outputs whose present grant is held: bits 14:0 of word 2 of a STUCK answer, and the tick since when (R374). -/
def State.heldOutputs (s : State) : List (Nat × Nat) :=
  (s.grants.filter (fun e => !e.2.parked)).map (fun e =>
    let r := e.1 / 8 % 256
    (r % 16 + 2 ^ 4 * (r / 16) + 2 ^ 8 * (e.1 / 2048) + 2 ^ 12 * (e.1 % 8), e.2.since))
  ++ s.plumbHeld.map (fun e => (s.plumbOutput e.1, e.2))

/-- The router output held longest, as words 2 and 3 of a STUCK answer; free values while none is held (Table 13-8). -/
def State.heldLongest (s : State) : Word × Word :=
  let longest := s.heldOutputs.foldl (fun (x : Option (Nat × Nat)) e => match x with
    | some y => if e.2 < y.2 then some e else x
    | none => some e) none
  match longest with
  | some e => (BitVec.ofNat 64 e.1, BitVec.ofNat 64 ((s.now - e.2) % 2 ^ 32))
  | none => (Config.noHeldOutput s.freeCtr &&& 0x73FF#64, Config.noHeldOutput (s.freeCtr + 1) &&& 0xFFFFFFFF#64)

/-- QUIESCE_STUCK: the drain limit of a QUIESCE that waits has passed; the intake stays stopped and the drain goes on
(R374). -/
def execQuiesceStuck (p : Fin 16) (s : State) : Host.Outcome State Fault Refusal :=
  live s (fun s =>
    if (s.part p.val).draining && s.alornRuns && (s.backgroundOf AC.QUIESCE).any (fun b => b.arg == p.val) then
      let (w2, w3) := s.heldLongest
      let s := (s.drawn 2).event evQuiesceStuck 9 0 (p.val + 2 ^ 8 * w2.toNat) w3.toNat
      s.endAll AC.QUIESCE (fun a => a == p.val) AS.STUCK 0 [w2, w3]
    else s)

/-! ### FENCE -/

/-- Whether a send context is bound to a partition, by a flow's key of RK_FLOWSEQ. -/
def State.sendOf (s : State) (p f : Nat) : Bool :=
  s.flag F.RK_FLOWCTX_VALID f && s.flag F.RK_FLOWCTX_ROLE f && s.get F.RK_FLOWCTX_PARTITION f == p

/-- BUSY goes from the send contexts that pass. -/
def State.clearBusy (s : State) (hit : Nat → Bool) : State :=
  let fs := ((s.regs.filter (fun e => e.1 % 256 / 2 == Reg.RK_FLOWSEQ.num)).map (fun e => e.1 / 256)).filter hit
  fs.foldl (fun s f => s.put F.RK_FLOWSEQ_BUSY f 0) s

/-- The command at one position of a queue completes with FENCED (R380), a collective with its buffers. One that has
not started in a queue whose arrays the port does not own can write no record (R366). -/
def State.fenceAt (s : State) (i q pos : Nat) : State :=
  match s.cmds.find? (fun c => c.core == i && c.queue == q && c.pos == pos) with
  | some c =>
    if c.done then s
    else match c.coll with
      | some r => s.finishColl c r St.FENCED
      | none => s.complete c St.FENCED
  | none =>
    if !s.arraysOwned i q then s
    else
      match s.fetchCmd i q pos with
      | (c, s) => s.complete c St.FENCED

/-- Every command of a queue from RETIRE to TAIL, in position order. -/
def State.fenceQueue (s : State) (i q : Nat) : State :=
  let n := qCopy i q
  let r := s.get F.CP_QSTAT_RETIRE n
  let t := s.get F.CP_QTAIL_TAIL n
  let s := if s.arraysOwned i q then s.put F.CP_QSTAT_HEAD n t else s
  (List.range ((t + 512 - r) % 512)).foldl (fun s k => s.fenceAt i q ((r + k) % 512)) s

/-- Messages held at a core port are answered with FENCED, and their rings show that none is held (R175, R190). -/
def State.fenceHolds (s : State) (i : Nat) : State :=
  (s.holds.filter (fun h => h.core == i && !h.reply)).foldl (fun s h =>
    (((s.freeHold h).showRing i h.ring).cacheReply h.pkt Op.NACK St.FENCED 0).respond i h.pkt Op.NACK St.FENCED) s

/-- What a fence does in the clocked half of a core port but for its ABORTs; while its clock is stopped it waits (R380,
R398). -/
def State.fenceCore (s : State) (i : Nat) : State :=
  if s.coreRst.contains i then s
  else if !s.clockRuns (i / 16) then { s with fenceDue := insertNat s.fenceDue i }
  else ((List.range 16).foldl (fun s q => s.fenceQueue i q) s).fenceHolds i

/-- Collectives in progress at core ports, as core, GROUP and SEQ. -/
def State.collsAt (s : State) (is : List Nat) : List (Nat × Nat × Nat) :=
  s.cmds.filterMap (fun c => match c.coll with
    | some r => if is.contains c.core && !c.done then some (c.core, r.group, r.seq) else none
    | none => none)

/-- What a fence does at core ports: every command completes with FENCED at each of them, and each that had a collective in
progress raises its ABORT (R269, R380). -/
def State.fenceCores (s : State) (is : List Nat) : State :=
  (s.collsAt (is.filter s.coreRuns)).foldl (fun t x => t.raiseAbort x.1 x.2.1 x.2.2 St.ABORTED 3) (is.foldl State.fenceCore s)

/-- A partition is fenced at once; a drain in progress ends (R374, R380). -/
def State.fencePart (s : State) (p : Nat) : State :=
  let v := s.part p
  if v.fenced then s
  else
    let s := s.setPart p { v with fenced := true, reported := false }
    let s := (s.fenceCores (s.coresOf p)).clearBusy (s.sendOf p)
    if v.draining && s.alornRuns then s.finishDrain p else s

/-- FENCE of a partition. -/
def State.doFence (s : State) (p : Nat) : State × Option Final :=
  if s.flag F.RK_PARTJOB_VALID p then (s.fencePart p, finalOk) else (s, finalRange)

/-! ### RESUME -/

/-- RESUME of a partition (R379, Table 13-7). -/
def State.doResume (s : State) (p : Nat) : State × Option Final :=
  if !s.flag F.RK_PARTJOB_VALID p then (s, finalRange)
  else if bit (s.get F.RK_STENCIL_NEW_PARTS 0) p then (s, refusedFor DT.NEW_PARTITION)
  else if s.shadow = SH.INCOMPLETE then (s, refusedFor DT.SHADOW)
  else if !(s.part p).reported then (s, refusedFor DT.ACTIVE)
  else (s.setPart p Part.initial, finalOk)

/-! ### TABLE_ECC (R383) -/

/-- The partition of a group's entry, where it is valid. -/
def State.partOfGroup (s : State) (g : Nat) : Option Nat :=
  if s.flag F.RK_GROUP_VALID g then some (s.get F.RK_GROUP_PARTITION g) else none

/-- What an entry of a table serves: one partition, or none of its own: the whole chip. -/
def State.tableServes (s : State) (r : Reg) (n : Nat) : Option Nat :=
  match r with
  | .RK_FLOWCTX => some (s.get F.RK_FLOWCTX_PARTITION n)
  | .RK_GROUP => some (s.get F.RK_GROUP_PARTITION n)
  | .RK_GROUPAUX => some (s.get F.RK_GROUP_PARTITION n)
  | .PL_GROUP => some (s.get F.RK_GROUP_PARTITION n)
  | .PL_MEMBERS => some (s.get F.RK_GROUP_PARTITION (n / 4))
  | .RK_PARTJOB => some n
  | .RK_RANKMAP => some (n / 1024)
  | .SC_TREE => s.partOfGroup (s.get F.SC_TREE_GROUP n)
  | .SC_TREERES => s.partOfGroup (s.get F.SC_TREE_GROUP n)
  | _ => none

/-- The registers whose words are table words under R383. -/
def tableWord (r : Reg) : Bool :=
  r.loaded && (r.info.window == 4 || r.info.window == 5 || r.info.window == 8 || r == .RQ_ARBRANK || r == .RP_ARBRANK)

/-- An uncorrectable table word: what it serves is fenced, and the whole chip's also ends transit. -/
def State.tableFault (s : State) (r : Reg) (n : Nat) : State :=
  let all := (List.range 16).filter (fun p => s.flag F.RK_PARTJOB_VALID p)
  let (ps, whole) := match s.tableServes r n with
    | some p => (all.filter (fun q => q == p), false)
    | none => (all, true)
  let s := s.event evTableEcc 8 0 (r.info.code + 2 ^ 16 * n) (ps.foldl (fun m p => m + 2 ^ p) 0)
  let s := ps.foldl State.fencePart s
  if whole then { s with transitOff := true } else s

/-- TABLE_ECC: an error found on a read of instance `n` of the register with code `reg` of Table 12-4. -/
def execTableEcc (corrected : Bool) (reg : BitVec 16) (n : BitVec 32) (s : State) : Host.Outcome State Fault Refusal :=
  live s (fun s =>
    match Reg.ofCode reg.toNat with
    | none => s
    | some r =>
      if !tableWord r || r.total ≤ n.toNat then s
      else if corrected then { s with tableCorr := s.tableCorr + 1 }
      else (s.tableFault r n.toNat).flow)

end Sys2Proof.Machine
end

