-- ==== Sys2Proof/Machine/Stencil.lean ====
section
/-! DEFINITION. The Stencil container: its header, frame table and frames, and the image that a load builds from
them (R307 to R314, Tables 12-1 to 12-8). -/

namespace Sys2Proof.Machine

/-! ### The container -/

/-- The number that `n` bytes from `off` spell (R5). -/
def numAt (bs : List Byte) (off n : Nat) : Nat := leNat ((bs.drop off).take n)

/-- Whether every byte of a list is zero. -/
def allZero (bs : List Byte) : Bool := bs.all (fun b => b == 0)

/-- A container header (Table 12-1). -/
structure Header where
  magic : Nat
  version : Nat
  level : Nat
  kind : Nat
  epoch : Nat
  /-- EPOCH_GROUP with the reserved bits above it -/
  group : Nat
  chipId : Nat
  /-- CHIP_ADDR with the reserved bits above it -/
  addr : Nat
  sign : Nat
  slot : Nat
  frames : Nat
  table : Nat
  total : Nat
  build : Word
  /-- bytes 127:48 are zero -/
  clean : Bool
deriving DecidableEq, Repr

def headerOf (bs : List Byte) : Header :=
  { magic := numAt bs 0 8, version := numAt bs 8 2, level := numAt bs 10 1, kind := numAt bs 11 1, epoch := numAt bs 12 2
    group := numAt bs 14 2, chipId := numAt bs 16 8, addr := numAt bs 24 2, sign := numAt bs 26 1, slot := numAt bs 27 1
    frames := numAt bs 28 4, table := numAt bs 32 4, total := numAt bs 36 4, build := BitVec.ofNat 64 (numAt bs 40 8)
    clean := allZero ((bs.drop 48).take 80) }

/-- A frame: its TYPE and its contents as 64-bit words. -/
structure Frame where
  type : Nat
  words : List Word
deriving DecidableEq, Repr

/-- Bytes as little-endian 64-bit words. -/
def toWords (bs : List Byte) : List Word := (pieces 8 bs.length bs).map (fun l => BitVec.ofNat 64 (leNat l))

/-- The runs of a REGS frame: each with its header and images; none where the last run is cut. -/
def splitRuns : Nat → List Word → Option (List (Word × List Word))
  | _, [] => some []
  | 0, _ :: _ => none
  | fuel + 1, h :: t =>
    let n := fieldGet h 16 16
    if t.length < n then none else (splitRuns fuel (t.drop n)).map (fun r => (h, t.take n) :: r)

/-- Whether a frame's length is a whole number of records (R307, Table 12-3). -/
def wholeRecords (type len : Nat) (ws : List Word) : Bool :=
  match type with
  | 0x10 => len % 8 = 0 && (splitRuns ws.length ws).isSome
  | 0x20 => len % 8 = 0
  | 0x30 => len % 56 = 0
  | 0x40 => len % 8 = 0
  | 0x50 => len % 24 = 0
  | _ => false

/-- The frames that entries of the frame table name (R307, Table 12-2): `pos` is the end of what lies before, `rest` the
bytes from there on. -/
def cutFrames (total : Nat) : List (List Byte) → (pos : Nat) → (rest : List Byte) → Option (List Frame)
  | [], pos, _ => if pos = total then some [] else none
  | e :: es, pos, rest =>
    let off := numAt e 4 4
    let len := numAt e 8 4
    let gap := off - pos
    let body := (rest.drop gap).take len
    let ws := toWords body
    if !(allZero ((e.drop 2).take 2) && allZero (e.drop 12) && off % 8 = 0 && pos ≤ off && off + len ≤ total
        && allZero (rest.take gap) && wholeRecords (numAt e 0 2) len ws) then none
    else (cutFrames total es (off + len) (rest.drop (gap + len))).map (fun r => ⟨numAt e 0 2, ws⟩ :: r)

/-- The header and frames of a container, or none where code 0x01 refuses it (Table 12-10). -/
def parseContainer (bs : List Byte) : Option (Header × List Frame) :=
  let h := headerOf bs
  if 128 ≤ bs.length && h.magic = 0x54532D524F4E504F && h.version = 1 && h.table = 128 && h.kind ≤ 1 && h.group < 4096
      && h.addr < 4096 && h.sign ≤ 1 && h.slot ≤ 7 && 1 ≤ h.frames && h.frames ≤ 4096 && h.clean && h.total ≤ 8 * 2 ^ 20
      && bs.length = h.total + 96 * h.sign && 128 + 16 * h.frames ≤ h.total then
    let entries := pieces 16 h.frames (bs.drop 128)
    (cutFrames h.total entries (128 + 16 * h.frames) (bs.drop (128 + 16 * h.frames))).map (fun fs => (h, fs))
  else none

/-! ### Records -/

/-- The range of a TUNE value (Table 12-7). -/
def tuneRange (key : Nat) : Option (Nat × Nat) :=
  match key with
  | 1 => some (1, 10000)
  | 2 => some (1, 1000)
  | 3 => some (1, 1048575)
  | 4 => some (1, 1000)
  | 5 => some (10, 1000000)
  | 6 => some (100, 100000)
  | 7 => some (500, 2000)
  | 8 => some (1024, 1048575)
  | 9 => some (50, 10000)
  | 10 => some (1, 1000)
  | 11 => some (10, 60000)
  | 12 => some (1, 100000)
  | 13 => some (1, 1000)
  | _ => none

/-- The registers under the guard (Table 13-9). -/
def Reg.guarded (r : Reg) : Bool :=
  r.loaded || r = .CP_BANKOWN || r = .SP_BANKOWN || r = .OP_PORTCTL || r = .RK_COORDS || r = .TM_TIMESTAMP

/-- A field of a word that is in no register's file. -/
def sub (w : Word) (f : Fld) : Nat := fieldGet w f.lo f.width

/-- Whether an image holds a reserved encoding (R8). -/
def reservedIn (r : Reg) (w : Word) : Bool :=
  match r with
  | .RK_ATTACHSEL => (List.range 24).any (fun st => fieldGet w (2 * st) 2 == 3)
  | .RK_GROUP =>
    [F.RK_GROUP_FMT_MEMBER, F.RK_GROUP_FMT_DIE, F.RK_GROUP_FMT_CHIP, F.RK_GROUP_FMT_RACK].any (fun f => !fmtKnown (sub w f))
      || 6 ≤ sub w F.RK_GROUP_OP || (sub w F.RK_GROUP_VALID = 1 && sub w F.RK_GROUP_MEMBERS = 0)
  | .PL_GROUP => sub w F.PL_GROUP_PRI_PARENT = 6 || sub w F.PL_GROUP_SBY_PARENT = 6
  | _ => false

/-! ### The image -/

/-- What a load has built so far: the registers of Table 12-4 by key, Alorn's tables, the BANKS records, which frame
wrote each, and the first bad record: its frame, its instance where it names one, and whether it is a reserved encoding. -/
structure Built where
  regs : Tbl Word
  by' : Tbl Nat
  tune : Tbl Nat
  planKeys : Tbl (BitVec 384)
  guard : Tbl Word
  banks : Tbl Word
  bankBy : Tbl Nat
  err : Option (Nat × Option Nat × Bool)
deriving DecidableEq, Repr

/-- Records a bad record; the first stands. -/
def Built.bad (b : Built) (frame : Nat) (inst : Option Nat) (reserved : Bool := false) : Built :=
  { b with err := b.err.or (some (frame, inst, reserved)) }

/-- One image of a run (R309). -/
def Built.image (b : Built) (frame : Nat) (r : Reg) (n : Nat) (w : Word) : Built :=
  if w &&& ~~~ r.info.cfg != 0 then b.bad frame (some n)
  else if reservedIn r w then b.bad frame (some n) true
  else { b with regs := assign b.regs (regKey r n 0) w 0, by' := upsert b.by' (regKey r n 0) frame }

/-- One run of a REGS frame (R309). -/
def Built.run (b : Built) (frame : Nat) (h : Word) (ws : List Word) : Built :=
  let first := fieldGet h 32 32
  match Reg.ofCode (fieldGet h 0 16) with
  | none => b.bad frame (some first)
  | some r =>
    if !r.loaded || ws.length = 0 || r.total < first + ws.length then b.bad frame (some first)
    else (List.range ws.length).foldl (fun b k => b.image frame r (first + k) (ws.getD k 0)) b

/-- One BANKS record (Table 12-5). -/
def Built.bank (b : Built) (frame : Nat) (w : Word) : Built :=
  let ep := fieldGet w 0 9
  let first := fieldGet w 9 8
  let run := fieldGet w 48 16
  if fieldGet w 44 4 != 0 || 280 ≤ ep || run = 0 || bankCount ep < first + run then b.bad frame none
  else (List.range run).foldl (fun b k =>
    { b with banks := upsert b.banks (256 * ep + first + k) w, bankBy := upsert b.bankBy (256 * ep + first + k) frame }) b

/-- One PLAN_KEYS record (Table 12-6). -/
def Built.planKey (b : Built) (frame : Nat) (ws : List Word) : Built :=
  let bytes := ws.flatMap (fun w => leBytes 8 w.toNat)
  if numAt bytes 0 8 < 6 then
    { b with planKeys := upsert b.planKeys (numAt bytes 0 1) (BitVec.ofNat 384 (leNat (bytes.drop 8))) }
  else b.bad frame none

/-- One TUNE record (Table 12-7). -/
def Built.tuneRec (b : Built) (frame : Nat) (w : Word) : Built :=
  let key := fieldGet w 0 16
  let v := fieldGet w 16 48
  match tuneRange key with
  | some (lo, hi) => if lo ≤ v && v ≤ hi then { b with tune := upsert b.tune key v } else b.bad frame none
  | none => b.bad frame none

/-- One GUARD record (Table 12-8). -/
def Built.guardRec (b : Built) (frame : Nat) (ws : List Word) : Built :=
  let w0 := ws.getD 0 0
  let w1 := ws.getD 1 0
  let first := fieldGet w0 32 32
  let n := fieldGet w1 0 32
  match Reg.ofCode (fieldGet w0 0 16) with
  | none => b.bad frame (some first)
  | some r =>
    if !r.guarded || fieldGet w0 16 16 != 0 || fieldGet w1 32 32 != 0 || n = 0 || r.total < first + n then b.bad frame (some first)
    else { b with guard := (List.range n).foldl (fun t k => upsert t (regKey r (first + k) 0) (ws.getD 2 0)) b.guard }

/-- Applies a frame. -/
def Built.frame (b : Built) (k : Nat) (f : Frame) : Built :=
  match f.type with
  | 0x10 => ((splitRuns f.words.length f.words).getD []).foldl (fun b r => b.run k r.1 r.2) b
  | 0x20 => f.words.foldl (fun b w => b.bank k w) b
  | 0x30 => (pieces 7 f.words.length f.words).foldl (fun b l => b.planKey k l) b
  | 0x40 => f.words.foldl (fun b w => b.tuneRec k w) b
  | 0x50 => (pieces 3 f.words.length f.words).foldl (fun b l => b.guardRec k l) b
  | _ => b

/-- Applies frames in table order. -/
def Built.frames (b : Built) : Nat → List Frame → Built
  | _, [] => b
  | k, f :: t => (b.frame k f).frames (k + 1) t

/-- The register of Table 12-4 that a key of the register file belongs to. -/
def loadedAt (k : Nat) : Option Reg := Reg.all.find? (fun r => r.num == k % 256 / 2 && r.loaded)

/-- The image a partial load starts from: the bank given of the E-class registers and the S-class values in effect, fields
of configuration alone (R313). -/
def State.bankImage (s : State) (bank : Nat) : Tbl Word :=
  s.regs.filterMap (fun e =>
    match loadedAt e.1 with
    | none => none
    | some r =>
      let v := e.2 &&& r.info.cfg
      if e.1 % 2 = r.bank bank && v != 0 then some (e.1 - e.1 % 2, v) else none)

/-- The part of Alorn's tables in the shadow, or in effect, by plain keys. -/
def halfOf {α : Type} (t : Tbl α) (n : Nat) (shadow : Bool) : Tbl α :=
  if shadow then (t.filter (fun e => n ≤ e.1)).map (fun e => (e.1 - n, e.2)) else t.filter (fun e => e.1 < n)
def guardHalf (t : Tbl Word) (shadow : Bool) : Tbl Word :=
  (t.filter (fun e => e.1 % 2 = b2n shadow)).map (fun e => (e.1 - e.1 % 2, e.2))

/-- What a load starts from (R313, R318). -/
def State.loadBase (s : State) (full : Bool) : Built :=
  if full then ⟨[], [], [], [], [], [], [], none⟩
  else
    let live := s.shadow = SH.INCOMPLETE
    ⟨s.bankImage (if live then s.parity else 1 - s.parity), [], halfOf s.tune 256 (!live), halfOf s.planKeys 256 (!live),
      guardHalf s.guard (!live), [], [], none⟩

/-- A register's word in the image. -/
def Built.word (b : Built) (r : Reg) (n : Nat) : Word := (lookup b.regs (regKey r n 0)).getD 0

/-- A field in the image. -/
def Built.get (b : Built) (f : Fld) (n : Nat) : Nat := sub (b.word f.reg n) f

/-- The copies of a register that are not zero in the image, with their words. -/
def Built.copies (b : Built) (r : Reg) : List (Nat × Word) :=
  (b.regs.filter (fun e => e.1 % 256 / 2 == r.num)).map (fun e => (e.1 / 256, e.2))

end Sys2Proof.Machine
end

