-- ==== Sys2Proof/Machine/Validate.lean ====
section
/-! DEFINITION. The checks on a Stencil load, in code order (R315, R316, R320, Table 12-10). -/

namespace Sys2Proof.Machine

/-- A refusal: its code of Table 12-10, the frame and the instance where one is concerned, and whether a write was refused
under R8 or R12, which S_REFUSED shows. -/
structure Refused where
  code : Nat
  frame : Option Nat
  inst : Option Nat
  sticky : Bool
deriving DecidableEq, Repr

/-- A refusal that concerns no frame. -/
def plainRefusal (code : Nat) : Refused := ⟨code, none, none, false⟩

/-- A refusal at a register copy of the image. -/
def Built.refuse (b : Built) (code : Nat) (r : Reg) (n : Nat) : Refused := ⟨code, lookup b.by' (regKey r n 0), some n, code == 0x0A⟩

/-- A refusal at a bank. -/
def Built.refuseBank (b : Built) (code ep n : Nat) : Refused := ⟨code, lookup b.bankBy (256 * ep + n), none, false⟩

/-! ### What the image says -/

/-- The valid partitions of the image. -/
def Built.parts (b : Built) : List Nat := (List.range 16).filter (fun p => b.get F.RK_PARTJOB_VALID p == 1)

/-- The clusters of a partition in the image; none where it is not valid. -/
def Built.clusters (b : Built) (p : Nat) : Nat :=
  if b.get F.RK_PARTJOB_VALID p = 1 then b.get F.RK_PARTJOB_CLUSTERS p else 0

/-- The partition of the image that holds a cluster. -/
def Built.partOf (b : Built) (c : Nat) : Option Nat := b.parts.find? (fun p => bit (b.get F.RK_PARTJOB_CLUSTERS p) c)

/-- The chip of a rank by the image's rank map (R106). -/
def Built.chipOf (b : Built) (p rank : Nat) : Option Nat :=
  let w := b.word .RK_RANKMAP (1024 * p + rank / 4)
  if fieldGet w (16 * (rank % 4) + 15) 1 = 1 then some (fieldGet w (16 * (rank % 4)) 12) else none

/-- The owner of a bank after the load (R310): that of the BANKS record, or the present one; none for UNOWNED. -/
def State.ownerAfter (s : State) (b : Built) (ep n : Nat) : Option Handover :=
  match lookup b.banks (256 * ep + n) with
  | some w => some (recordOwner w ep n)
  | none =>
    if s.bank F.CP_BANKOWN_STATE ep n = 0 then none
    else some { mem := ep, bank := n, shared := s.bank F.CP_BANKOWN_SHARED ep n, net := s.bank F.CP_BANKOWN_NET_HELD ep n
                group := s.bank F.CP_BANKOWN_GROUP ep n, part := s.bank F.CP_BANKOWN_OWNER_PART ep n
                ep := s.bank F.CP_BANKOWN_OWNER_EP ep n }

/-! ### Codes 0x02 to 0x08 -/

/-- A partition is active (R316). -/
def State.activePart (s : State) (p : Nat) : Bool :=
  s.flag F.RK_PARTJOB_VALID p && !(s.part p).fenced && !(s.part p).quiesced

/-- Whether some partition is active. -/
def State.anyActive (s : State) : Bool := (List.range 16).any s.activePart

/-- The header checks, codes 0x02 to 0x06. -/
def State.checkHeader (s : State) (h : Header) (bytes : List Byte) : Option Nat :=
  let slot := lookup s.sealStore h.slot
  let sig : BitVec 768 := BitVec.ofNat 768 (leNat ((bytes.drop h.total).take 96))
  if 3 < h.level then some 0x02
  else if s.fuse.lifecycle = 3 || (h.sign = 0 && s.fuse.lifecycle != 0) then some 0x03
  else if h.sign = 1 && slot.isNone then some 0x04
  else if h.sign = 1 && !(match slot with | some k => Config.ecdsaVerify k.key (Config.sha384 (bytes.take h.total)) sig | none => false)
    then some 0x05
  else if h.chipId != s.fuse.chipId.toNat || !s.flag F.RK_COORDS_SET 0 || h.addr != s.own then some 0x06
  else none

/-- Code 0x07: R314, and no epoch group for a chip that holds a partition or grants transit. -/
def State.checkEpoch (s : State) (h : Header) (b : Built) : Bool :=
  let n := s.get F.RK_EPOCH_NUMBER 0
  let numbered := 1 ≤ h.epoch && h.epoch ≤ 0xFFFE && (if n = 0 then h.kind = 0 else h.epoch = nextEpoch n)
  let holds := !b.parts.isEmpty
    || (b.copies .RK_TRANSIT).any (fun e => sub e.2 F.RK_TRANSIT_VALID == 1 && sub e.2 F.RK_TRANSIT_SIDE == 0)
  numbered && (!holds || b.get F.PL_GROUP_VALID h.group = 1)

/-- Code 0x08: another load, RETIRING, armed, or within EPOCH_SETTLE of a cancel. -/
def State.loadBlocked (s : State) (other : Bool) : Bool :=
  other || s.shadow = SH.RETIRING || s.flag F.RK_EPOCH_ARMED 0 || s.epochCtl.settle.isSome

/-! ### Codes 0x0A to 0x15 -/

/-- The partitions whose activity makes an S-class register static (R13). -/
def State.servedBy (s : State) (r : Reg) (n : Nat) (old new : Word) : List Nat :=
  match r with
  | .RK_PARTJOB => [n]
  | .RK_FLOWCTX => ([old, new].filter (fun w => sub w F.RK_FLOWCTX_VALID == 1)).map (fun w => sub w F.RK_FLOWCTX_PARTITION)
  | .OP_EGWIN => if n % 32 < 16 then (s.partOfCluster (n % 32)).toList else List.range 16
  | _ => (s.partOfCore (n / 64)).toList

/-- STATIC_ACTIVE (R316). -/
def State.checkStatic (s : State) (b : Built) : Option Refused :=
  let changed (k : Nat) : Option Refused :=
    match loadedAt k with
    | none => none
    | some r =>
      let n := k / 256
      let old := s.word r n &&& r.info.cfg
      let new := b.word r n
      if r.info.cls = .static && old != new && (s.servedBy r n old new).any s.activePart then some (b.refuse 0x0A r n) else none
  if !s.anyActive then none
  else (s.regs.map (fun (e : Nat × Word) => e.1 - e.1 % 2) ++ b.regs.map (fun (e : Nat × Word) => e.1)).findSome? changed

/-- The outputs an SC_TREE entry feeds: its parent and its children. -/
def treeOuts (w : Word) : List Nat :=
  (if sub w F.SC_TREE_PARENT < 7 then [sub w F.SC_TREE_PARENT] else []) ++ bitsOf 7 (sub w F.SC_TREE_CHILDREN)

/-- The ORDER list of an SC_TREE entry. -/
def treeOrder (w : Word) : List Nat :=
  (List.range (sub w F.SC_TREE_INPUTS)).map (fun j => fieldGet w (26 + 3 * j) 3)

/-- ABSENT (R30): a table names an endpoint that is not present. -/
def State.checkAbsent (s : State) (b : Built) : Option Refused :=
  let here (p : Option Nat) (rank : Nat) : Bool := match p with | some p => b.chipOf p rank == some s.own | none => false
  let amchan (e : Nat × Word) : Bool :=
    let named := sub e.2 F.CP_AMCHAN_VALID = 1 && (sub e.2 F.CP_AMCHAN_ROLE = 1 || sub e.2 F.CP_AMCHAN_ANY_SOURCE = 0)
    !s.present (e.1 / 64) || (named && here (b.partOf (e.1 / 64 / 16)) (sub e.2 F.CP_AMCHAN_RANK)
      && !s.present (sub e.2 F.CP_AMCHAN_ENDPOINT))
  let flow (e : Nat × Word) : Bool :=
    sub e.2 F.RK_FLOWCTX_VALID = 1 && (!s.present (sub e.2 F.RK_FLOWCTX_ENDPOINT)
      || (here (b.parts.find? (fun p => p == sub e.2 F.RK_FLOWCTX_PARTITION)) (sub e.2 F.RK_FLOWCTX_PEER_RANK)
          && !s.present (sub e.2 F.RK_FLOWCTX_PEER_EP)))
  let members (e : Nat × Word) : Bool := (bitsOf 64 e.2.toNat).any (fun j => !s.present (64 * (e.1 % 4) + j))
  let tree (e : Nat × Word) : Bool :=
    sub e.2 F.SC_TREE_VALID = 1 && (treeOuts e.2 ++ treeOrder e.2).contains 4 && !s.present (coreAt (rxOf (e.1 / 16)) (ryOf (e.1 / 16)))
  let coreReg (e : Nat × Word) : Bool := !s.present (e.1 / 64)
  let look (r : Reg) (f : Nat × Word → Bool) : Option Refused :=
    ((b.copies r).find? f).map (fun e => b.refuse 0x0B r e.1)
  let bank (e : Nat × Word) : Bool := !s.present (e.1 / 256) || !s.present (recordOwner e.2 0 0).ep
  (look .CP_AMCHAN amchan).or ((look .CP_AMCREDIT coreReg).or ((look .CP_AMSENDS coreReg).or ((look .PL_MEMBERS members).or
    ((look .SC_TREE tree).or ((look .RK_FLOWCTX flow).or
      ((b.banks.find? bank).map (fun (e : Nat × Word) => b.refuseBank 0x0B (e.1 / 256) (e.1 % 256))))))))

/-- PARTITION (R104). -/
def State.checkParts (s : State) (b : Built) : Option Refused :=
  let bad (p : Nat) : Bool :=
    b.clusters p = 0 || b.chipOf p (b.get F.RK_PARTJOB_OWN_RANK p) != some s.own
      || (b.parts.filter (fun q => q < p)).any (fun q => b.get F.RK_PARTJOB_JOB q == b.get F.RK_PARTJOB_JOB p
          || (b.clusters q &&& b.clusters p) != 0)
  (b.parts.find? bad).map (fun p => b.refuse 0x0C .RK_PARTJOB p)

/-- An owner that R197 allows after the load. -/
def State.ownerAllowed (s : State) (b : Built) (h : Handover) : Bool :=
  h.ep = 286 || h.ep = 287 || (h.ep < 256 && s.present h.ep && bit (b.clusters h.part) (h.ep / 16))

/-- OWNERSHIP (R197, R200): every bank of every present endpoint. -/
def State.checkOwners (s : State) (b : Built) : Option Refused :=
  ((List.range 280).filter s.present).findSome? (fun ep =>
    (List.range (bankCount ep)).findSome? (fun n =>
      match s.ownerAfter b ep n with
      | some h => if s.ownerAllowed b h then none else some (b.refuseBank 0x0D ep n)
      | none => some (b.refuseBank 0x0D ep n)))

/-- ROUTE: the first two conditions of Table 5-10. -/
def State.checkRoutes (s : State) (b : Built) : Option Refused :=
  let bad (d port : Nat) : Bool := (port = 6) != (d = s.own) || (port < 6 && b.get F.OP_PLAN_VALID port = 0)
  let named := b.copies .RK_CHIPROUTE
  match named.find? (fun e => bad e.1 (sub e.2 F.RK_CHIPROUTE_PORT)) with
  | some e => some (b.refuse 0x0E .RK_CHIPROUTE e.1)
  | none =>
    let zero := (List.range 4096).find? (fun d => bad d 0 && !named.any (fun e => e.1 == d))
    zero.map (fun d => b.refuse 0x0E .RK_CHIPROUTE d)

/-- The window of a port, class and source in the image. -/
def Built.win (b : Built) (p k src : Nat) : Nat := b.get F.OP_EGWIN_WINDOW (egwin p k src)

/-- The optical ports by which a partition's ranks are reached. -/
def State.portsOf (s : State) (b : Built) (p : Nat) : List Nat :=
  let chips := ((b.copies .RK_RANKMAP).filter (fun e => e.1 / 1024 == p)).flatMap (fun e =>
    ((List.range 4).filter (fun j => fieldGet e.2 (16 * j + 15) 1 == 1)).map (fun j => fieldGet e.2 (16 * j) 12))
  ((chips.eraseDups.filter (fun d => d != s.own)).map (fun d => b.get F.RK_CHIPROUTE_PORT d)).eraseDups.filter (fun q => q < 6)

/-- WINDOW: the window conditions of Table 5-10. -/
def State.checkWindows (s : State) (b : Built) : Option Refused :=
  let least (k src : Nat) : Nat := if k = 2 then 17 else if k = 1 && src = 21 then 1 else 65
  let cells := (List.range 6).flatMap (fun p => (List.range 3).map (fun k => (p, k)))
  let perClass := cells.findSome? (fun e =>
    let ws := (List.range 32).map (fun src => (src, b.win e.1 e.2 src))
    match ws.find? (fun w => w.2 != 0 && w.2 < least e.2 w.1) with
    | some w => some (egwin e.1 e.2 w.1)
    | none => if [8192, 8192, 512].getD e.2 0 < (ws.map (fun w => w.2)).sum then some (egwin e.1 e.2 0) else none)
  let reach := b.parts.findSome? (fun p =>
    (s.portsOf b p).findSome? (fun q =>
      ((List.range 16).filter (fun c => bit (b.clusters p) c && (List.range 16).any (fun l => s.present (16 * c + l)))).findSome?
        (fun c => ([0, 1].find? (fun k => b.win q k c == 0)).map (fun k => egwin q k c))))
  (perClass.or reach).map (fun n => b.refuse 0x0F .OP_EGWIN n)

/-- TRANSIT: claims of one axis (R129), SIDE 0 quotas of one port (R131). -/
def Built.checkTransit (b : Built) : Option Refused :=
  let claim (p : Nat) : Option Nat := if b.get F.RK_RINGPLAN_CLAIMED p = 1 then some (b.get F.RK_RINGPLAN_CLAIM_JOB p) else none
  let grants := (b.copies .RK_TRANSIT).filter (fun e => sub e.2 F.RK_TRANSIT_VALID == 1 && sub e.2 F.RK_TRANSIT_SIDE == 0)
  let exceeds (e : Nat × Word) : Bool :=
    let upTo := grants.filter (fun x => x.1 ≤ e.1 && sub x.2 F.RK_TRANSIT_PORT == sub e.2 F.RK_TRANSIT_PORT)
    1664 < (upTo.map (fun x => sub x.2 F.RK_TRANSIT_QUOTA)).sum
  match [0, 2, 4].find? (fun p => claim p != claim (p + 1)) with
  | some p => some (b.refuse 0x10 .RK_RINGPLAN (p + 1))
  | none => (grants.find? exceeds).map (fun e => b.refuse 0x10 .RK_TRANSIT e.1)

/-- Inputs that dimension order lets send to an output, both below 7 (R50). -/
def mayFeed (o i : Nat) : Bool :=
  match i with
  | 0 => o = 2 || (4 ≤ o && o ≤ 6)
  | 1 => o != 1 && o ≤ 6
  | 2 => o = 0 || (4 ≤ o && o ≤ 6)
  | 3 => o != 3 && o ≤ 6
  | i => o != i

/-- The valid SC_TREE entries of the image: copy and word. -/
def Built.trees (b : Built) : List (Nat × Word) := (b.copies .SC_TREE).filter (fun e => sub e.2 F.SC_TREE_VALID == 1)

/-- Whether a router's input or output exists: a core port's only where it is present. -/
def State.attached (s : State) (r k : Nat) : Bool :=
  if k = 4 then s.present (coreAt (rxOf r) (ryOf r)) else linkExists r k

/-- ARBITRATION (R50). -/
def State.checkRanks (s : State) (b : Built) : Option Refused :=
  let trees := b.trees
  (List.range 256).findSome? (fun r =>
    let ws := (trees.filter (fun e => e.1 / 16 == r)).map (fun e => e.2)
    let outs := ws.flatMap treeOuts
    let ins := outs ++ ws.flatMap treeOrder
    let real := (List.range 7).filter (s.attached r)
    ((List.range 8).filter (fun o => o = 7 || s.attached r o)).findSome? (fun o =>
      let feed := if o = 7 then real.filter (fun i => 4 ≤ i || ins.contains i)
        else real.filter (fun i => mayFeed o i) ++ (if outs.contains o then [7] else [])
      let clash (reg : Reg) : Bool := !distinct (feed.map (fun i => fieldGet (b.word reg (8 * r + o)) (4 * i) 3))
      if clash .RQ_ARBRANK then some (b.refuse 0x11 .RQ_ARBRANK (8 * r + o))
      else if clash .RP_ARBRANK then some (b.refuse 0x11 .RP_ARBRANK (8 * r + o)) else none))

/-- Whether runs (base, count) stay below a capacity and do not overlap. -/
def fitApart (cap : Nat) : List (Nat × Nat) → Bool
  | [] => true
  | (a, n) :: t => a + n ≤ cap && t.all (fun e => n = 0 || e.2 = 0 || a + n ≤ e.1 || e.1 + e.2 ≤ a) && fitApart cap t

/-- SCREED (R211, R215, Table 9-1). -/
def Built.checkScreed (b : Built) : Option Refused :=
  let trees := b.trees
  let router (e : Nat × Word) : Option Refused :=
    let mates := (trees.filter (fun x => x.1 / 16 == e.1 / 16 && x.1 ≤ e.1)).map (fun x => b.word .SC_TREERES x.1)
    let runs (base count : Fld) : List (Nat × Nat) := mates.map (fun w => (sub w base, sub w count))
    let kids := popcount 7 (sub e.2 F.SC_TREE_CHILDREN)
    if !distinct (mates.flatMap (fun w => bitsOf 4 (sub w F.SC_TREERES_SLOTS)))
        || !fitApart 16 (runs F.SC_TREERES_MC_BASE F.SC_TREERES_MC_COUNT)
        || !fitApart 16 (runs F.SC_TREERES_MERGE_BASE F.SC_TREERES_MERGE_COUNT)
        || (2 ≤ kids && b.get F.SC_TREERES_MC_COUNT e.1 < kids + 1) then some (b.refuse 0x12 .SC_TREERES e.1)
    else if !distinct (treeOrder e.2) then some (b.refuse 0x12 .SC_TREE e.1) else none
  let ports := (b.copies .SC_PORTTREE).filter (fun e => sub e.2 F.SC_PORTTREE_VALID == 1)
  let port (e : Nat × Word) : Option Refused :=
    let mates := (ports.filter (fun x => x.1 / 256 == e.1 / 256 && x.1 ≤ e.1)).map (fun x => x.2)
    let runs (base count : Fld) : List (Nat × Nat) := mates.map (fun w => (sub w base, sub w count))
    if fitApart 64 (runs F.SC_PORTTREE_SLOT_BASE F.SC_PORTTREE_SLOT_COUNT)
        && fitApart 64 (runs F.SC_PORTTREE_MC_BASE F.SC_PORTTREE_MC_COUNT)
        && fitApart 64 (runs F.SC_PORTTREE_MERGE_BASE F.SC_PORTTREE_MERGE_COUNT) then none
    else some (b.refuse 0x12 .SC_PORTTREE e.1)
  (trees.findSome? router).or (ports.findSome? port)

/-- The core ports that a group's PL_MEMBERS name. -/
def Built.plumbMembers (b : Built) (g : Nat) : List Nat :=
  (List.range 4).flatMap (fun j => (bitsOf 64 (b.get F.PL_MEMBERS_MASK (4 * g + j))).map (fun k => 64 * j + k))

/-- GROUP (R223, R238). -/
def State.checkGroups (s : State) (b : Built) : Option Refused :=
  let trees := b.trees
  let bad (e : Nat × Word) : Bool :=
    let g := e.1
    let fmts := [F.RK_GROUP_FMT_MEMBER, F.RK_GROUP_FMT_DIE, F.RK_GROUP_FMT_CHIP, F.RK_GROUP_FMT_RACK].map (sub e.2)
    let nodes := trees.filter (fun t => sub t.2 F.SC_TREE_GROUP == g)
    let screed := (nodes.filter (fun t => bit (sub t.2 F.SC_TREE_CHILDREN) 4)).map (fun t => coreAt (rxOf (t.1 / 16)) (ryOf (t.1 / 16)))
    let plumb := b.plumbMembers g
    !(fmts.all isInt || fmts.all (fun f => !isInt f)) || !opAllowed (sub e.2 F.RK_GROUP_FMT_DIE) (sub e.2 F.RK_GROUP_OP)
      || plumb.any (fun i => !s.present i || !bit (b.clusters (sub e.2 F.RK_GROUP_PARTITION)) (i / 16))
      || plumb.any (fun i => !screed.contains i) || screed.any (fun i => !plumb.contains i)
      || (sub e.2 F.RK_GROUP_ROOT_MEMBER = 1
          && nodes.any (fun t => sub t.2 F.SC_TREE_PARENT == 7 && !bit (sub t.2 F.SC_TREE_CHILDREN) 4))
  (((b.copies .RK_GROUP).filter (fun e => sub e.2 F.RK_GROUP_VALID == 1)).find? bad).map (fun e => b.refuse 0x13 .RK_GROUP e.1)

/-- The receive entry that R179 chooses at core `dst` for a message to `ring` of a rank and endpoint. -/
def receiver (chans : List (Nat × Word)) (dst ring rank ep : Nat) : Option (Nat × Word) :=
  (chans.filter (fun e => e.1 / 64 == dst)).find? (fun e =>
    sub e.2 F.CP_AMCHAN_ROLE == 0 && sub e.2 F.CP_AMCHAN_RING == ring
      && (sub e.2 F.CP_AMCHAN_ANY_SOURCE == 1
          || (sub e.2 F.CP_AMCHAN_RANK == rank && sub e.2 F.CP_AMCHAN_ENDPOINT == ep)))

/-- The receive entry on this chip that a send entry targets; none where its destination is another chip. -/
def State.target (s : State) (b : Built) (chans : List (Nat × Word)) (e : Nat × Word) : Option (Option (Nat × Word)) :=
  match b.partOf (e.1 / 64 / 16) with
  | none => none
  | some p =>
    if b.chipOf p (sub e.2 F.CP_AMCHAN_RANK) = some s.own then
      some (receiver chans (sub e.2 F.CP_AMCHAN_ENDPOINT) (sub e.2 F.CP_AMCHAN_RING) (b.get F.RK_PARTJOB_OWN_RANK p) (e.1 / 64))
    else none

/-- CHANNEL (R181, R182). -/
def State.checkChannels (s : State) (b : Built) : Option Refused :=
  let chans := (b.copies .CP_AMCHAN).filter (fun e => sub e.2 F.CP_AMCHAN_VALID == 1)
  let order (w : Word) : Nat := sub w F.CP_AMCHAN_ORDER
  let hold (e : Nat × Word) : Nat :=
    if sub e.2 F.CP_AMCHAN_ROLE = 1 then b.get F.CP_AMCREDIT_RHOLD e.1 else b.get F.CP_AMCREDIT_FLITS e.1
  let sends := chans.filter (fun e => sub e.2 F.CP_AMCHAN_ROLE == 1)
  let stored (e : Nat × Word) : Bool := 1024 < ((chans.filter (fun x => x.1 / 64 == e.1 / 64 && x.1 ≤ e.1)).map hold).sum
  let handlers (e : Nat × Word) : Bool :=
    if chans.any (fun x => x.1 == e.1 && sub x.2 F.CP_AMCHAN_ROLE == 0) then
      (bitsOf 64 (sub e.2 F.CP_AMSENDS_MASK)).any (fun j =>
        !sends.any (fun x => x.1 == e.1 / 64 * 64 + j && order (b.word .CP_AMCHAN e.1) < order x.2))
    else sub e.2 F.CP_AMSENDS_MASK != 0
  let aim (e : Nat × Word) : Bool :=
    match s.target b chans e with
    | some none => true
    | some (some t) => order t.2 != order e.2
    | none => false
  let limits (e : Nat × Word) : Bool :=
    sub e.2 F.CP_AMCHAN_ROLE = 0 && b.get F.CP_AMCREDIT_FLITS e.1
      < ((sends.filter (fun x => (s.target b chans x).map (fun t => t.map (fun y => y.1)) == some (some e.1))).map
          (fun x => b.get F.CP_AMCREDIT_FLITS x.1)).sum
  ((chans.find? stored).map (fun e => b.refuse 0x14 .CP_AMCREDIT e.1)).or
    ((((b.copies .CP_AMSENDS).find? handlers).map (fun e => b.refuse 0x14 .CP_AMSENDS e.1)).or
      (((sends.find? aim).map (fun e => b.refuse 0x14 .CP_AMCHAN e.1)).or
        ((chans.find? limits).map (fun e => b.refuse 0x14 .CP_AMCREDIT e.1))))

/-- FLOW: the endpoints of flow contexts. -/
def State.checkFlows (s : State) (b : Built) : Option Refused :=
  let bad (e : Nat × Word) : Bool :=
    let ep := sub e.2 F.RK_FLOWCTX_ENDPOINT
    let p := sub e.2 F.RK_FLOWCTX_PARTITION
    let core := ep < 256 && s.present ep && bit (b.clusters p) (ep / 16)
    let stack := sub e.2 F.RK_FLOWCTX_ROLE = 0 && 256 ≤ ep && ep < 280 && b.get F.RK_PARTJOB_VALID p = 1
      && (List.range 256).any (fun n => (s.ownerAfter b ep n).map (fun h => h.part) == some p)
    sub e.2 F.RK_FLOWCTX_VALID = 1 && !(core || stack)
  ((b.copies .RK_FLOWCTX).find? bad).map (fun e => b.refuse 0x15 .RK_FLOWCTX e.1)

/-- Codes 0x0A to 0x15 on the whole configuration (R320). -/
def State.checkWhole (s : State) (b : Built) : Option Refused :=
  (s.checkStatic b).or ((s.checkAbsent b).or ((s.checkParts b).or ((s.checkOwners b).or ((s.checkRoutes b).or
    ((s.checkWindows b).or (b.checkTransit.or ((s.checkRanks b).or (b.checkScreed.or ((s.checkGroups b).or
      ((s.checkChannels b).or (s.checkFlows b)))))))))))

/-- Steps 2 to 4 of Table 12-9 on a container: the refusal, or its header and image. -/
def State.judgeLoad (s : State) (bytes : List Byte) (other : Bool) : Except Refused (Header × Built) :=
  match parseContainer bytes with
  | none => .error (plainRefusal 0x01)
  | some (h, fs) =>
    let b := (s.loadBase (h.kind = 0)).frames 0 fs
    match s.checkHeader h bytes with
    | some c => .error (plainRefusal c)
    | none =>
      if !s.checkEpoch h b then .error (plainRefusal 0x07)
      else if s.loadBlocked other then .error (plainRefusal 0x08)
      else
        match b.err with
        | some e => .error ⟨0x09, some e.1, e.2.1, e.2.2⟩
        | none =>
          match s.checkWhole b with
          | some r => .error r
          | none => .ok (h, b)

end Sys2Proof.Machine
end

