-- ==== Sys2Proof/Machine/Loads.lean ====
section
/-! DEFINITION. LOAD_STENCIL and APPLY_EPOCH: staging, the load sequence of Table 12-9, arming and cancelling (R308 to R318,
R322, R327, R341, R344). -/

namespace Sys2Proof.Machine

def evStencilLoaded : Event := ⟨0x901, 0⟩
def evStencilRefused : Event := ⟨0x902, 1⟩

/-! ### Staging -/

/-- The staging store in bytes. -/
def stageMax : Nat := 8 * 2 ^ 20 + 96

/-- LOAD_STENCIL BEGIN; a COMMIT that runs answers BUSY. -/
def State.doLoadBegin (s : State) (ask : Asker) (size : Nat) : State × Option Final :=
  if stageMax < size || size % 8 != 0 then (s, finalRange)
  else if !(s.backgroundOf AC.LOAD_STENCIL).isEmpty then (s, plainFinal AS.BUSY)
  else (s.modAlorn (fun a => { a with stageSrc := some ask.src, stageSize := size, stage := [] }), finalOk)

/-- LOAD_STENCIL DATA: the bytes from word 3 on, `n` of them, at an offset of the container. -/
def State.doLoadData (s : State) (ask : Asker) (off n : Nat) (data : List Word) : State × Option Final :=
  if s.alorn.stageSrc != some ask.src then (s, refusedFor DT.SHADOW)
  else if s.alorn.stageSize < off + n then (s, finalRange)
  else
    let bs := (wordBytes data).take n
    (s.modAlorn (fun a => { a with
      stage := (List.range n).foldl (fun (t : Tbl Byte) k => upsert t (off + k) (bs.getD k 0)) a.stage }), finalOk)

/-- LOAD_STENCIL DISCARD. -/
def State.doLoadDiscard (s : State) : State × Option Final := (s.freeStaging, finalOk)

/-! ### Steps 1 to 4 of Table 12-9 -/

/-- The COMMIT that runs. -/
def State.commitAsk (s : State) : Option Background := (s.backgroundOf AC.LOAD_STENCIL).head?

/-- A load is refused (R315): recorded, logged, and the COMMIT answered with the data of Table 13-8. -/
def State.refuseLoad (s : State) (r : Refused) : State :=
  let frame := r.frame.getD (Config.noFrame s.freeCtr).toNat
  let inst := r.inst.getD (Config.noInstance s.freeCtr).toNat
  let s := s.drawn.modAlorn (fun a => { a with load := none })
  let s := (s.put F.RK_STENCIL_CODE 0 r.code).put F.RK_STENCIL_FRAME 0 frame
  let s := if r.sticky then s.put F.RK_STENCIL_S_REFUSED 0 1 else s
  let s := (s.put F.RK_STENCIL_LOADING 0 0).event evStencilRefused 8 0 (r.code + 2 ^ 8 * frame) inst
  match s.commitAsk with
  | some b => s.endBackground b AS.REFUSED (0x100 + r.code) [BitVec.ofNat 64 (r.code + 2 ^ 16 * frame), BitVec.ofNat 64 inst]
  | none => s

/-- The part of an image in the register file's keys whose registers are of one class. -/
def Built.ofClass (b : Built) (c : RegClass) : Tbl Word :=
  b.regs.filter (fun e => match loadedAt e.1 with | some r => r.info.cls = c | none => false)

/-- What stands between steps 4 and 7 of a load. -/
def loadOf (first : Bool) (h : Header) (b : Built) : Load :=
  { first := first, kind := h.kind, epoch := h.epoch, group := h.group, signed := h.sign = 1, build := h.build
    image := b.ofClass .epoch, statics := b.ofClass .static, tune := b.tune, planKeys := b.planKeys, guard := b.guard
    banks := b.banks }

/-- The signature of a signed container is checked with the key of its slot, whose digest is checked first (R354). -/
def State.useKey (s : State) (bytes : List Byte) : State :=
  match parseContainer bytes with
  | some (h, _) => if h.sign = 1 then s.useSlot h.slot else s
  | none => s

/-- LOAD_STENCIL COMMIT: steps 1 to 4; a load that passes waits for step 7. -/
def State.doLoadCommit (s : State) (ask : Asker) : State × Option Final :=
  let a := s.alorn
  if a.stageSrc != some ask.src || a.stage.length != a.stageSize then (s, finalRange)
  else
    let bytes := a.stage.map (fun e => e.2)
    match s.emptyStaging.startBackground ask AC.LOAD_STENCIL 0 with
    | (s, f) =>
      let s := (s.put F.RK_STENCIL_LOADING 0 1).useKey bytes
      match s.judgeLoad bytes false with
      | .error r => (s.refuseLoad r, f)
      | .ok (h, b) => (s.modAlorn (fun a => { a with load := some (loadOf (s.get F.RK_EPOCH_NUMBER 0 == 0) h b) }), f)

/-- STENCIL_LOAD_LIMIT_EXPIRY: a load has not reached step 7 within 800 ms. -/
def execStencilLoadLimitExpiry (s : State) : Host.Outcome State Fault Refusal :=
  live s (fun s => if s.alorn.load.isSome && s.alornRuns then s.refuseLoad (plainRefusal 0x16) else s)

/-! ### Steps 5 to 8 -/

/-- The fields of configuration of a class E or S register from an image; its status fields keep their value (R309). -/
def State.putImage (s : State) (img : Tbl Word) (bank k : Nat) : State :=
  match loadedAt k with
  | none => s
  | some r =>
    let n := k / 256
    let m := r.info.cfg
    s.setWord r n (((lookup img k).getD 0 &&& m) ||| (s.word r n bank &&& ~~~m)) bank

/-- The keys of the register file, without the bank, of one class of loaded registers, and those of an image. -/
def State.imageKeys (s : State) (c : RegClass) (img : Tbl Word) : List Nat :=
  (s.regs.map (fun e => e.1 - e.1 % 2)).filter (fun k => match loadedAt k with | some r => r.info.cls = c | none => false)
    ++ img.map (fun e => e.1)

/-- Step 5: an image into one bank of every class E register, `only` saying which words are written. -/
def State.writeBank (s : State) (img : Tbl Word) (bank : Nat) (only : Nat → Bool := fun _ => true) : State :=
  ((s.imageKeys .epoch img).filter only).foldl (fun s k => s.putImage img bank k) s

/-- Step 6: the class S fields; a flow context whose binding changes is reset. -/
def State.writeStatics (s : State) (img : Tbl Word) (only : Nat → Bool := fun _ => true) : State :=
  ((s.imageKeys .static img).filter only).foldl (fun s k =>
    let old := (lookup s.regs k).getD 0
    let s := s.putImage img 0 k
    if loadedAt k = some .RK_FLOWCTX && (lookup s.regs k).getD 0 != old then
      (s.setWord .RK_FLOWSEQ (k / 256) 0).setWord .RK_FLOWVAL (k / 256) 0
    else s) s

/-- The masks of a GUARD table moved into the shadow. -/
def guardShadow (t : Tbl Word) : Tbl Word := t.map (fun e => (e.1 + 1, e.2))

/-- Alorn's shadow of TUNE, PLAN_KEYS and GUARD; a first load is in effect at once and the shadow equal (R314). -/
def State.writeTables (s : State) (l : Load) : State :=
  let up {α : Type} (t : Tbl α) : Tbl α := t.map (fun e => (e.1 + 256, e.2))
  if l.first then
    { s with tune := l.tune ++ up l.tune, planKeys := l.planKeys ++ up l.planKeys, guard := guardCopy l.guard }
  else
    { s with
      tune := s.tune.filter (fun e => e.1 < 256) ++ up l.tune
      planKeys := s.planKeys.filter (fun e => e.1 < 256) ++ up l.planKeys
      guard := (guardShadow l.guard).foldl (fun t e => upsert t e.1 e.2) (s.guard.filter (fun e => e.1 % 2 = 0)) }

/-- Partitions that step 6 has made valid are quiesced and, but for a first load, listed in NEW_PARTS; those it has made
invalid have no run state (R317, R367). -/
def State.newParts (s : State) (was : List Nat) (first : Bool) : State :=
  (List.range 16).foldl (fun s p =>
    let now' := s.flag F.RK_PARTJOB_VALID p
    if now' && !was.contains p then
      let s := s.setPart p { Part.initial with quiesced := true, reported := true }
      if first then s else s.put F.RK_STENCIL_NEW_PARTS 0 (setBit (s.get F.RK_STENCIL_NEW_PARTS 0) p)
    else if !now' && was.contains p then { s with parts := remove s.parts p }
    else s) s

/-- A first load takes effect at once (R314): the epoch, and CRYPT of the plan on every port for its next Keying. -/
def State.firstEpoch (s : State) (l : Load) : State :=
  let s := ((s.put F.RK_EPOCH_NUMBER 0 l.epoch).put F.RK_EPOCH_PARITY 0 (l.epoch % 2)).put F.RK_EPOCH_EPOCH_GROUP 0 l.group
  (List.range 6).foldl (fun s p =>
    (s.modPort p (fun q => { q with key := { q.key with planCrypt := s.get F.OP_PLAN_CRYPT (s.logical p) } })).showAdmit p) s

/-- Step 7 of Table 12-9 for RK_STENCIL and the log. -/
def State.loadDone (s : State) (l : Load) : State :=
  let s := (s.put F.RK_STENCIL_CODE 0 0).put F.RK_STENCIL_SIGNED 0 (b2n l.signed)
  let s := (s.put F.RK_STENCIL_BUILD 0 (l.build.toNat % 2 ^ 16)).put F.RK_STENCIL_LOADING 0 0
  s.event evStencilLoaded 8 0 (l.epoch + 2 ^ 16 * l.kind + 2 ^ 17 * b2n l.signed) l.build.toNat

/-- The first write of a load that the guard refuses: one that changes a class S field of a partition that is active when it is
made (R316, R350); the class E fields all go into the shadow bank. -/
def State.loadStops (s : State) (l : Load) : Option (Reg × Nat) :=
  (s.imageKeys .static l.statics).findSome? (fun k =>
    match loadedAt k with
    | none => none
    | some r =>
      let n := k / 256
      let old := s.word r n &&& r.info.cfg
      let new := (lookup l.statics k).getD 0 &&& r.info.cfg
      if old != new && (s.servedBy r n old new).any s.activePart then some (r, n) else none)

/-- A load that the guard refuses writes nothing: counted, recorded with CMD 0, logged, and the COMMIT answered with the
register (R349). -/
def State.guardLoad (s : State) (r : Reg) (n : Nat) : State :=
  let s := (((s.modAlorn (fun a => { a with load := none })).put F.RK_STENCIL_LOADING 0 0).noteGuard r n 0)
  match s.commitAsk with
  | some b => s.endBackground b AS.REFUSED (0x8000 + r.info.code)
  | none => s

/-- Steps 5 to 8 of Table 12-9. -/
def State.commitLoad (s : State) (l : Load) : State :=
  let was := (List.range 16).filter (fun p => s.flag F.RK_PARTJOB_VALID p)
  let s := (s.writeBank l.image (1 - s.parity)).writeTables l
  let s := if l.first then (s.writeBank l.image s.parity).firstEpoch l else s
  let s := (s.writeStatics l.statics).newParts was l.first
  let s := (s.put F.RK_EPOCH_SHADOW 0 (if l.first then SH.CLEAN else SH.PENDING)).loadDone l
  let s := { s with epochCtl := { s.epochCtl with nextGroup := l.group }, alorn := { s.alorn with load := none, banksToDo := l.banks } }
  let s := match s.commitAsk with
    | some b => s.endBackground b AS.OK 0 [0, 0]
    | none => s
  let s := s.loadHandovers
  if l.first then s.repeatKeying else s

/-- STENCIL_LOAD_STEP_7: the load that passed its checks presents its writes to the guard and reaches step 7. -/
def execStencilLoadStep7 (s : State) : Host.Outcome State Fault Refusal :=
  live s (fun s =>
    match s.alorn.load with
    | some l =>
      if !s.alornRuns then s
      else match s.loadStops l with
        | some (r, n) => (s.guardLoad r n).flow
        | none => (s.commitLoad l).flow
    | none => s)

/-- A restart of Alorn cuts a load (R318, R352): before step 5 everything is as it was; between steps 5 and 7 SHADOW is
INCOMPLETE, and free values say which words of the shadow and of the class S fields have been written; a partition that they
make valid is new (R317). A load that the guard refuses has written nothing. -/
def State.cutLoad (s : State) : State :=
  match s.alorn.load with
  | none => s
  | some l =>
    let c := s.freeCtr
    let s := (s.drawn.put F.RK_STENCIL_LOADING 0 0).modAlorn (fun a => { a with load := none })
    if !Config.cutAfterStep5 c || (s.loadStops l).isSome then s
    else
      let was := (List.range 16).filter (fun p => s.flag F.RK_PARTJOB_VALID p)
      let s := (s.writeBank l.image (1 - s.parity) (Config.cutWrote c)).writeStatics l.statics (Config.cutWrote c)
      (s.newParts was l.first).put F.RK_EPOCH_SHADOW 0 SH.INCOMPLETE

/-! ### APPLY_EPOCH -/

/-- Arms the chip and arrives at the arm barrier, where the chip lies in the trees of EPOCH_GROUP (R322, R323). -/
def State.arm (s : State) (e : Nat) : State :=
  let s := s.put F.RK_EPOCH_ARMED 0 1
  let g := s.epochGroup
  if !s.flag F.PL_GROUP_VALID g then s
  else
    let s := { s with epochCtl := { s.epochCtl with arrived := some e } }
    s.fromAlorn (mkPlumb Op.BAR_ARRIVE g e s.parity 0 (s.groupPart g) 0 0 0)

/-- APPLY_EPOCH that waits: 1 for the switch, 2 for retirement; the Stencil family holds one background command. -/
def State.awaitEpoch (s : State) (ask : Asker) (wait : Nat) : State × Option Final :=
  if wait = 0 then (s, some ⟨AS.OK, 0, s.epochData⟩) else s.startBackground ask AC.APPLY_EPOCH wait

/-- APPLY_EPOCH for epoch `e` (R322, R341, Table 13-7). -/
def State.doApplyEpoch (s : State) (ask : Asker) (e wait : Nat) : State × Option Final :=
  let n := s.get F.RK_EPOCH_NUMBER 0
  if e != nextEpoch n then (s, some ⟨AS.REFUSED, DT.NOT_NEXT, s.epochData⟩)
  else if !(s.backgroundOf AC.LOAD_STENCIL).isEmpty || s.epochCtl.settle.isSome then (s, some ⟨AS.BUSY, 0, s.epochData⟩)
  else if s.shadow != SH.CLEAN && s.shadow != SH.PENDING then (s, some ⟨AS.REFUSED, DT.SHADOW, s.epochData⟩)
  else if s.flag F.RK_EPOCH_ARMED 0 then s.awaitEpoch ask wait
  else (s.arm e).awaitEpoch ask wait

/-- The arm barrier that a cancel cuts is aborted, and one that waits for the switch ends with ABORTED. -/
def State.disarm (s : State) (e : Nat) : State :=
  if !s.flag F.RK_EPOCH_ARMED 0 then s
  else
    let arrived := s.epochCtl.arrived
    let s := s.put F.RK_EPOCH_ARMED 0 0
    let s := { s with epochCtl := { s.epochCtl with arrived := none } }
    let s := if arrived.isSome then s.raiseAbort 287 s.epochGroup e St.ABORTED 7 else s
    s.endAll AC.APPLY_EPOCH (fun _ => true) AS.ABORTED 0 s.epochData

/-- APPLY_EPOCH with CANCEL (R327): ARMED goes, ABORT is raised where the chip had arrived, and EPOCH_SETTLE runs. -/
def State.doCancelEpoch (s : State) (e : Nat) : State × Option Final :=
  let q := s.epochCtl.arrived.getD e
  let s := s.disarm q
  let s := { s with epochCtl := { s.epochCtl with settle := some q } }
  (s, some ⟨AS.OK, 0, s.epochData⟩)

end Sys2Proof.Machine
end

