-- ==== Sys2Proof/Machine/Lock.lean ====
section
/-! DEFINITION. The management lock and the commands that inform: CLAIM, RELEASE, GET_VERSION, GET_CENSUS, SELF_TEST,
READ_COUNTERS and READ_EVENTS (R341, R344 to R348, R391, R392, Table 13-8). -/

namespace Sys2Proof.Machine

/-! ### The lock -/

/-- Word 2 of an answer to CLAIM: a holder as an AL_LOCK image shows it, and the cause of a break (Table 13-8). -/
def holderWord (img : Word) (cause : Nat) : Word :=
  let f (x : Fld) : Nat := fieldGet img x.lo x.width
  BitVec.ofNat 64 (f F.AL_LOCK_SRC + 2 ^ 8 * f F.AL_LOCK_ID + 2 ^ 16 * f F.AL_LOCK_JOB + 2 ^ 32 * cause)

/-- The lock is granted to a source on behalf of a job. -/
def State.grantLock (s : State) (src : Source) (job : Nat) : State :=
  let (k, i, x) := lockFields src
  let w := overlay 0 [(F.AL_LOCK_HELD, 1), (F.AL_LOCK_SRC, k), (F.AL_LOCK_ID, i), (F.AL_LOCK_EXTRA, x), (F.AL_LOCK_JOB, job)]
  (s.setWord .AL_LOCK 0 w).modAlorn (fun a => { a with lockSince := s.now })

/-- CLAIM (R346): granted with OK, or once with BROKEN and the holder that lost the lock; renewed; or refused with the present
holder. -/
def State.doClaim (s : State) (ask : Asker) (job : Nat) : State × Option Final :=
  if s.flag F.AL_LOCK_HELD 0 then
    let w := holderWord (s.word .AL_LOCK 0) 0
    if s.holdsLock ask.src then (s.modAlorn (fun a => { a with lockSince := s.now }), some ⟨AS.OK, 0, [w]⟩)
    else (s, some ⟨AS.NOT_HOLDER, 0, [w]⟩)
  else
    let broken := s.flag F.AL_LOCK_BROKEN 0
    let old := holderWord s.alorn.brokenLock s.alorn.brokenCause
    let s := s.grantLock ask.src job
    if broken then (s, some ⟨AS.BROKEN, 0, [old]⟩) else (s, some ⟨AS.OK, 0, [holderWord (s.word .AL_LOCK 0) 0]⟩)

/-- RELEASE (R346, R348). -/
def State.doRelease (s : State) (ask : Asker) : State × Option Final :=
  if !s.holdsLock ask.src then (s, plainFinal AS.NOT_HOLDER)
  else ((s.dropStaging.event evLockReleased 9 0 s.lockImage.toNat).put F.AL_LOCK_HELD 0 0, finalOk)

/-- Whether a background command of the lock's holder runs: the lease stands still then (R347). -/
def State.holderBusy (s : State) : Bool := s.alorn.background.any (fun b => s.holdsLock b.src)

/-- LOCK_LEASE_EXPIRY: the holder has been silent for LEASE (R347); without CLK_MG no tick is counted (R382). -/
def execLockLeaseExpiry (s : State) : Host.Outcome State Fault Refusal :=
  live s (fun s => if s.holderBusy || s.mgLost then s else s.breakLock 2)

/-! ### Information -/

/-- A key of 49 octets in seven words, zero-padded. -/
def keyWords (k : BitVec 392) : List Word :=
  (List.range 7).map (fun n => BitVec.ofNat 64 (k.toNat / 2 ^ (64 * n) % 2 ^ 64))

/-- GET_VERSION. -/
def State.doGetVersion (s : State) : State × Option Final :=
  let w2 := 3 + 2 ^ 8 * 0xB0 + 2 ^ 16 * s.fuse.lifecycle + 2 ^ 18 * b2n s.wiped + 2 ^ 32 * s.get F.AL_STATUS_NONCE 0
  let s := s.useSlot 8
  let w4 := s.get F.RK_EPOCH_NUMBER 0 + 2 ^ 16 * s.get F.RK_STENCIL_BUILD 0
  (s, some ⟨AS.OK, 0, [BitVec.ofNat 64 w2, s.fuse.chipId, BitVec.ofNat 64 w4] ++ keyWords s.identity⟩)

/-- GET_CENSUS. -/
def State.doGetCensus (s : State) : State × Option Final := (s, some ⟨AS.OK, 0, (List.range 5).map s.census⟩)

/-- SELF_TEST of the tests named. -/
def State.doSelfTest (s : State) (ask : Asker) (tests : Nat) : State × Option Final :=
  if s.get F.RK_EPOCH_NUMBER 0 != 0 && s.anyActive then (s, refusedFor DT.ACTIVE)
  else if (List.range 6).any (fun p => s.portState p != PS.DARK && s.portState p != PS.DOWN) then (s, refusedFor DT.PORT_STATE)
  else s.startBackground ask AC.SELF_TEST tests

/-- The fabric and every crossing are empty at their resting levels. -/
def State.emptyFabric (s : State) : State :=
  { s with fifos := [], links := [], grants := [], waits := [], plumbOut := [], copies := [] }

/-- SELF_TEST_DONE: the tests named that failed, and the first failing router, link and wire group. -/
def execSelfTestDone (failed : BitVec 4) (first : Word) (s : State) : Host.Outcome State Fault Refusal :=
  live s (fun s =>
    if !s.alornRuns then s
    else
      match (s.backgroundOf AC.SELF_TEST).head? with
      | none => s
      | some b =>
        let mask := failed.toNat &&& b.arg
        (s.emptyFabric.endBackground b AS.OK 0 [BitVec.ofNat 64 mask, first &&& 0x07FF07FF#64]).flow)

/-- READ_COUNTERS: a snapshot of the registers named, and with CLEAR their clearable fields go to zero (R345). -/
def State.doReadCounters (s : State) (window count stride offset : Nat) (clear : Bool) : State × Option Final :=
  match (List.range count).mapM (fun k => windowReg window (offset + k * stride)) with
  | none => (s, finalRange)
  | some rs =>
    let data := rs.map (fun e => s.readReg e.1 e.2)
    let s := s.drawn 18
    (if clear then rs.foldl (fun s e => s.clearReg e.1 e.2) s else s, some ⟨AS.OK, 0, data⟩)

/-- The events up to sequence number `n` are read (R392). -/
def State.readUpTo (s : State) (n : Nat) : State := { s with readNext := Nat.max s.readNext n }

/-- READ_EVENTS: NEXT with the count lost, and the records from FROM onwards (R391, R392). -/
def State.doReadEvents (s : State) (first most : Nat) : State × Option Final :=
  let r := s.eventsFrom first most
  let next := if r.1.isEmpty then first else (r.2.2 + r.1.length) % 2 ^ 32
  (s.readUpTo next,
    some ⟨AS.OK, 0, BitVec.ofNat 64 (next + 2 ^ 32 * (r.2.1 % 2 ^ 32)) :: r.1.flatMap (fun r => [r.w0, r.w1, r.w2, r.w3])⟩)

end Sys2Proof.Machine
end

