-- ==== Sys2Proof/Machine/PortCmds.lean ====
section
/-! DEFINITION. Alorn's commands on ports, lanes, lasers, coordinates, the timestamp and banks: the conditions and effects of
Table 13-7 (R296, R301, R304, R344, R394). -/

namespace Sys2Proof.Machine


/-- Presents the writes of a command to the guard; where it refuses one none is made, else `act` follows them (R349). -/
def State.guarded (s : State) (cmd : Nat) (ws : List (Reg × Nat × Word)) (act : State → State × Option Final) :
    State × Option Final :=
  match s.guardStops ws with
  | some (r, n) => (s.noteGuard r n cmd, refusedFor (0x8000 + r.info.code))
  | none => act (s.doWrites ws)

/-- OP_PORTCTL of a physical port with fields set. -/
def State.portCtl (s : State) (p : Nat) (l : List (Fld × Nat)) : Reg × Nat × Word :=
  (.OP_PORTCTL, p, overlay (s.word .OP_PORTCTL p) l)

/-! ### Ports -/

/-- PORT_ADMIT of logical port `l`. -/
def State.doPortAdmit (s : State) (l : Nat) : State × Option Final :=
  let p := s.physOf l
  if !s.flag F.OP_PLAN_VALID l then (s, refusedFor DT.PLAN)
  else s.guarded AC.PORT_ADMIT [s.portCtl p [(F.OP_PORTCTL_ADMIT, 1), (F.OP_PORTCTL_HOLD_DOWN, 0)]] (fun s =>
    let s := (s.showAdmit p).showLight p
    (if s.portState p = PS.QUARANTINE then s.startKeying p true else s, finalOk))

/-- PORT_QUARANTINE of logical port `l`, with HOLD_DOWN or without. -/
def State.doPortQuarantine (s : State) (l : Nat) (hold : Bool) : State × Option Final :=
  let p := s.physOf l
  let fields := (F.OP_PORTCTL_ADMIT, 0) :: (if hold then [(F.OP_PORTCTL_HOLD_DOWN, 1)] else [])
  s.guarded AC.PORT_QUARANTINE [s.portCtl p fields] (fun s =>
    let s := s.showAdmit p
    let s := if hold then s.movePort p PS.DOWN PC.HOLD_DOWN
      else if s.admitted p then s.movePort p PS.DRAINING PC.QUARANTINE else s
    (s.showLight p, finalOk))

/-- Whether two physical ports are a swap that CABLE_SWAP has named: both in QUARANTINE with verdict CABLE. -/
def State.swapped (s : State) (p q : Nat) : Bool :=
  let held (x : Nat) : Bool := s.portState x == PS.QUARANTINE && s.get F.OP_PORTSTATE_VERDICT x == VD.CABLE
  held p && held q && (s.port p).swap == some q

/-- PORT_REMAP of logical ports `a` and `b` (R296). -/
def State.doPortRemap (s : State) (a b : Nat) : State × Option Final :=
  let p := s.physOf a
  let q := s.physOf b
  if !s.swapped p q then (s, refusedFor DT.PORT_STATE)
  else if !(s.flag F.OP_PLAN_REMAP_OK a && s.flag F.OP_PLAN_REMAP_OK b) then (s, refusedFor DT.PLAN)
  else s.guarded AC.PORT_REMAP [s.portCtl p [(F.OP_PORTCTL_LOGICAL, b)], s.portCtl q [(F.OP_PORTCTL_LOGICAL, a)]] (fun s =>
    let s := [p, q].foldl (fun s x => (s.modPort x (fun y => { y with
      swap := none, key := { y.key with planCrypt := s.get F.OP_PLAN_CRYPT (s.logical x) } })).showAdmit x) s
    ((s.startKeying p true).startKeying q true, finalOk))

/-- LANE_SPARE of a receive lane of logical port `l`: the answer comes at the switch (R301). -/
def State.doLaneSpare (s : State) (ask : Asker) (l lane : Nat) : State × Option Final :=
  let p := s.physOf l
  let q := s.port p
  let under := q.patch.any (fun x => x.src == lane)
  let spare := (s.lockedSpares p).any (fun d => !q.patch.any (fun x => x.dst == d))
  if 18 ≤ lane || 16 ≤ s.laneOf p 1 lane then (s, finalRange)
  else if !s.inData p || !(under || spare) then (s, refusedFor DT.NO_SPARE)
  else ((s.modPort p (fun q => { q with spareWait := q.spareWait ++ [(lane, ask)] })).startPatch p lane, none)

/-! ### Lasers -/

/-- A slot starts to ramp towards a drive in eighths of its rating. -/
def State.startRamp (s : State) (k target : Nat) : State :=
  (({ s with ramps := upsert s.ramps k target } : State).put F.OP_LASER_STATE k LS.RAMPING).relight s.lit

/-- LASER_PREPARE of slot `k`. -/
def State.doLaserPrepare (s : State) (ask : Asker) (k : Nat) : State × Option Final :=
  if !(List.range 8).all (fun j => s.laserState j == LS.RUN) then (s, refusedFor DT.SLOT_STATE)
  else (s.startRamp k 0).startBackground ask AC.LASER_PREPARE k

/-- LASER_RESTORE of slot `k`: it ramps to 7 eighths of its rating. -/
def State.doLaserRestore (s : State) (ask : Asker) (k : Nat) : State × Option Final :=
  if s.laserState k != LS.INSERTED then (s, refusedFor DT.SLOT_STATE)
  else (s.startRamp k 7).startBackground ask AC.LASER_RESTORE k

/-! ### Coordinates and time -/

/-- Ports in QUARANTINE with verdict COORDS run Keying again. -/
def State.rekeyCoords (s : State) : State :=
  (List.range 6).foldl (fun s p =>
    if s.portState p = PS.QUARANTINE && s.get F.OP_PORTSTATE_VERDICT p = VD.COORDS then s.startKeying p true else s) s

/-- SET_COORDS: RK_COORDS is class S, so a change while a partition is active is refused (R13, R316). -/
def State.doSetCoords (s : State) (addr : Nat) : State × Option Final :=
  let same := s.flag F.RK_COORDS_SET 0 && s.own == addr
  let fresh := s.get F.RK_EPOCH_NUMBER 0 == 0 && !(List.range 6).any s.admitted
  if s.flag F.RK_COORDS_SET 0 && !same && !fresh then (s, refusedFor DT.COORDS)
  else if !same && s.anyActive then (s.put F.RK_STENCIL_S_REFUSED 0 1, refusedFor DT.ACTIVE)
  else s.guarded AC.SET_COORDS [(.RK_COORDS, 0, overlay (s.word .RK_COORDS 0) [(F.RK_COORDS_ADDR, addr), (F.RK_COORDS_SET, 1)])]
    (fun s => (if same then s.rekeyCoords else s.repeatKeying, finalOk))

/-- SET_TIMEBASE: the timestamp is loaded, or moved by a signed count of ticks (R394). -/
def State.doSetTimebase (s : State) (add : Bool) (v : Word) : State × Option Final :=
  let new := if add then s.word .TM_TIMESTAMP 0 + v else v
  match s.guardStops [(.TM_TIMESTAMP, 0, new)] with
  | some (r, n) => (s.noteGuard r n AC.SET_TIMEBASE, refusedFor (0x8000 + r.info.code))
  | none => ({ s with timeSets := s.timeSets ++ [(add, v)] }, finalOk)

/-! ### Banks -/

/-- BANK_HANDOVER, answered at PENDING or, with WAIT, at step 7 of Table 8-5 (R201 to R203, R206, R207). -/
def State.doBankHandover (s : State) (ask : Asker) (h : Handover) (wait : Bool) : State × Option Final :=
  if !s.handoverValid h then (s, finalRange)
  else
    match s.handoverStops h with
    | some (r, n) => (s.noteGuard r n AC.BANK_HANDOVER, refusedFor (0x8000 + r.info.code))
    | none =>
      match s.alornHandover h with
      | (st, s) =>
        if st = St.BROKEN then (s.loadHandovers, plainFinal AS.BROKEN)
        else if st = St.REFUSED then (s.drawn, refusedFor (Config.noDetail s.freeCtr).toNat)
        else if wait then s.startBackground ask AC.BANK_HANDOVER (bankArg h.mem h.bank)
        else (s, finalOk)

end Sys2Proof.Machine
end

