-- ==== Sys2Proof/Machine/Sealed.lean ====
section
/-! DEFINITION. The sealed store and the life-cycle: SEAL_KEY, ZEROIZE, LIFECYCLE, the tamper input and the glitch detector
(R354 to R361, Table 13-11). -/

namespace Sys2Proof.Machine

def evSealWiped : Event := ⟨0xA07, 2⟩

/-! Life-cycle states (Table 13-8). -/
namespace LC
def BLANK : Nat := 0
def PROVISIONED : Nat := 1
def DEPLOYED : Nat := 2
def DECOMMISSIONED : Nat := 3
end LC

/-- The whole store is wiped (R358): cause 0 tamper, 1 glitch detector, 2 ZEROIZE. -/
def State.wipeStore (s : State) (cause : Nat) : State :=
  ({ s with sealStore := [], wiped := true } : State).event evSealWiped 9 0 cause

def execTamperInput (s : State) : Host.Outcome State Fault Refusal := live s (fun s => s.wipeStore 0)

def execGlitchDetectorTrip (s : State) : Host.Outcome State Fault Refusal := live s (fun s => s.wipeStore 1)

/-- ZEROIZE. -/
def State.doZeroize (s : State) : State × Option Final := (s.wipeStore 2, finalOk)

/-! ### Signed commands (R360, R361) -/

/-- Word 1 of a request with ORIGIN zero, as the requester signed it. -/
def unoriginated : List Word → List Word
  | w0 :: w1 :: t => w0 :: (w1 &&& ~~~ fieldMask 8 8) :: t
  | l => l

/-- The value that SIG signs: SHA-384 of words 0 to 9 of the request and CHIP_ID. -/
def State.signedHash (s : State) (ws : List Word) : BitVec 384 :=
  Config.sha384 (wordBytes ((unoriginated ws).take 10) ++ leBytes 8 s.fuse.chipId.toNat)

/-- SIG of a request: words 10 to 21. -/
def sigOf (ws : List Word) : BitVec 768 := BitVec.ofNat 768 (leNat (wordBytes ((ws.drop 10).take 12)))

/-- KEY of a request: 49 octets from word 3. -/
def keyOf (ws : List Word) : BitVec 392 := BitVec.ofNat 392 (leNat (wordBytes ((ws.drop 3).take 7)))

/-- Whether SIG verifies under a key and NONCE is the current value. -/
def State.signedBy (s : State) (key : Option (BitVec 392)) (ws : List Word) : Bool :=
  match key with
  | none => false
  | some k => fieldGet (ws.getD 2 0) 32 32 = s.get F.AL_STATUS_NONCE 0 && Config.ecdsaVerify k (s.signedHash ws) (sigOf ws)

/-- The root key: that in slot 0. -/
def State.rootKey (s : State) : Option (BitVec 392) := (lookup s.sealStore 0).map (fun k => k.key)

/-- NONCE advances after a signature has verified. -/
def State.nextNonce (s : State) : State := s.wrap F.AL_STATUS_NONCE 0

/-- SEAL_KEY of a Stencil-key slot (R359). -/
def State.doSealKey (s : State) (slot : Nat) (erase : Bool) (ws : List Word) : State × Option Final :=
  let blank := s.fuse.lifecycle = LC.BLANK
  if s.fuse.lifecycle = LC.DECOMMISSIONED || (!blank && erase && slot = 0) then (s, refusedFor DT.LIFECYCLE)
  else
    let s := if blank then s else s.useSlot 0
    if !blank && !s.signedBy s.rootKey ws then (s, plainFinal AS.AUTH)
    else
      let s := if blank then s else s.nextNonce
      ({ s with sealStore := if erase then remove s.sealStore slot else upsert s.sealStore slot ⟨keyOf ws, 0⟩ }, finalOk)

/-! ### Life-cycle -/

/-- Who authorises a transition. -/
inductive Authority where
  | lockAlone
  | root
  | recovery
deriving DecidableEq, Repr

/-- The transitions of Table 13-11. -/
def authority (now' target : Nat) (wiped : Bool) : Option Authority :=
  if now' = LC.DECOMMISSIONED then none
  else if target = LC.DECOMMISSIONED then some (if now' = LC.BLANK then .lockAlone else .root)
  else if now' = LC.BLANK then (if target = LC.PROVISIONED then some .lockAlone else none)
  else if wiped && target = LC.PROVISIONED then some .recovery
  else if (now' = LC.PROVISIONED && target = LC.DEPLOYED) || (now' = LC.DEPLOYED && target = LC.PROVISIONED) then some .root
  else none

/-- Whether a request carries what a transition needs. -/
def State.authorised (s : State) (a : Authority) (ws : List Word) : Bool :=
  match a with
  | .lockAlone => true
  | .root => s.signedBy s.rootKey ws
  | .recovery => s.signedBy (some Config.recoveryKey) ws

/-- A new identity key in slot 8 (R354, R356). -/
def State.newIdentity (s : State) : State :=
  let secret : BitVec 384 := BitVec.ofNat 384
    ((List.range 6).foldl (fun v k => v + (Config.random (s.freeCtr + k)).toNat * 2 ^ (64 * k)) 0)
  { s.drawn 6 with sealStore := upsert s.sealStore 8 ⟨Config.publicKey secret, secret⟩ }

/-- The store after a transition: wiped, and sealed anew but for DECOMMISSIONED. -/
def State.reseal (s : State) (target : Nat) (key : BitVec 392) : State :=
  let s : State := { s with sealStore := [], wiped := false }
  if target = LC.DECOMMISSIONED then s
  else ({ s with sealStore := [(0, ⟨key, 0⟩)] } : State).newIdentity

/-- Entering DECOMMISSIONED: every partition is fenced and every port held down (R357). -/
def State.decommission (s : State) : State :=
  let s := ((List.range 16).filter (fun p => s.flag F.RK_PARTJOB_VALID p)).foldl State.fencePart s
  (List.range 6).foldl (fun s p => (s.movePort p PS.DOWN PC.HOLD_DOWN).showLight p) s

/-- The transition itself. -/
def State.moveLife (s : State) (target : Nat) (key : BitVec 392) : State × Option Final :=
  let s := s.reseal target key
  let s := { s with fuse := { s.fuse with lifecycle := target, transitions := s.fuse.transitions + 1 } }
  let s := if target = LC.DECOMMISSIONED then s.decommission else s
  (s, some ⟨AS.OK, 0, BitVec.ofNat 64 target :: keyWords s.identity⟩)

/-- LIFECYCLE (R355 to R357). NONCE advances once the signature has verified, also where the guard then refuses (R360). -/
def State.doLifecycle (s : State) (target : Nat) (ws : List Word) : State × Option Final :=
  match authority s.fuse.lifecycle target s.wiped with
  | none => (s, refusedFor DT.LIFECYCLE)
  | some a =>
    if 15 ≤ s.fuse.transitions && target != LC.DECOMMISSIONED then (s, refusedFor DT.LIFECYCLE)
    else if s.anyActive then (s, refusedFor DT.ACTIVE)
    else if !(s.backgroundOf AC.LOAD_STENCIL).isEmpty || s.flag F.RK_EPOCH_ARMED 0 then (s, plainFinal AS.BUSY)
    else
      let s := if a = .root then s.useSlot 0 else s
      if !s.authorised a ws then (s, plainFinal AS.AUTH)
      else
        let s := if a = .lockAlone then s else s.nextNonce
        if target = LC.DECOMMISSIONED then
          s.guarded AC.LIFECYCLE ((List.range 6).map (fun p => s.portCtl p [(F.OP_PORTCTL_HOLD_DOWN, 1)]))
            (fun s => s.moveLife target (keyOf ws))
        else s.moveLife target (keyOf ws)

end Sys2Proof.Machine
end

