-- ==== Sys2Proof/Machine/Requests.lean ====
section
/-! DEFINITION. Alorn's requests: the header and the layout of the arguments, the idempotence cache, the families of
background commands, relays, and one meaning for every command of Table 13-5 (R334 to R344, Tables 13-1 to 13-7). -/

namespace Sys2Proof.Machine

/-! ### The header (Table 13-1) -/

def rqCmd (ws : List Word) : Nat := fieldGet (ws.getD 0 0) 0 8
def rqLevel (ws : List Word) : Nat := fieldGet (ws.getD 0 0) 8 8
def rqLength (ws : List Word) : Nat := fieldGet (ws.getD 0 0) 16 11
def rqTag (ws : List Word) : BitVec 32 := (ws.getD 0 0).extractLsb' 32 32
def rqVia (ws : List Word) : Nat := fieldGet (ws.getD 1 0) 0 3
def rqOrigin (ws : List Word) : BitVec 8 := (ws.getD 1 0).extractLsb' 8 8

/-- Whether a request reached the chip by a relay. -/
def relayedSource : Source → Bool
  | .relayed .. => true
  | _ => false

/-- LENGTH counts the bytes received and is in range, the reserved bits are zero, and ORIGIN is zero from a requester (R338). -/
def headerSound (src : Source) (ws : List Word) (len : Nat) : Bool :=
  let n := rqLength ws
  n == len && 16 ≤ n && n ≤ 1024 && n % 8 == 0 && fieldGet (ws.getD 0 0) 27 5 == 0 && fieldGet (ws.getD 1 0) 3 5 == 0
    && fieldGet (ws.getD 1 0) 16 48 == 0 && rqVia ws != 6 && (relayedSource src || rqOrigin ws == 0)

/-! ### The arguments (Table 13-6) -/

/-- The commands of Table 13-5, each with the bits its arguments have in word 2 and the words after it. -/
def argTable : Tbl (List Word) :=
  [(AC.GET_VERSION, []), (AC.GET_CENSUS, []), (AC.SELF_TEST, [0xF]), (AC.CLAIM, [0xFFFF]), (AC.RELEASE, []),
    (AC.LOAD_STENCIL, [0xFFFFFFFF03FF0003]), (AC.APPLY_EPOCH, [0x7FFFF]), (AC.QUIESCE, [0xFFFF000F]), (AC.RESUME, [0xF]),
    (AC.FENCE, [0xF]), (AC.PORT_ADMIT, [0x7]), (AC.PORT_QUARANTINE, [0x107]), (AC.PORT_REMAP, [0x707]),
    (AC.LANE_SPARE, [0x1F07]), (AC.LASER_PREPARE, [0x7]), (AC.LASER_RESTORE, [0x7]), (AC.SET_COORDS, [0xFFF]),
    (AC.SET_TIMEBASE, [0x1, BitVec.allOnes 64]), (AC.BANK_HANDOVER, [0x10FFFFFFFFFFF]),
    (AC.READ_COUNTERS, [0xFFFFFFFFFF1F, 0xFFFFFFFF]), (AC.READ_EVENTS, [0x1FFFFFFFFF])]
  ++ [(AC.SEAL_KEY, 0xFFFFFFFF0000010F :: (List.replicate 6 (BitVec.allOnes 64) ++ 0xFF :: List.replicate 12 (BitVec.allOnes 64))),
    (AC.ZEROIZE, []),
    (AC.LIFECYCLE, 0xFFFFFFFF00000003 :: (List.replicate 6 (BitVec.allOnes 64) ++ 0xFF :: List.replicate 12 (BitVec.allOnes 64)))]

/-- Every word a mask names is there, and no bit outside the masks is set. -/
def argsFit (masks args : List Word) : Bool :=
  masks.length ≤ args.length && (List.range args.length).all (fun k => args.getD k 0 &&& ~~~ masks.getD k 0 == 0)

/-- The bytes of a DATA: as many as BYTES says, from word 3 on. -/
def dataFits (args : List Word) : Bool :=
  let n := fieldGet (args.getD 0 0) 16 10
  8 ≤ n && n ≤ 1000 && n % 8 == 0 && args.length == 1 + n / 8 && fieldGet (args.getD 0 0) 32 32 % 8 == 0

/-- The values of the arguments lie in the ranges of Table 13-6. -/
def valuesFit (cmd : Nat) (w : Word) : Bool :=
  let port (lo : Nat) : Bool := fieldGet w lo 3 < 6
  if cmd = AC.APPLY_EPOCH then fieldGet w 17 2 != 3
  else if cmd = AC.PORT_ADMIT || cmd = AC.PORT_QUARANTINE || cmd = AC.LANE_SPARE then port 0
  else if cmd = AC.PORT_REMAP then port 0 && port 8
  else if cmd = AC.READ_COUNTERS then
    fieldGet w 0 4 ≤ 10 && 1 ≤ fieldGet w 8 8 && fieldGet w 8 8 ≤ 126 && fieldGet w 16 32 % 8 == 0
  else if cmd = AC.READ_EVENTS then fieldGet w 32 5 != 0
  else if cmd = AC.SEAL_KEY then fieldGet w 0 4 < 8
  else if cmd = AC.LIFECYCLE then fieldGet w 0 2 != 0
  else true

/-- Whether the arguments of a listed command keep its layout (R338, R343). -/
def layoutSound (cmd : Nat) (ws : List Word) : Bool :=
  let args := ws.drop 2
  if cmd = AC.LOAD_STENCIL && fieldGet (args.getD 0 0) 0 2 = 1 then argsFit [0xFFFFFFFF03FF0003] (args.take 1) && dataFits args
  else argsFit ((lookup argTable cmd).getD []) args && valuesFit cmd (args.getD 0 0)

/-! ### Who may run what (R341, R344, R357) -/

/-- Commands marked Lock in Table 13-5, READ_COUNTERS with CLEAR among them. -/
def needsLock (cmd : Nat) (w : Word) : Bool :=
  if cmd = AC.READ_COUNTERS then fieldGet w 4 1 == 1
  else !(cmd == AC.GET_VERSION || cmd == AC.GET_CENSUS || cmd == AC.CLAIM || cmd == AC.RELEASE || cmd == AC.FENCE
    || cmd == AC.READ_EVENTS)

/-- What a DECOMMISSIONED chip still accepts (R357). -/
def acceptedLast (cmd : Nat) (w : Word) : Bool :=
  cmd == AC.GET_VERSION || cmd == AC.GET_CENSUS || cmd == AC.READ_EVENTS || cmd == AC.CLAIM || cmd == AC.RELEASE
    || (cmd == AC.READ_COUNTERS && fieldGet w 4 1 == 0)

/-- Whether the family of a command holds all the background commands it may (R341). -/
def State.familyFull (s : State) (cmd : Nat) (w : Word) : Bool :=
  let some' (c : Nat) : Bool := !(s.backgroundOf c).isEmpty
  if (cmd = AC.LOAD_STENCIL && fieldGet w 0 2 = 2) || (cmd = AC.APPLY_EPOCH && fieldGet w 16 1 = 0 && fieldGet w 17 2 != 0) then
    some' AC.LOAD_STENCIL || some' AC.APPLY_EPOCH
  else if cmd = AC.LASER_PREPARE || cmd = AC.LASER_RESTORE then some' AC.LASER_PREPARE || some' AC.LASER_RESTORE
  else if cmd = AC.QUIESCE then (s.backgroundOf AC.QUIESCE).any (fun b => b.arg == fieldGet w 0 4)
  else if cmd = AC.BANK_HANDOVER && fieldGet w 48 1 = 1 then 16 ≤ (s.backgroundOf AC.BANK_HANDOVER).length
  else if cmd = AC.SELF_TEST then !s.alorn.background.isEmpty
  else false

/-! ### Carrying a command out -/

/-- The owner that a BANK_HANDOVER names, at the bit positions of CP_HANDOVER. -/
def newOwner (w : Word) : Handover :=
  let f (x : Fld) : Nat := fieldGet w x.lo x.width
  { mem := f F.CP_HANDOVER_BANK_EP, bank := f F.CP_HANDOVER_BANK, shared := f F.CP_HANDOVER_NEW_SHARED
    net := f F.CP_HANDOVER_NEW_NET, group := f F.CP_HANDOVER_NEW_GROUP, part := f F.CP_HANDOVER_NEW_PART, ep := f F.CP_HANDOVER_NEW_EP }

/-- LOAD_STENCIL by its OP. -/
def State.doLoadStencil (s : State) (ask : Asker) (ws : List Word) : State × Option Final :=
  let w := ws.getD 2 0
  match fieldGet w 0 2 with
  | 0 => s.doLoadBegin ask (fieldGet w 32 32)
  | 1 => s.doLoadData ask (fieldGet w 32 32) (fieldGet w 16 10) (ws.drop 3)
  | 2 => s.doLoadCommit ask
  | _ => s.doLoadDiscard

/-- APPLY_EPOCH, with CANCEL or without. -/
def State.doApply (s : State) (ask : Asker) (w : Word) : State × Option Final :=
  if fieldGet w 16 1 = 1 then s.doCancelEpoch (fieldGet w 0 16) else s.doApplyEpoch ask (fieldGet w 0 16) (fieldGet w 17 2)

/-- The commands on the machine: lock, information, partitions. -/
def State.runMachine (s : State) (ask : Asker) (cmd : Nat) (ws : List Word) : Option (State × Option Final) :=
  let w := ws.getD 2 0
  let f (lo n : Nat) : Nat := fieldGet w lo n
  if cmd = AC.GET_VERSION then some s.doGetVersion
  else if cmd = AC.GET_CENSUS then some s.doGetCensus
  else if cmd = AC.SELF_TEST then some (s.doSelfTest ask (f 0 4))
  else if cmd = AC.CLAIM then some (s.doClaim ask (f 0 16))
  else if cmd = AC.RELEASE then some (s.doRelease ask)
  else if cmd = AC.LOAD_STENCIL then some (s.doLoadStencil ask ws)
  else if cmd = AC.APPLY_EPOCH then some (s.doApply ask w)
  else if cmd = AC.QUIESCE then some (s.doQuiesce ask (f 0 4))
  else if cmd = AC.RESUME then some (s.doResume (f 0 4))
  else if cmd = AC.FENCE then some (s.doFence (f 0 4))
  else if cmd = AC.READ_COUNTERS then
    some (s.doReadCounters (f 0 4) (f 8 8) (f 16 32) (fieldGet (ws.getD 3 0) 0 32) (f 4 1 = 1))
  else if cmd = AC.READ_EVENTS then some (s.doReadEvents (f 0 32) (f 32 5))
  else none

/-- The commands on ports, lasers, coordinates, banks and keys. -/
def State.runDevice (s : State) (ask : Asker) (cmd : Nat) (ws : List Word) : State × Option Final :=
  let w := ws.getD 2 0
  let f (lo n : Nat) : Nat := fieldGet w lo n
  if cmd = AC.PORT_ADMIT then s.doPortAdmit (f 0 3)
  else if cmd = AC.PORT_QUARANTINE then s.doPortQuarantine (f 0 3) (f 8 1 = 1)
  else if cmd = AC.PORT_REMAP then s.doPortRemap (f 0 3) (f 8 3)
  else if cmd = AC.LANE_SPARE then s.doLaneSpare ask (f 0 3) (f 8 5)
  else if cmd = AC.LASER_PREPARE then s.doLaserPrepare ask (f 0 3)
  else if cmd = AC.LASER_RESTORE then s.doLaserRestore ask (f 0 3)
  else if cmd = AC.SET_COORDS then s.doSetCoords (f 0 12)
  else if cmd = AC.SET_TIMEBASE then s.doSetTimebase (f 0 1 = 1) (ws.getD 3 0)
  else if cmd = AC.BANK_HANDOVER then s.doBankHandover ask (newOwner w) (f 48 1 = 1)
  else if cmd = AC.SEAL_KEY then s.doSealKey (f 0 4) (f 8 1 = 1) ws
  else if cmd = AC.ZEROIZE then s.doZeroize
  else s.doLifecycle (f 0 2) ws

/-- A request that is new: its header, its command and level, its layout, then what may refuse any command, then its own
conditions and effect (R338, R341, R344, R357). -/
def State.runRequest (s : State) (ask : Asker) (ws : List Word) (len : Nat) : State × Option Final :=
  let cmd := rqCmd ws
  let w := ws.getD 2 0
  if !headerSound ask.src ws len then (s, finalRange)
  else if 3 < rqLevel ws || (lookup argTable cmd).isNone then (s, plainFinal AS.UNKNOWN)
  else if !layoutSound cmd ws then (s, finalRange)
  else if s.fuse.lifecycle = LC.DECOMMISSIONED && !acceptedLast cmd w then (s, refusedFor DT.LIFECYCLE)
  else if !(s.backgroundOf AC.SELF_TEST).isEmpty && cmd != AC.GET_VERSION && cmd != AC.CLAIM then (s, plainFinal AS.BUSY)
  else if needsLock cmd w && !s.holdsLock ask.src then (s, plainFinal AS.NOT_HOLDER)
  else if s.familyFull cmd w then (s, some ⟨AS.BUSY, 0, if cmd = AC.APPLY_EPOCH then s.epochData else []⟩)
  else (s.runMachine ask cmd ws).getD (s.runDevice ask cmd ws)

/-! ### Relays (R336) -/

/-- TAG of a relay's MGMT packet: the request's low bits, or the next value that no relay through the port has, so that the answers
of two sources that chose one TAG are told apart (DEDUCED, log entry 30). -/
def State.relayTag (s : State) (l : Nat) (tag : BitVec 32) : BitVec 16 :=
  let used := (s.alorn.relays.filter (fun r => r.port == l)).map (fun r => r.hdr)
  (((List.range (used.length + 1)).map (fun k => tag.truncate 16 + BitVec.ofNat 16 k)).find? (fun t => !used.contains t)).getD
    (tag.truncate 16)

/-- A request that goes to the Alorn beyond logical port `l`, with its source in ORIGIN; no cache entry is kept. It is refused where
the port carries no VL1 or Alorn's management window there is zero (R126, R336). -/
def State.relayRequest (s : State) (ask : Asker) (ws : List Word) (l : Nat) : State :=
  let st := s.portState (s.physOf l)
  if (st = PS.QUARANTINE || st = PS.ADMITTED || st = PS.DRAINING) && s.window (egwin l 2 21) != 0 then
    let origin : Nat := match ask.src with | .mctp eid => eid.toNat | _ => 0
    let out := ws.getD 0 0 :: fieldPut (ws.getD 1 0) 8 8 origin :: ws.drop 2
    let hdr := s.relayTag l ask.tag
    (s.modAlorn (fun a => { a with relays := a.relays ++ [⟨l, hdr, ask, rqCmd ws, s.now⟩] })).sendMgmt l false hdr out
  else s.deliver ask (s.responseWords (rqCmd ws) AS.UNREACHABLE ask.tag 0 [])

/-- The relay through port `l` whose MGMT packet has a TAG. -/
def State.relayOf (s : State) (l : Nat) (hdr : BitVec 16) : Option Relay :=
  s.alorn.relays.find? (fun r => r.port == l && r.hdr == hdr)

/-- Ends a relay with an answer. -/
def State.endRelay (s : State) (r : Relay) (ws : List Word) : State :=
  (s.modAlorn (fun a => { a with relays := a.relays.erase r })).deliver r.asker ws

/-- The neighbour's answer is passed back with RELAYED set. -/
def State.relayAnswer (s : State) (l : Nat) (hdr : BitVec 16) (ws : List Word) : State :=
  match s.relayOf l hdr with
  | some r => s.endRelay r (withBit 17 ws)
  | none => s

/-- RELAY_RESPONSE: the neighbour's answer to a relay. -/
def execRelayResponse (p : Fin 6) (a : RelayAnswer) (s : State) : Host.Outcome State Fault Refusal :=
  live s (fun s => if s.alornRuns then (s.relayAnswer p.val a.hdr a.words).flow else s)

/-- RELAY_TIMEOUT: no answer has come to the relay whose MGMT packet has TAG `hdr`. -/
def execRelayTimeout (p : Fin 6) (hdr : BitVec 16) (s : State) : Host.Outcome State Fault Refusal :=
  live s (fun s =>
    if !s.alornRuns then s
    else
      match s.relayOf p.val hdr with
      | some r => (s.endRelay r (s.responseWords r.cmd AS.TIMEOUT r.asker.tag 0 [])).flow
      | none => s)

/-! ### The idempotence cache (R342) -/

/-- A new entry displaces the oldest that is not IN_PROGRESS when 64 are held. -/
def State.addCache (s : State) (e : CacheEnt) : State :=
  s.modAlorn (fun a =>
    let c := if a.cache.length < 64 then a.cache
      else match a.cache.find? (fun x => !x.busy) with
        | some x => a.cache.erase x
        | none => a.cache.drop 1
    { a with cache := c ++ [e] })

/-- The answer of a command goes out; IN_PROGRESS stands in the cache while the command runs (R339, R340). -/
def State.concludeRequest (s : State) (ask : Asker) (cmd : Nat) (f : Option Final) : State :=
  match f with
  | none => s
  | some f =>
    let ws := s.responseWords cmd f.status ask.tag f.detail f.data
    if f.status = AS.IN_PROGRESS then
      let runs := s.alorn.background.any (fun b => b.src == ask.src && b.tag == ask.tag)
      (if runs then s.cacheAnswer ask.src ask.tag ws true else s).deliver ask ws
    else s.finalAnswer ask ws

/-- Alorn has halted (R353). -/
def State.halted (s : State) : Bool := s.get F.AL_STATUS_STATE 0 == 2

/-- A request reaches the intake of 64 entries. A halted Alorn discards it; one that finds the intake full is held by its
interface, or discarded (R133, R353). -/
def State.enterIntake (s : State) (r : Req) (hold : Bool) : State :=
  if s.halted then s.sat F.AL_ERRCNT_INTAKE_DROP 0
  else if s.alorn.intake.length < 64 then s.modAlorn (fun a => { a with intake := a.intake ++ [r] })
  else if hold then s.modAlorn (fun a => { a with held := a.held ++ [r] })
  else s.sat F.AL_ERRCNT_INTAKE_DROP 0

/-- Alorn takes a request: a command of the lock's holder restarts the lease (R347), a match in the cache is not executed
(R342), a request for a neighbour is relayed, any other is carried out. -/
def State.takeRequest (s : State) (r : Req) : State :=
  let ask : Asker := ⟨r.src, rqTag r.words, r.msgTag, r.ic, r.hdr⟩
  let crc := BitVec.ofNat 32 (crc32 ((wordBytes r.words).take r.len))
  let s := if s.holdsLock r.src then s.modAlorn (fun a => { a with lockSince := s.now }) else s
  match s.alorn.cache.find? (fun e => e.src == r.src && e.tag == ask.tag) with
  | some e =>
    let form (st detail : Nat) : List Word := s.responseWords (rqCmd r.words) st ask.tag detail []
    if e.crc != crc then s.deliver ask (form AS.RANGE 1)
    else s.deliver ask (withBit 16 (if e.resp.isEmpty then form AS.IN_PROGRESS 0 else e.resp))
  | none =>
    if headerSound r.src r.words r.len && !relayedSource r.src && rqVia r.words < 6 then
      s.relayRequest ask r.words (rqVia r.words)
    else
      match (s.addCache ⟨r.src, ask.tag, crc, true, []⟩).runRequest ask r.words r.len with
      | (s, f) => s.concludeRequest ask (rqCmd r.words) f

/-- Alorn may take a request: it runs, and no LANE_SPARE, a foreground command, awaits its switch (R339). -/
def State.takesRequests (s : State) : Bool := s.alornRuns && (List.range 6).all (fun p => (s.port p).spareWait.isEmpty)

/-- REQUEST_TAKEN: the oldest request of the intake; one that the mailbox or the I3C interface holds takes its place. -/
def execRequestTaken (s : State) : Host.Outcome State Fault Refusal :=
  live s (fun s =>
    if !s.takesRequests then s
    else
      match s.alorn.intake with
      | [] => s
      | r :: t =>
        ((s.modAlorn (fun a => { a with intake := t ++ a.held.take 1, held := a.held.drop 1 })).takeRequest r).flow)

/-! ### One meaning for every command -/

/-- The words of a request: LEVEL 0, VIA 7, and ORIGIN of a relayed one. -/
def requestWords (src : Source) (cmd : Nat) (tag : BitVec 32) (args : List Word) : List Word :=
  let origin : Nat := match src with | .relayed _ o => o.toNat | _ => 0
  BitVec.ofNat 64 (cmd + 2 ^ 16 * ((16 + 8 * args.length) % 2 ^ 11) + 2 ^ 32 * tag.toNat)
    :: BitVec.ofNat 64 (7 + 2 ^ 8 * origin) :: args

/-- A request reaches Alorn and is taken, or joins the intake behind those that wait or while Alorn takes none (R339). One of the
mailbox keeps it busy until its response is taken; while it is busy another is ignored (R333). -/
def State.requestNow (s : State) (src : Source) (cmd : Nat) (tag : BitVec 32) (args : List Word) : State :=
  if s.mgLost then s
  else if src = .mailbox && s.flag F.AL_MBCTL_REQ_BUSY 0 then s.put F.AL_MBCTL_DB_IGNORED 0 1
  else
    let ws := requestWords src cmd tag args
    let s := if src = .mailbox then s.put F.AL_MBCTL_REQ_BUSY 0 1 else s
    let r : Req := ⟨src, ws, 8 * ws.length, 0, false, tag.truncate 16⟩
    if s.takesRequests && s.alorn.intake.isEmpty then (s.takeRequest r).flow else s.enterIntake r (!relayedSource src)

/-- Word 2 with one of its fields fixed by the row. -/
def fixed (lo n v : Nat) (w : Word) : Word := fieldPut w lo n v

def execGetVersion (src : Source) (tag : BitVec 32) (s : State) : Host.Outcome State Fault Refusal :=
  live s (fun s => s.requestNow src AC.GET_VERSION tag [])

def execGetCensus (src : Source) (tag : BitVec 32) (s : State) : Host.Outcome State Fault Refusal :=
  live s (fun s => s.requestNow src AC.GET_CENSUS tag [])

def execSelfTest (src : Source) (tag : BitVec 32) (arg : Word) (s : State) : Host.Outcome State Fault Refusal :=
  live s (fun s => s.requestNow src AC.SELF_TEST tag [arg])

def execClaim (src : Source) (tag : BitVec 32) (arg : Word) (s : State) : Host.Outcome State Fault Refusal :=
  live s (fun s => s.requestNow src AC.CLAIM tag [arg])

def execRelease (src : Source) (tag : BitVec 32) (s : State) : Host.Outcome State Fault Refusal :=
  live s (fun s => s.requestNow src AC.RELEASE tag [])

def execLoadStencilBegin (src : Source) (tag : BitVec 32) (arg : Word) (s : State) : Host.Outcome State Fault Refusal :=
  live s (fun s => s.requestNow src AC.LOAD_STENCIL tag [fixed 0 2 0 arg])

def execLoadStencilData (src : Source) (tag : BitVec 32) (arg : Word) (data : List Word) (s : State) :
    Host.Outcome State Fault Refusal :=
  live s (fun s => s.requestNow src AC.LOAD_STENCIL tag (fixed 0 2 1 arg :: data))

def execLoadStencilCommit (src : Source) (tag : BitVec 32) (arg : Word) (s : State) : Host.Outcome State Fault Refusal :=
  live s (fun s => s.requestNow src AC.LOAD_STENCIL tag [fixed 0 2 2 arg])

def execLoadStencilDiscard (src : Source) (tag : BitVec 32) (arg : Word) (s : State) : Host.Outcome State Fault Refusal :=
  live s (fun s => s.requestNow src AC.LOAD_STENCIL tag [fixed 0 2 3 arg])

def execApplyEpoch (src : Source) (tag : BitVec 32) (arg : Word) (s : State) : Host.Outcome State Fault Refusal :=
  live s (fun s => s.requestNow src AC.APPLY_EPOCH tag [fixed 16 1 0 arg])

def execApplyEpochCancel (src : Source) (tag : BitVec 32) (arg : Word) (s : State) : Host.Outcome State Fault Refusal :=
  live s (fun s => s.requestNow src AC.APPLY_EPOCH tag [fixed 16 1 1 arg])

def execQuiesce (src : Source) (tag : BitVec 32) (arg : Word) (s : State) : Host.Outcome State Fault Refusal :=
  live s (fun s => s.requestNow src AC.QUIESCE tag [arg])

def execResume (src : Source) (tag : BitVec 32) (arg : Word) (s : State) : Host.Outcome State Fault Refusal :=
  live s (fun s => s.requestNow src AC.RESUME tag [arg])

def execFence (src : Source) (tag : BitVec 32) (arg : Word) (s : State) : Host.Outcome State Fault Refusal :=
  live s (fun s => s.requestNow src AC.FENCE tag [arg])

def execPortAdmit (src : Source) (tag : BitVec 32) (arg : Word) (s : State) : Host.Outcome State Fault Refusal :=
  live s (fun s => s.requestNow src AC.PORT_ADMIT tag [arg])

def execPortQuarantine (src : Source) (tag : BitVec 32) (arg : Word) (s : State) : Host.Outcome State Fault Refusal :=
  live s (fun s => s.requestNow src AC.PORT_QUARANTINE tag [arg])

def execPortRemap (src : Source) (tag : BitVec 32) (arg : Word) (s : State) : Host.Outcome State Fault Refusal :=
  live s (fun s => s.requestNow src AC.PORT_REMAP tag [arg])

def execLaneSpare (src : Source) (tag : BitVec 32) (arg : Word) (s : State) : Host.Outcome State Fault Refusal :=
  live s (fun s => s.requestNow src AC.LANE_SPARE tag [arg])

def execLaserPrepare (src : Source) (tag : BitVec 32) (arg : Word) (s : State) : Host.Outcome State Fault Refusal :=
  live s (fun s => s.requestNow src AC.LASER_PREPARE tag [arg])

def execLaserRestore (src : Source) (tag : BitVec 32) (arg : Word) (s : State) : Host.Outcome State Fault Refusal :=
  live s (fun s => s.requestNow src AC.LASER_RESTORE tag [arg])

def execSetCoords (src : Source) (tag : BitVec 32) (arg : Word) (s : State) : Host.Outcome State Fault Refusal :=
  live s (fun s => s.requestNow src AC.SET_COORDS tag [arg])

def execSetTimebase (src : Source) (tag : BitVec 32) (arg : Word) (value : Word) (s : State) : Host.Outcome State Fault Refusal :=
  live s (fun s => s.requestNow src AC.SET_TIMEBASE tag [arg, value])

def execBankHandover (src : Source) (tag : BitVec 32) (arg : Word) (s : State) : Host.Outcome State Fault Refusal :=
  live s (fun s => s.requestNow src AC.BANK_HANDOVER tag [arg])

def execReadCounters (src : Source) (tag : BitVec 32) (arg : Word) (offset : Word) (s : State) :
    Host.Outcome State Fault Refusal :=
  live s (fun s => s.requestNow src AC.READ_COUNTERS tag [arg, offset])

def execReadEvents (src : Source) (tag : BitVec 32) (arg : Word) (s : State) : Host.Outcome State Fault Refusal :=
  live s (fun s => s.requestNow src AC.READ_EVENTS tag [arg])

def execSealKey (src : Source) (tag : BitVec 32) (arg : Word) (key : List Word) (sig : List Word) (s : State) :
    Host.Outcome State Fault Refusal :=
  live s (fun s => s.requestNow src AC.SEAL_KEY tag (arg :: (key ++ sig)))

def execZeroize (src : Source) (tag : BitVec 32) (s : State) : Host.Outcome State Fault Refusal :=
  live s (fun s => s.requestNow src AC.ZEROIZE tag [])

def execLifecycle (src : Source) (tag : BitVec 32) (arg : Word) (key : List Word) (sig : List Word) (s : State) :
    Host.Outcome State Fault Refusal :=
  live s (fun s => s.requestNow src AC.LIFECYCLE tag (arg :: (key ++ sig)))

end Sys2Proof.Machine
end

