-- ==== Sys2Proof/Machine/Transports.lean ====
section
/-! DEFINITION. The ways a request reaches Alorn, and register writes: the host mailbox, MCTP over I3C and its control
commands, management packets, and writes by a core or the host (R6, R12, R19, R133, R333 to R337, R347, R353, R396). -/

namespace Sys2Proof.Machine

/-! ### The host mailbox (R333) -/

/-- The request that stands in AL_MBREQ: as many words as LENGTH names, from 2 to 128. -/
def State.mailboxRequest (s : State) : Req :=
  let n := Nat.max 2 (Nat.min 128 (rqLength [s.word .AL_MBREQ 0] / 8))
  let ws := (List.range n).map (fun k => s.word .AL_MBREQ k)
  ⟨.mailbox, ws, 8 * n, 0, false, 0⟩

/-- DOORBELL, judged by REQ_BUSY as it stood: ignored, or REQ_BUSY is set and the request goes to the intake. -/
def State.ring (s : State) (busy : Bool) : State :=
  if busy then s.put F.AL_MBCTL_DB_IGNORED 0 1
  else (s.put F.AL_MBCTL_REQ_BUSY 0 1).enterIntake s.mailboxRequest true

/-- RSP_TAKEN: RSP_VALID and REQ_BUSY clear. -/
def State.takeResponse (s : State) : State := (s.put F.AL_MBCTL_RSP_VALID 0 0).put F.AL_MBCTL_REQ_BUSY 0 0

def execDoorbell (s : State) : Host.Outcome State Fault Refusal :=
  live s (fun s => if s.mgLost then s else s.ring (s.flag F.AL_MBCTL_REQ_BUSY 0))

def execRspTaken (s : State) : Host.Outcome State Fault Refusal :=
  live s (fun s => if s.mgLost then s else s.takeResponse)

/-! ### Register writes -/

/-- The host writes a whole word of AL_MBCTL: W1C bits clear, then RSP_TAKEN and DOORBELL act (R9, R10). -/
def State.writeMbctl (s : State) (v : Word) : State :=
  let busy := s.flag F.AL_MBCTL_REQ_BUSY 0
  let s := s.setWord .AL_MBCTL 0 (s.word .AL_MBCTL 0 &&& ~~~(v &&& Reg.AL_MBCTL.info.w1c))
  let s := if written v F.AL_MBCTL_RSP_TAKEN = 1 then s.takeResponse else s
  if written v F.AL_MBCTL_DOORBELL = 1 then s.ring busy else s

/-- The host's write of a word at an address of the management space: of the four AL_ registers it reaches, AL_MBCTL and
AL_MBREQ can be written; AL_MBREQ ignores it while REQ_BUSY (R333, R396). -/
def State.hostWrite (s : State) (addr : Nat) (v : Word) : State :=
  if s.mgLost || addr / 2 ^ 24 != 9 then s
  else
    match regAt 9 (addr % 2 ^ 24) with
    | some (.AL_MBCTL, _) => s.writeMbctl v
    | some (.AL_MBREQ, n) =>
      if s.flag F.AL_MBCTL_REQ_BUSY 0 then s.put F.AL_MBCTL_DB_IGNORED 0 1 else s.setWord .AL_MBREQ n v
    | _ => s

/-- REGISTER_WRITE: a whole aligned word, by a core to its own block or by the host; any other write has no effect (R6,
R19, R396). -/
def execRegisterWrite (path : WritePath) (addr : BitVec 32) (bytes : Nat) (v : Word) (s : State) :
    Host.Outcome State Fault Refusal :=
  live s (fun s =>
    if bytes != 8 || addr.toNat % 8 != 0 then s
    else
      match path with
      | .core i => if s.coreWrites i.val then (s.coreWrite i.val addr.toNat v).loadHandovers.flow else s
      | .host => s.hostWrite addr.toNat v
      | .other => s)

/-! ### MCTP over I3C (R334, R335) -/

/-- The words of a byte string, the last one zero-padded. -/
def bytesWords (bs : List Byte) : List Word := (pieces 8 bs.length bs).map (fun c => BitVec.ofNat 64 (leNat c))

/-- MCTP_MESSAGE: a message whose type is 0x7F, that names the chip's enterprise number, carries a request; one of more than
1,029 bytes is discarded and counted. -/
def execMctpMessage (eid : BitVec 8) (msgTag : BitVec 3) (ic : Bool) (bytes : List Byte) (s : State) :
    Host.Outcome State Fault Refusal :=
  live s (fun s =>
    if s.mgLost || (bytes.getD 0 0).toNat % 128 != 0x7F then s
    else if 1029 < bytes.length then s.sat F.AL_ERRCNT_INTAKE_DROP 0
    else if (bytes.drop 1).take 4 != leBytes 4 Config.enterprise.toNat then s
    else
      let req := bytes.drop 5
      s.enterIntake ⟨.mctp eid, bytesWords req, req.length, msgTag, ic, 0⟩ true)

/-- A reply of the I3C interface. -/
def State.i3cReply (s : State) (bs : List Byte) : State := s.modAlorn (fun a => { a with i3cOut := a.i3cOut ++ [bs] })

/-- The holder of the lock was an MCTP endpoint and is reset (R347). -/
def State.resetMctp (s : State) : State := if s.get F.AL_LOCK_SRC 0 = 1 then s.breakLock 1 else s

/-- Alorn answers an MCTP control command (R335): 0 Set Endpoint ID from the bus owner, 1 Get Endpoint ID, 2 the versions, 3 the
message type of Opnor requests, 4 the enterprise number. -/
def State.takeControl (s : State) (x : Nat × Byte) : State :=
  match x.1 with
  | 0 => (s.resetMctp.modAlorn (fun a => { a with eid := x.2 })).i3cReply [x.2]
  | 1 => s.i3cReply [s.alorn.eid]
  | 2 => s.i3cReply (Config.mctpVersions.flatMap (fun v => leBytes 4 v.toNat))
  | 3 => s.i3cReply [0x7F]
  | _ => s.i3cReply (leBytes 4 Config.enterprise.toNat)

/-- An MCTP control command arrives: it is answered; while Alorn restarts the I3C interface holds it (R352), and a halted Alorn, or
one without its clock, answers none. -/
def State.i3cControl (s : State) (k : Nat) (eid : Byte := 0) : State :=
  if s.halted || s.mgLost then s
  else if s.alornRuns then s.takeControl (k, eid)
  else s.modAlorn (fun a => { a with i3cHeld := a.i3cHeld ++ [(k, eid)] })

/-- The control commands that the I3C interface has held are answered. -/
def State.takeHeldControl (s : State) : State :=
  s.alorn.i3cHeld.foldl State.takeControl (s.modAlorn (fun a => { a with i3cHeld := [] }))

/-- Set Endpoint ID from the bus owner. -/
def execSetEndpointId (eid : BitVec 8) (s : State) : Host.Outcome State Fault Refusal := live s (fun s => s.i3cControl 0 eid)

def execGetEndpointId (s : State) : Host.Outcome State Fault Refusal := live s (fun s => s.i3cControl 1)

def execGetMctpVersionSupport (s : State) : Host.Outcome State Fault Refusal := live s (fun s => s.i3cControl 2)

/-- Get Message Type Support: the type of Opnor requests. -/
def execGetMessageTypeSupport (s : State) : Host.Outcome State Fault Refusal := live s (fun s => s.i3cControl 3)

/-- Get Vendor Defined Message Support: the enterprise number. -/
def execGetVendorDefinedMsgSupport (s : State) : Host.Outcome State Fault Refusal := live s (fun s => s.i3cControl 4)

/-- GETSTATUS: bits 15:8 of its reply hold RUNNING, HALTED and whether records of the event log await reading, without
firmware (R335); there is no answer without CLK_MG (Table 14-8). -/
def execGetstatus (s : State) : Host.Outcome State Fault Refusal :=
  live s (fun s =>
    if s.mgLost then s
    else s.i3cReply [BitVec.ofNat 8 (b2n (s.get F.AL_STATUS_STATE 0 == 0) + 2 * b2n s.halted + 4 * b2n s.unread)])

/-- An I3C target reset of Alorn's interface. -/
def execI3cTargetReset (s : State) : Host.Outcome State Fault Refusal := live s (fun s => s.resetMctp)

/-! ### Management packets (R133, R336, R337) -/

/-- Whether a MGMT request to Alorn keeps the fields it does not use at zero and its extent in range (checks 6 and 7 of
Table 4-7, Tables 4-3, 4-10 and 4-11). -/
def mgmtSound (p : Packet) : Bool :=
  pget p H.FORMAT == 0 && pget p H.OP == 0 && pget p H.GROUP == 0 && !pflag p H.FLOW_VALID && !pflag p H.SIGNAL
    && pget p H.ADDRESS == 0 && pget p H.LENGTH % 8 == 0 && 8 ≤ pget p H.LENGTH && pget p H.LENGTH ≤ 1024

/-- A MGMT packet at Alorn that came through logical port `l`: a request goes to the intake, a response ends its relay or is
stray. -/
def State.takeMgmt (s : State) (l : Fin 6) (p : Packet) : State :=
  let ws := bytesWords (payload p)
  if !mgmtSound p then (if pflag p H.RESPONSE then s.stray 287 p else s.nack 287 p St.RANGE)
  else if pflag p H.RESPONSE then
    let hdr : BitVec 16 := BitVec.ofNat 16 (pget p H.TAG)
    (if s.alornRuns && (s.relayOf l.val hdr).any (fun r => r.asker.tag == rqTag ws) then s.relayAnswer l.val hdr ws
     else s.stray 287 p)
  else s.enterIntake ⟨.relayed l (rqOrigin ws), ws, pget p H.LENGTH, 0, false, BitVec.ofNat 16 (pget p H.TAG)⟩ false

/-- MGMT_ARRIVAL: a MGMT packet that entered through logical port `port` reaches an endpoint of the die; only Alorn accepts one
(R101, R399), and a relay's packet to a port's endpoint is that port's (R121). -/
def execMgmtArrival (port : Option (Fin 6)) (pkt : Packet) (s : State) : Host.Outcome State Fault Refusal :=
  live s (fun s =>
    let ep := if headerBad pkt then 287 else pget pkt H.DST_EP
    if (!headerBad pkt && (classOf (pget pkt H.OPCODE)).isSome && pget pkt H.OPCODE != Op.MGMT) || (280 ≤ ep && ep < 286) then s
    else if ep != 287 then
      (if pflag pkt H.RESPONSE then s.reply Op.MGMT ep pkt else s.request Op.MGMT ep pkt (fun s => s)).flow
    else
      match port with
      | none => s
      | some l =>
        if s.mgLost || !s.waitsAt 287 pkt then s
        else
          let s := s.takeIn 287 pkt
          (if headerBad pkt then s.discardHead evHeaderBad 287 pkt
           else if (classOf (pget pkt H.OPCODE)).isNone then s.discardHead evBadOpcode 287 pkt
           else s.takeMgmt l pkt).flow)

end Sys2Proof.Machine
end

