-- ==== Sys2Proof/Machine/Restarts.lean ====
section
/-! DEFINITION. Errors in Alorn's memories, its watchdog, restarts and halt, and its coming into service (R351 to R354, Table 14-2
step 7). -/

namespace Sys2Proof.Machine

def evAlornEcc : Event := ⟨0xA04, 2⟩
def evAlornRestart : Event := ⟨0xA05, 2⟩

/-- Ticks of 10 s. -/
def tenSeconds : Nat := 1562500000

/-- Every cache entry IN_PROGRESS is completed with ABORTED (R352). -/
def State.abortCache (s : State) : State :=
  let form (e : CacheEnt) : List Word :=
    s.responseWords (((s.alorn.background.find? (fun b => b.src == e.src && b.tag == e.tag)).map (fun b => b.cmd)).getD AC.LANE_SPARE)
      AS.ABORTED e.tag 0 []
  s.modAlorn (fun a => { a with cache := a.cache.map (fun e => if e.busy then { e with busy := false, resp := form e } else e) })

/-- The requests that Alorn has taken and not answered yet: relays, and LANE_SPAREs that await their switch; each with its
command code. -/
def State.unanswered (s : State) : List (Asker × Nat) :=
  s.alorn.relays.map (fun r => (r.asker, r.cmd))
    ++ (List.range 6).flatMap (fun p => (s.port p).spareWait.map (fun w => (w.2, AC.LANE_SPARE)))

/-- What a restart takes with it: the processor and working RAM (R352). What it had taken and not answered is answered ABORTED
(R338; DEDUCED, log entry 30), unless it halts; Patches, drains, ramps and the retirement round that is out go on (R330). -/
def State.loseWork (s : State) (halt : Bool) : State :=
  let open' := if halt then [] else s.unanswered
  let s := s.abortCache.freeStaging.cutLoad.breakAll 287
  let s := s.modAlorn (fun a => { a with background := [], relays := [], banksToDo := [] })
  let s := (List.range 6).foldl (fun s p => s.modPort p (fun q => { q with spareWait := [] })) s
  open'.foldl (fun s x => s.deliver x.1 (s.responseWords x.2 AS.ABORTED x.1.tag 0 [])) s

/-- Requests of the intake and those held go into INTAKE_DROP when Alorn halts (R353). -/
def State.dropIntake (s : State) : State :=
  let n := s.alorn.intake.length + s.alorn.held.length
  (s.modAlorn (fun a => { a with intake := [], held := [], i3cHeld := [] })).sat F.AL_ERRCNT_INTAKE_DROP 0 n

/-- Alorn restarts, or halts at the eighth restart within 10 s: cause 0 the watchdog, 1 a memory error. -/
def State.restart (s : State) (cause rom : Nat) : State :=
  if s.halted || s.mgLost then s
  else
    let recent := s.alorn.restarts.filter (fun t => s.now ≤ t + tenSeconds) ++ [s.now]
    let halt := 8 ≤ recent.length
    let s := ((s.loseWork halt).modAlorn (fun a => { a with restarts := recent })).sat F.AL_STATUS_RESTARTS 0
    let s := s.event evAlornRestart 9 0 (cause + 2 ^ 8 * b2n halt) rom
    if halt then (s.put F.AL_STATUS_STATE 0 2).dropIntake else s.put F.AL_STATUS_STATE 0 1

/-- WATCHDOG_EXPIRY: 1 s has passed without a pass of the main loop. -/
def execWatchdogExpiry (romAddr : Word) (s : State) : Host.Outcome State Fault Refusal :=
  live s (fun s => (s.restart 0 romAddr.toNat).flow)

/-- A restart that an uncorrectable word of ROM or working RAM brings, with its event. -/
def State.eccRestart (s : State) (mem : Nat) (addr : Word) : State :=
  if s.halted || s.mgLost then s
  else ((s.event evAlornEcc 9 0 mem addr.toNat).drawn.restart 1 (Config.romAddress s.freeCtr).toNat)

/-- ALORN_ECC (R351). -/
def execAlornEcc (mem : AlornMem) (corrected : Bool) (addr : Word) (s : State) : Host.Outcome State Fault Refusal :=
  live s (fun s =>
    if s.mgLost then s
    else if corrected then
      match mem with
      | .rom => s.sat F.AL_ERRCNT_ROM_CORR 0
      | _ => s.sat F.AL_ERRCNT_RAM_CORR 0
    else
      match mem with
      | .rom => (s.eccRestart 0 addr).flow
      | .working => (s.eccRestart 1 addr).flow
      | .retainedCache k => s.modAlorn (fun a => { a with cache := a.cache.eraseIdx k.val })
      | .retainedLock => s.breakLock 1
      | .staging => s.emptyStaging)

/-- A slot that a mask names as corrupt (R354). -/
def State.checkSlot (s : State) (corrupt : BitVec 16) (k : Nat) : State := if corrupt.getLsbD k then s.corruptSlot k else s

/-- ALORN_RUNNING: after a chip reset or a restart Alorn has checked its ROM and the digests of the sealed store, and serves its
intake and what the I3C interface has held; `corrupt` names the slots whose digest fails. -/
def execAlornRunning (corrupt : BitVec 16) (s : State) : Host.Outcome State Fault Refusal :=
  live s (fun s =>
    if s.mgLost || s.get F.AL_STATUS_STATE 0 != 1 then s
    else (((List.range 16).foldl (fun s k => s.checkSlot corrupt k) s).put F.AL_STATUS_STATE 0 0).takeHeldControl.loadHandovers)

end Sys2Proof.Machine
end

