-- ==== Sys2Proof/Machine/Resets.lean ====
section
/-! DEFINITION. The resets and the clocks: chip reset, core port reset, host-bridge reset, and the stop and start of a clocked
domain (R75, R77 to R81, R362 to R365, R382, R398, Tables 14-1 and 14-2). -/

namespace Sys2Proof.Machine

def evClockStop : Event := ⟨0x702, 0⟩
def evClockStart : Event := ⟨0x703, 0⟩

/-! ### Crossing FIFOs in a reset (R81) -/

/-- The stages of the complete packets of a FIFO. -/
def wholeStages (ws : List Stage) : List Stage := (ws.reverse.dropWhile (fun w => !stageTail w)).reverse

/-- An in FIFO discards what it holds. -/
def State.discardFifo (s : State) (n : Nat) : State :=
  let k := (s.fifo n).stages.length
  (s.setFifo n { s.fifo n with stages := [] }).sat F.XB_ERRORS_DISCARDS (n / 256) k

/-- An out FIFO keeps its complete packets and discards one part-written; what waits to be written is gone. -/
def State.cutFifo (s : State) (n : Nat) : State :=
  let ws := (s.fifo n).stages
  let keep := wholeStages ws
  let s := { s with outWait := s.outWait.filter (fun w => w.fifo != n) }
  (s.setFifo n ⟨keep, false, (s.fifo n).last⟩).sat F.XB_ERRORS_DISCARDS (n / 256) (ws.length - keep.length)

/-! ### Core port reset (R365) -/

/-- The registers that core port reset reaches (Table 14-1). -/
def coreResetRegs : List Reg :=
  [.CP_QCTL, .CP_QTAIL, .CP_QSTAT, .CP_EVCNT, .CP_ERRCNT, .CP_ERRAUX, .CP_RINGCTL, .CP_RINGERR, .CP_AMSTAT, .CP_HANDOVER]

/-- Every copy of a register of core `i` takes its Reset value. -/
def State.resetReg (s : State) (i : Nat) (r : Reg) : State :=
  (List.range r.info.count).foldl (fun s n => s.setWord r (coreCopy r i n) (r.resetWord (coreCopy r i n))) s

/-- What a core port drops: commands, SERIALs held back, rings, holds, its turn, and handover requests it awaits. -/
def State.dropCore (s : State) (i : Nat) : State :=
  { s with
    cmds := s.cmds.filter (fun c => c.core != i)
    stale := s.stale.filter (fun e => e.1 / 16 != i)
    rings := s.rings.filter (fun e => e.1 / 4096 != i)
    holds := s.holds.filter (fun h => h.core != i)
    turns := remove s.turns i
    hoPending := s.hoPending.filter (fun e => e.1 != i)
    fenceDue := removeNat s.fenceDue i }

/-- Whether a send flow context is bound to core `i`. -/
def State.sendAt (s : State) (i f : Nat) : Bool :=
  s.flag F.RK_FLOWCTX_VALID f && s.flag F.RK_FLOWCTX_ROLE f && s.get F.RK_FLOWCTX_ENDPOINT f == i

/-- CORE_RESET of core port `i` is asserted: the in FIFOs discard what they hold and every Plumb message that waits for them at
the cluster node; packets on the meshes that wait for them are discarded as they are admitted (R81, R365). -/
def State.resetCore (s : State) (i : Nat) : State :=
  let s := ((s.resetColls i).breakAll i).dropCore i
  let s := coreResetRegs.foldl (fun s r => s.resetReg i r) s
  let s := s.clearBusy (s.sendAt i)
  let s := [1, 3, 5].foldl (fun s k => s.discardFifo (coreFifo i k)) s
  let s := [0, 2, 4].foldl (fun s k => s.cutFifo (coreFifo i k)) s
  let s := s.sat F.XB_ERRORS_DISCARDS (i / 16) (s.heldFor (32 + i)).length
  let s := ({ s with plumbOut := s.plumbOut.filter (fun x => x.dst != 32 + i) } : State).unholdPlumb (coreFifo i 5)
  { s with coreRst := insertNat s.coreRst i, idleHeld := removeNat s.idleHeld i }

def execCoreReset (i : Fin 256) (s : State) : Host.Outcome State Fault Refusal :=
  live s (fun s => if s.present i.val && !s.coreRst.contains i.val then (s.resetCore i.val).flow else s)

/-- CORE_RESET is released: every FIFO of the port is empty. The out FIFOs release their complete packets before (R81): while one
of them still stands there the release does not come (DEDUCED, log entry 55). -/
def execCoreResetRelease (i : Fin 256) (s : State) : Host.Outcome State Fault Refusal :=
  live s (fun s =>
    if s.coreRst.contains i.val && [0, 2, 4].all (fun k => (s.fifo (coreFifo i.val k)).stages.isEmpty) then
      let s := (List.range 6).foldl (fun s k => s.setFifo (coreFifo i.val k) Fifo.initial) s
      ({ s with coreRst := removeNat s.coreRst i.val } : State).flow
    else s)

/-! ### Host-bridge reset -/

/-- Every copy of a register of the AL_ window takes its Reset value. -/
def State.resetAll (s : State) (r : Reg) : State :=
  (List.range r.info.count).foldl (fun s n => s.setWord r n (r.resetWord n)) s

/-- HOST_BRIDGE_RESET: the endpoint, its crossing FIFOs and the mailbox; a mailbox holder of the lock is reset (R347, R362). -/
def execHostBridgeReset (s : State) : Host.Outcome State Fault Refusal :=
  live s (fun s =>
    let s := if s.get F.AL_LOCK_SRC 0 = 0 then s.breakLock 1 else s
    let s := [Reg.AL_MBCTL, .AL_MBREQ, .AL_MBRSP].foldl State.resetAll s
    let s := s.modAlorn (fun a => { a with held := a.held.filter (fun r => r.src != .mailbox) })
    let s := [4096 + 7, 4096 + 9].foldl State.discardFifo s
    let s := [4096 + 6, 4096 + 8].foldl State.cutFifo s
    ({ s with hostRx := [], hostTags := [], hostWait := [] } : State).flow)

/-! ### Chip reset (R363, R364) -/

/-- CHIP_RESET asserted: everything but the fuses, the sealed store and the commands that wait is as after reset; NONCE starts
at a random value (R360). -/
def State.chipResetNow (s : State) : State :=
  let s : State := { State.reset with
    pending := s.pending, freeCtr := s.freeCtr, fuse := s.fuse, sealStore := s.sealStore, wiped := s.wiped, chipReset := true }
  s.drawn.put F.AL_STATUS_NONCE 0 ((Config.random s.freeCtr).toNat % 2 ^ 32)

def execChipReset (s : State) : Host.Outcome State Fault Refusal := .next s.chipResetNow

/-- CHIP_RESET released: the transmitters send light (Table 14-2); Alorn is not running yet. -/
def execChipResetRelease (s : State) : Host.Outcome State Fault Refusal :=
  .next (if s.chipReset then
    (List.range 6).foldl (fun s p => s.showLight p) { s with chipReset := false }
  else s)

/-! ### Clocks (R77 to R79, R398) -/

/-- The core ports of a domain. -/
def domainCores (d : Nat) : List Nat := if d < 16 then (List.range 16).map (fun l => 16 * d + l) else []

/-- A domain's clock has lost its edges: levels that cross from its side stay (R77), pulses to CLK_MG are acknowledged no more
(R74), and CLK_MG takes the tick-counted timers with it (R382). -/
def State.loseEdges (s : State) (d : Nat) : State :=
  if d = 16 then { (if s.mgLost then s else s.pulsesStop) with mgLost := true }
  else { s with idleHeld := ((domainCores d).filter s.intakeIdle).foldl insertNat s.idleHeld, lkLost := s.lkLost || d == 17 }

/-- CLOCK_STOP: no edge of a domain's clock for 16 ticks. CLK_LK takes every port DOWN. -/
def execClockStop (d : Fin 18) (s : State) : Host.Outcome State Fault Refusal :=
  live s (fun s =>
    if !s.clockRuns d.val then s
    else
      let t := s.loseEdges d.val
      let t : State := { t with clkStopped := upsert t.clkStopped d.val t.now }
      let t := t.sat F.XB_DOMAIN_STOPS d.val
      let t := t.event evClockStop 6 d.val (t.get F.XB_DOMAIN_STOPS d.val)
      if d.val = 17 then t.allDown.flow else t)

/-- Whether a core port's partition drains. -/
def State.draining (s : State) (i : Nat) : Bool :=
  match s.partOfCore i with
  | some p => (s.part p).draining
  | none => false

/-- What the core ports of cluster `c` do at the first edges after its clock returns: fences that wait, drains that have begun,
what their Plumb FIFOs hold, and what their collectives may send (R77, R398). -/
def State.wakeCluster (s : State) (c : Nat) : State :=
  let is := (domainCores c).filter s.coreRuns
  let due := is.filter s.fenceDue.contains
  let s := ({ s with fenceDue := s.fenceDue.filter (fun i => !due.contains i) } : State).fenceCores due
  let s := s.quiesceColls (is.filter s.draining)
  (is.foldl (fun s i => (s.drainPlumb i 8).feed i) s).stallSlots.stallPlumb

/-- The ports read what their Plumb in FIFOs hold. -/
def State.wakePorts (s : State) : State := (List.range 6).foldl (fun s p => s.portReads p 8) s

/-- A domain's clock has edges again, from this tick on. -/
def State.regainEdges (s : State) (d : Nat) : State :=
  let s := if d = 16 && s.mgLost then s.pulsesStart else s
  { s with
    clkStopped := remove s.clkStopped d
    clkSince := upsert s.clkSince d s.now
    idleHeld := s.idleHeld.filter (fun i => i / 16 != d)
    mgLost := s.mgLost && d != 16
    lkLost := s.lkLost && d != 17 }

/-- CLOCK_START: the first edge after the clock of a domain returns. The ticks stopped that it logs count from the CLOCK_STOP mark
(DESIGN CHOICE, log entry 54); a clock that returns before it was marked STOPPED logs nothing (R78). -/
def execClockStart (d : Fin 18) (s : State) : Host.Outcome State Fault Refusal :=
  live s (fun s =>
    if s.hasEdges d.val then s
    else
      let t := s.regainEdges d.val
      let t := match lookup s.clkStopped d.val with
        | none => t
        | some t0 =>
          t.drawn.event evClockStart 6 d.val (if d.val = 16 then (Config.mgTicks s.freeCtr).toNat else s.now - t0)
      if d.val < 16 then (t.wakeCluster d.val).flow else if d.val = 17 then t.wakePorts.flow else t.flow)

/-- MULTI_OVR: two samples of the timestamp, the multi-bit value that crosses into a clocked domain, have not agreed for 8 edges;
the value of the tick before stays in use (R75, R76; DESIGN CHOICE, log entry 58). -/
def execMultiOvr (d : Fin 18) (s : State) : Host.Outcome State Fault Refusal :=
  live s (fun s =>
    if s.hasEdges d.val then
      ({ s with sampled := upsert s.sampled d.val ((lookup s.sampled d.val).getD (s.word .TM_TIMESTAMP 0 - 1)) } : State).put
        F.XB_DOMAIN_MULTI_OVR d.val 1
    else s)

end Sys2Proof.Machine
end

