-- ==== Sys2Proof/Machine/Dispatch.lean ====
section
/-! DEFINITION. One arm per command: a direct call of its meaning. -/

namespace Sys2Proof.Machine

def exec (i : Instr) (s : State) : Host.Outcome State Fault Refusal :=
  match i with
  | .chipReset => Sys2Proof.Machine.execChipReset s
  | .coreReset core => Sys2Proof.Machine.execCoreReset core s
  | .coreResetRelease core => Sys2Proof.Machine.execCoreResetRelease core s
  | .hostBridgeReset => Sys2Proof.Machine.execHostBridgeReset s
  | .testLogicReset => Sys2Proof.Machine.execTestLogicReset s
  | .throttleAssert => Sys2Proof.Machine.execThrottleAssert s
  | .throttleRelease => Sys2Proof.Machine.execThrottleRelease s
  | .fabricMeasurement vdd temp speed => Sys2Proof.Machine.execFabricMeasurement vdd temp speed s
  | .tamperInput => Sys2Proof.Machine.execTamperInput s
  | .glitchDetectorTrip => Sys2Proof.Machine.execGlitchDetectorTrip s
  | .refLost => Sys2Proof.Machine.execRefLost s
  | .refBack => Sys2Proof.Machine.execRefBack s
  | .clkLkLost => Sys2Proof.Machine.execClkLkLost s
  | .clkMgLost => Sys2Proof.Machine.execClkMgLost s
  | .clockStop d => Sys2Proof.Machine.execClockStop d s
  | .clockStart d => Sys2Proof.Machine.execClockStart d s
  | .fifoWrite f w => Sys2Proof.Machine.execFifoWrite f w s
  | .fifoRead f => Sys2Proof.Machine.execFifoRead f s
  | .inFifoAdmit f pkt => Sys2Proof.Machine.execInFifoAdmit f pkt s
  | .linkHandshake l levels => Sys2Proof.Machine.execLinkHandshake l levels s
  | .routerHeaderArrival m r inp pkt => Sys2Proof.Machine.execRouterHeaderArrival m r inp pkt s
  | .arbiterGrant m r out => Sys2Proof.Machine.execArbiterGrant m r out s
  | .putArrival ep pkt => Sys2Proof.Machine.execPutArrival ep pkt s
  | .putMcArrival ep pkt => Sys2Proof.Machine.execPutMcArrival ep pkt s
  | .getReqArrival ep pkt => Sys2Proof.Machine.execGetReqArrival ep pkt s
  | .atomAddArrival ep pkt => Sys2Proof.Machine.execAtomAddArrival ep pkt s
  | .atomSwapArrival ep pkt => Sys2Proof.Machine.execAtomSwapArrival ep pkt s
  | .signalArrival ep pkt => Sys2Proof.Machine.execSignalArrival ep pkt s
  | .amArrival ep pkt => Sys2Proof.Machine.execAmArrival ep pkt s
  | .redDownArrival ep pkt => Sys2Proof.Machine.execRedDownArrival ep pkt s
  | .stackSinkRedDown st pkt => Sys2Proof.Machine.execStackSinkRedDown st pkt s
  | .getRspArrival ep pkt => Sys2Proof.Machine.execGetRspArrival ep pkt s
  | .atomRspArrival ep pkt => Sys2Proof.Machine.execAtomRspArrival ep pkt s
  | .ackArrival ep pkt => Sys2Proof.Machine.execAckArrival ep pkt s
  | .nackArrival ep pkt => Sys2Proof.Machine.execNackArrival ep pkt s
  | .amReplyArrival ep pkt => Sys2Proof.Machine.execAmReplyArrival ep pkt s
  | .mgmtArrival port pkt => Sys2Proof.Machine.execMgmtArrival port pkt s
  | .hostDrainExpiry => Sys2Proof.Machine.execHostDrainExpiry s
  | .portEgress p src pkt => Sys2Proof.Machine.execPortEgress p src pkt s
  | .portIngress p vl pkt => Sys2Proof.Machine.execPortIngress p vl pkt s
  | .mgmtRelayAtPort p pkt => Sys2Proof.Machine.execMgmtRelayAtPort p pkt s
  | .windowRelease p k src => Sys2Proof.Machine.execWindowRelease p k src s
  | .stagingDeparture p vl => Sys2Proof.Machine.execStagingDeparture p vl s
  | .poolForward p k => Sys2Proof.Machine.execPoolForward p k s
  | .parcelSend p => Sys2Proof.Machine.execParcelSend p s
  | .parcelReceive p n w => Sys2Proof.Machine.execParcelReceive p n w s
  | .linkRetryExpiry p => Sys2Proof.Machine.execLinkRetryExpiry p s
  | .ackStall p => Sys2Proof.Machine.execAckStall p s
  | .alignmentBlockReceive p lane b => Sys2Proof.Machine.execAlignmentBlockReceive p lane b s
  | .lightDetected p => Sys2Proof.Machine.execLightDetected p s
  | .lightLost p => Sys2Proof.Machine.execLightLost p s
  | .lossOfSignal p lanes => Sys2Proof.Machine.execLossOfSignal p lanes s
  | .retrainExpiry p => Sys2Proof.Machine.execRetrainExpiry p s
  | .keyTimeoutExpiry p => Sys2Proof.Machine.execKeyTimeoutExpiry p s
  | .drainComplete p => Sys2Proof.Machine.execDrainComplete p s
  | .drainLimitExpiry p => Sys2Proof.Machine.execDrainLimitExpiry p s
  | .downHoldExpiry p light => Sys2Proof.Machine.execDownHoldExpiry p light s
  | .keyOffer p payload => Sys2Proof.Machine.execKeyOffer p payload s
  | .keyResult p payload => Sys2Proof.Machine.execKeyResult p payload s
  | .delayProbe p payload => Sys2Proof.Machine.execDelayProbe p payload s
  | .delayEcho p payload => Sys2Proof.Machine.execDelayEcho p payload s
  | .patchReq p payload => Sys2Proof.Machine.execPatchReq p payload s
  | .patchApply p => Sys2Proof.Machine.execPatchApply p s
  | .portOpen p => Sys2Proof.Machine.execPortOpen p s
  | .portClose p => Sys2Proof.Machine.execPortClose p s
  | .controlRepeatExpiry p msg => Sys2Proof.Machine.execControlRepeatExpiry p msg s
  | .delayPeriodExpiry p => Sys2Proof.Machine.execDelayPeriodExpiry p s
  | .laneSignalLost p lane => Sys2Proof.Machine.execLaneSignalLost p lane s
  | .serWindowExpiry p lane corrected => Sys2Proof.Machine.execSerWindowExpiry p lane corrected s
  | .patchFail p => Sys2Proof.Machine.execPatchFail p s
  | .laserSlotRemoved slot => Sys2Proof.Machine.execLaserSlotRemoved slot s
  | .laserSlotInserted slot => Sys2Proof.Machine.execLaserSlotInserted slot s
  | .laserFault slot output => Sys2Proof.Machine.execLaserFault slot output s
  | .laserFeed p feed => Sys2Proof.Machine.execLaserFeed p feed s
  | .laserLow p lane power => Sys2Proof.Machine.execLaserLow p lane power s
  | .laserRampDone slot => Sys2Proof.Machine.execLaserRampDone slot s
  | .treePacketArrival u inp pkt => Sys2Proof.Machine.execTreePacketArrival u inp pkt s
  | .roomCountArrival u edge group kind epoch count gen => Sys2Proof.Machine.execRoomCountArrival u edge group kind epoch count gen s
  | .forkCopy u buf => Sys2Proof.Machine.execForkCopy u buf s
  | .mergeAnswerArrival u out pkt => Sys2Proof.Machine.execMergeAnswerArrival u out pkt s
  | .mergeTimeout u entry => Sys2Proof.Machine.execMergeTimeout u entry s
  | .contributionTaken u inp pkt res => Sys2Proof.Machine.execContributionTaken u inp pkt res s
  | .resultCopy u slot out => Sys2Proof.Machine.execResultCopy u slot out s
  | .barArrive n src m => Sys2Proof.Machine.execBarArrive n src m s
  | .barRelease n hub m => Sys2Proof.Machine.execBarRelease n hub m s
  | .sredUp n src m => Sys2Proof.Machine.execSredUp n src m s
  | .sredDown n hub m => Sys2Proof.Machine.execSredDown n hub m s
  | .plumbPairExpiry n m => Sys2Proof.Machine.execPlumbPairExpiry n m s
  | .plumbPortIngress p pkt => Sys2Proof.Machine.execPlumbPortIngress p pkt s
  | .abort src m => Sys2Proof.Machine.execAbort src m s
  | .epoch port m => Sys2Proof.Machine.execEpoch port m s
  | .retirementRoundResult m => Sys2Proof.Machine.execRetirementRoundResult m s
  | .epochPollExpiry => Sys2Proof.Machine.execEpochPollExpiry s
  | .epochSettleExpiry => Sys2Proof.Machine.execEpochSettleExpiry s
  | .nop core q => Sys2Proof.Machine.execNop core q s
  | .put core q => Sys2Proof.Machine.execPut core q s
  | .get core q => Sys2Proof.Machine.execGet core q s
  | .putMc core q => Sys2Proof.Machine.execPutMc core q s
  | .atomAdd core q => Sys2Proof.Machine.execAtomAdd core q s
  | .atomSwap core q => Sys2Proof.Machine.execAtomSwap core q s
  | .signal core q => Sys2Proof.Machine.execSignal core q s
  | .am core q => Sys2Proof.Machine.execAm core q s
  | .amReply core q => Sys2Proof.Machine.execAmReply core q s
  | .barrier core q => Sys2Proof.Machine.execBarrier core q s
  | .scalarReduce core q => Sys2Proof.Machine.execScalarReduce core q s
  | .reduce core q => Sys2Proof.Machine.execReduce core q s
  | .allReduce core q => Sys2Proof.Machine.execAllReduce core q s
  | .broadcast core q => Sys2Proof.Machine.execBroadcast core q s
  | .reduceScatter core q => Sys2Proof.Machine.execReduceScatter core q s
  | .allGather core q => Sys2Proof.Machine.execAllGather core q s
  | .requestTimeout core q pos => Sys2Proof.Machine.execRequestTimeout core q pos s
  | .collectiveTimeout core q => Sys2Proof.Machine.execCollectiveTimeout core q s
  | .cpQtailWrite core q v => Sys2Proof.Machine.execCpQtailWrite core q v s
  | .skip core q => Sys2Proof.Machine.execSkip core q s
  | .cpQbaseWrite core q v => Sys2Proof.Machine.execCpQbaseWrite core q v s
  | .cpEvcntWrite core k v inc => Sys2Proof.Machine.execCpEvcntWrite core k v inc s
  | .cpHandoverWrite core v => Sys2Proof.Machine.execCpHandoverWrite core v s
  | .cpRingtabWrite core v => Sys2Proof.Machine.execCpRingtabWrite core v s
  | .ringAdvance core ring pos => Sys2Proof.Machine.execRingAdvance core ring pos s
  | .ringEnable core ring => Sys2Proof.Machine.execRingEnable core ring s
  | .ringDisable core ring => Sys2Proof.Machine.execRingDisable core ring s
  | .registerWrite path addr bytes v => Sys2Proof.Machine.execRegisterWrite path addr bytes v s
  | .handoverDrainDone ep bank => Sys2Proof.Machine.execHandoverDrainDone ep bank s
  | .handoverLeaseExpiry ep bank => Sys2Proof.Machine.execHandoverLeaseExpiry ep bank s
  | .doorbell => Sys2Proof.Machine.execDoorbell s
  | .rspTaken => Sys2Proof.Machine.execRspTaken s
  | .mctpMessage eid msgTag ic bytes => Sys2Proof.Machine.execMctpMessage eid msgTag ic bytes s
  | .setEndpointId eid => Sys2Proof.Machine.execSetEndpointId eid s
  | .getEndpointId => Sys2Proof.Machine.execGetEndpointId s
  | .getMctpVersionSupport => Sys2Proof.Machine.execGetMctpVersionSupport s
  | .getMessageTypeSupport => Sys2Proof.Machine.execGetMessageTypeSupport s
  | .getVendorDefinedMsgSupport => Sys2Proof.Machine.execGetVendorDefinedMsgSupport s
  | .getstatus => Sys2Proof.Machine.execGetstatus s
  | .i3cTargetReset => Sys2Proof.Machine.execI3cTargetReset s
  | .requestTaken => Sys2Proof.Machine.execRequestTaken s
  | .relayResponse p a => Sys2Proof.Machine.execRelayResponse p a s
  | .relayTimeout p hdr => Sys2Proof.Machine.execRelayTimeout p hdr s
  | .getVersion src tag => Sys2Proof.Machine.execGetVersion src tag s
  | .getCensus src tag => Sys2Proof.Machine.execGetCensus src tag s
  | .selfTest src tag arg => Sys2Proof.Machine.execSelfTest src tag arg s
  | .selfTestDone failed first => Sys2Proof.Machine.execSelfTestDone failed first s
  | .claim src tag arg => Sys2Proof.Machine.execClaim src tag arg s
  | .release src tag => Sys2Proof.Machine.execRelease src tag s
  | .loadStencilBegin src tag arg => Sys2Proof.Machine.execLoadStencilBegin src tag arg s
  | .loadStencilData src tag arg data => Sys2Proof.Machine.execLoadStencilData src tag arg data s
  | .loadStencilCommit src tag arg => Sys2Proof.Machine.execLoadStencilCommit src tag arg s
  | .stencilLoadLimitExpiry => Sys2Proof.Machine.execStencilLoadLimitExpiry s
  | .loadStencilDiscard src tag arg => Sys2Proof.Machine.execLoadStencilDiscard src tag arg s
  | .applyEpoch src tag arg => Sys2Proof.Machine.execApplyEpoch src tag arg s
  | .applyEpochCancel src tag arg => Sys2Proof.Machine.execApplyEpochCancel src tag arg s
  | .quiesce src tag arg => Sys2Proof.Machine.execQuiesce src tag arg s
  | .quiesceDrained p => Sys2Proof.Machine.execQuiesceDrained p s
  | .quiesceStuck p => Sys2Proof.Machine.execQuiesceStuck p s
  | .resume src tag arg => Sys2Proof.Machine.execResume src tag arg s
  | .fence src tag arg => Sys2Proof.Machine.execFence src tag arg s
  | .portAdmit src tag arg => Sys2Proof.Machine.execPortAdmit src tag arg s
  | .portQuarantine src tag arg => Sys2Proof.Machine.execPortQuarantine src tag arg s
  | .portRemap src tag arg => Sys2Proof.Machine.execPortRemap src tag arg s
  | .laneSpare src tag arg => Sys2Proof.Machine.execLaneSpare src tag arg s
  | .laserPrepare src tag arg => Sys2Proof.Machine.execLaserPrepare src tag arg s
  | .laserRestore src tag arg => Sys2Proof.Machine.execLaserRestore src tag arg s
  | .setCoords src tag arg => Sys2Proof.Machine.execSetCoords src tag arg s
  | .setTimebase src tag arg value => Sys2Proof.Machine.execSetTimebase src tag arg value s
  | .bankHandover src tag arg => Sys2Proof.Machine.execBankHandover src tag arg s
  | .readCounters src tag arg offset => Sys2Proof.Machine.execReadCounters src tag arg offset s
  | .readEvents src tag arg => Sys2Proof.Machine.execReadEvents src tag arg s
  | .sealKey src tag arg key sig => Sys2Proof.Machine.execSealKey src tag arg key sig s
  | .zeroize src tag => Sys2Proof.Machine.execZeroize src tag s
  | .lifecycle src tag arg key sig => Sys2Proof.Machine.execLifecycle src tag arg key sig s
  | .watchdogExpiry romAddr => Sys2Proof.Machine.execWatchdogExpiry romAddr s
  | .alornEcc mem corrected addr => Sys2Proof.Machine.execAlornEcc mem corrected addr s
  | .lockLeaseExpiry => Sys2Proof.Machine.execLockLeaseExpiry s
  | .tableEcc corrected reg n => Sys2Proof.Machine.execTableEcc corrected reg n s
  | .logRecordWrite => Sys2Proof.Machine.execLogRecordWrite s
  | .chipResetRelease => Sys2Proof.Machine.execChipResetRelease s
  | .alornRunning corrupt => Sys2Proof.Machine.execAlornRunning corrupt s
  | .stencilLoadStep7 => Sys2Proof.Machine.execStencilLoadStep7 s
  | .multiOvr d => Sys2Proof.Machine.execMultiOvr d s

end Sys2Proof.Machine
end

