-- ==== Sys2Proof/Machine/Tick.lean ====
section
/-! DEFINITION. The tick: what the block does when no command waits (log entry 5). -/

namespace Sys2Proof.Machine

def evTimebase : Event := ⟨0xA08, 0⟩

/-- SET_TIMEBASE takes effect, and TIMEBASE_SET is logged with the old and the new value (Table 13-7, R394). -/
def State.setTime (s : State) (x : Bool × Word) : State :=
  let old := s.word .TM_TIMESTAMP 0
  let new := if x.1 then old + x.2 else x.2
  (s.event evTimebase 9 0 old.toNat new.toNat).setWord .TM_TIMESTAMP 0 new

/-- One tick of 6.4 ns passes: the elapsed ticks rise, and so does the timestamp, while CLK_MG runs and CHIP_RESET is not
asserted (R364, R382, R386, R394). Every domain accepts the new timestamp within the tick (R76), and what SET_TIMEBASE has
asked for takes effect. -/
def State.tick (s : State) : State :=
  if s.chipReset || s.mgLost then s
  else
    let t := ({ s with now := s.now + 1, sampled := [], timeSets := [] } : State).setWord .TM_TIMESTAMP 0
      (s.word .TM_TIMESTAMP 0 + 1)
    s.timeSets.foldl State.setTime t

end Sys2Proof.Machine
end

