-- ==== Sys2Proof/Safety.lean ====
section
/-! DEFINITION. What a safe step and a safe run are. -/

namespace Sys2Proof.Safety

open Sys2Proof.Machine

/-- What holds of the stores of a sound state, in a run or out of it: the memory and the register file are in canonical
order, and no store of a stated size holds more than it has room for. -/
structure Sound (s : State) : Prop where
  /-- memory is in its canonical form -/
  memory : Memory.wf s.mem = true
  /-- the keys of the register file rise strictly, so that every register has one word -/
  regs : rising s.regs = true
  /-- the event intake holds 64 entries (R388) -/
  events : s.logIntake.length ≤ 64
  /-- the event log holds 4,096 records (R387) -/
  log : s.log.length ≤ 4096
  /-- Alorn's request intake holds 64 requests (R339) -/
  requests : s.alorn.intake.length ≤ 64
  /-- the idempotence cache holds 64 entries (R342) -/
  cache : s.alorn.cache.length ≤ 64
  /-- no crossing FIFO holds more stages than its DEPTH (R66, R67, R69) -/
  fifos : ∀ e ∈ s.fifos, e.1 < 4608 → e.2.stages.length ≤ fifoDepth e.1

/-- Fuses `g` that came from fuses `f` by what a chip's life allows: the same part, no fewer transitions burnt, a
decommissioned part stays decommissioned and a part once provisioned is never blank again (R355, Table 13-11). -/
structure Later (f g : Fuse) : Prop where
  chipId : g.chipId = f.chipId
  cores : g.cores = f.cores
  burnt : f.transitions ≤ g.transitions
  decommissioned : f.lifecycle = LC.DECOMMISSIONED → g.lifecycle = LC.DECOMMISSIONED
  provisioned : f.lifecycle ≠ LC.BLANK → g.lifecycle ≠ LC.BLANK

/-- The stores of the block beside its register file, one name per field of State. -/
inductive Store where
  | pending | now | freeCtr | chipReset | fuse | mem | badWords | softWords | refLostAt | mgLost | lkLost
  | clkStopped | clkSince | sampled | timeSets | coreRst | idleHeld | fabLow | tapState | tapIr | fifos | stackVia
  | hostWait | outWait | turns | links | grants | waits | cmds | stale | rings | holds | parts | fenceDue | tableCorr
  | pulses | slots | mcBufs | merges | rooms | flushGen | nodes | awaitMarker | markers | fibreHold | plumb | copies
  | plumbOut | plumbHeld | hubMiss | hubDown | arrivals | lastColls | sinkRuns | raised | ports | ramps | released
  | tune | planKeys | guard | transitOff | hoPending | hoSince | epochCtl | alorn | wiped | sealStore | logIntake
  | log | readNext | hostRx | hostTags
deriving DecidableEq, Repr

/-- Store `x` holds in `t` what it holds in `s`. -/
def Store.same (x : Store) (s t : State) : Prop :=
  match x with
  | .pending => t.pending = s.pending
  | .now => t.now = s.now
  | .freeCtr => t.freeCtr = s.freeCtr
  | .chipReset => t.chipReset = s.chipReset
  | .fuse => t.fuse = s.fuse
  | .mem => t.mem = s.mem
  | .badWords => t.badWords = s.badWords
  | .softWords => t.softWords = s.softWords
  | .refLostAt => t.refLostAt = s.refLostAt
  | .mgLost => t.mgLost = s.mgLost
  | .lkLost => t.lkLost = s.lkLost
  | .clkStopped => t.clkStopped = s.clkStopped
  | .clkSince => t.clkSince = s.clkSince
  | .sampled => t.sampled = s.sampled
  | .timeSets => t.timeSets = s.timeSets
  | .coreRst => t.coreRst = s.coreRst
  | .idleHeld => t.idleHeld = s.idleHeld
  | .fabLow => t.fabLow = s.fabLow
  | .tapState => t.tapState = s.tapState
  | .tapIr => t.tapIr = s.tapIr
  | .fifos => t.fifos = s.fifos
  | .stackVia => t.stackVia = s.stackVia
  | .hostWait => t.hostWait = s.hostWait
  | .outWait => t.outWait = s.outWait
  | .turns => t.turns = s.turns
  | .links => t.links = s.links
  | .grants => t.grants = s.grants
  | .waits => t.waits = s.waits
  | .cmds => t.cmds = s.cmds
  | .stale => t.stale = s.stale
  | .rings => t.rings = s.rings
  | .holds => t.holds = s.holds
  | .parts => t.parts = s.parts
  | .fenceDue => t.fenceDue = s.fenceDue
  | .tableCorr => t.tableCorr = s.tableCorr
  | .pulses => t.pulses = s.pulses
  | .slots => t.slots = s.slots
  | .mcBufs => t.mcBufs = s.mcBufs
  | .merges => t.merges = s.merges
  | .rooms => t.rooms = s.rooms
  | .flushGen => t.flushGen = s.flushGen
  | .nodes => t.nodes = s.nodes
  | .awaitMarker => t.awaitMarker = s.awaitMarker
  | .markers => t.markers = s.markers
  | .fibreHold => t.fibreHold = s.fibreHold
  | .plumb => t.plumb = s.plumb
  | .copies => t.copies = s.copies
  | .plumbOut => t.plumbOut = s.plumbOut
  | .plumbHeld => t.plumbHeld = s.plumbHeld
  | .hubMiss => t.hubMiss = s.hubMiss
  | .hubDown => t.hubDown = s.hubDown
  | .arrivals => t.arrivals = s.arrivals
  | .lastColls => t.lastColls = s.lastColls
  | .sinkRuns => t.sinkRuns = s.sinkRuns
  | .raised => t.raised = s.raised
  | .ports => t.ports = s.ports
  | .ramps => t.ramps = s.ramps
  | .released => t.released = s.released
  | .tune => t.tune = s.tune
  | .planKeys => t.planKeys = s.planKeys
  | .guard => t.guard = s.guard
  | .transitOff => t.transitOff = s.transitOff
  | .hoPending => t.hoPending = s.hoPending
  | .hoSince => t.hoSince = s.hoSince
  | .epochCtl => t.epochCtl = s.epochCtl
  | .alorn => t.alorn = s.alorn
  | .wiped => t.wiped = s.wiped
  | .sealStore => t.sealStore = s.sealStore
  | .logIntake => t.logIntake = s.logIntake
  | .log => t.log = s.log
  | .readNext => t.readNext = s.readNext
  | .hostRx => t.hostRx = s.hostRx
  | .hostTags => t.hostTags = s.hostTags

/-- What may differ between two states: the registers, by name, and the stores. -/
structure Frame where
  regs : List Reg
  stores : List Store

/-- `t` differs from `s` at most in the registers and stores of `f`: every word of every other register, in both banks,
and every other store are as they were. -/
structure Within (f : Frame) (s t : State) : Prop where
  words : ∀ r, r ∉ f.regs → ∀ n b, b < 2 → t.word r n b = s.word r n b
  stores : ∀ x, x ∉ f.stores → x.same s t

/-- Two fields that share no bit of a register. -/
def apart (f g : Fld) : Bool :=
  decide (f.width ≤ 64) && decide (g.width ≤ 64)
    && (g.reg != f.reg || decide (g.lo + g.width ≤ f.lo) || decide (f.lo + f.width ≤ g.lo))

/-- Event `e` of window `w` and unit `u` with arguments `a` and `b`, raised in `s`, stands in `t`: it enters the intake with
the time of `s`; with 64 entries there it is dropped and counted; without CLK_MG nothing is logged (R382, R388). -/
def Logged (s t : State) (e : Event) (w u a b : Nat) : Prop :=
  if s.mgLost = true then t.logIntake = s.logIntake ∧ t.get F.TM_LOGSTAT_DROPPED 0 = s.get F.TM_LOGSTAT_DROPPED 0
  else if s.logIntake.length < 64 then
    t.logIntake = s.logIntake ++ [⟨e.code, w, e.severity, u, s.word .TM_TIMESTAMP 0, BitVec.ofNat 64 a, BitVec.ofNat 64 b, none,
      false⟩] ∧ t.get F.TM_LOGSTAT_DROPPED 0 = s.get F.TM_LOGSTAT_DROPPED 0
  else t.logIntake = s.logIntake
    ∧ t.get F.TM_LOGSTAT_DROPPED 0 = Nat.min (2 ^ F.TM_LOGSTAT_DROPPED.width - 1) (s.get F.TM_LOGSTAT_DROPPED 0 + 1)

/-- Every field of every register, in both banks, but those of `fs` holds in `t` what it holds in `s`. -/
def FieldsBut (fs : List (Fld × Nat)) (s t : State) : Prop :=
  ∀ g : Fld, g.width ≤ 64 → ∀ n e, e < 2 → (∀ x ∈ fs, apart x.1 g = true ∨ n ≠ x.2) → t.getE e g n = s.getE e g n

/-- Every byte of every memory holds in `t` what it holds in `s`. -/
def SameBytes (s t : State) : Prop := ∀ ep a, t.byteAt ep a = s.byteAt ep a

/-- A step that answers a next state. -/
def Goes (s : State) : Prop := ∃ t, step s = .next t

/-- The states a run of steps from `s` reaches. -/
inductive Reaches : State → State → Prop where
  | refl (s : State) : Reaches s s
  | step (s t u : State) : Reaches s t → Machine.step t = .next u → Reaches s u

/-- A run from `s` is safe for `P` when every state it reaches has `P`. -/
def Always (P : State → Prop) (s : State) : Prop := ∀ t, Reaches s t → P t

end Sys2Proof.Safety
end

