-- ==== Sys2Proof/Certificates/Slice0/Obligations.lean ====
section
/-! DEFINITION. The statements for the provers, each citing the rules of spec/ it formalises, and the words they are
written in. -/

open Sys2Proof Sys2Proof.Machine Sys2Proof.Safety
/-! ### The queue, the clock and the reset -/

/-- A step with a command at the front of the queue is that command's effect on the state with the queue's rest. -/
def Obligations.StepRunsTheFrontCommand : Prop :=
  ∀ (s : State) (c : Instr) (rest : List Instr),
    step { s with pending := c :: rest } = exec c { s with pending := rest }

/-- With no command waiting a step is one tick of 6.4 ns (the model's choice, log entry 5): the elapsed ticks and the timestamp
rise by one, and nothing else changes but what crossed in the tick before (R75) and what SET_TIMEBASE has asked for, which takes
effect at the tick (log entry 56); without CLK_MG (R382) or under an asserted CHIP_RESET (R364) nothing does. -/
def Obligations.IdleStepIsATick : Prop :=
  ∀ s : State, s.pending = [] →
    (s.chipReset = false → s.mgLost = false → s.timeSets = [] → ∃ t, step s = .next t
      ∧ t = { s with now := s.now + 1, sampled := [], regs := t.regs }
      ∧ t.word .TM_TIMESTAMP 0 = s.word .TM_TIMESTAMP 0 + 1 ∧ FieldsBut [(⟨.TM_TIMESTAMP, 0, 64⟩, 0)] s t)
    ∧ (∀ (add : Bool) (v : Word), s.chipReset = false → s.mgLost = false → s.timeSets = [(add, v)] → ∃ t, step s = .next t
      ∧ t.timeSets = [] ∧ t.sampled = [] ∧ t.now = s.now + 1
      ∧ t.word .TM_TIMESTAMP 0 = (if add then s.word .TM_TIMESTAMP 0 + 1 + v else v)
      ∧ FieldsBut [(⟨.TM_TIMESTAMP, 0, 64⟩, 0), (F.TM_LOGSTAT_DROPPED, 0)] s t
      ∧ Logged (({ s with timeSets := [] } : State).tick) t evTimebase 9 0 (s.word .TM_TIMESTAMP 0 + 1).toNat
          (t.word .TM_TIMESTAMP 0).toNat)
    ∧ (s.chipReset = true ∨ s.mgLost = true → step s = .next s)

/-- The state after reset is sound: every store in canonical order and within its size.
Where the rules leave a case to reading, the model's choice is stated: log entries 3 and 4. -/
def Obligations.ResetIsSound : Prop := Sound State.reset

/-- Every step from a sound state, whatever command stands in front, answers a next state that is sound again.
Where the rules leave a case to reading, the model's choice is stated: log entry 4. -/
def Obligations.EveryStepKeepsSound : Prop := ∀ s : State, Sound s → ∃ t, step s = .next t ∧ Sound t

/-- No command reads or changes the queue of those that wait, and no command makes a part another part or gives it back a
stage of its life: the fuses change as LIFECYCLE allows (R355, Table 13-11). -/
def Obligations.CommandsKeepQueueAndPart : Prop :=
  ∀ (c : Instr) (s : State), Sound s → ∃ t, exec c s = .next t ∧ t.pending = s.pending ∧ Later s.fuse t.fuse

/-- While CHIP_RESET is asserted no command but CHIP_RESET and its release has an effect (the model's choice, log entry 7). -/
def Obligations.AssertedResetHoldsTheChip : Prop :=
  ∀ (c : Instr) (s : State), s.chipReset = true → c ≠ .chipReset → c ≠ .chipResetRelease → exec c s = .next s

/-- A chip reset (R362, R364): every register of the chip but NONCE of AL_STATUS takes its Reset value, in both banks,
memory and every other store are as after power-on, and only the fuses, the sealed store and the queue are kept; the
release of CHIP_RESET then lights the lanes of every port (Table 14-2) and does nothing without an asserted reset.
Where the rules leave a case to reading, the model's choice is stated: log entries 3, 7 and 32. -/
def Obligations.ChipResetRestoresEveryReset : Prop :=
  ∀ s : State, (∃ t, exec .chipReset s = .next t
      ∧ t = { State.reset with
              pending := s.pending, fuse := s.fuse, sealStore := s.sealStore, wiped := s.wiped, chipReset := true
              freeCtr := t.freeCtr, regs := t.regs }
      ∧ ∀ (g : Fld) (n e : Nat), e < 2 → apart F.AL_STATUS_NONCE g = true → t.getE e g n = fieldGet (g.reg.resetWord n) g.lo g.width)
    ∧ (∃ t, exec .chipResetRelease s = .next t ∧ t = { s with chipReset := false, regs := t.regs }
      ∧ (∀ r n b, b < 2 → r ≠ .OP_LANEMAP → t.word r n b = s.word r n b)
      ∧ (s.chipReset = false → t = s))

/-- Clocks (R77, R78, R382): CLOCK_STOP marks the domain, counts STOPS and logs CLOCK_STOP with the count (not of domain 16,
whose stop ends the logging too); a stop of CLK_LK takes every port DOWN. CLOCK_START lets the domain run again and logs the
ticks stopped (those of CLK_MG are a free value); a clock that was lost and returns before the mark logs nothing.
CLK_MG_LOST and CLK_LK_LOST have the effects of Table 14-8.
Where the rules leave a case to reading, the model's choice is stated: log entries 32 and 54. -/
def Obligations.ClocksStopAndStart : Prop :=
  ∀ (s : State) (d : Fin 18), s.chipReset = false →
    (s.clockRuns d.val = true → ∃ u, (exec (.clockStop d) s = .next (if d.val = 17 then (({ u with lkLost := true } : State).allDown).flow
        else u))
      ∧ u.clockRuns d.val = false ∧ (∀ k, k ≠ d.val → u.clockRuns k = s.clockRuns k)
      ∧ u.mgLost = (s.mgLost || decide (d.val = 16))
      ∧ u.get F.XB_DOMAIN_STOPS d.val = Nat.min (2 ^ F.XB_DOMAIN_STOPS.width - 1) (s.get F.XB_DOMAIN_STOPS d.val + 1)
      ∧ FieldsBut [(F.XB_DOMAIN_STOPS, d.val), (F.TM_LOGSTAT_DROPPED, 0)] s u ∧ SameBytes s u
      ∧ (d.val ≠ 16 → Logged s u evClockStop 6 d.val
          (Nat.min (2 ^ F.XB_DOMAIN_STOPS.width - 1) (s.get F.XB_DOMAIN_STOPS d.val + 1)) 0))
    ∧ (s.hasEdges d.val = false → ∃ u, (exec (.clockStart d) s = .next (if d.val < 16 then (u.wakeCluster d.val).flow
        else if d.val = 17 then u.wakePorts.flow else u.flow)) ∧ u.hasEdges d.val = true
        ∧ (∀ k, lookup s.clkStopped d.val = some k → d.val ≠ 16 → Logged s u evClockStart 6 d.val (s.now - k) 0)
        ∧ (s.clockRuns d.val = true → u.logIntake = s.logIntake ∧ FieldsBut [] s u)
        ∧ u.mgLost = (s.mgLost && decide (d.val ≠ 16)) ∧ u.lkLost = (s.lkLost && decide (d.val ≠ 17))
        ∧ FieldsBut [(F.TM_LOGSTAT_DROPPED, 0)] s u ∧ SameBytes s u)
    ∧ (∃ t, exec .clkMgLost s = .next t ∧ t = { s with mgLost := true, freeCtr := t.freeCtr, pulses := t.pulses }
      ∧ (s.mgLost = true → t = s))
    ∧ exec .clkLkLost s = .next (({ s with lkLost := true } : State).allDown).flow

/-- The corner monitor (Table 2-7, R58, R381): THROTTLE and THROTTLED follow the input, and a measurement writes VDD, TEMP and
SPEED, sets HOT above 105 °C and judges the supply while THROTTLE is released. -/
def Claims.CornerMonitorFollows : Prop :=
  ∀ s : State, s.chipReset = false →
    (s.flag F.TM_FABCORNER_THROTTLE = false → ∃ t, exec .throttleAssert s = .next t
      ∧ t.get F.TM_FABCORNER_THROTTLE = 1 ∧ t.get F.TM_FABCORNER_THROTTLED = 1
      ∧ FieldsBut [(F.TM_FABCORNER_THROTTLE, 0), (F.TM_FABCORNER_THROTTLED, 0), (F.TM_LOGSTAT_DROPPED, 0)] s t)
    ∧ (s.flag F.TM_FABCORNER_THROTTLE = true → ∃ t, exec .throttleRelease s = .next t
      ∧ t.get F.TM_FABCORNER_THROTTLE = 0 ∧ t.get F.TM_FABCORNER_THROTTLED = s.get F.TM_FABCORNER_THROTTLED
      ∧ FieldsBut [(F.TM_FABCORNER_THROTTLE, 0), (F.TM_LOGSTAT_DROPPED, 0)] s t)
    ∧ (∀ (vdd temp : BitVec 12) (speed : BitVec 16), s.mgLost = false → ∃ t, exec (.fabricMeasurement vdd temp speed) s = .next t
      ∧ t.get F.TM_FABCORNER_VDD = vdd.toNat ∧ t.get F.TM_FABCORNER_TEMP = temp.toNat ∧ t.get F.TM_FABCORNER_SPEED = speed.toNat
      ∧ t.get F.TM_FABCORNER_HOT = (if (420 : Int) < temp.toInt then 1 else 0)
      ∧ (s.flag F.TM_FABCORNER_THROTTLE = false →
          t.get F.TM_FABCORNER_THROTTLED = (if vdd.toNat < 680 then 1 else 0)
          ∧ t.get F.TM_FABCORNER_LOWV = (if vdd.toNat < 680 then 1 else s.get F.TM_FABCORNER_LOWV))
      ∧ (s.flag F.TM_FABCORNER_THROTTLE = true → t.get F.TM_FABCORNER_THROTTLED = s.get F.TM_FABCORNER_THROTTLED
          ∧ t.get F.TM_FABCORNER_LOWV = s.get F.TM_FABCORNER_LOWV)
      ∧ t.fabLow = decide (vdd.toNat < 600)
      ∧ t.get F.TM_FABCORNER_THROTTLE = s.get F.TM_FABCORNER_THROTTLE)

/-- The rack reference (R382): its loss and its return are noted and logged, the return with the ticks held over. -/
def Claims.ReferenceLossIsLogged : Prop :=
  ∀ s : State, s.chipReset = false →
    (s.refLostAt = none → ∃ t, exec .refLost s = .next t ∧ t.refLostAt = some s.now ∧ Logged s t evRefLost 10 0 0 0
      ∧ FieldsBut [(F.TM_LOGSTAT_DROPPED, 0)] s t)
    ∧ (∀ k, s.refLostAt = some k → ∃ t, exec .refBack s = .next t ∧ t.refLostAt = none
      ∧ Logged s t evRefBack 10 0 (s.now - k) 0 ∧ FieldsBut [(F.TM_LOGSTAT_DROPPED, 0)] s t)

/-- The tamper input and the glitch detector wipe the whole sealed store and log the cause (R358). -/
def Claims.TamperWipesTheSealedStore : Prop :=
  ∀ s : State, s.chipReset = false →
    (∃ t, exec .tamperInput s = .next t ∧ t.sealStore = [] ∧ t.wiped = true ∧ Logged s t evSealWiped 9 0 0 0
      ∧ FieldsBut [(F.TM_LOGSTAT_DROPPED, 0)] s t)
    ∧ (∃ t, exec .glitchDetectorTrip s = .next t ∧ t.sealStore = [] ∧ t.wiped = true ∧ Logged s t evSealWiped 9 0 1 0
      ∧ FieldsBut [(F.TM_LOGSTAT_DROPPED, 0)] s t)

/-- Resets that reach a part of the chip (R362, R365): a core port held in reset drops its commands, and its registers of
Table 14-1 take their Reset values while CP_QBASE and CP_RINGTAB stay; its release, once the out FIFOs have released their complete
packets (R81), leaves its FIFOs empty; the host-bridge reset clears the mailbox; the test-logic reset changes the TAP controller
alone; the multi-bit overrun of a domain that has edges sets its flag and the value of the tick before stays in use (R75).
Where the rules leave a case to reading, the model's choice is stated: log entries 3, 32, 55 and 58. -/
def Obligations.PartialResetsReachTheirParts : Prop :=
  ∀ s : State, s.chipReset = false →
    (∀ i : Fin 256, s.present i.val = true → s.coreRst.contains i.val = false → ∃ u : State, exec (.coreReset i) s = .next u.flow
      ∧ u.coreRst.contains i.val = true ∧ (∀ c ∈ u.cmds, c.core ≠ i.val)
      ∧ (∀ q, q < 16 → u.word .CP_QTAIL (qCopy i.val q) = Reg.CP_QTAIL.resetWord (qCopy i.val q)
          ∧ u.word .CP_QCTL (qCopy i.val q) = Reg.CP_QCTL.resetWord (qCopy i.val q)
          ∧ u.word .CP_QSTAT (qCopy i.val q) = Reg.CP_QSTAT.resetWord (qCopy i.val q))
      ∧ (∀ k, k < 64 → u.word .CP_EVCNT (evCopy i.val k) = Reg.CP_EVCNT.resetWord (evCopy i.val k))
      ∧ (∀ n b, b < 2 → u.word .CP_QBASE n b = s.word .CP_QBASE n b ∧ u.word .CP_RINGTAB n b = s.word .CP_RINGTAB n b))
    ∧ (∀ i : Fin 256, s.coreRst.contains i.val = true →
      ((∀ k ∈ [0, 2, 4], (s.fifo (coreFifo i.val k)).stages = []) → ∃ u, exec (.coreResetRelease i) s = .next u.flow
        ∧ u.coreRst.contains i.val = false ∧ (∀ k, k < 6 → (u.fifo (coreFifo i.val k)).stages = []) ∧ FieldsBut [] s u)
      ∧ ((∃ k ∈ [0, 2, 4], (s.fifo (coreFifo i.val k)).stages ≠ []) → exec (.coreResetRelease i) s = .next s))
    ∧ (∃ u, exec .hostBridgeReset s = .next u.flow ∧ u.hostRx = [] ∧ u.word .AL_MBCTL 0 = Reg.AL_MBCTL.resetWord 0
      ∧ u.word .AL_MBREQ 0 = Reg.AL_MBREQ.resetWord 0 ∧ u.word .AL_MBRSP 0 = Reg.AL_MBRSP.resetWord 0 ∧ SameBytes s u)
    ∧ (∃ t, exec .testLogicReset s = .next t ∧ t = { s with tapState := 0, tapIr := 0 })
    ∧ (∀ d : Fin 18, (s.hasEdges d.val = true → ∃ t, exec (.multiOvr d) s = .next t ∧ t.get F.XB_DOMAIN_MULTI_OVR d.val = 1
        ∧ lookup t.sampled d.val = some ((lookup s.sampled d.val).getD (s.word .TM_TIMESTAMP 0 - 1))
        ∧ FieldsBut [(F.XB_DOMAIN_MULTI_OVR, d.val)] s t ∧ SameBytes s t)
      ∧ (s.hasEdges d.val = false → exec (.multiOvr d) s = .next s))


/-! ### Frames -/

/-- The registers that the departure of waiting packets and the completion of their commands may change. -/
def Claims.flowRegs : List Reg := [.XB_FIFO, .OP_EGWIN, .RK_FLOWSEQ, .CP_QSTAT, .CP_EVCNT, .CP_ERRCNT, .CP_AMSTAT, .CP_BANKERR,
  .SP_ERRCNT]

/-- The stores that the departure of waiting packets and the completion of their commands may change. -/
def Claims.flowStores : List Store := [.mem, .badWords, .softWords, .fifos, .outWait, .turns, .cmds, .stale, .holds, .rooms]

/-- When `c` answers a next state, that state differs from the one before at most in registers `rs` and stores `xs`. -/
def Claims.Only (rs : List Reg) (xs : List Store) (c : Instr) : Prop := ∀ s t, exec c s = .next t → Within ⟨rs, xs⟩ s t

/-- When `c` answers a next state, registers `rs` and stores `xs` hold in it what they held before. -/
def Claims.Leaves (rs : List Reg) (xs : List Store) (c : Instr) : Prop :=
  ∀ s t, exec c s = .next t → (∀ r ∈ rs, ∀ n b, b < 2 → t.word r n b = s.word r n b) ∧ ∀ x ∈ xs, x.same s t

/-- Letting waiting packets go and completing what they belong to changes these registers and stores alone.
Where the rules leave a case to reading, the model's choice is stated: log entry 13. -/
def Obligations.FlowChangesItsOwnAlone : Prop := ∀ s : State, Within ⟨Claims.flowRegs, Claims.flowStores⟩ s s.flow

/-- What resets, clocks and the corner monitor leave unchanged (R362, R382 and Tables 14-2 and 14-8). -/
def Claims.FramesOfResetsAndClocks : Prop :=
    (∀ a, Claims.Leaves [.RK_CENSUS, .RQ_ARBRANK, .RP_ARBRANK, .RQ_ARBWAIT, .RP_ARBWAIT, .TM_FABCORNER, .RQ_LINKERR,
      .RP_LINKERR, .XB_DOMAIN, .RK_PARTJOB, .RK_RANKMAP, .RK_ATTACHSEL, .RK_CHIPROUTE, .RK_RINGPLAN, .RK_TRANSIT,
      .RK_FLOWCTX, .RK_FLOWVAL, .CP_QBASE, .CP_RINGTAB, .CP_AMCHAN, .CP_AMCREDIT, .CP_AMSENDS, .SC_TREE, .SC_TREERES,
      .SC_PORTTREE, .SC_PORTBEYOND, .RK_GROUP, .RK_GROUPAUX, .PL_GROUP, .PL_MEMBERS, .TM_SLOWEST, .TM_SLOWHIST,
      .OP_PORTSTATE, .OP_PORTCTL, .OP_PLAN, .OP_PEERID, .OP_LINKDELAY, .OP_LINKERR, .OP_CREDIT, .OP_LANEMAP, .OP_LASER,
      .RK_STENCIL, .AL_STATUS, .AL_LOCK, .AL_ERRCNT, .AL_GUARD, .AL_MBCTL, .AL_MBREQ, .AL_MBRSP, .RK_COORDS, .TM_VLCOUNT,
      .TM_CPFLITS, .TM_TIMESTAMP] [.pending, .now, .chipReset, .fuse, .refLostAt, .mgLost, .lkLost, .clkStopped, .clkSince,
      .sampled, .timeSets, .fabLow, .tapState, .tapIr, .stackVia, .hostWait, .links, .grants, .waits, .parts, .tableCorr,
      .pulses, .mcBufs, .merges, .hubMiss, .hubDown, .ramps, .tune, .planKeys, .guard, .transitOff, .wiped, .sealStore, .log,
      .readNext, .hostRx, .hostTags] (.coreReset a)) ∧
    (∀ a, Claims.Only Claims.flowRegs (Claims.flowStores ++ [.coreRst]) (.coreResetRelease a)) ∧
    (Claims.Only (Claims.flowRegs ++ [.XB_ERRORS, .AL_LOCK, .AL_MBCTL, .AL_MBREQ, .AL_MBRSP, .TM_LOGSTAT]) (Claims.flowStores
      ++ [.hostWait, .alorn, .logIntake, .hostRx, .hostTags]) .hostBridgeReset) ∧
    (Claims.Only [] [.tapState, .tapIr] .testLogicReset) ∧
    (Claims.Only [.TM_FABCORNER, .TM_LOGSTAT] [.logIntake] .throttleAssert) ∧
    (Claims.Only [.TM_FABCORNER, .TM_LOGSTAT] [.logIntake] .throttleRelease) ∧
    (∀ a b c, Claims.Only [.TM_FABCORNER, .TM_LOGSTAT] [.fabLow, .logIntake] (.fabricMeasurement a b c)) ∧
    (Claims.Only [.TM_LOGSTAT] [.wiped, .sealStore, .logIntake] .tamperInput) ∧
    (Claims.Only [.TM_LOGSTAT] [.wiped, .sealStore, .logIntake] .glitchDetectorTrip) ∧
    (Claims.Only [.TM_LOGSTAT] [.refLostAt, .logIntake] .refLost) ∧
    (Claims.Only [.TM_LOGSTAT] [.refLostAt, .logIntake] .refBack) ∧
    (Claims.Leaves [.RK_CENSUS, .RQ_ARBWAIT, .RP_ARBWAIT, .TM_FABCORNER, .RQ_LINKERR, .RP_LINKERR, .RK_PARTJOB, .RK_FLOWCTX,
      .RK_FLOWVAL, .CP_QCTL, .CP_QBASE, .CP_QTAIL, .CP_RINGTAB, .CP_RINGCTL, .CP_RINGERR, .CP_AMCHAN, .CP_AMCREDIT,
      .CP_AMSENDS, .CP_BANKOWN, .SP_BANKOWN, .CP_HANDOVER, .RK_HANDOVER, .TM_SLOWEST, .TM_SLOWHIST, .OP_LINKERR, .OP_CREDIT,
      .OP_LASER, .AL_STATUS, .AL_ERRCNT, .AL_GUARD, .AL_MBREQ, .RK_COORDS, .TM_VLCOUNT, .TM_CPFLITS, .TM_TIMESTAMP]
      [.pending, .now, .chipReset, .fuse, .refLostAt, .mgLost, .clkStopped, .clkSince, .sampled, .timeSets, .coreRst,
      .idleHeld, .fabLow, .tapState, .tapIr, .stackVia, .hostWait, .links, .rings, .parts, .fenceDue, .tableCorr, .hubMiss,
      .hubDown, .ramps, .hoPending, .hoSince, .wiped, .log, .readNext, .hostRx, .hostTags] .clkLkLost) ∧
    (Claims.Only [] [.freeCtr, .mgLost, .pulses] .clkMgLost) ∧
    (∀ a, Claims.Leaves [.RK_CENSUS, .RQ_ARBWAIT, .RP_ARBWAIT, .TM_FABCORNER, .RQ_LINKERR, .RP_LINKERR, .RK_PARTJOB,
      .RK_FLOWCTX, .RK_FLOWVAL, .CP_QCTL, .CP_QBASE, .CP_QTAIL, .CP_RINGTAB, .CP_RINGCTL, .CP_RINGERR, .CP_AMCHAN,
      .CP_AMCREDIT, .CP_AMSENDS, .CP_BANKOWN, .SP_BANKOWN, .CP_HANDOVER, .RK_HANDOVER, .TM_SLOWEST, .TM_SLOWHIST,
      .OP_LINKERR, .OP_CREDIT, .OP_LASER, .AL_STATUS, .AL_ERRCNT, .AL_GUARD, .AL_MBREQ, .RK_COORDS, .TM_VLCOUNT, .TM_CPFLITS,
      .TM_TIMESTAMP] [.pending, .now, .chipReset, .fuse, .refLostAt, .clkSince, .sampled, .timeSets, .coreRst, .fabLow,
      .tapState, .tapIr, .stackVia, .hostWait, .links, .rings, .parts, .fenceDue, .tableCorr, .hubMiss, .hubDown, .ramps,
      .hoPending, .hoSince, .wiped, .log, .readNext, .hostRx, .hostTags] (.clockStop a)) ∧
    (∀ a, Claims.Leaves [.RK_CENSUS, .RQ_ARBRANK, .RP_ARBRANK, .RQ_ARBWAIT, .RP_ARBWAIT, .TM_FABCORNER, .RQ_LINKERR,
      .RP_LINKERR, .XB_DOMAIN, .RK_PARTJOB, .RK_RANKMAP, .RK_ATTACHSEL, .RK_CHIPROUTE, .RK_RINGPLAN, .RK_TRANSIT,
      .RK_FLOWCTX, .CP_QCTL, .CP_QBASE, .CP_QTAIL, .CP_RINGTAB, .CP_RINGCTL, .CP_AMCHAN, .CP_AMCREDIT, .CP_AMSENDS,
      .CP_BANKOWN, .SP_BANKOWN, .CP_HANDOVER, .RK_HANDOVER, .SC_TREE, .SC_TREERES, .SC_PORTTREE, .SC_PORTBEYOND, .RK_GROUP,
      .RK_GROUPAUX, .PL_GROUP, .PL_MEMBERS, .TM_SLOWEST, .TM_SLOWHIST, .OP_PORTSTATE, .OP_PORTCTL, .OP_PLAN, .OP_PEERID,
      .OP_LINKDELAY, .OP_LINKERR, .OP_CREDIT, .OP_LANEMAP, .OP_LASER, .RK_STENCIL, .AL_STATUS, .AL_LOCK, .AL_ERRCNT,
      .AL_GUARD, .AL_MBCTL, .AL_MBREQ, .AL_MBRSP, .RK_COORDS, .TM_VLCOUNT, .TM_CPFLITS, .TM_TIMESTAMP] [.pending, .now,
      .chipReset, .fuse, .refLostAt, .sampled, .timeSets, .coreRst, .fabLow, .tapState, .tapIr, .stackVia, .hostWait, .links,
      .grants, .waits, .parts, .tableCorr, .mcBufs, .merges, .hubDown, .ramps, .tune, .planKeys, .guard, .transitOff,
      .hoPending, .hoSince, .wiped, .sealStore, .log, .readNext, .hostRx, .hostTags] (.clockStart a)) ∧
    (Claims.Only [.OP_LANEMAP] [.chipReset, .ports] .chipResetRelease) ∧
    (∀ a, Claims.Only [.XB_DOMAIN] [.sampled] (.multiOvr a))

/-- What crossing FIFOs, links, routers and arbiters leave unchanged (chapters 2 to 4). -/
def Claims.FramesOfTheMesh : Prop :=
    (∀ a b, Claims.Only [.XB_DOMAIN, .XB_ERRORS, .XB_FIFO, .OP_EGWIN, .CP_ERRAUX, .SP_PKTERR, .OP_ERRCNT, .RK_EPOCH,
      .AL_EPERR, .TM_LOGSTAT] [.freeCtr, .fifos, .hostWait, .logIntake, .hostRx, .hostTags] (.fifoWrite a b)) ∧
    (∀ a, Claims.Only [.XB_ERRORS] [.fifos] (.fifoRead a)) ∧
    (∀ a b, Claims.Only (Claims.flowRegs ++ [.XB_ERRORS, .PL_ERRCNT, .TM_CPFLITS, .TM_LOGSTAT]) (Claims.flowStores ++
      [.freeCtr, .links, .grants, .plumb, .copies, .plumbOut, .plumbHeld, .hubMiss, .lastColls, .ports, .logIntake])
      (.inFifoAdmit a b)) ∧
    (∀ a b, Claims.Only (Claims.flowRegs ++ [.RQ_LINKERR, .RP_LINKERR, .XB_ERRORS, .SP_PKTERR, .TM_CPFLITS])
      (Claims.flowStores ++ [.freeCtr, .links]) (.linkHandshake a b)) ∧
    (∀ a b c d, Claims.Only (Claims.flowRegs ++ [.XB_ERRORS, .TM_CPFLITS]) (Claims.flowStores ++ [.links, .grants, .waits])
      (.routerHeaderArrival a b c d)) ∧
    (∀ a b c, Claims.Only [.RQ_ARBWAIT, .RP_ARBWAIT, .XB_FIFO, .OP_EGWIN, .CP_ERRAUX, .SP_PKTERR, .SC_SLOTSTAT, .OP_ERRCNT,
      .AL_EPERR, .TM_LOGSTAT] [.freeCtr, .fifos, .outWait, .turns, .grants, .waits, .slots, .mcBufs, .rooms, .fibreHold,
      .ports, .released, .logIntake] (.arbiterGrant a b c))

/-- Registers that putArrival and its like may change. -/
def Claims.arrivalRegs : List Reg := [.XB_ERRORS, .RK_FLOWVAL, .CP_ERRAUX, .CP_RINGERR, .SP_PKTERR, .OP_ERRCNT, .AL_EPERR,
  .TM_LOGSTAT]

/-- Stores that putArrival and its like may change. -/
def Claims.arrivalStores : List Store := [.freeCtr, .stackVia, .links, .grants, .rings, .logIntake, .hostRx]

/-- Registers that atomAddArrival and its like may change. -/
def Claims.answeredRegs : List Reg := [.XB_ERRORS, .RK_FLOWVAL, .CP_ERRAUX, .CP_RINGERR, .SP_PKTERR, .OP_ERRCNT, .AL_EPERR,
  .TM_LOGSTAT]

/-- Stores that atomAddArrival and its like may change. -/
def Claims.answeredStores : List Store := [.freeCtr, .stackVia, .links, .grants, .rings, .logIntake]

/-- Registers that getRspArrival and its like may change. -/
def Claims.replyRegs : List Reg := [.XB_ERRORS, .CP_ERRAUX, .CP_RINGERR, .SP_PKTERR, .OP_ERRCNT, .AL_EPERR, .TM_LOGSTAT]

/-- Stores that getRspArrival and its like may change. -/
def Claims.replyStores : List Store := [.freeCtr, .stackVia, .links, .grants, .rings, .logIntake, .hostRx, .hostTags]

/-- What packets that reach an endpoint leave unchanged (chapters 6 to 8). -/
def Claims.FramesOfArrivals : Prop :=
    (∀ a b, Claims.Only (Claims.flowRegs ++ Claims.arrivalRegs) (Claims.flowStores ++ Claims.arrivalStores) (.putArrival a
      b)) ∧
    (∀ a b, Claims.Only (Claims.flowRegs ++ [.XB_ERRORS, .CP_ERRAUX, .CP_RINGERR, .SP_PKTERR, .OP_ERRCNT, .AL_EPERR,
      .TM_LOGSTAT]) (Claims.flowStores ++ [.freeCtr, .stackVia, .links, .grants, .rings, .logIntake]) (.putMcArrival a b)) ∧
    (∀ a b, Claims.Only (Claims.flowRegs ++ Claims.arrivalRegs) (Claims.flowStores ++ Claims.arrivalStores) (.getReqArrival a
      b)) ∧
    (∀ a b, Claims.Only (Claims.flowRegs ++ Claims.answeredRegs) (Claims.flowStores ++ Claims.answeredStores)
      (.atomAddArrival a b)) ∧
    (∀ a b, Claims.Only (Claims.flowRegs ++ Claims.answeredRegs) (Claims.flowStores ++ Claims.answeredStores)
      (.atomSwapArrival a b)) ∧
    (∀ a b, Claims.Only (Claims.flowRegs ++ Claims.answeredRegs) (Claims.flowStores ++ Claims.answeredStores) (.signalArrival
      a b)) ∧
    (∀ a b, Claims.Only (Claims.flowRegs ++ Claims.answeredRegs) (Claims.flowStores ++ Claims.answeredStores) (.amArrival a
      b)) ∧
    (∀ a b, Claims.Only (Claims.flowRegs ++ [.XB_ERRORS, .CP_ERRAUX, .SP_PKTERR, .OP_ERRCNT, .AL_EPERR, .TM_LOGSTAT])
      (Claims.flowStores ++ [.freeCtr, .stackVia, .links, .grants, .lastColls, .logIntake]) (.redDownArrival a b)) ∧
    (∀ a b, Claims.Only (Claims.flowRegs ++ [.XB_ERRORS, .SP_PKTERR, .OP_ERRCNT, .AL_EPERR, .TM_LOGSTAT]) (Claims.flowStores
      ++ [.freeCtr, .stackVia, .links, .grants, .sinkRuns, .logIntake]) (.stackSinkRedDown a b)) ∧
    (∀ a b, Claims.Only (Claims.flowRegs ++ Claims.replyRegs) (Claims.flowStores ++ Claims.replyStores) (.getRspArrival a b)) ∧
    (∀ a b, Claims.Only (Claims.flowRegs ++ Claims.replyRegs) (Claims.flowStores ++ Claims.replyStores) (.atomRspArrival a
      b)) ∧
    (∀ a b, Claims.Only (Claims.flowRegs ++ Claims.replyRegs) (Claims.flowStores ++ Claims.replyStores) (.ackArrival a b)) ∧
    (∀ a b, Claims.Only (Claims.flowRegs ++ Claims.replyRegs) (Claims.flowStores ++ Claims.replyStores) (.nackArrival a b)) ∧
    (∀ a b, Claims.Only (Claims.flowRegs ++ Claims.replyRegs) (Claims.flowStores ++ Claims.replyStores) (.amReplyArrival a
      b)) ∧
    (∀ a b, Claims.Only (Claims.flowRegs ++ [.XB_ERRORS, .RK_FLOWVAL, .CP_ERRAUX, .CP_RINGERR, .SP_PKTERR, .OP_ERRCNT,
      .AL_ERRCNT, .AL_MBCTL, .AL_MBRSP, .AL_EPERR, .TM_LOGSTAT]) (Claims.flowStores ++ [.freeCtr, .stackVia, .links, .grants,
      .rings, .alorn, .logIntake, .hostRx, .hostTags]) (.mgmtArrival a b)) ∧
    (Claims.Only (Claims.flowRegs ++ [.XB_ERRORS, .CP_ERRAUX, .SP_PKTERR, .OP_ERRCNT, .AL_EPERR, .TM_LOGSTAT])
      (Claims.flowStores ++ [.freeCtr, .logIntake]) .hostDrainExpiry)

/-- Registers that portIngress and its like leave unchanged. -/
def Claims.portIngressRegs : List Reg := [.RK_CENSUS, .RQ_ARBWAIT, .RP_ARBWAIT, .TM_FABCORNER, .RQ_LINKERR, .RP_LINKERR,
  .RK_PARTJOB, .RK_FLOWCTX, .RK_FLOWVAL, .CP_QCTL, .CP_QBASE, .CP_QTAIL, .CP_RINGTAB, .CP_RINGCTL, .CP_RINGERR, .CP_AMCHAN,
  .CP_AMCREDIT, .CP_AMSENDS, .CP_BANKOWN, .SP_BANKOWN, .CP_HANDOVER, .RK_HANDOVER, .TM_SLOWEST, .TM_SLOWHIST, .OP_LINKERR,
  .OP_LASER, .AL_STATUS, .AL_ERRCNT, .AL_GUARD, .AL_MBREQ, .RK_COORDS, .TM_VLCOUNT, .TM_CPFLITS, .TM_TIMESTAMP]

/-- Stores that portIngress and its like leave unchanged. -/
def Claims.portIngressStores : List Store := [.pending, .now, .chipReset, .fuse, .refLostAt, .mgLost, .lkLost, .clkStopped,
  .clkSince, .sampled, .timeSets, .coreRst, .idleHeld, .fabLow, .tapState, .tapIr, .stackVia, .hostWait, .links, .rings,
  .parts, .fenceDue, .tableCorr, .hubMiss, .hubDown, .ramps, .hoPending, .hoSince, .wiped, .log, .readNext, .hostRx,
  .hostTags]

/-- What packets, parcels and control messages of an optical port leave unchanged (chapters 5 and 11). -/
def Claims.FramesOfPortPackets : Prop :=
    (∀ a b c, Claims.Only (Claims.flowRegs ++ [.XB_ERRORS, .CP_ERRAUX, .SP_PKTERR, .OP_ERRCNT, .AL_EPERR, .TM_LOGSTAT])
      (Claims.flowStores ++ [.freeCtr, .stackVia, .links, .grants, .ports, .released, .logIntake]) (.portEgress a b c)) ∧
    (∀ a b c, Claims.Leaves Claims.portIngressRegs Claims.portIngressStores (.portIngress a b c)) ∧
    (∀ a b, Claims.Only (Claims.flowRegs ++ [.XB_ERRORS, .OP_ERRCNT]) (Claims.flowStores ++ [.stackVia, .links, .grants,
      .ports, .released]) (.mgmtRelayAtPort a b)) ∧
    (∀ a b c, Claims.Only Claims.flowRegs (Claims.flowStores ++ [.released]) (.windowRelease a b c)) ∧
    (∀ a b, Claims.Only [.RK_TRANSIT, .OP_CREDIT] [.ports, .released] (.stagingDeparture a b)) ∧
    (∀ a b, Claims.Leaves Claims.portIngressRegs Claims.portIngressStores (.poolForward a b)) ∧
    (∀ a, Claims.Only [.TM_VLCOUNT] [.freeCtr, .ports] (.parcelSend a)) ∧
    (∀ a b c, Claims.Leaves [.RK_CENSUS, .RQ_ARBWAIT, .RP_ARBWAIT, .TM_FABCORNER, .RQ_LINKERR, .RP_LINKERR, .RK_PARTJOB,
      .RK_FLOWCTX, .RK_FLOWVAL, .CP_QCTL, .CP_QBASE, .CP_QTAIL, .CP_RINGTAB, .CP_RINGCTL, .CP_RINGERR, .CP_AMCHAN,
      .CP_AMCREDIT, .CP_AMSENDS, .CP_BANKOWN, .SP_BANKOWN, .CP_HANDOVER, .RK_HANDOVER, .TM_SLOWEST, .TM_SLOWHIST, .OP_LASER,
      .AL_STATUS, .AL_ERRCNT, .AL_GUARD, .AL_MBREQ, .RK_COORDS, .TM_CPFLITS, .TM_TIMESTAMP] [.pending, .now, .chipReset,
      .fuse, .refLostAt, .mgLost, .lkLost, .clkStopped, .clkSince, .sampled, .timeSets, .coreRst, .idleHeld, .fabLow,
      .tapState, .tapIr, .stackVia, .hostWait, .links, .rings, .parts, .fenceDue, .tableCorr, .hubMiss, .hubDown, .ramps,
      .hoPending, .hoSince, .wiped, .log, .readNext, .hostRx, .hostTags] (.parcelReceive a b c)) ∧
    (∀ a, Claims.Only [.OP_LINKERR] [.ports] (.linkRetryExpiry a)) ∧
    (∀ a b, Claims.Only [] [.freeCtr, .ports] (.delayProbe a b)) ∧
    (∀ a b, Claims.Only [.OP_LINKDELAY] [.freeCtr, .ports] (.delayEcho a b)) ∧
    (∀ a b, Claims.Only [] [.ports] (.patchReq a b)) ∧
    (∀ a, Claims.Only [.OP_ERRCNT, .OP_LANEMAP, .TM_LOGSTAT] [.ports, .logIntake] (.patchApply a)) ∧
    (∀ a b, Claims.Only [.TM_LOGSTAT] [.freeCtr, .ports, .sealStore, .logIntake] (.controlRepeatExpiry a b)) ∧
    (∀ a, Claims.Only [] [.ports] (.delayPeriodExpiry a))

/-- Registers that ackStall and its like leave unchanged. -/
def Claims.portRegs : List Reg := [.RK_CENSUS, .RQ_ARBWAIT, .RP_ARBWAIT, .TM_FABCORNER, .RQ_LINKERR, .RP_LINKERR,
  .RK_PARTJOB, .RK_FLOWCTX, .RK_FLOWVAL, .CP_QCTL, .CP_QBASE, .CP_QTAIL, .CP_RINGTAB, .CP_RINGCTL, .CP_RINGERR, .CP_AMCHAN,
  .CP_AMCREDIT, .CP_AMSENDS, .CP_BANKOWN, .SP_BANKOWN, .CP_HANDOVER, .RK_HANDOVER, .TM_SLOWEST, .TM_SLOWHIST, .OP_LINKERR,
  .OP_CREDIT, .OP_LASER, .AL_STATUS, .AL_ERRCNT, .AL_GUARD, .AL_MBREQ, .RK_COORDS, .TM_VLCOUNT, .TM_CPFLITS, .TM_TIMESTAMP]

/-- Stores that ackStall and its like leave unchanged. -/
def Claims.portStores : List Store := [.pending, .now, .chipReset, .fuse, .refLostAt, .mgLost, .lkLost, .clkStopped,
  .clkSince, .sampled, .timeSets, .coreRst, .idleHeld, .fabLow, .tapState, .tapIr, .stackVia, .hostWait, .links, .rings,
  .parts, .fenceDue, .tableCorr, .hubMiss, .hubDown, .ramps, .hoPending, .hoSince, .wiped, .log, .readNext, .hostRx,
  .hostTags]

/-- What commands that may move a port leave unchanged (chapter 11). -/
def Claims.FramesOfPortStates : Prop :=
    (∀ a, Claims.Leaves Claims.portRegs Claims.portStores (.ackStall a)) ∧
    (∀ a b c, Claims.Leaves Claims.portRegs Claims.portStores (.alignmentBlockReceive a b c)) ∧
    (∀ a, Claims.Leaves Claims.portRegs Claims.portStores (.lightDetected a)) ∧
    (∀ a, Claims.Leaves Claims.portRegs Claims.portStores (.lightLost a)) ∧
    (∀ a b, Claims.Leaves Claims.portRegs Claims.portStores (.lossOfSignal a b)) ∧
    (∀ a, Claims.Leaves Claims.portRegs Claims.portStores (.retrainExpiry a)) ∧
    (∀ a, Claims.Leaves Claims.portRegs Claims.portStores (.keyTimeoutExpiry a)) ∧
    (∀ a, Claims.Leaves Claims.portRegs Claims.portStores (.drainComplete a)) ∧
    (∀ a, Claims.Leaves Claims.portRegs Claims.portStores (.drainLimitExpiry a)) ∧
    (∀ a b, Claims.Leaves Claims.portRegs Claims.portStores (.downHoldExpiry a b)) ∧
    (∀ a b, Claims.Leaves Claims.portIngressRegs Claims.portIngressStores (.keyOffer a b)) ∧
    (∀ a b, Claims.Leaves Claims.portIngressRegs Claims.portIngressStores (.keyResult a b)) ∧
    (∀ a, Claims.Leaves Claims.portRegs Claims.portStores (.portOpen a)) ∧
    (∀ a, Claims.Leaves Claims.portRegs Claims.portStores (.portClose a)) ∧
    (∀ a b, Claims.Leaves Claims.portRegs Claims.portStores (.laneSignalLost a b)) ∧
    (∀ a b c, Claims.Leaves Claims.portRegs Claims.portStores (.serWindowExpiry a b c)) ∧
    (∀ a, Claims.Leaves Claims.portRegs Claims.portStores (.patchFail a))

/-- Registers that laserSlotRemoved and its like leave unchanged. -/
def Claims.laserSlotRemovedRegs : List Reg := [.RK_CENSUS, .RQ_ARBWAIT, .RP_ARBWAIT, .TM_FABCORNER, .RQ_LINKERR, .RP_LINKERR,
  .RK_PARTJOB, .RK_FLOWCTX, .RK_FLOWVAL, .CP_QCTL, .CP_QBASE, .CP_QTAIL, .CP_RINGTAB, .CP_RINGCTL, .CP_RINGERR, .CP_AMCHAN,
  .CP_AMCREDIT, .CP_AMSENDS, .CP_BANKOWN, .SP_BANKOWN, .CP_HANDOVER, .RK_HANDOVER, .TM_SLOWEST, .TM_SLOWHIST, .OP_LINKERR,
  .OP_CREDIT, .AL_STATUS, .AL_ERRCNT, .AL_GUARD, .AL_MBREQ, .RK_COORDS, .TM_VLCOUNT, .TM_CPFLITS, .TM_TIMESTAMP]

/-- Stores that laserSlotRemoved and its like leave unchanged. -/
def Claims.laserSlotRemovedStores : List Store := [.pending, .now, .chipReset, .fuse, .refLostAt, .mgLost, .lkLost,
  .clkStopped, .clkSince, .sampled, .timeSets, .coreRst, .idleHeld, .fabLow, .tapState, .tapIr, .stackVia, .hostWait, .links,
  .rings, .parts, .fenceDue, .tableCorr, .hubMiss, .hubDown, .hoPending, .hoSince, .wiped, .log, .readNext, .hostRx,
  .hostTags]

/-- What lasers and light leave unchanged (chapter 11). -/
def Claims.FramesOfLasers : Prop :=
    (∀ a, Claims.Leaves Claims.laserSlotRemovedRegs Claims.laserSlotRemovedStores (.laserSlotRemoved a)) ∧
    (∀ a, Claims.Only [.OP_LASER] [] (.laserSlotInserted a)) ∧
    (∀ a b, Claims.Leaves Claims.laserSlotRemovedRegs Claims.laserSlotRemovedStores (.laserFault a b)) ∧
    (∀ a b, Claims.Leaves Claims.portRegs Claims.portStores (.laserFeed a b)) ∧
    (∀ a b c, Claims.Leaves Claims.portRegs Claims.portStores (.laserLow a b c)) ∧
    (∀ a, Claims.Leaves Claims.laserSlotRemovedRegs Claims.laserSlotRemovedStores (.laserRampDone a))

/-- What the units of the Screed leave unchanged (chapter 9). -/
def Claims.FramesOfScreed : Prop :=
    (∀ a b c, Claims.Leaves [.RK_CENSUS, .RQ_ARBRANK, .RP_ARBRANK, .RQ_ARBWAIT, .RP_ARBWAIT, .TM_FABCORNER, .RQ_LINKERR,
      .RP_LINKERR, .XB_DOMAIN, .RK_PARTJOB, .RK_RANKMAP, .RK_ATTACHSEL, .RK_CHIPROUTE, .RK_RINGPLAN, .RK_FLOWCTX,
      .RK_FLOWVAL, .CP_QCTL, .CP_QBASE, .CP_QTAIL, .CP_RINGTAB, .CP_RINGCTL, .CP_RINGERR, .CP_AMCHAN, .CP_AMCREDIT,
      .CP_AMSENDS, .CP_BANKOWN, .SP_BANKOWN, .CP_HANDOVER, .RK_HANDOVER, .SC_TREE, .SC_TREERES, .SC_PORTTREE, .SC_PORTBEYOND,
      .RK_GROUP, .RK_GROUPAUX, .PL_GROUP, .PL_MEMBERS, .OP_PORTSTATE, .OP_PORTCTL, .OP_PLAN, .OP_PEERID, .OP_LINKDELAY,
      .OP_LINKERR, .OP_CREDIT, .OP_LANEMAP, .OP_LASER, .RK_STENCIL, .AL_STATUS, .AL_LOCK, .AL_ERRCNT, .AL_GUARD, .AL_MBCTL,
      .AL_MBREQ, .AL_MBRSP, .RK_COORDS, .TM_VLCOUNT, .TM_CPFLITS, .TM_TIMESTAMP] [.pending, .now, .chipReset, .fuse,
      .refLostAt, .mgLost, .lkLost, .clkStopped, .clkSince, .sampled, .timeSets, .coreRst, .idleHeld, .fabLow, .tapState,
      .tapIr, .stackVia, .hostWait, .links, .rings, .parts, .fenceDue, .tableCorr, .pulses, .hubMiss, .hubDown, .ramps,
      .tune, .planKeys, .guard, .transitOff, .hoPending, .hoSince, .wiped, .sealStore, .log, .readNext, .hostRx, .hostTags]
      (.treePacketArrival a b c)) ∧
    (∀ a b c d x f g, Claims.Only (Claims.flowRegs ++ [.CP_ERRAUX, .SP_PKTERR, .SC_SLOTSTAT, .OP_ERRCNT, .AL_EPERR,
      .TM_LOGSTAT]) (Claims.flowStores ++ [.freeCtr, .grants, .waits, .mcBufs, .merges, .fibreHold, .ports, .released,
      .logIntake]) (.roomCountArrival a b c d x f g)) ∧
    (∀ a b, Claims.Only (Claims.flowRegs ++ [.CP_ERRAUX, .SP_PKTERR, .OP_ERRCNT, .AL_EPERR, .TM_LOGSTAT]) (Claims.flowStores
      ++ [.freeCtr, .grants, .waits, .mcBufs, .merges, .fibreHold, .ports, .released, .logIntake]) (.forkCopy a b)) ∧
    (∀ a b c, Claims.Only (Claims.flowRegs ++ [.XB_ERRORS, .RK_TRANSIT, .CP_ERRAUX, .SP_PKTERR, .SC_ERRCNT, .OP_ERRCNT,
      .AL_EPERR, .TM_LOGSTAT]) (Claims.flowStores ++ [.freeCtr, .grants, .waits, .merges, .fibreHold, .ports, .released,
      .logIntake]) (.mergeAnswerArrival a b c)) ∧
    (∀ a b, Claims.Only [.SC_ERRCNT, .TM_LOGSTAT] [.merges, .logIntake] (.mergeTimeout a b)) ∧
    (∀ a b c d, Claims.Leaves [.RK_CENSUS, .RQ_ARBRANK, .RP_ARBRANK, .RQ_ARBWAIT, .RP_ARBWAIT, .TM_FABCORNER, .RQ_LINKERR,
      .RP_LINKERR, .XB_DOMAIN, .RK_PARTJOB, .RK_RANKMAP, .RK_ATTACHSEL, .RK_CHIPROUTE, .RK_RINGPLAN, .RK_FLOWCTX,
      .RK_FLOWVAL, .CP_QCTL, .CP_QBASE, .CP_QTAIL, .CP_RINGTAB, .CP_RINGCTL, .CP_RINGERR, .CP_AMCHAN, .CP_AMCREDIT,
      .CP_AMSENDS, .CP_BANKOWN, .SP_BANKOWN, .CP_HANDOVER, .RK_HANDOVER, .SC_TREE, .SC_TREERES, .SC_PORTTREE, .SC_PORTBEYOND,
      .RK_GROUP, .RK_GROUPAUX, .PL_GROUP, .PL_MEMBERS, .OP_PORTSTATE, .OP_PORTCTL, .OP_PLAN, .OP_PEERID, .OP_LINKDELAY,
      .OP_LINKERR, .OP_CREDIT, .OP_LANEMAP, .OP_LASER, .RK_STENCIL, .AL_STATUS, .AL_LOCK, .AL_ERRCNT, .AL_GUARD, .AL_MBCTL,
      .AL_MBREQ, .AL_MBRSP, .RK_COORDS, .TM_VLCOUNT, .TM_CPFLITS, .TM_TIMESTAMP] [.pending, .now, .chipReset, .fuse,
      .refLostAt, .mgLost, .lkLost, .clkStopped, .clkSince, .sampled, .timeSets, .coreRst, .idleHeld, .fabLow, .tapState,
      .tapIr, .stackVia, .hostWait, .links, .rings, .parts, .fenceDue, .tableCorr, .pulses, .mcBufs, .merges, .hubMiss,
      .hubDown, .ramps, .tune, .planKeys, .guard, .transitOff, .hoPending, .hoSince, .wiped, .sealStore, .log, .readNext,
      .hostRx, .hostTags] (.contributionTaken a b c d)) ∧
    (∀ a b c, Claims.Only (Claims.flowRegs ++ [.CP_ERRAUX, .SP_PKTERR, .SC_SLOTSTAT, .OP_ERRCNT, .AL_EPERR, .TM_LOGSTAT])
      (Claims.flowStores ++ [.freeCtr, .grants, .waits, .slots, .fibreHold, .ports, .released, .logIntake]) (.resultCopy a b
      c))

/-- Registers that barArrive and its like leave unchanged. -/
def Claims.hubRegs : List Reg := [.RK_CENSUS, .RQ_ARBWAIT, .RP_ARBWAIT, .TM_FABCORNER, .RQ_LINKERR, .RP_LINKERR, .RK_PARTJOB,
  .RK_FLOWCTX, .RK_FLOWVAL, .CP_QCTL, .CP_QBASE, .CP_QTAIL, .CP_RINGTAB, .CP_RINGCTL, .CP_RINGERR, .CP_AMCHAN, .CP_AMCREDIT,
  .CP_AMSENDS, .CP_BANKOWN, .SP_BANKOWN, .CP_HANDOVER, .RK_HANDOVER, .OP_PORTCTL, .OP_LINKERR, .OP_CREDIT, .OP_LANEMAP,
  .OP_LASER, .AL_STATUS, .AL_LOCK, .AL_ERRCNT, .AL_GUARD, .AL_MBCTL, .AL_MBREQ, .AL_MBRSP, .RK_COORDS, .TM_VLCOUNT,
  .TM_CPFLITS, .TM_TIMESTAMP]

/-- Stores that barArrive and its like leave unchanged. -/
def Claims.hubStores : List Store := [.pending, .now, .chipReset, .fuse, .refLostAt, .mgLost, .lkLost, .clkStopped,
  .clkSince, .sampled, .timeSets, .coreRst, .idleHeld, .fabLow, .tapState, .tapIr, .stackVia, .hostWait, .links, .grants,
  .waits, .rings, .parts, .fenceDue, .tableCorr, .mcBufs, .merges, .hubMiss, .hubDown, .ramps, .hoPending, .hoSince, .wiped,
  .log, .readNext, .hostRx, .hostTags]

/-- Registers that barRelease and its like may change. -/
def Claims.releaseRegs : List Reg := [.XB_ERRORS, .PL_GROUPSTATE, .PL_ERRCNT, .TM_LOGSTAT]

/-- Stores that barRelease and its like may change. -/
def Claims.releaseStores : List Store := [.freeCtr, .plumb, .copies, .plumbOut, .plumbHeld, .hubMiss, .lastColls, .logIntake]

/-- What the Plumb, aborts and epochs leave unchanged (chapters 10 and 13). -/
def Claims.FramesOfPlumb : Prop :=
    (∀ a b c, Claims.Leaves Claims.hubRegs Claims.hubStores (.barArrive a b c)) ∧
    (∀ a b c, Claims.Only (Claims.flowRegs ++ Claims.releaseRegs) (Claims.flowStores ++ Claims.releaseStores)
      (.barRelease a b c)) ∧
    (∀ a b c, Claims.Leaves Claims.hubRegs Claims.hubStores (.sredUp a b c)) ∧
    (∀ a b c, Claims.Only (Claims.flowRegs ++ Claims.releaseRegs) (Claims.flowStores ++ Claims.releaseStores)
      (.sredDown a b c)) ∧
    (∀ a b, Claims.Only (Claims.flowRegs ++ [.XB_ERRORS, .PL_ERRCNT, .TM_LOGSTAT]) (Claims.flowStores ++ [.freeCtr, .plumb,
      .copies, .plumbOut, .plumbHeld, .hubMiss, .hubDown, .lastColls, .logIntake]) (.plumbPairExpiry a b)) ∧
    (∀ a b, Claims.Leaves [.RK_CENSUS, .RQ_ARBWAIT, .RP_ARBWAIT, .TM_FABCORNER, .RQ_LINKERR, .RP_LINKERR, .RK_PARTJOB,
      .RK_FLOWCTX, .RK_FLOWVAL, .CP_QCTL, .CP_QBASE, .CP_QTAIL, .CP_RINGTAB, .CP_RINGCTL, .CP_RINGERR, .CP_AMCHAN,
      .CP_AMCREDIT, .CP_AMSENDS, .CP_BANKOWN, .SP_BANKOWN, .CP_HANDOVER, .CP_BANKERR, .SP_ERRCNT, .RK_HANDOVER, .OP_LINKERR,
      .OP_LASER, .AL_STATUS, .AL_ERRCNT, .AL_GUARD, .AL_MBREQ, .RK_COORDS, .TM_VLCOUNT, .TM_CPFLITS, .TM_TIMESTAMP]
      [.pending, .now, .chipReset, .fuse, .refLostAt, .mgLost, .lkLost, .clkStopped, .clkSince, .sampled, .timeSets,
      .coreRst, .idleHeld, .fabLow, .tapState, .tapIr, .stackVia, .hostWait, .links, .rings, .parts, .fenceDue, .tableCorr,
      .hubMiss, .hubDown, .ramps, .hoPending, .hoSince, .wiped, .log, .readNext, .hostRx, .hostTags] (.plumbPortIngress a b)) ∧
    (∀ a b, Claims.Only (Claims.flowRegs ++ [.XB_ERRORS, .CP_ERRAUX, .SP_PKTERR, .SC_SLOTSTAT, .SC_ERRCNT, .PL_GROUPSTATE,
      .OP_ERRCNT, .RK_EPOCH, .AL_EPERR, .TM_LOGSTAT]) (Claims.flowStores ++ [.freeCtr, .slots, .flushGen, .nodes,
      .awaitMarker, .markers, .fibreHold, .plumb, .copies, .plumbOut, .plumbHeld, .arrivals, .lastColls, .sinkRuns, .ports,
      .released, .epochCtl, .alorn, .logIntake]) (.abort a b)) ∧
    (∀ a b, Claims.Leaves [.RK_CENSUS, .RQ_ARBWAIT, .RP_ARBWAIT, .TM_FABCORNER, .RQ_LINKERR, .RP_LINKERR, .RK_PARTJOB,
      .RK_FLOWCTX, .RK_FLOWVAL, .CP_QCTL, .CP_QBASE, .CP_QTAIL, .CP_ERRAUX, .CP_RINGTAB, .CP_RINGCTL, .CP_RINGERR,
      .CP_AMCHAN, .CP_AMCREDIT, .CP_AMSENDS, .CP_BANKOWN, .SP_BANKOWN, .CP_HANDOVER, .RK_HANDOVER, .SP_PKTERR, .SC_SLOTSTAT,
      .SC_ERRCNT, .TM_SLOWEST, .TM_SLOWHIST, .PL_ERRCNT, .OP_PORTCTL, .OP_LINKERR, .OP_ERRCNT, .OP_CREDIT, .OP_LANEMAP,
      .OP_LASER, .AL_STATUS, .AL_LOCK, .AL_ERRCNT, .AL_GUARD, .AL_MBCTL, .AL_MBREQ, .AL_MBRSP, .RK_COORDS, .AL_EPERR,
      .TM_VLCOUNT, .TM_CPFLITS, .TM_TIMESTAMP] [.pending, .now, .chipReset, .fuse, .refLostAt, .mgLost, .lkLost, .clkStopped,
      .clkSince, .sampled, .timeSets, .coreRst, .idleHeld, .fabLow, .tapState, .tapIr, .stackVia, .hostWait, .links, .grants,
      .waits, .rings, .parts, .fenceDue, .tableCorr, .slots, .mcBufs, .merges, .flushGen, .nodes, .awaitMarker, .markers,
      .fibreHold, .copies, .plumbHeld, .hubMiss, .hubDown, .arrivals, .lastColls, .sinkRuns, .raised, .ramps, .released,
      .hoPending, .hoSince, .wiped, .log, .readNext, .hostRx, .hostTags] (.epoch a b)) ∧
    (∀ a, Claims.Only [.RQ_ARBRANK, .RP_ARBRANK, .XB_ERRORS, .RK_RANKMAP, .RK_ATTACHSEL, .RK_CHIPROUTE, .RK_RINGPLAN,
      .RK_TRANSIT, .SC_TREE, .SC_TREERES, .SC_PORTTREE, .SC_PORTBEYOND, .RK_GROUP, .RK_GROUPAUX, .PL_GROUP, .PL_MEMBERS,
      .OP_PLAN, .RK_EPOCH, .TM_LOGSTAT] [.fifos, .tune, .planKeys, .guard, .epochCtl, .alorn, .logIntake]
      (.retirementRoundResult a)) ∧
    (Claims.Only [.RQ_ARBRANK, .RP_ARBRANK, .XB_FIFO, .RK_RANKMAP, .RK_ATTACHSEL, .RK_CHIPROUTE, .RK_RINGPLAN, .RK_TRANSIT,
      .SC_TREE, .SC_TREERES, .SC_PORTTREE, .SC_PORTBEYOND, .RK_GROUP, .RK_GROUPAUX, .PL_GROUP, .PL_MEMBERS, .OP_PLAN,
      .RK_EPOCH, .TM_LOGSTAT] [.fifos, .plumbOut, .tune, .planKeys, .guard, .epochCtl, .alorn, .logIntake] .epochPollExpiry) ∧
    (Claims.Only [] [.epochCtl] .epochSettleExpiry)

/-- Registers that nop and its like may change. -/
def Claims.transferRegs : List Reg := [.RK_FLOWVAL, .CP_ERRAUX, .CP_RINGERR, .SP_PKTERR, .OP_ERRCNT, .AL_EPERR, .TM_LOGSTAT]

/-- Stores that nop and its like may change. -/
def Claims.transferStores : List Store := [.freeCtr, .rings, .logIntake, .hostRx]

/-- What commands of a core queue leave unchanged (chapters 6 to 9). -/
def Claims.FramesOfQueues : Prop :=
    (∀ a b, Claims.Only (Claims.flowRegs ++ Claims.transferRegs) (Claims.flowStores ++ Claims.transferStores) (.nop a b)) ∧
    (∀ a b, Claims.Only (Claims.flowRegs ++ Claims.transferRegs) (Claims.flowStores ++ Claims.transferStores) (.put a b)) ∧
    (∀ a b, Claims.Only (Claims.flowRegs ++ Claims.transferRegs) (Claims.flowStores ++ Claims.transferStores) (.get a b)) ∧
    (∀ a b, Claims.Only (Claims.flowRegs ++ Claims.transferRegs) (Claims.flowStores ++ Claims.transferStores) (.putMc a b)) ∧
    (∀ a b, Claims.Only (Claims.flowRegs ++ Claims.transferRegs) (Claims.flowStores ++ Claims.transferStores) (.atomAdd a b)) ∧
    (∀ a b, Claims.Only (Claims.flowRegs ++ Claims.transferRegs) (Claims.flowStores ++ Claims.transferStores) (.atomSwap a
      b)) ∧
    (∀ a b, Claims.Only (Claims.flowRegs ++ Claims.transferRegs) (Claims.flowStores ++ Claims.transferStores) (.signal a b)) ∧
    (∀ a b, Claims.Only (Claims.flowRegs ++ Claims.transferRegs) (Claims.flowStores ++ Claims.transferStores) (.am a b)) ∧
    (∀ a b, Claims.Only (Claims.flowRegs ++ Claims.transferRegs) (Claims.flowStores ++ Claims.transferStores) (.amReply a b)) ∧
    (∀ a b, Claims.Only (Claims.flowRegs ++ [.PL_GROUPSTATE]) (Claims.flowStores ++ [.freeCtr, .raised]) (.barrier a b)) ∧
    (∀ a b, Claims.Only (Claims.flowRegs ++ [.PL_GROUPSTATE]) (Claims.flowStores ++ [.freeCtr, .raised]) (.scalarReduce a b)) ∧
    (∀ a b, Claims.Only (Claims.flowRegs ++ [.PL_GROUPSTATE]) (Claims.flowStores ++ [.freeCtr, .raised]) (.reduce a b)) ∧
    (∀ a b, Claims.Only (Claims.flowRegs ++ [.PL_GROUPSTATE]) (Claims.flowStores ++ [.freeCtr, .raised]) (.allReduce a b)) ∧
    (∀ a b, Claims.Only (Claims.flowRegs ++ [.PL_GROUPSTATE]) (Claims.flowStores ++ [.freeCtr, .raised]) (.broadcast a b)) ∧
    (∀ a b, Claims.Only (Claims.flowRegs ++ [.PL_GROUPSTATE]) (Claims.flowStores ++ [.freeCtr, .raised]) (.reduceScatter a
      b)) ∧
    (∀ a b, Claims.Only (Claims.flowRegs ++ [.PL_GROUPSTATE]) (Claims.flowStores ++ [.freeCtr, .raised]) (.allGather a b)) ∧
    (∀ a b c, Claims.Only (Claims.flowRegs ++ Claims.transferRegs) (Claims.flowStores ++ Claims.transferStores)
      (.requestTimeout a b c)) ∧
    (∀ a b, Claims.Only (Claims.flowRegs ++ [.XB_ERRORS, .CP_ERRAUX, .SP_PKTERR, .SC_SLOTSTAT, .SC_ERRCNT, .PL_GROUPSTATE,
      .PL_ERRCNT, .OP_ERRCNT, .RK_EPOCH, .AL_EPERR, .TM_LOGSTAT]) (Claims.flowStores ++ [.freeCtr, .slots, .flushGen, .nodes,
      .awaitMarker, .markers, .fibreHold, .plumb, .copies, .plumbOut, .plumbHeld, .arrivals, .lastColls, .sinkRuns, .raised,
      .ports, .released, .epochCtl, .alorn, .logIntake]) (.collectiveTimeout a b))

/-- Registers that cpHandoverWrite and its like may change. -/
def Claims.handoverRegs : List Reg := [.CP_BANKOWN, .SP_BANKOWN, .CP_HANDOVER, .RK_HANDOVER, .AL_ERRCNT, .AL_GUARD,
  .TM_LOGSTAT]

/-- Stores that cpHandoverWrite and its like may change. -/
def Claims.handoverStores : List Store := [.hoPending, .hoSince, .alorn, .logIntake]

/-- Registers that ringAdvance and its like may change. -/
def Claims.ringRegs : List Reg := [.RK_FLOWVAL, .CP_ERRAUX, .CP_RINGERR, .SP_PKTERR, .OP_ERRCNT, .AL_EPERR, .TM_LOGSTAT]

/-- Stores that ringAdvance and its like may change. -/
def Claims.ringStores : List Store := [.freeCtr, .rings, .logIntake]

/-- What register writes of a core and bank handovers leave unchanged (chapters 6 and 8). -/
def Claims.FramesOfCoreWrites : Prop :=
    (∀ a b c, Claims.Only [.CP_QTAIL, .CP_QSTAT] [] (.cpQtailWrite a b c)) ∧
    (∀ a b, Claims.Only Claims.flowRegs (Claims.flowStores ++ [.freeCtr]) (.skip a b)) ∧
    (∀ a b c, Claims.Only [.CP_QBASE, .CP_QSTAT] [] (.cpQbaseWrite a b c)) ∧
    (∀ a b c d, Claims.Only [.CP_EVCNT] [] (.cpEvcntWrite a b c d)) ∧
    (∀ a b, Claims.Only Claims.handoverRegs Claims.handoverStores (.cpHandoverWrite a b)) ∧
    (∀ a b, Claims.Only [.CP_RINGTAB] [] (.cpRingtabWrite a b)) ∧
    (∀ a b c, Claims.Only (Claims.flowRegs ++ Claims.ringRegs) (Claims.flowStores ++ Claims.ringStores) (.ringAdvance a b c)) ∧
    (∀ a b, Claims.Only [.CP_RINGERR, .CP_BANKERR, .SP_ERRCNT, .TM_LOGSTAT] [.freeCtr, .mem, .badWords, .softWords, .rings,
      .logIntake] (.ringEnable a b)) ∧
    (∀ a b, Claims.Only (Claims.flowRegs ++ Claims.ringRegs) (Claims.flowStores ++ Claims.ringStores) (.ringDisable a b)) ∧
    (∀ a b c d, Claims.Leaves [] [.pending, .now, .chipReset, .fuse, .refLostAt, .mgLost, .lkLost, .clkStopped, .clkSince,
      .sampled, .timeSets, .coreRst, .idleHeld, .fabLow, .tapState, .tapIr, .stackVia, .hostWait, .links, .grants, .waits,
      .parts, .fenceDue, .tableCorr, .pulses, .slots, .mcBufs, .merges, .flushGen, .nodes, .awaitMarker, .markers,
      .fibreHold, .plumb, .copies, .plumbOut, .plumbHeld, .hubMiss, .hubDown, .arrivals, .lastColls, .sinkRuns, .raised,
      .ports, .ramps, .released, .tune, .planKeys, .guard, .transitOff, .epochCtl, .wiped, .sealStore, .log, .readNext,
      .hostRx, .hostTags] (.registerWrite a b c d)) ∧
    (∀ a b, Claims.Only Claims.handoverRegs Claims.handoverStores (.handoverDrainDone a b)) ∧
    (∀ a b, Claims.Only [.CP_BANKOWN, .SP_BANKOWN, .CP_HANDOVER, .RK_HANDOVER, .TM_LOGSTAT] [.cmds, .hoPending, .hoSince,
      .logIntake] (.handoverLeaseExpiry a b))

/-- What the transports of Alorn leave unchanged (chapter 13). -/
def Claims.FramesOfTransports : Prop :=
    (Claims.Only [.AL_ERRCNT, .AL_MBCTL] [.alorn] .doorbell) ∧
    (Claims.Only [.AL_MBCTL] [] .rspTaken) ∧
    (∀ a b c d, Claims.Only [.AL_ERRCNT] [.alorn] (.mctpMessage a b c d)) ∧
    (∀ a, Claims.Only [.AL_LOCK, .TM_LOGSTAT] [.alorn, .logIntake] (.setEndpointId a)) ∧
    (Claims.Only [.AL_LOCK, .TM_LOGSTAT] [.alorn, .logIntake] .getEndpointId) ∧
    (Claims.Only [.AL_LOCK, .TM_LOGSTAT] [.alorn, .logIntake] .getMctpVersionSupport) ∧
    (Claims.Only [.AL_LOCK, .TM_LOGSTAT] [.alorn, .logIntake] .getMessageTypeSupport) ∧
    (Claims.Only [.AL_LOCK, .TM_LOGSTAT] [.alorn, .logIntake] .getVendorDefinedMsgSupport) ∧
    (Claims.Only [] [.alorn] .getstatus) ∧
    (Claims.Only [.AL_LOCK, .TM_LOGSTAT] [.alorn, .logIntake] .i3cTargetReset)

/-- Stores that requestTaken and its like leave unchanged. -/
def Claims.requestStores : List Store := [.pending, .now, .chipReset, .refLostAt, .mgLost, .lkLost, .clkStopped, .clkSince,
  .sampled, .coreRst, .idleHeld, .fabLow, .tapState, .tapIr, .stackVia, .hostWait, .links, .tableCorr, .hubMiss, .hubDown,
  .log, .hostRx, .hostTags]

/-- Stores that watchdogExpiry and its like leave unchanged. -/
def Claims.restartStores : List Store := [.pending, .now, .chipReset, .fuse, .refLostAt, .mgLost, .lkLost, .clkStopped,
  .clkSince, .sampled, .timeSets, .coreRst, .idleHeld, .fabLow, .tapState, .tapIr, .stackVia, .hostWait, .links, .grants,
  .waits, .rings, .fenceDue, .tableCorr, .pulses, .slots, .mcBufs, .merges, .flushGen, .nodes, .awaitMarker, .markers,
  .fibreHold, .plumb, .copies, .plumbOut, .plumbHeld, .hubMiss, .hubDown, .arrivals, .lastColls, .sinkRuns, .raised, .ramps,
  .released, .tune, .planKeys, .guard, .transitOff, .epochCtl, .wiped, .sealStore, .log, .readNext, .hostRx, .hostTags]

/-- What requests to Alorn and its own events leave unchanged (chapter 13). -/
def Claims.FramesOfAlorn : Prop :=
    (Claims.Leaves [] Claims.requestStores .requestTaken) ∧
    (∀ a b, Claims.Only (Claims.flowRegs ++ [.CP_ERRAUX, .SP_PKTERR, .OP_ERRCNT, .AL_MBCTL, .AL_MBRSP, .AL_EPERR])
      (Claims.flowStores ++ [.alorn]) (.relayResponse a b)) ∧
    (∀ a b, Claims.Only (Claims.flowRegs ++ [.CP_ERRAUX, .SP_PKTERR, .OP_ERRCNT, .AL_MBCTL, .AL_MBRSP, .AL_EPERR])
      (Claims.flowStores ++ [.alorn]) (.relayTimeout a b)) ∧
    (∀ a b, Claims.Leaves [] Claims.requestStores (.getVersion a b)) ∧
    (∀ a b, Claims.Leaves [] Claims.requestStores (.getCensus a b)) ∧
    (∀ a b c, Claims.Leaves [] Claims.requestStores (.selfTest a b c)) ∧
    (∀ a b, Claims.Only Claims.flowRegs (Claims.flowStores ++ [.links, .grants, .waits, .copies, .plumbOut, .alorn])
      (.selfTestDone a b)) ∧
    (∀ a b c, Claims.Leaves [] Claims.requestStores (.claim a b c)) ∧
    (∀ a b, Claims.Leaves [] Claims.requestStores (.release a b)) ∧
    (∀ a b c, Claims.Leaves [] Claims.requestStores (.loadStencilBegin a b c)) ∧
    (∀ a b c d, Claims.Leaves [] Claims.requestStores (.loadStencilData a b c d)) ∧
    (∀ a b c, Claims.Leaves [] Claims.requestStores (.loadStencilCommit a b c)) ∧
    (Claims.Only [.RK_STENCIL, .TM_LOGSTAT] [.freeCtr, .alorn, .logIntake] .stencilLoadLimitExpiry) ∧
    (∀ a b c, Claims.Leaves [] Claims.requestStores (.loadStencilDiscard a b c)) ∧
    (∀ a b c, Claims.Leaves [] Claims.requestStores (.applyEpoch a b c)) ∧
    (∀ a b c, Claims.Leaves [] Claims.requestStores (.applyEpochCancel a b c)) ∧
    (∀ a b c, Claims.Leaves [] Claims.requestStores (.quiesce a b c)) ∧
    (∀ a, Claims.Only [.TM_LOGSTAT] [.parts, .alorn, .logIntake] (.quiesceDrained a)) ∧
    (∀ a, Claims.Only [.TM_LOGSTAT] [.freeCtr, .alorn, .logIntake] (.quiesceStuck a)) ∧
    (∀ a b c, Claims.Leaves [] Claims.requestStores (.resume a b c)) ∧
    (∀ a b c, Claims.Leaves [] Claims.requestStores (.fence a b c)) ∧
    (∀ a b c, Claims.Leaves [] Claims.requestStores (.portAdmit a b c)) ∧
    (∀ a b c, Claims.Leaves [] Claims.requestStores (.portQuarantine a b c)) ∧
    (∀ a b c, Claims.Leaves [] Claims.requestStores (.portRemap a b c)) ∧
    (∀ a b c, Claims.Leaves [] Claims.requestStores (.laneSpare a b c)) ∧
    (∀ a b c, Claims.Leaves [] Claims.requestStores (.laserPrepare a b c)) ∧
    (∀ a b c, Claims.Leaves [] Claims.requestStores (.laserRestore a b c)) ∧
    (∀ a b c, Claims.Leaves [] Claims.requestStores (.setCoords a b c)) ∧
    (∀ a b c d, Claims.Leaves [] Claims.requestStores (.setTimebase a b c d)) ∧
    (∀ a b c, Claims.Leaves [] Claims.requestStores (.bankHandover a b c)) ∧
    (∀ a b c d, Claims.Leaves [] Claims.requestStores (.readCounters a b c d)) ∧
    (∀ a b c, Claims.Leaves [] Claims.requestStores (.readEvents a b c)) ∧
    (∀ a b c d x, Claims.Leaves [] Claims.requestStores (.sealKey a b c d x)) ∧
    (∀ a b, Claims.Leaves [] Claims.requestStores (.zeroize a b)) ∧
    (∀ a b c d x, Claims.Leaves [] Claims.requestStores (.lifecycle a b c d x)) ∧
    (∀ a, Claims.Leaves [] Claims.restartStores (.watchdogExpiry a)) ∧
    (∀ a b c, Claims.Leaves [] Claims.restartStores (.alornEcc a b c)) ∧
    (Claims.Only [.AL_LOCK, .TM_LOGSTAT] [.alorn, .logIntake] .lockLeaseExpiry) ∧
    (∀ a b c, Claims.Leaves [.RK_CENSUS, .RQ_ARBRANK, .RP_ARBRANK, .RQ_ARBWAIT, .RP_ARBWAIT, .TM_FABCORNER, .RQ_LINKERR,
      .RP_LINKERR, .XB_DOMAIN, .RK_PARTJOB, .RK_RANKMAP, .RK_ATTACHSEL, .RK_CHIPROUTE, .RK_RINGPLAN, .RK_TRANSIT,
      .RK_FLOWCTX, .CP_QCTL, .CP_QBASE, .CP_QTAIL, .CP_RINGTAB, .CP_RINGCTL, .CP_AMCHAN, .CP_AMCREDIT, .CP_AMSENDS,
      .CP_BANKOWN, .SP_BANKOWN, .CP_HANDOVER, .RK_HANDOVER, .SC_TREE, .SC_TREERES, .SC_PORTTREE, .SC_PORTBEYOND, .RK_GROUP,
      .RK_GROUPAUX, .PL_GROUP, .PL_MEMBERS, .TM_SLOWEST, .TM_SLOWHIST, .OP_PORTSTATE, .OP_PORTCTL, .OP_PLAN, .OP_PEERID,
      .OP_LINKDELAY, .OP_LINKERR, .OP_CREDIT, .OP_LANEMAP, .OP_LASER, .RK_STENCIL, .AL_STATUS, .AL_LOCK, .AL_ERRCNT,
      .AL_GUARD, .AL_MBCTL, .AL_MBREQ, .AL_MBRSP, .RK_COORDS, .TM_VLCOUNT, .TM_CPFLITS, .TM_TIMESTAMP] [.pending, .now,
      .chipReset, .fuse, .refLostAt, .mgLost, .lkLost, .clkStopped, .clkSince, .sampled, .timeSets, .coreRst, .idleHeld,
      .fabLow, .tapState, .tapIr, .stackVia, .hostWait, .links, .grants, .waits, .pulses, .mcBufs, .merges, .hubMiss,
      .hubDown, .ramps, .tune, .planKeys, .guard, .hoPending, .hoSince, .wiped, .sealStore, .log, .readNext, .hostRx,
      .hostTags] (.tableEcc a b c)) ∧
    (Claims.Only [.XB_DOMAIN, .AL_MBCTL, .TM_LOGSTAT] [.freeCtr, .pulses, .logIntake, .log] .logRecordWrite) ∧
    (∀ a, Claims.Only [.CP_BANKOWN, .SP_BANKOWN, .CP_HANDOVER, .RK_HANDOVER, .AL_STATUS, .AL_LOCK, .AL_ERRCNT, .AL_GUARD,
      .TM_LOGSTAT] [.hoPending, .hoSince, .alorn, .sealStore, .logIntake] (.alornRunning a)) ∧
    (Claims.Leaves [] [.pending, .now, .chipReset, .fuse, .refLostAt, .mgLost, .lkLost, .clkStopped, .clkSince, .sampled,
      .timeSets, .coreRst, .idleHeld, .fabLow, .tapState, .tapIr, .stackVia, .hostWait, .links, .grants, .waits, .rings,
      .fenceDue, .tableCorr, .pulses, .slots, .mcBufs, .merges, .flushGen, .nodes, .awaitMarker, .markers, .fibreHold,
      .plumb, .copies, .plumbOut, .plumbHeld, .hubMiss, .hubDown, .arrivals, .lastColls, .sinkRuns, .raised, .ramps,
      .released, .transitOff, .wiped, .log, .readNext, .hostRx, .hostTags] .stencilLoadStep7)

/-! ### Words of the effects -/

/-- `c` answers a next state, of which `P` holds. -/
def Claims.Does (c : Instr) (s : State) (P : State → Prop) : Prop := ∃ t, exec c s = .next t ∧ P t

/-- `c` has an effect of which `P` holds; then the packets that waited for room leave (`State.flow`). -/
def Claims.Flows (c : Instr) (s : State) (P : State → Prop) : Prop := ∃ u : State, exec c s = .next u.flow ∧ P u

/-- What a saturating field `f` of copy `n` holds when it has counted `k` more than in `s`. -/
def Claims.counted (s : State) (f : Fld) (n k : Nat) : Nat := Nat.min (2 ^ f.width - 1) (s.get f n + k)

/-- Packet `p` stands at the end of FIFO `n` or waits for room in it. -/
def Claims.Sent (t : State) (n : Nat) (p : Packet) : Prop :=
  (∃ w ∈ t.outWait, w.fifo = n ∧ w.pkt = p) ∨ ∃ before, (t.fifo n).stages = before ++ stagesOf p

/-- Every byte but the `n` from address `a` of endpoint `ep` holds in `t` what it holds in `s`. -/
def Claims.BytesBut (ep a n : Nat) (s t : State) : Prop :=
  ∀ e b, memBase e + b < memBase ep + a ∨ memBase ep + a + n ≤ memBase e + b → t.byteAt e b = s.byteAt e b

/-! ### Memory -/

/-- Where the completion record of a command stands: COMP_BASE of its queue and its position modulo 256 (R157). -/
def Claims.recordAt (s : State) (c : Cmd) : Nat := s.get F.CP_QBASE_COMP_BASE (qCopy c.core c.queue) + 32 * (c.pos % 256)

/-- When waiting packets leave and commands complete, no byte of any memory changes but those of the completion records of
commands in progress, and words 1 and 2 of the ring entries whose reply reservation ends with its command (R175). -/
def Obligations.FlowStoresCompletionRecordsAlone : Prop :=
  ∀ (s : State) (ep a : Nat),
    (∀ c ∈ s.cmds, memBase ep + a < memBase c.core + Claims.recordAt s c
      ∨ memBase c.core + Claims.recordAt s c + 32 ≤ memBase ep + a) →
    (∀ h ∈ s.holds, h.reply = true → memBase ep + a < memBase h.core + s.ringEntry h.core h.ring + 8
      ∨ memBase h.core + s.ringEntry h.core h.ring + 24 ≤ memBase ep + a) →
    s.flow.byteAt ep a = s.byteAt ep a

/-! ### Crossing FIFOs, links, routers and arbiters -/

/-- The clocked side of an out FIFO writes a stage (R61, R66, R69): with a free stage it is kept, a tail gives the notice and
takes POISON where its packet lost a flit; with none the write is ignored, flagged, counted and logged. A header of another
class than the FIFO's, and a flit of no packet, have the statement HandshakesTakeFlits, the headers of the host bridge the statement
InFifoHoldsWholePackets. -/
def Obligations.OutFifoKeepsOrCountsAStage : Prop :=
  ∀ (s : State) (f : FifoId) (w : Stage), s.chipReset = false → fifoOut (fifoCopy f) = true → s.sideRuns f = true →
    let n := fifoCopy f
    let d := fifoDomain f
    let v := w &&& ~~~(1#524 <<< 523)
    let own := s.stageFits n w = true ∧ ∀ k, f = .host k → stageHead w = false
    (own → (s.fifo n).stages.length < fifoDepth n → Claims.Does (.fifoWrite f w) s (fun t =>
      (t.fifo n).stages = (s.fifo n).stages ++ [if stageTail v && (s.fifo n).lost then v ||| (1#524 <<< 522) else v]
      ∧ (t.fifo n).lost = ((s.fifo n).lost && !stageTail v)
      ∧ t.get F.XB_FIFO_NOTICES n = (s.get F.XB_FIFO_NOTICES n + b2n (stageTail v)) % 2 ^ F.XB_FIFO_NOTICES.width
      ∧ (∀ m, m ≠ n → t.fifo m = s.fifo m) ∧ FieldsBut [(F.XB_FIFO_NOTICES, n), (F.RK_EPOCH_OLD_SEEN, 0)] s t))
    ∧ (own → fifoDepth n ≤ (s.fifo n).stages.length → Claims.Does (.fifoWrite f w) s (fun t =>
      (t.fifo n).stages = (s.fifo n).stages ∧ (t.fifo n).lost = true ∧ t.get F.XB_FIFO_OVERRUN n = 1
      ∧ t.get F.XB_DOMAIN_FIFO_OVR d = 1 ∧ t.get F.XB_ERRORS_OVERRUNS d = Claims.counted s F.XB_ERRORS_OVERRUNS d 1
      ∧ Logged s t evOverrun 6 d (n % 256) 0))

/-- The clocked side of an in FIFO reads (R68, R70): the oldest stage of a complete packet, its parity errors counted;
with none the returned word says NOT_VALID, the FIFO keeps its stages and nothing is counted. -/
def Claims.InFifoReadsCompletePackets : Prop :=
  ∀ (s : State) (f : FifoId), s.chipReset = false → fifoOut (fifoCopy f) = false → s.sideRuns f = true →
    let n := fifoCopy f
    (∀ w rest, (s.fifo n).stages = w :: rest → (s.fifo n).packets ≠ 0 → Claims.Does (.fifoRead f) s (fun t =>
      (t.fifo n).stages = rest ∧ (t.fifo n).last = (if stageBad w = 0 then w else w ||| (1#524 <<< 522))
      ∧ t.get F.XB_ERRORS_PARITY (fifoDomain f) = Claims.counted s F.XB_ERRORS_PARITY (fifoDomain f) (stageBad w)))
    ∧ ((s.fifo n).packets = 0 → Claims.Does (.fifoRead f) s (fun t =>
      (t.fifo n).stages = (s.fifo n).stages ∧ (t.fifo n).last = 1#524 <<< 523 ∧ FieldsBut [] s t))

/-- A packet that stands before an in FIFO (R46, R67, R81): admitted whole when the free stages cover it, held until then with every
output it holds, and discarded and counted while its core is held in reset; with its admission the output it stood at has passed its
tail. A Plumb message of a core port that finds no room is held. -/
def Claims.InFifoAdmitsWholePackets : Prop :=
  ∀ (s : State) (f : FifoId) (p : Packet), s.chipReset = false → fifoOut (fifoCopy f) = false →
    let n := fifoCopy f
    let need := Nat.max (flitsOf p).length (1 + payloadFlits p)
    let held := match f with | .core i _ => s.coreRst.contains i.val | _ => false
    (∀ w, s.standBefore f p = some w →
      let left (t : State) : Prop := ∀ m r out, w = .output m r out →
        ∃ g, lookup t.grants (outKey m r out) = some g ∧ g.passed = true
      (held = false → (s.fifo n).stages.length + need ≤ fifoDepth n → Claims.Does (.inFifoAdmit f p) s (fun t =>
        (t.fifo n).stages = (s.fifo n).stages ++ stagesOf p ∧ t.get F.XB_FIFO_HELD n = 0 ∧ left t))
      ∧ (held = false → fifoDepth n < (s.fifo n).stages.length + need → Claims.Does (.inFifoAdmit f p) s (fun t =>
        t.fifos = s.fifos ∧ t.grants = s.grants ∧ t.get F.XB_FIFO_HELD n = 1 ∧ FieldsBut [(F.XB_FIFO_HELD, n)] s t))
      ∧ (held = true → Claims.Does (.inFifoAdmit f p) s (fun t => t.fifos = s.fifos ∧ t.get F.XB_FIFO_HELD n = 0 ∧ left t
        ∧ t.get F.XB_ERRORS_DISCARDS (fifoDomain f) = Claims.counted s F.XB_ERRORS_DISCARDS (fifoDomain f) (flitsOf p).length)))
    ∧ (∀ i : Fin 256, f = .core i 5 → (s.heldFor (32 + i.val)).head? = some ⟨2 + i.val / 16, 32 + i.val, stageMsg p⟩ →
      s.room n = 0 → Claims.Does (.inFifoAdmit f p) s (fun t => t.fifos = s.fifos ∧ t.plumbOut = s.plumbOut
        ∧ t.get F.XB_FIFO_HELD n = 1))

/-- A header that the host side offers to the bridge (R115, R122, R124, R126): refused towards the host side where it has no route
or its port is shut; kept back and counted once where its window is shut; else it enters the FIFO and counts against the window. -/
def Claims.HostHeadersPassTheirWindow : Prop :=
  ∀ (s : State) (k : Fin 4) (w : Stage), s.chipReset = false → fifoOut (fifoCopy (.host k)) = true → s.sideRuns (.host k) = true →
    s.stageFits (fifoCopy (.host k)) w = true → stageHead w = true →
    let n := fifoCopy (.host k)
    let p : Packet := ⟨flitOf w, []⟩
    let f := 1 + payloadFlits p
    let refused (st : Nat) : Prop := Claims.Does (.fifoWrite (.host k) w) s (fun t => t.fifos = s.fifos
      ∧ (classOf (pget p H.OPCODE) = some .request → t.hostRx = s.hostRx ++ [s.replyTo 286 p Op.NACK st])
      ∧ (classOf (pget p H.OPCODE) ≠ some .request → t.get F.AL_EPERR_ROUTE 0 = Claims.counted s F.AL_EPERR_ROUTE 0 1))
    (s.routeOf 20 p = .none → refused St.RANGE)
    ∧ (s.routeOf 20 p = .shut → refused St.UNREACHABLE)
    ∧ (∀ x, s.routeOf 20 p = .out x → s.gateOpen (.window x) f = false → lookup s.hostWait n ≠ some (stageData w) →
      Claims.Does (.fifoWrite (.host k) w) s (fun t => t.fifos = s.fifos ∧ lookup t.hostWait n = some (stageData w)
        ∧ t.get F.OP_EGWIN_WAITS x = (s.get F.OP_EGWIN_WAITS x + 1) % 2 ^ F.OP_EGWIN_WAITS.width))
    ∧ (∀ x, s.routeOf 20 p = .out x → s.gateOpen (.window x) f = true → (s.fifo n).stages.length < fifoDepth n →
      Claims.Does (.fifoWrite (.host k) w) s (fun t => (t.fifo n).stages.length = (s.fifo n).stages.length + 1
        ∧ t.get F.OP_EGWIN_OUTSTANDING x = (s.get F.OP_EGWIN_OUTSTANDING x + f) % 2 ^ F.OP_EGWIN_OUTSTANDING.width))

/-- A complete handshake on a channel (R35, R37, R38): its levels are kept, its acknowledge wire changes once, and a mesh link or
stack attachment has taken one flit, which with the tail makes its packet whole; until every group has changed, or where the
sender offers nothing, nothing happens. A write into an out FIFO of a header of another class than the FIFO's, or of a flit of no
packet, changes nothing (the model's choice, log entry 41).
Where the rules leave a case to reading, the model's choice is stated: log entries 2, 14 and 33. -/
def Obligations.HandshakesTakeFlits : Prop :=
  (∀ (s : State) (f : FifoId) (w : Stage), s.chipReset = false → fifoOut (fifoCopy f) = true → s.sideRuns f = true →
    s.stageFits (fifoCopy f) w = false → exec (.fifoWrite f w) s = .next s)
  ∧ ∀ (s : State) (l : LinkId) (levels : BitVec 4180), s.chipReset = false →
    let change := levels ^^^ (s.link (wireKey l)).levels
    let n := match l with | .neighbour .. => 1045 | _ => 264
    let tail := decide (2 ≤ groupBits s.freeCtr change 260 1)
    let got := (if groupBits s.freeCtr change 260 1 % 2 = 1 then [] else (s.link (linkKey l)).flits)
      ++ [(takenFlit (groupBits s.freeCtr change 0 256) (groupBits s.freeCtr change 256 4)
          (groupBits s.freeCtr change 261 1 % 2 = 1) (violations change 0 264 != 0)).1]
    (s.offers l = true → handshakeDone change n = true → subChannel l change = true → Claims.Does (.linkHandshake l levels) s (fun t =>
      (t.link (wireKey l)).levels = levels ∧ (t.link (linkKey l)).ack = !(s.link (linkKey l)).ack
      ∧ (n = 264 → tail = false → (t.link (linkKey l)).flits = got ∧ (t.link (linkKey l)).ready = (s.link (linkKey l)).ready)
      ∧ (n = 264 → tail = true → (t.link (linkKey l)).flits = [] ∧ ∃ h b, got = h :: b
          ∧ (t.link (linkKey l)).ready = (s.link (linkKey l)).ready ++ [⟨h, b⟩])))
    ∧ (s.offers l = false ∨ handshakeDone change n = false → exec (.linkHandshake l levels) s = .next s)

/-- A header at a router requests its output (R45, R47, R52): it is granted a free or parked output at once and waits at one
that a packet holds. -/
def Claims.HeadersRequestOutputs : Prop :=
  ∀ (s : State) (m : Mesh) (r : Fin 256) (inp : Fin 8) (p : Packet) (out : Nat), s.chipReset = false →
    s.headerAt m r.val inp.val = some p → s.headerOutput r.val inp.val p = some out →
    Claims.Does (.routerHeaderArrival m r inp p) s (fun t =>
      ((∀ g, lookup s.grants (outKey m r.val out) = some g → g.parked = true) →
        lookup t.grants (outKey m r.val out) = some ⟨inp.val, s.now, false, false, p⟩ ∧ t.waits = s.waits)
      ∧ (∀ g, lookup s.grants (outKey m r.val out) = some g → g.parked = false →
        t.grants = s.grants ∧ t.waits = s.waits ++ [⟨m, r.val, inp.val, out, s.now, p⟩]))

/-- When the tail at an output has passed (R45 to R47), the waiting header of the lowest rank is granted it, the lower input
first among equals, and its wait is counted; with none waiting the grant stays parked; until the tail has passed the packet keeps the
output (R46, R79). The freed output of a copy that a Screed unit sends is left out here: its grant is of input 7. -/
def Claims.LowestRankIsGranted : Prop :=
  ∀ (s : State) (m : Mesh) (r : Fin 256) (out : Fin 8) (g : Grant), s.chipReset = false →
    lookup s.grants (outKey m r.val out.val) = some g →
    let here (w : Waiting) : Prop := w ∈ s.waits ∧ w.mesh = m ∧ w.router = r.val ∧ w.out = out.val
    let free := (g.parked || g.passed) = true ∧ (g.inp = 7 → g.parked = true)
    (g.parked = false → g.passed = false → exec (.arbiterGrant m r out) s = .next s)
    ∧ (free → (∀ w, ¬ here w) → Claims.Does (.arbiterGrant m r out) s (fun t =>
      t = { s with grants := upsert s.grants (outKey m r.val out.val) { g with parked := true } }))
    ∧ (free → (∃ w, here w) → ∃ w, here w
      ∧ (∀ x, here x → 8 * s.rankAt m r.val out.val w.inp + w.inp ≤ 8 * s.rankAt m r.val out.val x.inp + x.inp)
      ∧ Claims.Does (.arbiterGrant m r out) s (fun t => t.waits = s.waits.erase w
        ∧ lookup t.grants (outKey m r.val out.val) = some ⟨w.inp, s.now, false, false, w.pkt⟩
        ∧ t.get (match m with | .request => F.RQ_ARBWAIT_TOTAL | .reply => F.RP_ARBWAIT_TOTAL) (8 * r.val + w.inp)
          = Claims.counted s (match m with | .request => F.RQ_ARBWAIT_TOTAL | .reply => F.RP_ARBWAIT_TOTAL)
              (8 * r.val + w.inp) (s.now - w.since + 1)))

/-! ### Arrivals -/

/-- Whether a packet with a sound header of opcode `op` is the one that an endpoint takes next, and acts on. -/
def Claims.Reaches (op : Nat) (s : State) (ep : BitVec 9) (p : Packet) : Prop :=
  s.chipReset = false ∧ s.waitsAt ep.toNat p = true ∧ s.takes ep.toNat = true ∧ s.coreRst.contains ep.toNat = false ∧ headerBad p = false
    ∧ pget p H.OPCODE = op

/-- `s` with the packet taken from where it waits for its endpoint: an in FIFO, or a stack port's attachment. -/
def Claims.taken (s : State) (ep : Nat) (p : Packet) : State := s.takeIn ep p

/-- A request that passes every check of Table 4-7 at a core port or a stack, and does not come from that endpoint itself. -/
def Claims.Passes (op : Nat) (s : State) (ep : BitVec 9) (p : Packet) : Prop :=
  Claims.Reaches op s ep p ∧ (Claims.taken s ep.toNat p).verdict ep.toNat p = .accept
    ∧ ¬ (pget p H.SRC_EP = ep.toNat ∧ pget p H.SRC_CHIP = s.own)

/-- Whether a reply of endpoint `ep` finds a route (R115). -/
def Claims.Routed (s : State) (ep : Nat) (r : Packet) : Prop :=
  s.routeOf (windowSource ep) r = .here ∨ ∃ w, s.routeOf (windowSource ep) r = .out w

/-- The reply `r` of endpoint `ep` to packet `p` leaves by its out FIFO, where it has a route; a stack port replies through the
attachment that `p` came by (R194). -/
def Claims.Answers (s : State) (ep : Nat) (p r : Packet) (u : State) : Prop :=
  Claims.Routed s ep r → Claims.Sent u ((Claims.taken s ep p).outFifo ep r) r

/-- PUT (R93, R94, R96, R161): an accepted PUT without poison stores its payload at ADDRESS and nothing elsewhere, performs its SIGNAL,
and is answered by ACK where it asks for one; at the host bridge the host side takes it (the model's choice, log entry 45) and the
bridge answers (R94). -/
def Claims.PutStoresItsPayload : Prop :=
  ∀ (s : State) (ep : BitVec 9) (p : Packet), Claims.Passes Op.PUT s ep p →
    (ep.toNat = 286 → Claims.Flows (.putArrival ep p) s (fun u => u.hostRx = s.hostRx ++ [p] ∧ SameBytes s u
      ∧ (hasPoison p = false → pflag p H.ACK_REQ = true → Claims.Answers s ep.toNat p (s.replyTo ep.toNat p Op.ACK St.OK) u)))
    ∧ (ep.toNat ≠ 286 → hasPoison p = false → Memory.wf s.mem = true → Claims.Flows (.putArrival ep p) s (fun u =>
      (∀ k, k < (payload p).length → u.byteAt ep.toNat (pget p H.ADDRESS + k) = (payload p).getD k 0)
      ∧ Claims.BytesBut ep.toNat (pget p H.ADDRESS) (payload p).length s u
      ∧ (ep.toNat < 256 → pflag p H.SIGNAL = true → u.get F.CP_EVCNT_VALUE (evCopy ep.toNat (pget p H.HANDLER % 64))
          = (s.get F.CP_EVCNT_VALUE (evCopy ep.toNat (pget p H.HANDLER % 64)) + 1) % 2 ^ 32)
      ∧ (pflag p H.FLOW_VALID = true → u.get F.RK_FLOWSEQ_SEQ (pget p H.FLOW) = pget p H.SEQ)
      ∧ (pflag p H.ACK_REQ = true → Claims.Answers s ep.toNat p (s.replyTo ep.toNat p Op.ACK St.OK) u)))

/-- PUT_MC at a member (R96, R216): an accepted one without poison stores its payload and answers with a merged ACK that
counts no failure. -/
def Claims.PutMcStoresAtEachMember : Prop :=
  ∀ (s : State) (ep : BitVec 9) (p : Packet), Claims.Reaches Op.PUT_MC s ep p →
    (Claims.taken s ep.toNat p).verdict ep.toNat p = .accept → ep.toNat < 280 → hasPoison p = false → Memory.wf s.mem = true →
    Claims.Flows (.putMcArrival ep p) s (fun u =>
      (∀ k, k < (payload p).length → u.byteAt ep.toNat (pget p H.ADDRESS + k) = (payload p).getD k 0)
      ∧ Claims.BytesBut ep.toNat (pget p H.ADDRESS) (payload p).length s u
      ∧ (∃ r, pget r H.OPCODE = Op.ACK ∧ Claims.Sent u ((Claims.taken s ep.toNat p).outFifo ep.toNat r) r
        ∧ r = s.replyTo ep.toNat p Op.ACK St.OK (mergedBytes 0 0 0 0) [] [(H.GROUP, pget p H.GROUP)]))

/-- GET_REQ (R94, R97): an accepted one changes no byte, performs its SIGNAL, and is answered by GET_RSP with the bytes at ADDRESS,
with POISON where a word of them reads as uncorrectable; the host bridge answers with as many bytes of the host's.
Where the rules leave a case to reading, the model's choice is stated: log entries 2, 15, 45 and 46. -/
def Obligations.GetAnswersWithTheBytes : Prop :=
  ∀ (s : State) (ep : BitVec 9) (p : Packet), Claims.Passes Op.GET_REQ s ep p →
    let bad := s.readPoison ep.toNat (pget p H.ADDRESS) (extent p)
    (ep.toNat = 286 → Claims.Flows (.getReqArrival ep p) s (fun u => SameBytes s u ∧ u.hostRx = s.hostRx ++ [p]
      ∧ ∃ bs : List Byte, bs.length = extent p ∧ Claims.Answers s ep.toNat p (s.replyTo ep.toNat p Op.GET_RSP St.OK bs) u))
    ∧ (ep.toNat ≠ 286 → Claims.Flows (.getReqArrival ep p) s (fun u => SameBytes s u
      ∧ (ep.toNat < 256 → pflag p H.SIGNAL = true → u.get F.CP_EVCNT_VALUE (evCopy ep.toNat (pget p H.HANDLER % 64))
          = (s.get F.CP_EVCNT_VALUE (evCopy ep.toNat (pget p H.HANDLER % 64)) + 1) % 2 ^ 32)
      ∧ Claims.Answers s ep.toNat p (s.replyTo ep.toNat p Op.GET_RSP (if bad.any (fun b => b) then St.POISON else St.OK)
          (s.readBytes ep.toNat (pget p H.ADDRESS) (extent p)) bad) u))

/-- ATOM_ADD and ATOM_SWAP (R97, R208): an accepted one replaces the element at ADDRESS by the sum or the operand and answers
with the old value; with a poisoned operand, or on an uncorrectable word, nothing is stored. -/
def Claims.AtomicsReplaceAndReturnTheOld : Prop :=
  ∀ (s : State) (ep : BitVec 9) (p : Packet) (add : Bool),
    Claims.Passes (if add then Op.ATOM_ADD else Op.ATOM_SWAP) s ep p →
    let c : Instr := if add then .atomAddArrival ep p else .atomSwapArrival ep p
    let n := pget p H.LENGTH
    let old := s.readNat ep.toNat (pget p H.ADDRESS) n
    let new := leBytes n (atomicOp add (pget p H.FORMAT) old (payloadNat p n))
    (hasPoison p = false → s.isBad ep.toNat (pget p H.ADDRESS) n = false → Memory.wf s.mem = true → Claims.Flows c s (fun u =>
      (∀ k, k < n → u.byteAt ep.toNat (pget p H.ADDRESS + k) = new.getD k 0)
      ∧ Claims.BytesBut ep.toNat (pget p H.ADDRESS) n s u
      ∧ Claims.Answers s ep.toNat p (s.replyTo ep.toNat p Op.ATOM_RSP St.OK (leBytes n old) [] [(H.FORMAT, pget p H.FORMAT)]) u))
    ∧ (hasPoison p = true ∨ s.isBad ep.toNat (pget p H.ADDRESS) n = true → Claims.Flows c s (fun u => SameBytes s u))

/-- SIGNAL (R98, R151, R153): an accepted one adds its ADDRESS to the counter it names, modulo 2^32, and stores nothing. -/
def Claims.SignalAddsToItsCounter : Prop :=
  ∀ (s : State) (ep : BitVec 9) (p : Packet), Claims.Passes Op.SIGNAL s ep p →
    Claims.Flows (.signalArrival ep p) s (fun u => SameBytes s u
      ∧ u.get F.CP_EVCNT_VALUE (evCopy ep.toNat (pget p H.HANDLER % 64))
          = (s.get F.CP_EVCNT_VALUE (evCopy ep.toNat (pget p H.HANDLER % 64)) + pget p H.ADDRESS) % 2 ^ 32
      ∧ (pflag p H.FLOW_VALID = true → u.get F.RK_FLOWSEQ_SEQ (pget p H.FLOW) = pget p H.SEQ)
      ∧ (pflag p H.ACK_REQ = true → Claims.Answers s ep.toNat p (s.replyTo ep.toNat p Op.ACK St.OK) u))

/-- AM (R174, R175, R181): an accepted one with room in its ring is written there, and the ring counts one message; without
room it takes the credit of its channel and is held; with no credit left it is refused, counted and logged. -/
def Claims.ActiveMessagesEnterTheirRing : Prop :=
  ∀ (s : State) (ep : BitVec 9) (p : Packet), Claims.Passes Op.AM s ep p →
    let v := Claims.taken s ep.toNat p
    let k := pget p H.ADDRESS
    let e := (v.receiveEntry ep.toNat p).getD 0
    let n := chCopy ep.toNat e
    let f := 1 + payloadFlits p
    (∀ pos w, v.tryPlace ep.toNat k p false = some (pos, w) → Claims.Flows (.amArrival ep p) s (fun u => u.holds = s.holds
      ∧ ∃ r r', lookup s.rings (ringKey ep.toNat k) = some r ∧ lookup u.rings (ringKey ep.toNat k) = some r'
        ∧ r'.messages = (r.messages + 1) % 2 ^ 32 ∧ r'.writePos = (pos + 64 * recordUnits (pget p H.LENGTH)) % (2 * r.size)
        ∧ r'.base = r.base ∧ r'.size = r.size ∧ r'.readPos = r.readPos))
    ∧ (v.tryPlace ep.toNat k p false = none → s.get F.CP_AMSTAT_OUT n + f ≤ s.get F.CP_AMCREDIT_FLITS n →
      Claims.Flows (.amArrival ep p) s (fun u => u.holds = s.holds ++ [⟨ep.toNat, e, k, false, p⟩] ∧ u.rings = s.rings
        ∧ u.get F.CP_AMSTAT_OUT n = (s.get F.CP_AMSTAT_OUT n + f) % 2 ^ F.CP_AMSTAT_OUT.width))
    ∧ (v.tryPlace ep.toNat k p false = none → s.get F.CP_AMCREDIT_FLITS n < s.get F.CP_AMSTAT_OUT n + f →
      Claims.Flows (.amArrival ep p) s (fun u => u.holds = s.holds ∧ u.rings = s.rings ∧ SameBytes s u
        ∧ u.get F.CP_AMSTAT_FULLS n = (s.get F.CP_AMSTAT_FULLS n + 1) % 2 ^ F.CP_AMSTAT_FULLS.width))

/-- A request that fails a check of Table 4-7 (R96, R160): a status refuses it by NACK and stores nothing; a repeat is counted
and answered from the reply cache, its SEQ unchanged. The refusal answers the first check failed. -/
def Claims.FailedChecksStoreNothing : Prop :=
  ∀ (s : State) (ep : BitVec 9) (p : Packet) (op : Nat) (c : Instr),
    (op, c) ∈ [(Op.PUT, Instr.putArrival ep p), (Op.GET_REQ, .getReqArrival ep p), (Op.ATOM_ADD, .atomAddArrival ep p),
      (Op.ATOM_SWAP, .atomSwapArrival ep p), (Op.SIGNAL, .signalArrival ep p), (Op.AM, .amArrival ep p)] →
    Claims.Reaches op s ep p → ¬ (pget p H.SRC_EP = ep.toNat ∧ pget p H.SRC_CHIP = s.own) →
    (∀ st, (Claims.taken s ep.toNat p).verdict ep.toNat p = .refuse st → (ep.toNat < 280 ∨ 286 ≤ ep.toNat) →
      Claims.Flows c s (fun u => SameBytes s u ∧ Claims.Answers s ep.toNat p (s.replyTo ep.toNat p Op.NACK st) u))
    ∧ ((Claims.taken s ep.toNat p).verdict ep.toNat p = .repeated → Claims.Flows c s (fun u => SameBytes s u
        ∧ u.get F.RK_FLOWSEQ_DUPS (pget p H.FLOW) = Claims.counted s F.RK_FLOWSEQ_DUPS (pget p H.FLOW) 1
        ∧ u.get F.RK_FLOWSEQ_SEQ (pget p H.FLOW) = s.get F.RK_FLOWSEQ_SEQ (pget p H.FLOW)))
    ∧ ((Claims.taken s ep.toNat p).verdict ep.toNat p = .noOwner → Claims.Flows c s (fun u => SameBytes s u
        ∧ Claims.Answers s ep.toNat p (s.replyTo ep.toNat p Op.NACK St.NO_OWNER) u
        ∧ (ep.toNat < 256 → u.get F.CP_BANKERR_NOOWNER ep.toNat = Claims.counted s F.CP_BANKERR_NOOWNER ep.toNat 1)))

/-- The header-error counter of an endpoint (R86). -/
def Claims.headerErrors (s : State) (ep : Nat) : Fld × Nat :=
  if ep < 256 then (F.CP_ERRCNT_HEADER, ep) else if ep < 280 then (F.SP_PKTERR_HEADER, ep - 256)
  else if ep < 286 then (F.OP_ERRCNT_HEADER, s.physOf (ep - 280)) else (F.AL_EPERR_HEADER, ep - 286)

/-- Event `e` is logged with the first 32 bytes of a packet's header, where the log's intake has room and CLK_MG runs. -/
def Claims.HeadLogged (s u : State) (e : Event) (p : Packet) : Prop :=
  s.mgLost = false → s.logIntake.length < 64 → ∃ x, u.logIntake = s.logIntake ++ [x] ∧ x.code = e.code
    ∧ x.time = s.word .TM_TIMESTAMP 0 ∧ x.arg0 = BitVec.ofNat 64 (hword p.head.data 0) ∧ x.arg1 = BitVec.ofNat 64 (hword p.head.data 1)
    ∧ x.more = some (BitVec.ofNat 64 (hword p.head.data 2), BitVec.ofNat 64 (hword p.head.data 3))

/-- A packet that an endpoint discards without a reply: counted in its header-error counter and logged as `e`; no byte, no command
and nothing that waits to be sent changes. -/
def Claims.Discards (c : Instr) (s : State) (ep : Nat) (e : Event) (p : Packet) : Prop :=
  let f := Claims.headerErrors s ep
  Claims.Flows c s (fun u => SameBytes s u ∧ u.cmds = s.cmds ∧ u.outWait = s.outWait ∧ u.hostRx = s.hostRx
    ∧ u.get f.1 f.2 = Claims.counted s f.1 f.2 1 ∧ Claims.HeadLogged s u e p)

/-- The commands by which packets of every opcode reach an endpoint. -/
def Claims.arrivalsAt (ep : BitVec 9) (p : Packet) : List Instr :=
  [.putArrival ep p, .getReqArrival ep p, .atomAddArrival ep p, .atomSwapArrival ep p, .signalArrival ep p, .amArrival ep p,
    .putMcArrival ep p, .getRspArrival ep p, .atomRspArrival ep p, .ackArrival ep p, .nackArrival ep p, .amReplyArrival ep p]

/-- A header that fails HPAR or carries poison, and one with a reserved opcode (R86, R87): the packet is discarded without reply,
counted in the endpoint's header-error counter and logged. -/
def Claims.BadHeadersAreDiscarded : Prop :=
  ∀ (s : State) (p : Packet) (e : Event), s.chipReset = false →
    ((headerBad p = true ∧ e = evHeaderBad) ∨ (headerBad p = false ∧ classOf (pget p H.OPCODE) = none ∧ e = evBadOpcode)) →
    (∀ (ep : BitVec 9) (c : Instr), c ∈ Claims.arrivalsAt ep p → s.waitsAt ep.toNat p = true → s.takes ep.toNat = true →
      s.coreRst.contains ep.toNat = false → Claims.Discards c s ep.toNat e p)
    ∧ (∀ ep : BitVec 9, (ep.toNat < 256 ∨ 280 ≤ ep.toNat) → s.waitsAt ep.toNat p = true → s.takes ep.toNat = true →
      s.coreRst.contains ep.toNat = false → Claims.Discards (.redDownArrival ep p) s ep.toNat e p)
    ∧ (∀ st : Fin 24, s.waitsAt (256 + st.val) p = true → Claims.Discards (.stackSinkRedDown st p) s (256 + st.val) e p)
    ∧ (∀ l : Fin 6, s.mgLost = false → s.waitsAt 287 p = true → (headerBad p = true ∨ pget p H.DST_EP = 287) →
      Claims.Discards (.mgmtArrival (some l) p) s 287 e p)

/-- A packet other than Plumb or a relay that reaches an optical port's own endpoint (R120): counted in ROUTE of the port that serves
it and logged ROUTE_TURN; a request is answered with NACK and RANGE, a reply discarded. -/
def Claims.PortEndpointsRefuse : Prop :=
  ∀ (s : State) (ep : BitVec 9) (p : Packet) (op : Nat) (c : Instr), 280 ≤ ep.toNat → ep.toNat < 286 →
    (op, c) ∈ [(Op.PUT, Instr.putArrival ep p), (Op.GET_REQ, .getReqArrival ep p), (Op.ATOM_ADD, .atomAddArrival ep p),
      (Op.ATOM_SWAP, .atomSwapArrival ep p), (Op.SIGNAL, .signalArrival ep p), (Op.AM, .amArrival ep p), (Op.PUT_MC, .putMcArrival ep p),
      (Op.GET_RSP, .getRspArrival ep p), (Op.ATOM_RSP, .atomRspArrival ep p), (Op.ACK, .ackArrival ep p),
      (Op.NACK, .nackArrival ep p), (Op.AM_REPLY, .amReplyArrival ep p), (Op.RED_DOWN, .redDownArrival ep p)] →
    Claims.Reaches op s ep p →
    let q := s.physOf (ep.toNat - 280)
    Claims.Flows c s (fun u => SameBytes s u ∧ u.cmds = s.cmds
      ∧ u.get F.OP_ERRCNT_ROUTE q = Claims.counted s F.OP_ERRCNT_ROUTE q 1 ∧ Claims.HeadLogged s u evRouteTurn p
      ∧ (classOf op = some .request → Claims.Answers s ep.toNat p (s.replyTo ep.toNat p Op.NACK St.RANGE) u)
      ∧ (classOf op = some .reply → u.outWait = s.outWait))

/-- A reply that reaches a core port whose partition is neither quiesced nor fenced and that works. -/
def Claims.Returns (op : Nat) (s : State) (ep : BitVec 9) (p : Packet) : Prop :=
  Claims.Reaches op s ep p ∧ ep.toNat < 256 ∧ s.answersStray ep.toNat = false

/-- The commands by which replies arrive, with their opcodes. -/
def Claims.replies (ep : BitVec 9) (p : Packet) : List (Nat × Instr) :=
  [(Op.GET_RSP, .getRspArrival ep p), (Op.ATOM_RSP, .atomRspArrival ep p), (Op.ACK, .ackArrival ep p), (Op.NACK, .nackArrival ep p),
    (Op.AM_REPLY, .amReplyArrival ep p)]

/-- A reply that no command of the core awaits, and every reply at a core port whose partition is quiesced or fenced, is stray
(R101, R376, R380): counted, logged and dropped. -/
def Claims.StrayRepliesAreCounted : Prop :=
  ∀ (s : State) (ep : BitVec 9) (p : Packet) (op : Nat) (c : Instr), (op, c) ∈ Claims.replies ep p → Claims.Reaches op s ep p →
    ep.toNat < 256 → (s.cmdOf ep.toNat (pget p H.TAG) = none ∨ s.answersStray ep.toNat = true) →
    Claims.Flows c s (fun u => u.cmds = s.cmds ∧ SameBytes s u
      ∧ u.get F.CP_ERRCNT_STRAY ep.toNat = Claims.counted s F.CP_ERRCNT_STRAY ep.toNat 1
      ∧ Logged s u evStray 0 ep.toNat (hword p.head.data 1) (hword p.head.data 2))

/-- Replies at the other endpoints (R101, R133, R336, R399): the host bridge keeps an answer to a request of the host side and counts
another one as stray; Alorn counts an answer that names no relay as stray; a reply opcode that an endpoint does not accept is
discarded and counted as a bad header. -/
def Claims.RepliesElsewhereAreJudged : Prop :=
  ∀ (s : State) (ep : BitVec 9) (p : Packet) (op : Nat) (c : Instr), (op, c) ∈ Claims.replies ep p → Claims.Reaches op s ep p →
    (ep.toNat = 286 → op ∈ [Op.GET_RSP, Op.ACK, Op.NACK] → pget p H.TAG ∈ s.hostTags → Claims.Flows c s (fun u => SameBytes s u
      ∧ u.hostRx = s.hostRx ++ [p] ∧ u.hostTags = s.hostTags.erase (pget p H.TAG)))
    ∧ (ep.toNat = 286 → op ∈ [Op.GET_RSP, Op.ACK, Op.NACK] → pget p H.TAG ∉ s.hostTags → Claims.Flows c s (fun u => SameBytes s u
      ∧ u.hostRx = s.hostRx ∧ u.hostTags = s.hostTags ∧ u.get F.AL_EPERR_STRAY 0 = Claims.counted s F.AL_EPERR_STRAY 0 1
      ∧ Logged s u evStray 9 0 (hword p.head.data 1) (hword p.head.data 2)))
    ∧ (ep.toNat = 287 → op ∈ [Op.ACK, Op.NACK] → (∀ r ∈ s.alorn.relays, r.hdr.toNat ≠ pget p H.TAG) → Claims.Flows c s (fun u =>
      SameBytes s u ∧ u.alorn = s.alorn ∧ u.get F.AL_EPERR_STRAY 1 = Claims.counted s F.AL_EPERR_STRAY 1 1
      ∧ Logged s u evStray 9 0 (hword p.head.data 1) (hword p.head.data 2)))
    ∧ ((256 ≤ ep.toNat ∧ ep.toNat < 280) ∨ (ep.toNat = 286 ∧ op ∉ [Op.GET_RSP, Op.ACK, Op.NACK])
        ∨ (ep.toNat = 287 ∧ op ∉ [Op.ACK, Op.NACK]) → Claims.Discards c s ep.toNat evHeaderBad p)

/-- A reply to a PUT, GET, atomic or SIGNAL in progress that does not complete it (R148, R150, R158): the packet it answers, named
by TAG and ADDRESS, has its status, and a GET_RSP without poison stores its bytes where the command says. -/
def Claims.RepliesAnswerTheirPacket : Prop :=
  ∀ (s : State) (ep : BitVec 9) (p : Packet) (op : Nat) (i : Instr) (c : Cmd) (rec : PktRec) (rest : List PktRec),
    (op, i) ∈ [(Op.GET_RSP, Instr.getRspArrival ep p), (Op.ATOM_RSP, .atomRspArrival ep p), (Op.ACK, .ackArrival ep p),
      (Op.NACK, .nackArrival ep p)] → Claims.Returns op s ep p →
    s.cmdOf ep.toNat (pget p H.TAG) = some c →
    (op = Op.GET_RSP ∧ dget c.words D.CMD = 2) ∨ (op = Op.ATOM_RSP ∧ (dget c.words D.CMD = 4 ∨ dget c.words D.CMD = 5))
      ∨ (op = Op.ACK ∧ (dget c.words D.CMD = 1 ∨ dget c.words D.CMD = 6)) ∨ (op = Op.NACK ∧ dget c.words D.CMD < 7) →
    answerPkt c.pkts (pget p H.ADDRESS) 0 = some (rec, rest) → c.lostBanks = [] → hasPoison p = false → Memory.wf s.mem = true →
    rest.any (fun k => k.sent && k.answer.isNone) = true →
    Claims.Flows i s (fun u =>
      (∃ d ∈ u.cmds, d.same c = true ∧ d.done = c.done ∧ (∃ k ∈ d.pkts, k.pkt = rec.pkt ∧ k.answer = some (statusOf p)))
      ∧ (op = Op.GET_RSP → (∀ k, k < (payload p).length →
          u.byteAt ep.toNat (getTarget c.words rec.offset + k) = (payload p).getD k 0)
          ∧ Claims.BytesBut ep.toNat (getTarget c.words rec.offset) (payload p).length s u)
      ∧ (op = Op.ACK ∨ op = Op.NACK → SameBytes s u))

/-- AM_REPLY (R188): one that its AM awaits, with room in its reply ring, is written there and counted by the ring. -/
def Claims.ActiveRepliesEnterTheirRing : Prop :=
  ∀ (s : State) (ep : BitVec 9) (p : Packet) (c : Cmd) (r : Ring), Claims.Returns Op.AM_REPLY s ep p →
    s.cmdOf ep.toNat (pget p H.TAG) = some c →
    let n := chCopy ep.toNat (dget c.words D.CHANNEL)
    let k := s.get F.CP_AMCHAN_REPLY_RING n
    dget c.words D.CMD = 0x10 → dflag c.words D.EXPECT_REPLY = true → pget p H.SRC_RANK = s.get F.CP_AMCHAN_RANK n →
    pget p H.SRC_EP = s.get F.CP_AMCHAN_ENDPOINT n → pget p H.ADDRESS % 4096 = s.get F.CP_AMCHAN_RING n →
    (∀ h ∈ s.holds, h.core ≠ ep.toNat) → lookup s.rings (ringKey ep.toNat k) = some r →
    pget p H.LENGTH ≤ 64 * s.get F.CP_AMCREDIT_REPLY_UNITS n → r.tooSmall p = false →
    ∀ pos w, (Claims.taken s ep.toNat p).tryPlace ep.toNat k p true = some (pos, w) →
    Claims.Flows (.amReplyArrival ep p) s (fun u => ∃ r', lookup u.rings (ringKey ep.toNat k) = some r'
      ∧ r'.messages = (r.messages + 1) % 2 ^ 32
      ∧ r'.writePos = (pos + 64 * recordUnits (pget p H.LENGTH)) % (2 * r.size))

/-- RED_DOWN at a member with no such collective is stray (R401); one it awaits stores its chunk at most where its command says; at a
stack, one that passes the checks stores its payload at SINK_BASE plus ADDRESS and nothing elsewhere (R247); the host bridge and
Alorn count one as a bad header (R399).
Where the rules leave a case to reading, the model's choice is stated: log entry 25. -/
def Obligations.ReductionResultsAreStored : Prop :=
  ∀ (s : State) (p : Packet), s.chipReset = false → headerBad p = false → pget p H.OPCODE = Op.RED_DOWN →
    (∀ ep : BitVec 9, ep.toNat < 256 → s.waitsAt ep.toNat p = true → s.takes ep.toNat = true → s.coreRst.contains ep.toNat = false →
      (∀ c ∈ s.cmds, c.core = ep.toNat → isColl c (pget p H.GROUP) (pget p H.SEQ) = false) →
      Claims.Flows (.redDownArrival ep p) s (fun u => SameBytes s u ∧ u.cmds = s.cmds
        ∧ u.get F.CP_ERRCNT_STRAY ep.toNat = Claims.counted s F.CP_ERRCNT_STRAY ep.toNat 1))
    ∧ (∀ ep : BitVec 9, 286 ≤ ep.toNat → s.waitsAt ep.toNat p = true → Claims.Flows (.redDownArrival ep p) s (fun u => SameBytes s u
        ∧ u.cmds = s.cmds
        ∧ u.get F.AL_EPERR_HEADER (ep.toNat - 286) = Claims.counted s F.AL_EPERR_HEADER (ep.toNat - 286) 1))
    ∧ (∀ (ep : BitVec 9) (i : Fin 256), ep.toNat = i.val → s.waitsAt i.val p = true → s.takes i.val = true →
      s.coreRst.contains i.val = false → s.answersStray i.val = false → ∀ (c : Cmd) (r : CollRun),
      (Claims.taken s i.val p).cmds.find? (fun c => c.core == i.val && isColl c (pget p H.GROUP) (pget p H.SEQ)
        && isData (dget c.words D.CMD)) = some c → c.coll = some r →
      let k := s.chunkIndex r.parity r.group (pget p H.ADDRESS)
      let a := dget c.words C.DST_ADDR + (if dget c.words D.CMD = CC.REDUCE_SCATTER then s.chunkOffset c r k else pget p H.ADDRESS)
      (Claims.taken s i.val p).downCheck i.val p = none → pflag p H.LAST_CHUNK = false → hasPoison p = false →
      Claims.Flows (.redDownArrival ep p) s (fun u => Claims.BytesBut i.val a (payload p).length s u
        ∧ ∃ d ∈ u.cmds, d.same c = true ∧ ∃ q, d.coll = some q ∧ k < q.down))
    ∧ (∀ st : Fin 24,
      let ep := 256 + st.val
      let v := Claims.taken s ep p
      let a := v.getE (pget p H.EPOCH) F.RK_GROUPAUX_SINK_BASE (pget p H.GROUP) + pget p H.ADDRESS
      let n := pget p H.LENGTH
      s.waitsAt ep p = true → 0 < n → hasPoison p = false → Memory.wf s.mem = true →
      v.flagE (pget p H.EPOCH) F.RK_GROUPAUX_SINK_VALID (pget p H.GROUP) = true →
      v.getE (pget p H.EPOCH) F.RK_GROUPAUX_SINK_STACK (pget p H.GROUP) = st.val →
      v.partCheck ep (pset p [(H.ADDRESS, a)]) = none → pget p H.FORMAT < 8 → pget p H.OP < 6 → pflag p H.FLOW_VALID = false →
      a % 8 = 0 → a + n ≤ memSize ep → n ≤ 4096 → n % Nat.max 1 (unitBytes (pget p H.FORMAT)) = 0 →
      (∀ b ∈ banksOf ep a n, v.netOwns p ep b = true) →
      Claims.Flows (.stackSinkRedDown st p) s (fun u =>
        (∀ k, k < n → u.byteAt ep (a + k) = (payload p).getD k 0) ∧ Claims.BytesBut ep a n s u))

/-- MGMT at Alorn (R121, R336): a sound request that entered by a port stands in the intake; the host side's packets leave in
order, a request given up by the bridge being counted and answered with UNREACHABLE, a reply counted as stray (R133).
Where the rules leave a case to reading, the model's choice is stated: log entries 29 and 30. -/
def Obligations.ManagementAndHostPackets : Prop :=
  ∀ s : State, s.chipReset = false →
    (∀ (l : Fin 6) (p : Packet), s.mgLost = false → headerBad p = false → pget p H.OPCODE = Op.MGMT → pget p H.DST_EP = 287 →
      s.waitsAt 287 p = true → mgmtSound p = true → pflag p H.RESPONSE = false → s.halted = false → s.alorn.intake.length < 64 →
      Claims.Flows (.mgmtArrival (some l) p) s (fun u => u.alorn = { s.alorn with intake := s.alorn.intake
        ++ [⟨.relayed l (rqOrigin (bytesWords (payload p))), bytesWords (payload p), pget p H.LENGTH, 0, false,
          BitVec.ofNat 16 (pget p H.TAG)⟩] } ∧ SameBytes s u))
    ∧ (∀ n p ws rest, s.hostFront = some (n, p) → splitTail (s.fifo n).stages = some (ws, rest) → headerBad p = false →
      classOf (pget p H.OPCODE) = some .reply → Claims.Flows .hostDrainExpiry s (fun u => (u.fifo n).stages = rest
        ∧ u.hostRx = s.hostRx ∧ u.get F.AL_EPERR_STRAY 0 = Claims.counted s F.AL_EPERR_STRAY 0 1 ∧ SameBytes s u))
    ∧ (∀ n p ws rest, s.hostFront = some (n, p) → splitTail (s.fifo n).stages = some (ws, rest) → headerBad p = false →
      classOf (pget p H.OPCODE) = some .request → Claims.Flows .hostDrainExpiry s (fun u => (u.fifo n).stages = rest
        ∧ u.hostRx = s.hostRx ∧ u.get F.AL_EPERR_HOST_DRAIN 0 = Claims.counted s F.AL_EPERR_HOST_DRAIN 0 1 ∧ SameBytes s u
        ∧ Claims.Answers s 286 p (s.replyTo 286 p Op.NACK St.UNREACHABLE) u))

/-! ### Optical ports -/

/-- Port `p` is left in state `st`. -/
def Claims.Left (p : Fin 6) (st : Nat) (u : State) : Prop := u.portState p.val = st

/-- The events that move a port take it where Table 11-7 says: light, its loss, spent limits, stalled acknowledgements, failed
Patches, the end of a drain and of a hold.
Where the rules leave a case to reading, the model's choice is stated: log entry 19. -/
def Obligations.PortsMoveOnTheirEvents : Prop :=
  ∀ (s : State) (p : Fin 6), s.chipReset = false →
    (s.portState p.val = PS.DARK → s.lkLost = false → Claims.Flows (.lightDetected p) s (Claims.Left p PS.TRAINING))
    ∧ (s.portState p.val = PS.TRAINING → Claims.Flows (.lightLost p) s (Claims.Left p PS.DARK))
    ∧ (s.inData p.val = true → Claims.Flows (.lightLost p) s (Claims.Left p PS.DOWN))
    ∧ (s.portState p.val = PS.TRAINING → Claims.Flows (.retrainExpiry p) s (Claims.Left p PS.DOWN))
    ∧ (s.portState p.val = PS.KEYING → Claims.Flows (.keyTimeoutExpiry p) s (Claims.Left p PS.DOWN))
    ∧ (s.portState p.val = PS.DRAINING → Claims.Flows (.drainLimitExpiry p) s (Claims.Left p PS.QUARANTINE))
    ∧ (s.portState p.val = PS.DRAINING → (∀ t ∈ (s.port p.val).staging, t.vl = 1) → (s.port p.val).retry = [] →
        (s.port p.val).tx = [] → (s.port p.val).closeSent = true → (s.port p.val).closeGot = true →
        Claims.Flows (.drainComplete p) s (Claims.Left p PS.QUARANTINE))
    ∧ (∀ light, s.portState p.val = PS.DOWN → s.flag F.OP_PORTCTL_HOLD_DOWN p.val = false → s.lkLost = false →
        Claims.Flows (.downHoldExpiry p light) s (Claims.Left p (if light then PS.TRAINING else PS.DARK)))
    ∧ (s.inData p.val = true → (s.port p.val).retry ≠ [] → Claims.Flows (.ackStall p) s (Claims.Left p PS.TRAINING))
    ∧ (s.inData p.val = true → (s.port p.val).patch ≠ [] → Claims.Flows (.patchFail p) s (Claims.Left p PS.TRAINING))
    ∧ (s.portState p.val = PS.ADMITTED → Claims.Flows (.portClose p) s (fun u => Claims.Left p PS.DRAINING u
        ∧ (u.port p.val).closeGot = true))
    ∧ (s.portState p.val = PS.QUARANTINE → s.verdictsOk p.val = true → s.localAdmit p.val = true → (s.port p.val).seqOn = true →
        Claims.Flows (.portOpen p) s (Claims.Left p PS.ADMITTED))

/-- A lost signal is marked per lane, and more lost active lanes than locked spares take the port down (Table 11-7); a lane that
lost its signal is no longer locked; the symbols corrected on a lane in the window that ends are shown (R301, Table 11-22), and a
row with another number is no window's end; a transmit lane's power is shown and logged. That a port with a lane more than 3.5 dB
below nominal goes DOWN is the model's choice: log entry 18. -/
def Claims.LaneLossesAreMarked : Prop :=
  ∀ (s : State) (p : Fin 6), s.chipReset = false →
    (∀ lanes : BitVec 18,
      let lost := (List.range 18).filter (fun k => lanes.getLsbD k)
      let active := (lost.filter (fun k => s.get F.OP_LANEMAP_LOGICAL (laneCopy p.val 1 k) < 16)).length
      (s.inData p.val = true → s.get F.OP_PORTSTATE_SPARES p.val < active →
        Claims.Flows (.lossOfSignal p lanes) s (fun u => Claims.Left p PS.DOWN u
          ∧ ∀ k ∈ lost, u.get F.OP_LANEMAP_LOS (laneCopy p.val 1 k) = 1))
      ∧ (active ≤ s.get F.OP_PORTSTATE_SPARES p.val → Claims.Does (.lossOfSignal p lanes) s (fun t =>
          t.portState p.val = s.portState p.val ∧ ∀ k ∈ lost, t.get F.OP_LANEMAP_LOS (laneCopy p.val 1 k) = 1)))
    ∧ (∀ lane : Fin 18, Claims.Flows (.laneSignalLost p lane) s (fun u =>
        u.get F.OP_LANEMAP_LOS (laneCopy p.val 1 lane.val) = 1 ∧ u.get F.OP_LANEMAP_LOCKED (laneCopy p.val 1 lane.val) = 0))
    ∧ (∀ (lane : Fin 18) (n : BitVec 20),
      let seen := Nat.min 0xFFFFF ((lookup (s.port p.val).corrected lane.val).getD 0)
      (n.toNat = seen → Claims.Flows (.serWindowExpiry p lane n) s (fun u =>
        u.get F.OP_LANEMAP_SER (laneCopy p.val 1 lane.val) = seen ∧ lookup (u.port p.val).corrected lane.val = none))
      ∧ (n.toNat ≠ seen → exec (.serWindowExpiry p lane n) s = .next s))
    ∧ (∀ (lane : Fin 18) (power : BitVec 11),
      let low := power.toInt + 35 < Config.nominalPower.toInt ∧ s.inData p.val = true
      (¬low → Claims.Does (.laserLow p lane power) s (fun t =>
        t.get F.OP_LANEMAP_POWER (laneCopy p.val 0 lane.val) = power.toNat
        ∧ Logged s t evLaserLow 7 p.val (lane.val + 2 ^ 16 * power.toNat) 0))
      ∧ (low → Claims.Flows (.laserLow p lane power) s (fun u => Claims.Left p PS.DOWN u
        ∧ u.get F.OP_LANEMAP_POWER (laneCopy p.val 0 lane.val) = power.toNat)))

/-- Alignment blocks (R274, R402): a bad one counts against its lane and ends its run of good ones; a good one adds to the run
and shows that the lane has a signal. Outside TRAINING and the data states blocks are ignored. -/
def Claims.AlignmentBlocksAreJudged : Prop :=
  ∀ (s : State) (p : Fin 6) (lane : Fin 18) (b : BitVec 340) (errors skew : BitVec 20), s.chipReset = false →
    ((s.portState p.val = PS.TRAINING ∨ s.inData p.val = true) → blockGood b = false →
        lookup (s.port p.val).badBlk lane.val = none →
      Claims.Flows (.alignmentBlockReceive p lane ⟨b, errors, skew⟩) s (fun u => lookup (u.port p.val).badBlk lane.val = some 1
        ∧ lookup (u.port p.val).good lane.val = none ∧ u.portState p.val = s.portState p.val))
    ∧ ((s.portState p.val = PS.TRAINING ∨ s.inData p.val = true) → blockGood b = true →
      Claims.Flows (.alignmentBlockReceive p lane ⟨b, errors, skew⟩) s (fun u => u.get F.OP_LANEMAP_LOS (laneCopy p.val 1 lane.val) = 0))
    ∧ (s.portState p.val ≠ PS.TRAINING → s.inData p.val = false → exec (.alignmentBlockReceive p lane ⟨b, errors, skew⟩) s = .next s)

/-- Lasers (Table 11-10, R304, R305): what a slot's removal, insertion, fault and ramp leave in OP_LASER, and what they log;
a feed that is lost is shown and leaves the lanes 3 dB down, and the loss of both takes the port down.
Where the rules leave a case to reading, the model's choice is stated: log entry 18. -/
def Obligations.LaserSlotsFollowTheirLight : Prop :=
  ∀ (s : State) (k : Fin 8), s.chipReset = false →
    (s.laserState k.val ≠ LS.EMPTY → Claims.Does (.laserSlotRemoved k) s (fun t => t.laserState k.val = LS.EMPTY
      ∧ t.get F.OP_LASER_LEVEL k.val = 0 ∧ t.get F.OP_LASER_OUTPUT k.val = 0 ∧ lookup t.ramps k.val = none
      ∧ (s.laserState k.val = LS.RUN ∨ s.laserState k.val = LS.RAMPING →
          t.get F.OP_LASER_FAULTS k.val = Claims.counted s F.OP_LASER_FAULTS k.val 1)))
    ∧ (s.laserState k.val = LS.EMPTY → Claims.Does (.laserSlotInserted k) s (fun t => t.laserState k.val = LS.INSERTED
      ∧ FieldsBut [(F.OP_LASER_STATE, k.val)] s t))
    ∧ (∀ out : BitVec 12, s.laserState k.val = LS.RAMPING ∨ s.laserState k.val = LS.RUN → Claims.Does (.laserFault k out) s (fun t =>
      t.laserState k.val = LS.FAULT ∧ t.get F.OP_LASER_OUTPUT k.val = out.toNat ∧ lookup t.ramps k.val = none
      ∧ t.get F.OP_LASER_FAULTS k.val = Claims.counted s F.OP_LASER_FAULTS k.val 1
      ∧ ∀ j, j < 8 → j ≠ k.val → s.laserState j = LS.RUN → t.get F.OP_LASER_LEVEL j = 100))
    ∧ (∀ n, lookup s.ramps k.val = some n → Claims.Does (.laserRampDone k) s (fun t => lookup t.ramps k.val = none
      ∧ (n = 0 → t.laserState k.val = LS.PREPARED ∧ t.get F.OP_LASER_LEVEL k.val = 0)
      ∧ (n ≠ 0 → t.laserState k.val = LS.RUN)))
    ∧ (∀ (p : Fin 6) (f : Fin 2),
      let mine := if f.val = 0 then F.OP_PORTSTATE_FEED_A else F.OP_PORTSTATE_FEED_B
      let other := if f.val = 0 then F.OP_PORTSTATE_FEED_B else F.OP_PORTSTATE_FEED_A
      (s.flag mine p.val = false → exec (.laserFeed p f) s = .next s)
      ∧ (s.flag mine p.val = true → s.flag other p.val = false → s.inData p.val = true →
          Claims.Flows (.laserFeed p f) s (fun u => Claims.Left p PS.DOWN u ∧ u.get mine p.val = 0))
      ∧ (s.flag mine p.val = true → s.flag other p.val = true → Claims.Flows (.laserFeed p f) s (fun u => u.get mine p.val = 0
          ∧ u.portState p.val = s.portState p.val ∧ Logged s u evLaserFeed 7 p.val f.val 0
          ∧ ∀ l, l < 18 → u.get F.OP_LANEMAP_POWER (laneCopy p.val 0 l) = (Config.nominalPower - 30).toNat)))

/-- A port's packets on their way out (R116, R118, R121, R122, R124): the oldest complete packet at an admitted port is staged on the
virtual lane of its class with its dateline bit judged; one that would cross a dateline twice is counted where it was received; a
closed port refuses it; windows get back the flits released; a relay is readdressed to Alorn of the chip at the other end. -/
def Claims.PacketsAreStagedForTheFibre : Prop :=
  ∀ (s : State) (p : Fin 6), s.chipReset = false →
    (∀ (src : Fin 32) (pkt pkt' : Packet), headerBad pkt = false →
      (classOf (pget pkt H.OPCODE) = some .request ∨ classOf (pget pkt H.OPCODE) = some .reply) → isTree (pget pkt H.OPCODE) = false →
      s.waitsAt (280 + s.logical p.val) pkt = true →
      (s.admitted p.val = true → s.lane (s.logical p.val) (src.val == 22 + opposite (s.logical p.val)) pkt = some pkt' →
        Claims.Flows (.portEgress p src pkt) s (fun u => (u.port p.val).staging
          = (s.port p.val).staging ++ [⟨src.val, vlOf pkt', false, pkt'⟩]))
      ∧ (s.admitted p.val = true → s.lane (s.logical p.val) (src.val == 22 + opposite (s.logical p.val)) pkt = none →
        classOf (pget pkt H.OPCODE) = some .reply →
        let q := s.physOf (opposite (s.logical p.val))
        Claims.Flows (.portEgress p src pkt) s (fun u => u.ports = s.ports
          ∧ u.get F.OP_ERRCNT_ROUTE q = Claims.counted s F.OP_ERRCNT_ROUTE q 1))
      ∧ (s.admitted p.val = false → Claims.Flows (.portEgress p src pkt) s (fun u => u.ports = s.ports
          ∧ (classOf (pget pkt H.OPCODE) = some .reply → u.get F.OP_ERRCNT_ROUTE p.val = Claims.counted s F.OP_ERRCNT_ROUTE p.val 1))))
    ∧ (∀ pkt : Packet, headerBad pkt = false → pget pkt H.OPCODE = Op.MGMT → pget pkt H.DST_EP = 280 + s.logical p.val →
      pget pkt H.DST_CHIP = s.own → s.waitsAt (280 + s.logical p.val) pkt = true → (s.portState p.val = PS.QUARANTINE ∨ s.portState p.val = PS.ADMITTED ∨ s.portState p.val = PS.DRAINING) →
      Claims.Does (.mgmtRelayAtPort p pkt) s (fun t => (t.port p.val).staging = (s.port p.val).staging
        ++ [⟨21, 1, false, pset pkt [(H.DST_CHIP, s.get F.OP_PORTSTATE_PEER_CHIP p.val), (H.DST_EP, 287)]⟩]))
    ∧ (∀ (k : Fin 3) (src : Fin 32),
      let w := egwin p.val k.val src.val
      Claims.Flows (.windowRelease p k src) s (fun u => lookup u.released w = none
        ∧ u.get F.OP_EGWIN_OUTSTANDING w = s.get F.OP_EGWIN_OUTSTANDING w - (lookup s.released w).getD 0
        ∧ FieldsBut [(F.OP_EGWIN_OUTSTANDING, w)] s u ∧ SameBytes s u))

/-- A staged packet leaves when its virtual lane is open and has credit for every parcel; the first time it finds none, the
lane's STALLS counts it (R281, R287). -/
def Claims.StagedPacketsNeedCredit : Prop :=
  ∀ (s : State) (p vl : Fin 6) (t : Staged), s.chipReset = false →
    (s.port p.val).staging.find? (fun t => t.vl == vl.val) = some t → s.vlOpen p.val vl.val = true →
    (∀ r a, s.creditFor p.val vl.val (ceilDiv (flitsOf t.pkt).length 4) t.pkt = some (r, a) →
      Claims.Does (.stagingDeparture p vl) s (fun u => (u.port p.val).staging = (s.port p.val).staging.erase t
        ∧ ∃ xs, xs ≠ [] ∧ (u.port p.val).tx = (s.port p.val).tx ++ xs ∧ ∀ x ∈ xs, x.vl = t.vl))
    ∧ (s.creditFor p.val vl.val (ceilDiv (flitsOf t.pkt).length 4) t.pkt = none → t.stalled = false → s.transitSide1 p.val t.pkt = none →
      Claims.Does (.stagingDeparture p vl) s (fun u =>
        u.get F.OP_CREDIT_STALLS (7 * p.val + vl.val) = (s.get F.OP_CREDIT_STALLS (7 * p.val + vl.val) + 1) % 2 ^ F.OP_CREDIT_STALLS.width
        ∧ ∃ x ∈ (u.port p.val).staging, x = { t with stalled := true }))

/-- The link layer sends (R272, R274, R275, R280, R283, R285): a replay first; else CONTROL messages go before new parcels of VL2 to
VL5; a new parcel takes the next SEQ and is kept until acknowledged; with nothing to send the parcel is idle. The parcel joins the
message bits of the frame; each full codeword is striped over the lanes that carry logical lanes, the others carry PRBS31. The
field of the code and the PRBS31 register are the model's: log entry 18. -/
def Claims.ParcelsAreSentInTurn : Prop :=
  ∀ (s : State) (p : Fin 6), s.chipReset = false → s.inData p.val = true →
    let q := s.port p.val
    (∀ n x rest, q.replay = (n, x) :: rest → q.control = [] → Claims.Does (.parcelSend p) s (fun t =>
      (t.port p.val).replay = rest ∧ (t.port p.val).replayRun = q.replayRun + 1 ∧ (t.port p.val).retry = q.retry))
    ∧ (q.replay = [] → s.ready p.val 0 = none → ∀ m rest, q.control = m :: rest → Claims.Does (.parcelSend p) s (fun t =>
      (t.port p.val).control = rest ∧ (t.port p.val).nextSeq = q.nextSeq))
    ∧ (q.replay = [] → ∀ x, s.ready p.val 0 = some x ∨ (s.ready p.val 0 = none ∧ q.control = [] ∧ s.ready p.val 1 = some x) →
      Claims.Does (.parcelSend p) s (fun t => (t.port p.val).nextSeq = (q.nextSeq + 1) % 8192
        ∧ (t.port p.val).tx = q.tx.erase x ∧ ∃ y, (t.port p.val).retry = q.retry ++ [(q.nextSeq, y)] ∧ y.vl = x.vl))
    ∧ (q.replay = [] → s.ready p.val 0 = none → s.ready p.val 1 = none → s.nextTurn p.val = none → q.control = [] → Claims.Does (.parcelSend p) s (fun t =>
      (t.port p.val).retry = q.retry ∧ (t.port p.val).nextSeq = q.nextSeq))
    ∧ Claims.Does (.parcelSend p) s (fun t =>
      let u := t.port p.val
      let acc := q.txAcc + u.lastSent.toNat * 2 ^ q.txBits
      let n := q.txBits + parcelBits
      u.txParcel = (if q.txParcel + 1 = frameParcels then 0 else q.txParcel + 1)
      ∧ (n < wordBits → u.txAcc = acc ∧ u.txBits = n ∧ u.levels = q.levels)
      ∧ (wordBits ≤ n → u.txAcc = acc / 2 ^ wordBits ∧ u.txBits = n - wordBits
        ∧ ∀ l, l < 18 → lookup u.levels l = some (gray (if s.laneOf p.val 0 l < 16
          then laneSymbols (rsEncode (symbolsOf 514 (acc % 2 ^ wordBits))) (s.laneOf p.val 0 l)
          else (prbs31 340 q.prbs).1))))

/-- The link layer receives (R274, R275, R284, R285): an uncorrectable codeword is counted at the first parcel that touches it, its
corrected symbols likewise, and a parcel that touches one is discarded and a replay asked for; a good one acknowledges what was
sent before its ACK; a sequenced one out of order asks for a replay. That a codeword is read at the first parcel that touches it
is the model's choice: log entry 18. -/
def Claims.ParcelsAreReceivedInOrder : Prop :=
  ∀ (s : State) (p : Fin 6) (n : Fin 20560) (a b : BitVec 6120), s.chipReset = false → s.inData p.val = true →
    (s.port p.val).seqOn = true →
    let c : Instr := .parcelReceive p n ⟨a, b⟩
    let got := (s.receive p.val n.val a b).2
    let word := if parcelAt n.val = 0 then a else b
    (got = none → Claims.Does c s (fun t => (t.port p.val).askReplay = true))
    ∧ (parcelAt n.val = 0 ∨ touchesTwo n.val = true → rsDecode (s.rxWord p.val word) = none → Claims.Does c s (fun t =>
      t.get F.OP_LINKERR_UNCORR p.val = Claims.counted s F.OP_LINKERR_UNCORR p.val 1
      ∧ (t.port p.val).askReplay = true))
    ∧ (∀ w places, parcelAt n.val = 0 ∨ touchesTwo n.val = true → rsDecode (s.rxWord p.val word) = some (w, places) →
      Claims.Does c s (fun t =>
        t.get F.OP_LINKERR_CORRECTED p.val = Claims.counted s F.OP_LINKERR_CORRECTED p.val places.length))
    ∧ (∀ x, got = some x → TR.REPLAY x = false →
      (TR.TYPE x ≠ PT.DATA → TR.TYPE x ≠ PT.TAG → Claims.Flows c s (fun u =>
        (u.port p.val).lastAck = TR.ACK x ∧ (u.port p.val).expSeq = (s.port p.val).expSeq
        ∧ (u.port p.val).retry = (s.port p.val).retry.filter (fun e =>
            !(decide (1 ≤ (TR.ACK x + 8192 - e.1) % 8192) && decide ((TR.ACK x + 8192 - e.1) % 8192 ≤ 4096)))))
      ∧ ((TR.TYPE x = PT.DATA ∨ TR.TYPE x = PT.TAG) → TR.SEQ x ≠ (s.port p.val).expSeq →
        Claims.Flows c s (fun u => (u.port p.val).expSeq = (s.port p.val).expSeq
          ∧ (4096 < ((s.port p.val).expSeq + 8192 - TR.SEQ x) % 8192 → (u.port p.val).askReplay = true)))
      ∧ ((TR.TYPE x = PT.DATA ∨ TR.TYPE x = PT.TAG) → TR.SEQ x = (s.port p.val).expSeq → 6 ≤ TR.VL x →
        Claims.Flows c s (fun u => (u.port p.val).expSeq = ((s.port p.val).expSeq + 1) % 8192
          ∧ (u.port p.val).askReplay = false)))

/-- Timers of the link layer and the messages it repeats (R285, R295, Table 11-4): a retry expiry replays what is not
acknowledged; the delay period sends eight probes; a repeated message is queued again while its answer is awaited. -/
def Claims.LinkTimersQueueTheirMessages : Prop :=
  ∀ (s : State) (p : Fin 6), s.chipReset = false →
    let q := s.port p.val
    (q.seqOn = true → q.retry ≠ [] → Claims.Does (.linkRetryExpiry p) s (fun t => (t.port p.val).replay = q.retry
      ∧ t.get F.OP_LINKERR_REPLAYS p.val = Claims.counted s F.OP_LINKERR_REPLAYS p.val 1))
    ∧ (s.inData p.val = true → q.seqOn = true → Claims.Does (.delayPeriodExpiry p) s (fun t => (t.port p.val).delays = []
      ∧ (t.port p.val).control = q.control ++ List.replicate 8 (BitVec.ofNat 2048 CM.DELAY_PROBE)))
    ∧ (s.inData p.val = true →
      (q.openSent = true → q.openGot = false → Claims.Does (.controlRepeatExpiry p .portOpen) s (fun t =>
        (t.port p.val).control = q.control ++ [BitVec.ofNat 2048 CM.PORT_OPEN]))
      ∧ (q.closeSent = true → q.closeGot = false → Claims.Does (.controlRepeatExpiry p .portClose) s (fun t =>
        (t.port p.val).control = q.control ++ [BitVec.ofNat 2048 CM.PORT_CLOSE]))
      ∧ (q.key.peerDone = false → q.key.own ≠ 0 → s.alornRuns = true → Claims.Does (.controlRepeatExpiry p .keyOffer) s (fun t =>
        ∃ m, (t.port p.val).control = q.control ++ [m] ∧ (t.port p.val).key.own = m))
      ∧ Claims.Does (.controlRepeatExpiry p .patchReq) s (fun t => (t.port p.val).control = q.control ++ q.patch.map patchMessage))

/-- Control messages (R291, R295, R302, Table 11-4): a probe is echoed; eight echoes give the link's delay; a request for a Patch that
the transmitter can make is kept and applied to its lanes; key messages record what the peer says. -/
def Claims.ControlMessagesAreTaken : Prop :=
  ∀ (s : State) (p : Fin 6) (m : BitVec 2048), s.chipReset = false → s.inData p.val = true →
    let q := s.port p.val
    (cget m 0 8 = CM.DELAY_PROBE → Claims.Does (.delayProbe p m) s (fun t => ∃ e, (t.port p.val).control = q.control ++ [e]
      ∧ (t.port p.val).tx = q.tx))
    ∧ (cget m 0 8 = CM.DELAY_ECHO → q.delays.length < 7 → Claims.Does (.delayEcho p m) s (fun t =>
      (t.port p.val).delays.length = q.delays.length + 1 ∧ FieldsBut [] s t))
    ∧ (cget m 0 8 = CM.DELAY_ECHO → q.delays.length = 7 → Claims.Does (.delayEcho p m) s (fun t =>
      (t.port p.val).delays = [] ∧ t.get F.OP_LINKDELAY_VALID p.val = 1))
    ∧ (let x : Patch := ⟨cget m 8 8, cget m 16 8, cget m 24 8, cget m 32 10⟩
      cget m 0 8 = CM.PATCH_REQ → x.logical < 16 → x.src < 18 → x.dst < 18 → s.laneOf p.val 0 x.src = x.logical →
        s.laneOf p.val 0 x.dst = LM.SPARE → x ∉ q.txPatch →
      Claims.Does (.patchReq p m) s (fun t => (t.port p.val).txPatch = q.txPatch ++ [x]))
    ∧ (∀ x : Patch, q.txPatch = [x] → x.src < 18 → x.dst < 18 → x.logical < 16 → s.laneOf p.val 0 x.src = x.logical →
        s.laneOf p.val 0 x.dst = LM.SPARE → Claims.Does (.patchApply p) s (fun t => (t.port p.val).txPatch = []
          ∧ t.laneOf p.val 0 x.dst = x.logical ∧ t.laneOf p.val 0 x.src = LM.RETIRED
          ∧ t.get F.OP_ERRCNT_PATCHES p.val = Claims.counted s F.OP_ERRCNT_PATCHES p.val 1))
    ∧ (cget m 0 8 = CM.KEY_RESULT → s.alornRuns = true → Claims.Flows (.keyResult p m) s (fun u =>
      u.get F.OP_PORTSTATE_PEER_VERDICT p.val = cget m 8 8 % 2 ^ F.OP_PORTSTATE_PEER_VERDICT.width))
    ∧ (cget m 0 8 = CM.KEY_OFFER → s.alornRuns = true → Claims.Flows (.keyOffer p m) s (fun u =>
      u.get F.OP_PORTSTATE_PEER_CHIP p.val = KO.ADDR m % 2 ^ F.OP_PORTSTATE_PEER_CHIP.width
      ∧ u.get F.OP_PEERID_CHIP_ID p.val = KO.CHIP_ID m % 2 ^ F.OP_PEERID_CHIP_ID.width))

/-- Packets that a port has received (R128, R288, R298): in QUARANTINE only VL1 is taken, the rest dropped and counted; a packet
whose way on is onto the die waits in the pool and leaves it when there is room.
Where the rules leave a case to reading, the model's choice is stated: log entry 16. -/
def Obligations.ReceivedPacketsGoThroughThePool : Prop :=
  ∀ (s : State) (p : Fin 6), s.chipReset = false →
    (∀ (vl : Fin 6) (pkt : Packet) (e : Pooled), s.portState p.val = PS.QUARANTINE → vl.val ≠ 1 →
      classOf (pget pkt H.OPCODE) ≠ some .plumb → s.arrivedAt p.val vl.val pkt = some e →
      Claims.Does (.portIngress p vl pkt) s (fun t =>
        t.get F.OP_ERRCNT_QDISCARD p.val = Claims.counted s F.OP_ERRCNT_QDISCARD p.val 1))
    ∧ (∀ (vl : Fin 6) (pkt : Packet) (n : Next) (e : Pooled), s.portState p.val = PS.ADMITTED → headerBad pkt = false →
      classOf (pget pkt H.OPCODE) = some .request → s.fate p.val pkt = .queue n none → s.arrivedAt p.val vl.val pkt = some e →
      Claims.Flows (.portIngress p vl pkt) s (fun u =>
        (u.port p.val).pool = (s.port p.val).pool.replace e { e with next := n, pkt := s.entering pkt, grant := none }))
    ∧ (∀ (k : Nat) (e : Pooled), (s.port p.val).pool[k]? = some e → s.queuedBehind p.val k e = false → e.next = .die →
      (flitsOf e.pkt).length ≤ s.room (s.outFifo (280 + s.logical p.val) e.pkt) → (s.port p.val).seqOn = true →
      Claims.Flows (.poolForward p k) s (fun u => (u.port p.val).pool = (s.port p.val).pool.erase e
        ∧ Claims.Sent u (s.outFifo (280 + s.logical p.val) e.pkt) e.pkt))

/-! ### Screed -/

/-- A packet with a sound header that a tree edge of unit `u` takes for a group that has an entry there. -/
def Claims.AtNode (s : State) (u : Unit9) (inp : Fin 8) (p : Packet) (n : Node) : Prop :=
  s.chipReset = false ∧ headerBad p = false ∧ (classOf (pget p H.OPCODE)).isSome = true ∧ treePacket p = true
    ∧ treeEdge (unitNo u) inp.val = true ∧ s.node (unitNo u) (pget p H.EPOCH) (pget p H.GROUP) = some n

/-- A tree packet that stands at a Screed unit (R103, R213, R215): without an entry it is counted and logged; a PUT_MC from above, with a buffer
and a merge entry free, takes both, and the merge entry waits for an answer of every branch. -/
def Claims.TreePacketsEnterTheirNode : Prop :=
  ∀ (s : State) (u : Unit9) (inp : Fin 8) (p : Packet), s.chipReset = false → headerBad p = false →
    (classOf (pget p H.OPCODE)).isSome = true → treePacket p = true → treeEdge (unitNo u) inp.val = true →
    s.treeStands (unitNo u) inp.val p = true →
    (s.node (unitNo u) (pget p H.EPOCH) (pget p H.GROUP) = none → Claims.Flows (.treePacketArrival u inp p) s (fun t =>
      t.get F.SC_ERRCNT_NOENTRY (unitNo u) = Claims.counted s F.SC_ERRCNT_NOENTRY (unitNo u) 1 ∧ SameBytes s t
      ∧ Logged s t evNoEntry 5 (unitNo u) (hword p.head.data 0) (hword p.head.data 1)))
    ∧ (∀ (n : Node) (k mk : Nat), s.node (unitNo u) (pget p H.EPOCH) (pget p H.GROUP) = some n → pget p H.OPCODE = Op.PUT_MC →
      inp.val = n.up → s.unitOpen (unitNo u) = true → (s.dropTree (unitNo u) inp.val p).oldHolds n = false → 1 < n.kids.length →
      freeKey s.mcBufs n.intakes = some k → freeKey s.merges n.mergeKeys = some mk →
      Claims.Flows (.treePacketArrival u inp p) s (fun t =>
        (∃ b, lookup t.mcBufs k = some b ∧ b.pkt = p ∧ b.outs = n.kids.foldl setBit 0 ∧ b.going = false)
        ∧ lookup t.merges mk = some ⟨n.group, n.epoch, p, n.kids.foldl setBit 0, 0, 0, 0, 0⟩))

/-- A room count that the inviting node shows and that comes from the generation of its edge is kept, and one of another generation
or one that no node shows is not (R213, R233, R245). -/
def Claims.RoomCountsAreKept : Prop :=
  ∀ (s : State) (u : Unit9) (edge : Fin 8) (g : BitVec 12) (e : Bool) (count : BitVec 4) (gen : Bool) (n : Node),
    s.chipReset = false → s.node (unitNo u) (b2n e) g.toNat = some n → (256 ≤ unitNo u ∨ edge.val ≠ 7) →
    let shown (k : RoomKind) : Bool := s.shownCount (unitNo u) edge.val (b2n e) g.toNat k count.toNat
    (gen = s.generation (unitNo u) g.toNat →
      (shown .result = true → exec (.roomCountArrival u edge g .result e count gen) s = .next
        (s.setRoom (n.room edge.val .result) { s.roomAt (n.room edge.val .result) with seen := count.toNat }).flow)
      ∧ (edge.val ≠ n.up → shown .contribution = true → exec (.roomCountArrival u edge g .contribution e count gen) s = .next
        (s.setRoom (n.room edge.val .contribution) { s.roomAt (n.room edge.val .contribution) with seen := count.toNat }).flow))
    ∧ (∀ k, gen = s.generation (unitNo u) g.toNat → shown k = true →
      Claims.Flows (.roomCountArrival u edge g k e count gen) s (fun t => (t.roomAt (n.room edge.val k)).seen = count.toNat))
    ∧ (∀ k, gen ≠ s.generation (unitNo u) g.toNat ∨ shown k = false →
      exec (.roomCountArrival u edge g k e count gen) s = .next s.flow)

/-- A multicast buffer whose last copy goes to a free branch buffer moves there with its packet (R215). -/
def Claims.CopiesMoveToTheirBranch : Prop :=
  ∀ (s : State) (u : Unit9) (buf : Fin 64) (b : McBuf) (n : Node) (out bk : Nat), s.chipReset = false →
    lookup s.mcBufs (64 * unitNo u + buf.val) = some b → s.node (unitNo u) b.epoch b.group = some n →
    1 < n.kids.length → out ∈ n.kids → n.kids.Nodup → b.going = false → (∀ o, bit b.outs o = (o == out)) → clearBit b.outs out = 0 →
    s.olderWaits n b out = false → n.branchBuf out = some bk → bk ≠ 64 * unitNo u + buf.val → lookup s.mcBufs bk = none →
    (∀ o ∈ n.kids, n.branchBuf o ≠ some (64 * unitNo u + buf.val)) →
    Claims.Flows (.forkCopy u buf) s (fun t => lookup t.mcBufs (64 * unitNo u + buf.val) = none
      ∧ ∃ c, lookup t.mcBufs bk = some c ∧ c.pkt = b.pkt ∧ c.branch = some out)

/-- Merged answers (R216, R217): an answer of a branch clears it in the merge entry it answers and adds its failures; the last
one ends the entry, and so does its time, which is counted and logged; an answer of no entry is counted.
Where the rules leave a case to reading, the model's choice is stated: log entry 36. -/
def Obligations.MergesCollectTheirAnswers : Prop :=
  ∀ (s : State) (u : Unit9) (out : Fin 8) (p : Packet), s.chipReset = false → headerBad p = false →
    isTree (pget p H.OPCODE) = false → treePacket p = true → treeEdge (unitNo u) out.val = true → s.unitOpen (unitNo u) = true →
    (s.node (unitNo u) (pget p H.EPOCH) (pget p H.GROUP)).isSome = true → s.treeStands (unitNo u) out.val p = true →
    (∀ k m, s.mergeFor (unitNo u) out.val (pget p H.GROUP) (pget p H.TAG) (pget p H.ADDRESS) = some (k, m) →
      Claims.Flows (.mergeAnswerArrival u out p) s (fun t =>
        (clearBit m.pending out.val ≠ 0 → ∃ x, lookup t.merges k = some x ∧ x.pending = clearBit m.pending out.val
          ∧ x.failed = m.failed + leNat ((payload p).take 4))
        ∧ (clearBit m.pending out.val = 0 → lookup t.merges k = none)))
    ∧ (s.mergeFor (unitNo u) out.val (pget p H.GROUP) (pget p H.TAG) (pget p H.ADDRESS) = none →
      Claims.Flows (.mergeAnswerArrival u out p) s (fun t => t.merges = s.merges
        ∧ t.get F.SC_ERRCNT_NOENTRY (unitNo u) = Claims.counted s F.SC_ERRCNT_NOENTRY (unitNo u) 1))
    ∧ (∀ (entry : Fin 64) (m : Merge), lookup s.merges (64 * unitNo u + entry.val) = some m →
      Claims.Does (.mergeTimeout u entry) s (fun t => t.merges = remove s.merges (64 * unitNo u + entry.val)
        ∧ t.get F.SC_ERRCNT_MERGE_EXPIRED (unitNo u) = Claims.counted s F.SC_ERRCNT_MERGE_EXPIRED (unitNo u) 1
        ∧ Logged s t evMergeExpired 5 (unitNo u) (m.group + 2 ^ 12 * pget m.pkt H.TAG) 0))

/-- A contribution that its node awaits (R219, R220, R222): a sound one that is not the last of its chunk is folded in, and the slot
then awaits the next input in the order of the tree; one that disagrees with its collective halts it, counted and aborted. -/
def Claims.ContributionsFillTheirSlot : Prop :=
  ∀ (s : State) (u : Unit9) (inp : Fin 8) (p : Packet) (res : List Residue) (n : Node) (key k pos : Nat), s.chipReset = false →
    headerBad p = false → pget p H.OPCODE = Op.RED_UP → treeEdge (unitNo u) inp.val = true →
    s.node (unitNo u) (pget p H.EPOCH) (pget p H.GROUP) = some n → (s.run n).halted = false →
    s.abortRecorded (pget p H.GROUP) (pget p H.SEQ) = false → s.unitOpen (unitNo u) = true → s.awaiting n inp.val = some (key, k, pos) →
    s.treeStands (unitNo u) inp.val p = true →
    (s.badField n key k pos inp.val p = none → pos + 1 < n.order.length → pos + 1 < 8 → (∀ i, s.intakeStopped i = false) →
      Claims.Flows (.contributionTaken u inp p res) s (fun t => t.slotState key = SL.FILLING
        ∧ t.get F.SC_SLOTSTAT_INPUT key = (pos + 1) % 2 ^ F.SC_SLOTSTAT_INPUT.width
        ∧ t.get F.SC_SLOTSTAT_SEQ key = pget p H.SEQ % 2 ^ F.SC_SLOTSTAT_SEQ.width))
    ∧ (∀ f, s.badField n key k pos inp.val p = some f →
      Claims.Flows (.contributionTaken u inp p res) s (fun t =>
        t.get F.SC_ERRCNT_ORDER n.unit = Claims.counted s F.SC_ERRCNT_ORDER n.unit 1))

/-- The copy of a finished result to one of its outputs is taken off the outputs that still await it (R221, R245). -/
def Claims.ResultsAreCopiedOnce : Prop :=
  ∀ (s : State) (r : Fin 256) (slot : Fin 4) (out : Fin 8) (n : Node), s.chipReset = false →
    let key := 4 * r.val + slot.val
    s.node r.val (s.get F.SC_SLOTSTAT_EPOCH key) (s.get F.SC_SLOTSTAT_GROUP key) = some n → n.unit = r.val → s.slotState key = SL.RESULT →
    bit (s.slot key).outs out.val = true → s.copyOpen n key out.val = true →
    Claims.Flows (.resultCopy (.router r) ⟨slot.val, by omega⟩ out) s (fun t =>
      (t.slot key).outs = clearBit (s.slot key).outs out.val ∧ bit (t.slot key).going out.val = true
      ∧ ((∃ g, lookup t.grants (outKey .reply r.val out.val) = some g ∧ g.inp = 7)
          ∨ ∃ w ∈ t.waits, w.router = r.val ∧ w.inp = 7 ∧ w.out = out.val))

/-! ### Plumb, aborts and epochs -/

/-- An arrival at a node of the Plumb network that is one of its inputs and agrees with the round in progress, if there is one,
is recorded with its value (R251, R252). The node's other inputs are still awaited. -/
def Claims.PlumbArrivalsAreRecorded : Prop :=
  ∀ (s : State) (n : PlumbNode) (src : PlumbFrom) (m : PlumbMsg) (scalar : Bool), s.chipReset = false → wired n src = true →
    M.OPCODE m = (if scalar then Op.SRED_UP else Op.BAR_ARRIVE) → s.dropsArrival (plumbNo n) (M.GROUP m) (M.SEQ m) = false →
    inputKey src ∈ s.plumbInputs (plumbNo n) (M.EPOCH m) (M.GROUP m) → (∀ i, s.intakeStopped i = false) →
    (∀ r, lookup s.plumb (plumbKey (plumbNo n) (M.GROUP m)) = some r → r.seq = M.SEQ m ∧ r.parity = M.EPOCH m ∧ r.sent = false) →
    (∃ k ∈ s.plumbInputs (plumbNo n) (M.EPOCH m) (M.GROUP m), k ≠ inputKey src ∧ k ∉ s.absentInputs (plumbNo n) (M.EPOCH m) (M.GROUP m)
      ∧ ∀ r, lookup s.plumb (plumbKey (plumbNo n) (M.GROUP m)) = some r → lookup r.vals k = none) →
    Claims.Flows (if scalar then .sredUp n src m else .barArrive n src m) s (fun t =>
      ∃ r, lookup t.plumb (plumbKey (plumbNo n) (M.GROUP m)) = some r ∧ r.seq = M.SEQ m ∧ r.sent = false
        ∧ lookup r.vals (inputKey src) = some (BitVec.ofNat 64 (M.VALUE m)))

/-- A release or result that comes down (R251, R253, R254, R256): at the hubs it frees the group, and every hub in service sends it to
every cluster with a member and to every admitted child port; at a cluster the first copy of a result waits for the other hub's;
one that no round awaits is counted, and so is a copy that fails parity. How copies pair, and that a copy that fails parity is
counted as one that did not come, are the model's: log entries 49 and 50. -/
def Claims.ReleasesGoDown : Prop :=
  ∀ (s : State) (m : PlumbMsg) (hub : Hub) (scalar : Bool), s.chipReset = false →
    M.OPCODE m = (if scalar then Op.SRED_DOWN else Op.BAR_RELEASE) →
    let c (n : PlumbNode) (sound : Bool) : Instr := if scalar then .sredDown n hub ⟨m, sound⟩ else .barRelease n hub ⟨m, sound⟩
    (∀ sound, s.plumbRuns 0 (M.GROUP m) (M.SEQ m) = true → M.GROUP m ≠ s.epochGroup → Claims.Flows (c .hubs sound) s (fun t =>
      t.get F.PL_GROUPSTATE_BUSY (M.GROUP m) = 0 ∧ lookup t.plumb (plumbKey 0 (M.GROUP m)) = none
      ∧ ∀ h ∈ s.hubsUp, (∀ k ∈ s.memberClusters (M.EPOCH m) (M.GROUP m), (⟨h, 2 + k, m⟩ : PlumbSent) ∈ t.plumbOut)
        ∧ ∀ l ∈ s.childPorts (M.EPOCH m) (M.GROUP m), s.admitted (s.physOf l) = true → (⟨h, 18 + l, m⟩ : PlumbSent) ∈ t.plumbOut))
    ∧ (∀ k : Fin 16,
      (s.copyTake (2 + k.val) hub m).pairOf (2 + k.val) hub m = none → s.copies.contains (2 + k.val, otherHub hub, 0) = false →
      (scalar = true → s.plumbRuns (2 + k.val) (M.GROUP m) (M.SEQ m) = true → s.hubDown.contains (hubNo (otherHub hub)) = false →
        Claims.Flows (c (.cluster k) true) s (fun t => t.copies = s.copies ++ [(2 + k.val, hub, m)] ∧ t.plumb = s.plumb))
      ∧ (s.altered (2 + k.val) hub m = false → s.plumbRuns (2 + k.val) (M.GROUP m) (M.SEQ m) = false →
        s.abortRecorded (M.GROUP m) (M.SEQ m) = false → Claims.Flows (c (.cluster k) true) s (fun t => t.copies = s.copies
          ∧ t.get F.PL_ERRCNT_ORDER 0 = Claims.counted s F.PL_ERRCNT_ORDER 0 1)))
    ∧ (∀ k : Fin 16, Claims.Flows (c (.cluster k) false) s (fun t =>
        t.get F.PL_ERRCNT_PAIR_TIMEOUT 0 = Claims.counted s F.PL_ERRCNT_PAIR_TIMEOUT 0 1))

/-- The second copy that never comes (R256): the pair's time is counted and logged against the late hub, which after 16 in a row
is taken as down. That a port then knows a copy that comes late, and drops it, is the model's choice: log entry 49. -/
def Claims.MissedCopiesTellOnTheHub : Prop :=
  ∀ (s : State) (m : PlumbMsg) (h : Hub), s.chipReset = false →
    let late := hubNo (otherHub h)
    let miss := Nat.min 16 ((lookup s.hubMiss late).getD 0 + 1)
    let missed (t : State) : Prop := lookup t.hubMiss late = some miss ∧ (miss = 16 → late ∈ t.hubDown)
      ∧ t.get F.PL_ERRCNT_PAIR_TIMEOUT 0 = Claims.counted s F.PL_ERRCNT_PAIR_TIMEOUT 0 1
    (∀ c : Fin 16, s.copies.find? (fun x => x.1 == 2 + c.val && x.2.2 == m && m != 0) = some (2 + c.val, h, m) →
      Claims.Flows (.plumbPairExpiry (.cluster c) m) s (fun t => t.copies = s.copies.erase (2 + c.val, h, m) ∧ missed t))
    ∧ (∀ l : Fin 6, s.copies.find? (fun x => x.1 == 18 + l.val && x.2.2 == m && m != 0) = some (18 + l.val, h, m) →
      Claims.Does (.plumbPairExpiry (.port l) m) s (fun t =>
        t.copies = s.copies.erase (18 + l.val, h, m) ++ [(18 + l.val + 64, h, m)] ∧ missed t))

/-- A Plumb packet at a port (R100, R253, R298): discarded and counted in QUARANTINE, else written in compact form into the port's Plumb out
FIFO, which delivers it to both hubs, as soon as there is room. -/
def Claims.PlumbPacketsReachTheHubs : Prop :=
  ∀ (s : State) (p : Fin 6) (pkt : Packet) (e : Pooled), s.chipReset = false → headerBad pkt = false →
    classOf (pget pkt H.OPCODE) = some .plumb → s.arrivedAt p.val 0 pkt = some e →
    (s.portState p.val = PS.QUARANTINE → Claims.Does (.plumbPortIngress p pkt) s (fun t => t.plumbOut = s.plumbOut
      ∧ t.fifos = s.fifos ∧ t.get F.OP_ERRCNT_QDISCARD p.val = Claims.counted s F.OP_ERRCNT_QDISCARD p.val 1))
    ∧ (s.portState p.val ≠ PS.QUARANTINE → s.room (plumbOutOf p.val) = 0 → exec (.plumbPortIngress p pkt) s = .next s)
    ∧ (s.portState p.val = PS.ADMITTED ∨ s.portState p.val = PS.DRAINING → (s.port p.val).seqOn = true →
      s.room (plumbOutOf p.val) ≠ 0 → Claims.Does (.plumbPortIngress p pkt) s (fun t =>
        (t.fifo (plumbOutOf p.val)).stages = (s.fifo (plumbOutOf p.val)).stages
            ++ stagesOf (plumbStage (s.compact pkt) (plumbPoison pkt))
        ∧ (t.port p.val).pool = (s.port p.val).pool.erase e))

/-- An abort that does not switch its group to the standby tree is recorded for its group and sequence number, and a recorded one is
not spread again: it leaves its FIFO, whose words of bad parity are counted (R68, R263, R264).
Where the rules leave a case to reading, the model's choice is stated: log entry 24. -/
def Obligations.AbortsAreRecordedOnce : Prop :=
  ∀ (s : State) (src : PlumbFrom) (m : PlumbMsg), s.chipReset = false → M.OPCODE m = Op.ABORT → M.GROUP m < 4096 →
    ((M.STATUS m = St.UNREACHABLE → s.flag F.PL_GROUPSTATE_STANDBY (M.GROUP m) = true) →
      Claims.Flows (.abort src m) s (fun t => t.abortRecorded (M.GROUP m) (M.SEQ m) = true))
    ∧ (s.abortRecorded (M.GROUP m) (M.SEQ m) = true → Claims.Flows (.abort src m) s (fun t => t.cmds = s.cmds
      ∧ t.plumbOut.length ≤ s.plumbOut.length ∧ ∀ r n e, e < 2 → r ≠ .XB_ERRORS → t.word r n e = s.word r n e))

/-- The epoch token (R324, R327): a chip armed for the next epoch switches to it; the token of the epoch in effect is dropped;
an unexpected one, or one on a chip that is not armed, is logged and changes no bank. -/
def Claims.TheTokenSwitchesArmedChips : Prop :=
  ∀ (s : State) (port : Option (Fin 6)) (m : PlumbMsg), s.chipReset = false → M.OPCODE m = Op.EPOCH →
    let n := s.get F.RK_EPOCH_NUMBER 0
    (M.SEQ m = nextEpoch n → M.SEQ m ≠ n → s.flag F.RK_EPOCH_ARMED 0 = true → Claims.Flows (.epoch port m) s (fun t =>
      t.get F.RK_EPOCH_NUMBER 0 = M.SEQ m ∧ t.parity = M.SEQ m % 2 ∧ t.get F.RK_EPOCH_ARMED 0 = 0))
    ∧ (M.SEQ m = n ∨ M.SEQ m ≠ nextEpoch n ∨ (s.flag F.RK_EPOCH_ARMED 0 = false ∧ s.epochCtl.settle ≠ some (M.SEQ m)) →
      Claims.Flows (.epoch port m) s (fun t => t.get F.RK_EPOCH_NUMBER 0 = n ∧ t.parity = s.parity ∧ t.tune = s.tune
        ∧ t.planKeys = s.planKeys ∧ t.guard = s.guard))

/-- Retirement (R327, R329): the round whose result says that no old packet remains ends RETIRING and the shadow bank is clean;
any other result only ends the round; the poll sends a round through Alorn's Plumb out FIFO; the settling time ends. -/
def Claims.RetirementEndsWithTheOldEpoch : Prop :=
  ∀ s : State, s.chipReset = false →
    (∀ m : PlumbMsg, M.OPCODE m = Op.SRED_DOWN → M.GROUP m = s.epochGroup → s.shadow = SH.RETIRING → s.epochCtl.round = true →
      M.SEQ m = s.get F.RK_EPOCH_NUMBER 0 →
      (M.VALUE m = 0 → M.STATUS m = 0 → Claims.Does (.retirementRoundResult m) s (fun t => t.shadow = SH.CLEAN
        ∧ t.epochCtl.round = false))
      ∧ (M.VALUE m ≠ 0 ∨ M.STATUS m ≠ 0 → Claims.Does (.retirementRoundResult m) s (fun t => t.shadow = SH.RETIRING
        ∧ t.epochCtl.round = false ∧ ∀ r n e, e < 2 → r ≠ .XB_ERRORS → t.word r n e = s.word r n e)))
    ∧ (s.shadow = SH.RETIRING → s.epochCtl.round = false → s.alornRuns = true → s.flag F.PL_GROUP_VALID s.epochGroup = true →
      Claims.Does .epochPollExpiry s (fun t => t.epochCtl.round = true
        ∧ t.get F.RK_EPOCH_ROUNDS 0 = Claims.counted s F.RK_EPOCH_ROUNDS 0 1
        ∧ ∃ x, M.OPCODE x = Op.SRED_UP
          ∧ (s.room alornOut = 0 → t.plumbOut = s.plumbOut ++ [⟨24, 0, x⟩])
          ∧ (s.room alornOut ≠ 0 → t.plumbOut = s.plumbOut
            ∧ (t.fifo alornOut).stages = (s.fifo alornOut).stages ++ stagesOf (plumbStage x))))
    ∧ exec .epochSettleExpiry s = .next { s with epochCtl := { s.epochCtl with settle := none } }

/-! ### Command queues -/

/-- Queue `q` of core `i` takes the descriptor at its HEAD: the queue is open and its arrays owned, and nothing that the
descriptor `ws` asks for holds it back (R138, R141, R159). -/
def Claims.Ready (s : State) (i : Fin 256) (q : Fin 16) (ws : List Word) : Prop :=
  s.chipReset = false ∧ s.queueOpen i.val q.val = true ∧ s.arraysOwned i.val q.val = true
    ∧ ws = s.descriptor i.val q.val (s.get F.CP_QSTAT_HEAD (qCopy i.val q.val))
    ∧ s.headWaits i.val ws = false ∧ s.headFenced i.val q.val ws = false ∧ s.headFlowBusy ws = false

/-- `s` with the descriptor at the head of the queue read (R196) and the head advanced by one position. -/
def Claims.begun (s : State) (i : Fin 256) (q : Fin 16) : State :=
  let pos := s.get F.CP_QSTAT_HEAD (qCopy i.val q.val)
  (s.fetchCmd i.val q.val pos).2.put F.CP_QSTAT_HEAD (qCopy i.val q.val) ((pos + 1) % 512)

/-- The rows that start a command at the head of a queue, with the code in CMD that each is for (Table 6-3, Table 9-5). -/
def Claims.starts (i : Fin 256) (q : Fin 16) : List (Nat × Instr) :=
  [(0, .nop i q), (1, .put i q), (2, .get i q), (3, .putMc i q), (4, .atomAdd i q), (5, .atomSwap i q), (6, .signal i q),
    (0x10, .am i q), (0x11, .amReply i q), (CC.BARRIER, .barrier i q), (CC.SCALAR_REDUCE, .scalarReduce i q),
    (CC.REDUCE, .reduce i q), (CC.ALL_REDUCE, .allReduce i q), (CC.BROADCAST, .broadcast i q),
    (CC.REDUCE_SCATTER, .reduceScatter i q), (CC.ALL_GATHER, .allGather i q)]

/-- A command starts by leaving the head of its queue: HEAD advances by one position, modulo 512 (R138, R141). A queue whose arrays
the core does not own starts nothing and shows BASE_ERR (R138); a head that waits, fences or finds its flow context busy
stays where it is.
Where the rules leave a case to reading, the model's choice is stated: log entry 20. -/
def Obligations.StartingAdvancesTheHead : Prop :=
  ∀ (s : State) (i : Fin 256) (q : Fin 16) (ws : List Word) (k : Nat) (c : Instr), (k, c) ∈ Claims.starts i q →
    (Claims.Ready s i q ws → dget ws D.CMD = k → Claims.Flows c s (fun u =>
      u.get F.CP_QSTAT_HEAD (qCopy i.val q.val) = (s.get F.CP_QSTAT_HEAD (qCopy i.val q.val) + 1) % 512))
    ∧ (s.chipReset = false → s.queueOpen i.val q.val = true → s.arraysOwned i.val q.val = false → Claims.Flows c s (fun u =>
      u.get F.CP_QSTAT_BASE_ERR (qCopy i.val q.val) = 1 ∧ u.cmds = s.cmds ∧ SameBytes s u))
    ∧ (s.chipReset = false → s.queueOpen i.val q.val = true → s.arraysOwned i.val q.val = true →
      ws = s.descriptor i.val q.val (s.get F.CP_QSTAT_HEAD (qCopy i.val q.val)) →
      (s.headWaits i.val ws = true ∨ s.headFenced i.val q.val ws = true ∨ s.headFlowBusy ws = true) →
      exec c s = .next s.flow)

/-- NOP, and every transfer whose descriptor does not fit its form, completes at once (R142, R143): its record carries OK or RANGE
in its first byte and the code of the command in its second, and no byte but those of the record changes. -/
def Claims.NopAndMisfitsCompleteAtOnce : Prop :=
  ∀ (s : State) (i : Fin 256) (q : Fin 16) (ws : List Word) (k : Nat) (c : Instr), (k, c) ∈ (Claims.starts i q).take 9 →
    Claims.Ready s i q ws → dget ws D.CMD = k → Memory.wf s.mem = true →
    let at' := s.get F.CP_QBASE_COMP_BASE (qCopy i.val q.val) + 32 * (s.get F.CP_QSTAT_HEAD (qCopy i.val q.val) % 256)
    (wellDescribed ws = false ∨ pairingOk ws = false → Claims.Flows c s (fun u =>
      u.byteAt i.val at' = BitVec.ofNat 8 St.RANGE ∧ u.byteAt i.val (at' + 1) = BitVec.ofNat 8 k ∧ Claims.BytesBut i.val at' 32 s u))
    ∧ (wellDescribed ws = true → pairingOk ws = true → k = 0 → ((Claims.begun s i q).livePart i.val).isSome = true → Claims.Flows c s (fun u =>
      u.byteAt i.val at' = BitVec.ofNat 8 St.OK ∧ u.byteAt i.val (at' + 1) = 0#8 ∧ Claims.BytesBut i.val at' 32 s u))

/-- A transfer whose checks all pass issues its packets (R144, R146 to R151): the command is in progress under the next SERIAL of its
queue, with one packet per piece, none of them answered. Its destination is not the core itself. -/
def Claims.TransfersIssueTheirPackets : Prop :=
  ∀ (s : State) (i : Fin 256) (q : Fin 16) (ws : List Word) (k : Nat) (c : Instr) (part : Nat) (d : Dest),
    (k, c) ∈ ((Claims.starts i q).take 9).drop 1 → Claims.Ready s i q ws → dget ws D.CMD = k →
    let v := Claims.begun s i q
    wellDescribed ws = true → pairingOk ws = true → v.livePart i.val = some part →
    (zeroShape ws && !dflag ws D.RSIG_EN && !dflag ws D.ACK_REQ) = false → v.localCheck i.val ws = none → v.channelCheck i.val ws = none →
    v.aim i.val part ws true = .at d → v.channelFull i.val ws = false → (d.opcode = Op.PUT_MC ∨ d.ep ≠ i.val ∨ d.chip ≠ s.own) →
    s.stale = [] →
    Claims.Flows c s (fun u => SameBytes s u
      ∧ u.get F.CP_QSTAT_SERIAL (qCopy i.val q.val) = (s.get F.CP_QSTAT_SERIAL (qCopy i.val q.val) + 1) % 4096
      ∧ ∃ x ∈ u.cmds, x.core = i.val ∧ x.queue = q.val ∧ x.pos = s.get F.CP_QSTAT_HEAD (qCopy i.val q.val) ∧ x.words = ws
        ∧ x.serial = s.get F.CP_QSTAT_SERIAL (qCopy i.val q.val) ∧ x.done = false
        ∧ x.pkts.length = (cmdPieces ws (s.cmdRing i.val ws)).length ∧ ∀ p ∈ x.pkts, p.sent = true ∧ p.answer = none)

/-- A collective whose checks pass is in progress with its group's sequence number shown (R240, R243, R251): a barrier or a scalar
reduction has sent its arrival. One that fails a check completes with the status of that check.
Where the rules leave a case to reading, the model's choice is stated: log entry 25. -/
def Obligations.CollectivesStart : Prop :=
  ∀ (s : State) (i : Fin 256) (q : Fin 16) (ws : List Word) (k : Nat) (c : Instr), (k, c) ∈ (Claims.starts i q).drop 9 →
    Claims.Ready s i q ws → dget ws D.CMD = k →
    let pos := s.get F.CP_QSTAT_HEAD (qCopy i.val q.val)
    let v := Claims.begun s i q
    let x : Cmd := (s.fetchCmd i.val q.val pos).1
    (v.collCheck x (v.newRun ws) = none → Claims.Flows c s (fun u =>
      u.get F.PL_GROUPSTATE_SEQ (dget ws C.GROUP) = dget ws C.SEQ % 2 ^ F.PL_GROUPSTATE_SEQ.width
      ∧ (k = CC.BARRIER ∨ k = CC.SCALAR_REDUCE → s.get F.RK_GROUP_MEMBERS (dget ws C.GROUP) ≠ 1 →
        ∃ y ∈ u.cmds, y.core = i.val ∧ y.queue = q.val ∧ y.pos = pos ∧ ∃ r, y.coll = some r ∧ r.arrived = true
          ∧ r.group = dget ws C.GROUP ∧ r.seq = dget ws C.SEQ)))
    ∧ (∀ st, v.collCheck x (v.newRun ws) = some st → st < 16 → Memory.wf s.mem = true → Claims.Flows c s (fun u =>
      u.byteAt i.val (s.get F.CP_QBASE_COMP_BASE (qCopy i.val q.val) + 32 * (pos % 256)) = BitVec.ofNat 8 st))

/-- Time-outs (R163, R164, R270): a transfer with answers outstanding is issued again while it may be and has tries left, which
RETRIES counts, and else completes with TIMEOUT, which TIMEOUTS counts; a collective is aborted for its group.
Where the rules leave a case to reading, the model's choice is stated: log entries 20 and 25. -/
def Obligations.TimeoutsRetryCompleteOrAbort : Prop :=
  ∀ (s : State) (i : Fin 256) (q : Fin 16), s.chipReset = false → s.coreRuns i.val = true →
    (∀ (pos : BitVec 9) (c : Cmd),
      s.cmds.find? (fun c => c.core == i.val && c.queue == q.val && c.pos == pos.toNat && !c.done && c.coll.isNone) = some c →
      expectsAnswers c.words = true → s.outWait.any (fun w => waitsFor c w) = false → allAnswered c = false →
      (retryable c.words = true → c.tries < s.get F.CP_QCTL_RETRIES (qCopy i.val q.val) →
        Claims.Flows (.requestTimeout i q pos) s (fun u =>
          u.get F.CP_ERRCNT_RETRIES i.val = Claims.counted s F.CP_ERRCNT_RETRIES i.val 1))
      ∧ (retryable c.words = false ∨ s.get F.CP_QCTL_RETRIES (qCopy i.val q.val) ≤ c.tries → Memory.wf s.mem = true →
        dget c.words D.CMD ≠ 0x10 → Claims.Flows (.requestTimeout i q pos) s (fun u =>
          u.get F.CP_ERRCNT_TIMEOUTS i.val = Claims.counted s F.CP_ERRCNT_TIMEOUTS i.val 1
          ∧ u.byteAt i.val (Claims.recordAt s c) = BitVec.ofNat 8 St.TIMEOUT ∧ Claims.BytesBut i.val (Claims.recordAt s c) 32 s u)))
    ∧ (∀ (c : Cmd) (r : CollRun), s.collOn i.val q.val = some c → c.coll = some r → r.group < 4096 → (i.val, r.group, r.seq) ∉ s.raised →
      Claims.Flows (.collectiveTimeout i q) s (fun u => u.abortRecorded r.group (r.seq % 2 ^ 16) = true
        ∧ (s.abortRecorded r.group r.seq = false →
          u.get F.PL_ERRCNT_ABORTS 0 = Claims.counted s F.PL_ERRCNT_ABORTS 0 1)))

/-! ### Writes of a core -/

/-- A write of TAIL (R139): within 256 of RETIRE and not behind the TAIL before, it is taken; one too far shows FULL and
QUEUE_FULL, one that goes back RANGE, and both leave TAIL as it was. -/
def Obligations.TailWritesAreChecked : Prop :=
  ∀ (s : State) (i : Fin 256) (q : Fin 16) (v : Word), s.chipReset = false → s.coreWrites i.val = true →
    let n := qCopy i.val q.val
    let new := written v F.CP_QTAIL_TAIL
    let d := (new + 512 - s.get F.CP_QSTAT_RETIRE n) % 512
    let old := (s.get F.CP_QTAIL_TAIL n + 512 - s.get F.CP_QSTAT_RETIRE n) % 512
    (256 < d → Claims.Does (.cpQtailWrite i q v) s (fun t => t.get F.CP_QTAIL_TAIL n = s.get F.CP_QTAIL_TAIL n
      ∧ t.get F.CP_QSTAT_FULL n = 1 ∧ t.get F.CP_QSTAT_SUBMIT n = St.QUEUE_FULL))
    ∧ (d ≤ 256 → d < old → Claims.Does (.cpQtailWrite i q v) s (fun t => t.get F.CP_QTAIL_TAIL n = s.get F.CP_QTAIL_TAIL n
      ∧ t.get F.CP_QSTAT_SUBMIT n = St.RANGE))
    ∧ (d ≤ 256 → old ≤ d → Claims.Does (.cpQtailWrite i q v) s (fun t => t.get F.CP_QTAIL_TAIL n = new
      ∧ t.get F.CP_QSTAT_SUBMIT n = St.OK ∧ FieldsBut [(F.CP_QTAIL_TAIL, n), (F.CP_QSTAT_SUBMIT, n)] s t))

/-- Writes of the other registers of a core (R153, R165, R166, R171): SKIP completes the head with ABORTED; the array bases and
the ring table are taken only while unused and aligned; a counter takes the value and what was added at once. -/
def Claims.CoreRegistersTakeTheirWrites : Prop :=
  ∀ (s : State) (i : Fin 256) (v : Word), s.chipReset = false → s.coreWrites i.val = true →
    (∀ q : Fin 16,
      let n := qCopy i.val q.val
      let pos := s.get F.CP_QSTAT_HEAD n
      let d := written v F.CP_QBASE_DESC_BASE
      let c := written v F.CP_QBASE_COMP_BASE
      let fits := s.flag F.CP_QCTL_ENABLE n = false ∧ s.get F.CP_QSTAT_RETIRE n = s.get F.CP_QTAIL_TAIL n ∧ d % 0x4000 = 0
        ∧ c % 0x2000 = 0 ∧ d + 0x4000 ≤ 0x300000 ∧ c + 0x2000 ≤ 0x300000
      (pos ≠ s.get F.CP_QTAIL_TAIL n → Memory.wf s.mem = true → Claims.Flows (.skip i q) s (fun u =>
        u.get F.CP_QSTAT_HEAD n = (pos + 1) % 512
        ∧ u.byteAt i.val (s.get F.CP_QBASE_COMP_BASE n + 32 * (pos % 256)) = BitVec.ofNat 8 St.ABORTED))
      ∧ (fits → Claims.Does (.cpQbaseWrite i q v) s (fun t => t.get F.CP_QBASE_DESC_BASE n = d ∧ t.get F.CP_QBASE_COMP_BASE n = c
        ∧ FieldsBut [(F.CP_QBASE_DESC_BASE, n), (F.CP_QBASE_COMP_BASE, n)] s t))
      ∧ (¬ fits → Claims.Does (.cpQbaseWrite i q v) s (fun t => t.get F.CP_QSTAT_BASE_ERR n = 1
        ∧ FieldsBut [(F.CP_QSTAT_BASE_ERR, n)] s t)))
    ∧ (∀ (k : Fin 64) (inc : BitVec 32), Claims.Does (.cpEvcntWrite i k v inc) s (fun t =>
      t.get F.CP_EVCNT_VALUE (evCopy i.val k.val) = (written v F.CP_EVCNT_VALUE + inc.toNat) % 2 ^ 32
      ∧ FieldsBut [(F.CP_EVCNT_VALUE, evCopy i.val k.val)] s t))
    ∧ (let base := written v F.CP_RINGTAB_BASE
      (s.anyRing i.val = false → (written v F.CP_RINGTAB_VALID = 1 → base % 0x20000 = 0 ∧ base + 0x20000 ≤ 0x300000) →
        Claims.Does (.cpRingtabWrite i v) s (fun t => t.get F.CP_RINGTAB_BASE i.val = base
          ∧ t.get F.CP_RINGTAB_VALID i.val = written v F.CP_RINGTAB_VALID))
      ∧ (s.anyRing i.val = true → Claims.Does (.cpRingtabWrite i v) s (fun t => t.get F.CP_RINGTAB_TAB_ERR i.val = 1
        ∧ FieldsBut [(F.CP_RINGTAB_TAB_ERR, i.val)] s t)))

/-- Rings (R168 to R170, R196): an advance that the ring allows moves READ_POS, another is counted in BADADV; an entry that
fits enables an empty ring at its base and size, and only the errors of reading it are counted; a disabled ring is gone. -/
def Claims.RingsAreAdvancedEnabledDisabled : Prop :=
  ∀ (s : State) (i : Fin 256) (ring : BitVec 12), s.chipReset = false → s.coreWrites i.val = true →
    let key := ringKey i.val ring.toNat
    (∀ (pos : BitVec 21) (r : Ring), lookup s.rings key = some r → pos.toNat % 64 = 0 → pos.toNat < 2 * r.size →
      (r.writePos + 2 * r.size - pos.toNat) % (2 * r.size) ≤ r.used → (∀ h ∈ s.holds, h.core ≠ i.val) →
      Claims.Flows (.ringAdvance i ring pos) s (fun u => lookup u.rings key = some { r with readPos := pos.toNat } ∧ u.regs = s.regs))
    ∧ (∀ pos : BitVec 21, (lookup s.rings key = none ∨ pos.toNat % 64 ≠ 0) → Claims.Flows (.ringAdvance i ring pos) s (fun u =>
      u.rings = s.rings ∧ u.get F.CP_RINGERR_BADADV i.val = Claims.counted s F.CP_RINGERR_BADADV i.val 1 ∧ SameBytes s u))
    ∧ (let w : Word := BitVec.ofNat 64 (s.readNat i.val (s.ringEntry i.val ring.toNat) 8)
      let base := fieldGet w 0 22
      let size := 2 ^ fieldGet w 24 5
      s.flag F.CP_RINGTAB_VALID i.val = true → lookup s.rings key = none → 8 ≤ fieldGet w 24 5 → fieldGet w 24 5 ≤ 20 →
        base % size = 0 → base + size ≤ 0x300000 → s.coreOwnsAll i.val base size = true →
        s.coreOwnsAll i.val (s.get F.CP_RINGTAB_BASE i.val) 0x20000 = true → Claims.Does (.ringEnable i ring) s (fun t =>
          lookup t.rings key = some ⟨base, size, decide (fieldGet w 32 1 = 1), fieldGet w 33 6, 0, 0, 0⟩
          ∧ ∀ r n e, e < 2 → r ≠ .CP_BANKERR → t.word r n e = s.word r n e))
    ∧ (s.flag F.CP_RINGTAB_VALID i.val = false → Claims.Does (.ringEnable i ring) s (fun t => t.rings = s.rings
      ∧ t.get F.CP_RINGERR_CFGERR i.val = Claims.counted s F.CP_RINGERR_CFGERR i.val 1))
    ∧ (∀ r, lookup s.rings key = some r → (∀ h ∈ s.holds, h.core ≠ i.val) → Claims.Flows (.ringDisable i ring) s (fun u =>
      lookup u.rings key = none ∧ u.regs = s.regs))

/-- Handovers (R201 to R207, Table 8-4): the request of a core is answered at once in RESULT by the first cause of Table 8-4 that applies: RANGE for
a bank or a next owner that is not allowed; BROKEN for a claim, which gives the bank; REFUSED while the bank is PENDING or no entry
is free; NO_OWNER for a bank of another; else OK, and the bank is PENDING with its NEXT fields, its RK_HANDOVER entry and the
core's PENDING set. A pending bank that is drained goes to its next owner, and one whose lease ends is BROKEN.
Where the rules leave a case to reading, the model's choice is stated: log entry 22. -/
def Obligations.BanksAreHandedOver : Prop :=
  ∀ s : State, s.chipReset = false →
    (∀ (i : Fin 256) (v : Word), s.coreWrites i.val = true → s.flag F.CP_HANDOVER_ANSWERED i.val = false → s.alorn.banksToDo = [] →
      exec (.cpHandoverWrite i v) s = .next s)
    ∧ (∀ (i : Fin 256) (v : Word), s.coreWrites i.val = true → s.flag F.CP_HANDOVER_ANSWERED i.val = true → s.alorn.banksToDo = [] →
      let h := handoverOf v
      let state := s.bank F.CP_BANKOWN_STATE h.mem h.bank
      let mine : Prop := s.bank F.CP_BANKOWN_OWNER_EP h.mem h.bank = i.val
        ∧ s.partOfCore i.val = some (s.bank F.CP_BANKOWN_OWNER_PART h.mem h.bank)
      let next : Prop := s.bank F.CP_BANKOWN_NEXT_EP h.mem h.bank = i.val ∧ h.ep = i.val
        ∧ h.part = s.bank F.CP_BANKOWN_NEXT_PART h.mem h.bank
      let ends (st : Nat) (P : State → Prop) : Prop := Claims.Does (.cpHandoverWrite i v) s (fun t =>
        t.get F.CP_HANDOVER_RESULT i.val = st ∧ t.get F.CP_HANDOVER_BANK_EP i.val = written v F.CP_HANDOVER_BANK_EP
        ∧ t.get F.CP_HANDOVER_NEW_EP i.val = written v F.CP_HANDOVER_NEW_EP ∧ P t)
      let still (t : State) : Prop := t.bank F.CP_BANKOWN_STATE h.mem h.bank = state ∧ t.hoPending = s.hoPending
      (s.handoverValid h = false ∨ s.partOfCore i.val ≠ some h.part → ends St.RANGE still)
      ∧ (s.handoverValid h = true → s.partOfCore i.val = some h.part →
        (state = 3 → mine ∨ next → ends St.BROKEN (fun t => t.bank F.CP_BANKOWN_STATE h.mem h.bank = 1
          ∧ t.bank F.CP_BANKOWN_NET_HELD h.mem h.bank = h.net ∧ (h.net = 0 → t.bank F.CP_BANKOWN_OWNER_EP h.mem h.bank = h.ep)))
        ∧ (state = 2 → ends St.REFUSED still)
        ∧ (state ≠ 2 → ¬(state = 3 ∧ (mine ∨ next)) → ¬(state = 1 ∧ mine) → ends St.NO_OWNER still)
        ∧ (state = 1 → mine → s.hoFree = none → ends St.REFUSED still)
        ∧ (state = 1 → mine → ∀ k, s.hoFree = some k → ends St.OK (fun t => t.bank F.CP_BANKOWN_STATE h.mem h.bank = 2
          ∧ t.bank F.CP_BANKOWN_NEXT_NET h.mem h.bank = h.net ∧ t.bank F.CP_BANKOWN_NEXT_PART h.mem h.bank = h.part
          ∧ t.bank F.CP_BANKOWN_NEXT_EP h.mem h.bank = h.ep
          ∧ t.flag F.RK_HANDOVER_VALID k = true ∧ t.get F.RK_HANDOVER_BANK_EP k = h.mem ∧ t.get F.RK_HANDOVER_BANK k = h.bank
          ∧ t.get F.RK_HANDOVER_HOLDER_EP k = i.val ∧ t.get F.CP_HANDOVER_PENDING i.val = 1
          ∧ t.hoPending = s.hoPending ++ [(i.val, h.mem, h.bank)]))))
    ∧ (∀ (ep : BitVec 9) (b : BitVec 8), b.toNat < bankCount ep.toNat → s.bank F.CP_BANKOWN_STATE ep.toNat b.toNat = 2 →
      (s.bankDrained ep.toNat b.toNat = true → s.alorn.banksToDo = [] → Claims.Does (.handoverDrainDone ep b) s (fun t =>
        t.bank F.CP_BANKOWN_STATE ep.toNat b.toNat = 1
        ∧ t.bank F.CP_BANKOWN_NET_HELD ep.toNat b.toNat = s.bank F.CP_BANKOWN_NEXT_NET ep.toNat b.toNat
        ∧ (s.bank F.CP_BANKOWN_NEXT_NET ep.toNat b.toNat = 0 →
          t.bank F.CP_BANKOWN_OWNER_EP ep.toNat b.toNat = s.bank F.CP_BANKOWN_NEXT_EP ep.toNat b.toNat)))
      ∧ (s.mgLost = false → Claims.Does (.handoverLeaseExpiry ep b) s (fun t => t.bank F.CP_BANKOWN_STATE ep.toNat b.toNat = 3
        ∧ t.bank F.CP_BANKOWN_OWNER_EP ep.toNat b.toNat = s.bank F.CP_BANKOWN_OWNER_EP ep.toNat b.toNat)))

/-- Register writes by their path (R6, R12, R20, R333): a core writes its own counters, the host the request buffer while
REQ_BUSY is clear; a register that is a core's configuration refuses the write and shows its offset; any other path, a width
that is not 8 bytes and an address that is not aligned change nothing.
Where the rules leave a case to reading, the model's choice is stated: log entry 32. -/
def Obligations.RegisterWritesFollowTheirPath : Prop :=
  ∀ (s : State) (path : WritePath) (addr : BitVec 32) (bytes : Nat) (v : Word), s.chipReset = false →
    (bytes ≠ 8 ∨ addr.toNat % 8 ≠ 0 ∨ path = .other → exec (.registerWrite path addr bytes v) s = .next s)
    ∧ (∀ (i : Fin 256) (n : Nat), path = .core i → bytes = 8 → addr.toNat % 8 = 0 → s.coreWrites i.val = true → s.alorn.banksToDo = [] →
      (regAt 0 addr.toNat = some (.CP_EVCNT, n) → Claims.Flows (.registerWrite path addr bytes v) s (fun u =>
        u.get F.CP_EVCNT_VALUE (evCopy i.val n) = written v F.CP_EVCNT_VALUE ∧ FieldsBut [(F.CP_EVCNT_VALUE, evCopy i.val n)] s u))
      ∧ (regAt 0 addr.toNat = some (.CP_AMCHAN, n) → Claims.Flows (.registerWrite path addr bytes v) s (fun u =>
        u.get F.CP_ERRAUX_REFUSED i.val = 1
        ∧ FieldsBut [(F.CP_ERRAUX_REFUSED, i.val), (F.CP_ERRAUX_REFUSED_OFFSET, i.val)] s u)))
    ∧ (∀ n, path = .host → bytes = 8 → addr.toNat % 8 = 0 → s.mgLost = false → addr.toNat / 2 ^ 24 = 9 →
      regAt 9 (addr.toNat % 2 ^ 24) = some (.AL_MBREQ, n) →
      (s.flag F.AL_MBCTL_REQ_BUSY 0 = false → Claims.Does (.registerWrite path addr bytes v) s (fun t => t.word .AL_MBREQ n = v
        ∧ FieldsBut [(⟨.AL_MBREQ, 0, 64⟩, n)] s t))
      ∧ (s.flag F.AL_MBCTL_REQ_BUSY 0 = true → Claims.Does (.registerWrite path addr bytes v) s (fun t =>
        t.get F.AL_MBCTL_DB_IGNORED 0 = 1 ∧ FieldsBut [(F.AL_MBCTL_DB_IGNORED, 0)] s t)))

/-! ### Alorn's requests -/

/-- The words `ws` have gone back to the requester `a` (R333, R334, R336): they stand in AL_MBRSP with RSP_VALID, or are the
latest MCTP response, or left as a MGMT response where Alorn has a window at that port. -/
def Claims.Delivered (u : State) (a : Asker) (ws : List Word) : Prop :=
  (a.src = .mailbox → u.get F.AL_MBCTL_RSP_VALID 0 = 1 ∧ ∀ k, k < ws.length → k < 128 → u.word .AL_MBRSP k = ws.getD k 0)
  ∧ (∀ eid, a.src = .mctp eid → u.alorn.outbox.getLast? = some ⟨eid, a.msgTag, a.ic, ws⟩)
  ∧ (∀ p o, a.src = .relayed p o → u.window (egwin p.val 2 21) ≠ 0 →
      Claims.Sent u (u.outFifo 287 (u.mgmtPacket p.val true a.hdr ws)) (u.mgmtPacket p.val true a.hdr ws))

/-- Who asks by a request row. -/
def Claims.asker (src : Source) (tag : BitVec 32) : Asker := ⟨src, tag, 0, false, tag.truncate 16⟩

/-- The request of source `src` with TAG `tag` is answered: the response stands in the cache, IN_PROGRESS while the command runs,
and has gone back (R339, R340). -/
def Claims.Answered (u : State) (src : Source) (tag : BitVec 32) (cmd st detail : Nat) (data : List Word) : Prop :=
  (∃ e ∈ u.alorn.cache, e.src = src ∧ e.tag = tag ∧ e.busy = decide (st = AS.IN_PROGRESS)
    ∧ e.resp = u.responseWords cmd st tag detail data)
  ∧ Claims.Delivered u (Claims.asker src tag) (u.responseWords cmd st tag detail data)

/-- The checksum by which a repeat is told (R342). -/
def Claims.crcOf (ws : List Word) : BitVec 32 := BitVec.ofNat 32 (crc32 ((wordBytes ws).take (8 * ws.length)))

/-- The state in which Alorn carries a new request out: a mailbox request keeps REQ_BUSY, the lease of the lock's holder starts
again, and the request has its cache entry (R333, R342, R347). -/
def Claims.heard (s : State) (src : Source) (cmd : Nat) (tag : BitVec 32) (args : List Word) : State :=
  let s := if src = .mailbox then s.put F.AL_MBCTL_REQ_BUSY 0 1 else s
  let s := if s.holdsLock src then s.modAlorn (fun a => { a with lockSince := s.now }) else s
  s.addCache ⟨src, tag, Claims.crcOf (requestWords src cmd tag args), true, []⟩

/-- Alorn takes the request of a row as it comes (R333, R339): it runs, nothing waits before it, no LANE_SPARE holds it, and the
mailbox is free where the request comes by it. -/
def Claims.Taken (s : State) (src : Source) : Prop :=
  s.chipReset = false ∧ s.takesRequests = true ∧ s.alorn.intake = [] ∧ (src = .mailbox → s.flag F.AL_MBCTL_REQ_BUSY 0 = false)

/-- Alorn carries the request of a row out (R338, R341, R342, R344, R357): it takes it, the TAG is new to it, the arguments keep
their layout, the life-cycle accepts the command, no self-test runs, the lock is held where the command needs it, and the
command's family has room. -/
def Claims.Heard (s : State) (src : Source) (cmd : Nat) (tag : BitVec 32) (args : List Word) : Prop :=
  Claims.Taken s src ∧ (∀ e ∈ s.alorn.cache, e.src = src → e.tag ≠ tag)
    ∧ args.length ≤ 126 ∧ layoutSound cmd (requestWords src cmd tag args) = true
    ∧ (s.fuse.lifecycle ≠ LC.DECOMMISSIONED ∨ acceptedLast cmd (args.getD 0 0) = true)
    ∧ s.backgroundOf AC.SELF_TEST = [] ∧ (needsLock cmd (args.getD 0 0) = true → s.holdsLock src = true)
    ∧ s.familyFull cmd (args.getD 0 0) = false

/-- The request rows, each with its command code and the arguments it carries (Tables 13-5 and 13-6). -/
def Claims.requests (src : Source) (tag : BitVec 32) (w v : Word) (l m : List Word) : List (Nat × List Word × Instr) :=
  [(AC.GET_VERSION, [], .getVersion src tag), (AC.GET_CENSUS, [], .getCensus src tag), (AC.SELF_TEST, [w], .selfTest src tag w),
    (AC.CLAIM, [w], .claim src tag w), (AC.RELEASE, [], .release src tag),
    (AC.LOAD_STENCIL, [fixed 0 2 0 w], .loadStencilBegin src tag w),
    (AC.LOAD_STENCIL, fixed 0 2 1 w :: l, .loadStencilData src tag w l),
    (AC.LOAD_STENCIL, [fixed 0 2 2 w], .loadStencilCommit src tag w),
    (AC.LOAD_STENCIL, [fixed 0 2 3 w], .loadStencilDiscard src tag w), (AC.APPLY_EPOCH, [fixed 16 1 0 w], .applyEpoch src tag w),
    (AC.APPLY_EPOCH, [fixed 16 1 1 w], .applyEpochCancel src tag w), (AC.QUIESCE, [w], .quiesce src tag w),
    (AC.RESUME, [w], .resume src tag w), (AC.FENCE, [w], .fence src tag w)]
  ++ [(AC.PORT_ADMIT, [w], .portAdmit src tag w), (AC.PORT_QUARANTINE, [w], .portQuarantine src tag w),
    (AC.PORT_REMAP, [w], .portRemap src tag w), (AC.LANE_SPARE, [w], .laneSpare src tag w),
    (AC.LASER_PREPARE, [w], .laserPrepare src tag w), (AC.LASER_RESTORE, [w], .laserRestore src tag w),
    (AC.SET_COORDS, [w], .setCoords src tag w), (AC.SET_TIMEBASE, [w, v], .setTimebase src tag w v),
    (AC.BANK_HANDOVER, [w], .bankHandover src tag w), (AC.READ_COUNTERS, [w, v], .readCounters src tag w v),
    (AC.READ_EVENTS, [w], .readEvents src tag w), (AC.SEAL_KEY, w :: (l ++ m), .sealKey src tag w l m),
    (AC.ZEROIZE, [], .zeroize src tag), (AC.LIFECYCLE, w :: (l ++ m), .lifecycle src tag w l m)]

/-- The ways a request comes to Alorn (R333, R334, R339, R353): DOORBELL takes the mailbox and puts its request into the intake,
and while REQ_BUSY is only noted; RSP_TAKEN frees the mailbox; an MCTP message with the enterprise number enters the intake and one
of more than 1,029 bytes is counted; Alorn takes the oldest request, and a held one moves in; a request for a neighbour becomes a
relay; a request that Alorn cannot take yet joins the intake, and one by the mailbox while REQ_BUSY is ignored. The TAG of a relay's
packet is the model's reading: log entry 30. -/
def Claims.RequestsComeToAlorn : Prop :=
  ∀ s : State, s.chipReset = false →
    (s.mgLost = false → s.flag F.AL_MBCTL_REQ_BUSY 0 = true → Claims.Does .doorbell s (fun t =>
      t.get F.AL_MBCTL_DB_IGNORED 0 = 1 ∧ t.alorn = s.alorn ∧ FieldsBut [(F.AL_MBCTL_DB_IGNORED, 0)] s t))
    ∧ (s.mgLost = false → s.flag F.AL_MBCTL_REQ_BUSY 0 = false → s.halted = false → Claims.Does .doorbell s (fun t =>
      t.get F.AL_MBCTL_REQ_BUSY 0 = 1 ∧ FieldsBut [(F.AL_MBCTL_REQ_BUSY, 0)] s t
      ∧ (s.alorn.intake.length < 64 → t.alorn = { s.alorn with intake := s.alorn.intake ++ [s.mailboxRequest] })
      ∧ (64 ≤ s.alorn.intake.length → t.alorn = { s.alorn with held := s.alorn.held ++ [s.mailboxRequest] })))
    ∧ (s.mgLost = false → Claims.Does .rspTaken s (fun t => t.get F.AL_MBCTL_RSP_VALID 0 = 0 ∧ t.get F.AL_MBCTL_REQ_BUSY 0 = 0
      ∧ t.alorn = s.alorn ∧ FieldsBut [(F.AL_MBCTL_RSP_VALID, 0), (F.AL_MBCTL_REQ_BUSY, 0)] s t))
    ∧ (∀ (eid : BitVec 8) (mt : BitVec 3) (ic : Bool) (bs : List Byte), s.mgLost = false → (bs.getD 0 0).toNat % 128 = 0x7F →
      (1029 < bs.length → Claims.Does (.mctpMessage eid mt ic bs) s (fun t => t.alorn = s.alorn
        ∧ t.get F.AL_ERRCNT_INTAKE_DROP 0 = Claims.counted s F.AL_ERRCNT_INTAKE_DROP 0 1
        ∧ FieldsBut [(F.AL_ERRCNT_INTAKE_DROP, 0)] s t))
      ∧ (bs.length ≤ 1029 → (bs.drop 1).take 4 = leBytes 4 Config.enterprise.toNat → s.halted = false →
        s.alorn.intake.length < 64 → Claims.Does (.mctpMessage eid mt ic bs) s (fun t => FieldsBut [] s t
          ∧ ∃ r, t.alorn = { s.alorn with intake := s.alorn.intake ++ [r] } ∧ r.src = .mctp eid ∧ r.len = bs.length - 5
            ∧ r.msgTag = mt ∧ r.ic = ic ∧ (wordBytes r.words).take r.len = bs.drop 5)))
    ∧ (∀ r t, s.takesRequests = true → s.alorn.intake = r :: t → Claims.Flows .requestTaken s (fun u =>
      u.alorn.intake = t ++ s.alorn.held.take 1 ∧ u.alorn.held = s.alorn.held.drop 1))
    ∧ (∀ r t l, s.takesRequests = true → s.alorn.intake = r :: t → (∀ e ∈ s.alorn.cache, e.src = r.src → e.tag ≠ rqTag r.words) →
      headerSound r.src r.words r.len = true → relayedSource r.src = false → rqVia r.words = l → l < 6 →
      3 ≤ s.portState (s.physOf l) → s.portState (s.physOf l) ≤ 5 → s.window (egwin l 2 21) ≠ 0 →
      Claims.Flows .requestTaken s (fun u =>
        ∃ x, u.alorn.relays = s.alorn.relays ++ [x] ∧ x.port = l ∧ x.hdr = s.relayTag l (rqTag r.words) ∧ x.asker.src = r.src
          ∧ x.asker.tag = rqTag r.words ∧ u.alorn.cache = s.alorn.cache))
    ∧ (∀ (src : Source) (tag : BitVec 32) (w v : Word) (l m : List Word) (cmd : Nat) (args : List Word) (c : Instr),
      (cmd, args, c) ∈ Claims.requests src tag w v l m → s.mgLost = false →
      (src = .mailbox → s.flag F.AL_MBCTL_REQ_BUSY 0 = true → Claims.Does c s (fun t =>
        t.get F.AL_MBCTL_DB_IGNORED 0 = 1 ∧ t.alorn = s.alorn ∧ FieldsBut [(F.AL_MBCTL_DB_IGNORED, 0)] s t))
      ∧ (s.halted = false → (src = .mailbox → s.flag F.AL_MBCTL_REQ_BUSY 0 = false) →
        s.takesRequests = false ∨ s.alorn.intake ≠ [] → s.alorn.intake.length < 64 → Claims.Does c s (fun t =>
          ∃ r, t.alorn = { s.alorn with intake := s.alorn.intake ++ [r] } ∧ r.src = src
            ∧ r.words = requestWords src cmd tag args ∧ FieldsBut [(F.AL_MBCTL_REQ_BUSY, 0)] s t)))

/-- The I3C interface (R335, R347, R352): each control command is answered while Alorn runs, held while it restarts and dropped by a
halted Alorn; GETSTATUS is answered without firmware, and a reset of the interface or a new endpoint ID breaks a lock that an MCTP
endpoint holds.
Where the rules leave a case to reading, the model's choice is stated: log entries 2, 6 and 35. -/
def Obligations.ControlCommandsAreAnswered : Prop :=
  ∀ s : State, s.chipReset = false →
    (s.halted = true → (∀ eid, exec (.setEndpointId eid) s = .next s) ∧ exec .getEndpointId s = .next s
      ∧ exec .getMctpVersionSupport s = .next s ∧ exec .getMessageTypeSupport s = .next s
      ∧ exec .getVendorDefinedMsgSupport s = .next s)
    ∧ (s.halted = false → s.mgLost = false → s.alornRuns = false →
      let holds (c : Instr) (x : Nat × Byte) : Prop :=
        exec c s = .next { s with alorn := { s.alorn with i3cHeld := s.alorn.i3cHeld ++ [x] } }
      (∀ eid, holds (.setEndpointId eid) (0, eid)) ∧ holds .getEndpointId (1, 0) ∧ holds .getMctpVersionSupport (2, 0)
        ∧ holds .getMessageTypeSupport (3, 0) ∧ holds .getVendorDefinedMsgSupport (4, 0))
    ∧ (s.alornRuns = true →
      (∀ eid : BitVec 8, Claims.Does (.setEndpointId eid) s (fun t => t.alorn.eid = eid ∧ t.alorn.i3cOut = s.alorn.i3cOut ++ [[eid]]
        ∧ (s.get F.AL_LOCK_SRC 0 = 1 → t.get F.AL_LOCK_HELD 0 = 0)))
      ∧ Claims.Does .getEndpointId s (fun t => t = { s with alorn := { s.alorn with i3cOut := s.alorn.i3cOut ++ [[s.alorn.eid]] } })
      ∧ Claims.Does .getMctpVersionSupport s (fun t => t = { s with alorn := { s.alorn with i3cOut :=
          s.alorn.i3cOut ++ [Config.mctpVersions.flatMap (fun v => leBytes 4 v.toNat)] } })
      ∧ Claims.Does .getMessageTypeSupport s (fun t => t = { s with alorn := { s.alorn with i3cOut := s.alorn.i3cOut ++ [[0x7F#8]] } })
      ∧ Claims.Does .getVendorDefinedMsgSupport s (fun t => t = { s with alorn := { s.alorn with i3cOut :=
          s.alorn.i3cOut ++ [leBytes 4 Config.enterprise.toNat] } }))
    ∧ (s.mgLost = false → Claims.Does .getstatus s (fun t => ∃ b : Byte, t.alorn = { s.alorn with i3cOut := s.alorn.i3cOut ++ [[b]] }
        ∧ b.getLsbD 0 = decide (s.get F.AL_STATUS_STATE 0 = 0) ∧ b.getLsbD 1 = decide (s.get F.AL_STATUS_STATE 0 = 2)
        ∧ b.getLsbD 2 = s.unread ∧ FieldsBut [] s t))
    ∧ Claims.Does .i3cTargetReset s (fun t =>
        (s.get F.AL_LOCK_SRC 0 = 1 ∧ s.flag F.AL_LOCK_HELD 0 = true → t.get F.AL_LOCK_HELD 0 = 0 ∧ t.get F.AL_LOCK_BROKEN 0 = 1)
        ∧ (s.get F.AL_LOCK_SRC 0 ≠ 1 ∨ s.flag F.AL_LOCK_HELD 0 = false → t = s))

/-- A request with a TAG that its source has in the cache is not executed (R342): an exact repeat is answered with the response
kept, REPEAT set, or with IN_PROGRESS; one whose bytes differ with RANGE and DETAIL 1. Nothing but Alorn's own state and the
mailbox changes where the source is no neighbour. -/
def Claims.RepeatsAreAnsweredFromTheCache : Prop :=
  ∀ (s : State) (src : Source) (tag : BitVec 32) (w v : Word) (l m : List Word) (cmd : Nat) (args : List Word) (c : Instr) (e : CacheEnt),
    (cmd, args, c) ∈ Claims.requests src tag w v l m → Claims.Taken s src →
    s.alorn.cache.find? (fun x => x.src == src && x.tag == tag) = some e →
    Claims.Flows c s (fun u => u.alorn.cache = s.alorn.cache ∧ u.alorn.background = s.alorn.background
      ∧ (e.crc = Claims.crcOf (requestWords src cmd tag args) → Claims.Delivered u (Claims.asker src tag)
        (withBit 16 (if e.resp = [] then u.responseWords cmd AS.IN_PROGRESS tag 0 [] else e.resp)))
      ∧ (e.crc ≠ Claims.crcOf (requestWords src cmd tag args) → Claims.Delivered u (Claims.asker src tag)
        (u.responseWords cmd AS.RANGE tag 1 []))
      ∧ (relayedSource src = false → Within ⟨[.AL_MBCTL, .AL_MBRSP], [.alorn]⟩ s u))

/-- Commands that inform (R345, R391, R392, Table 13-8): GET_VERSION and GET_CENSUS answer with the chip's identity, READ_COUNTERS
with the registers named and clears them with CLEAR, READ_EVENTS with the records from FROM on; SELF_TEST runs in the background while
the chip is idle, and ends with the tests that failed and an empty fabric.
Where the rules leave a case to reading, the model's choice is stated: log entries 2 and 30. -/
def Obligations.InformingCommandsAnswer : Prop :=
  ∀ (s : State) (src : Source) (tag : BitVec 32) (w v : Word),
    (Claims.Heard s src AC.GET_VERSION tag [] → Claims.Flows (.getVersion src tag) s (fun u =>
      ∃ d, Claims.Answered u src tag AC.GET_VERSION AS.OK 0 d ∧ d.length = 10 ∧ d.getD 1 0 = s.fuse.chipId
        ∧ (s.fuse.lifecycle < 4 → fieldGet (d.getD 0 0) 16 2 = s.fuse.lifecycle) ∧ fieldGet (d.getD 2 0) 0 16 = s.get F.RK_EPOCH_NUMBER 0
        ∧ SameBytes s u))
    ∧ (Claims.Heard s src AC.GET_CENSUS tag [] → Claims.Flows (.getCensus src tag) s (fun u =>
      ∃ d, Claims.Answered u src tag AC.GET_CENSUS AS.OK 0 d ∧ d.length = 5
        ∧ ∀ ep, ep < 320 → (d.getD (ep / 64) 0).getLsbD (ep % 64) = s.present ep))
    ∧ (∀ rs, Claims.Heard s src AC.READ_COUNTERS tag [w, v] →
      (List.range (fieldGet w 8 8)).mapM (fun k => windowReg (fieldGet w 0 4) (fieldGet v 0 32 + k * fieldGet w 16 32)) = some rs →
      let h := Claims.heard s src AC.READ_COUNTERS tag [w, v]
      Claims.Flows (.readCounters src tag w v) s (fun u =>
        Claims.Answered u src tag AC.READ_COUNTERS AS.OK 0 (rs.map (fun e => h.readReg e.1 e.2))
        ∧ (fieldGet w 4 1 = 1 → src = .mailbox → ∀ e ∈ rs, e.1.info.clear ≠ 0 →
          u.word e.1 e.2 = s.word e.1 e.2 &&& ~~~ e.1.info.clear)
        ∧ (fieldGet w 4 1 = 0 → relayedSource src = false → ∀ r n b, b < 2 → r ≠ .AL_MBCTL → r ≠ .AL_MBRSP →
          u.word r n b = s.word r n b)))
    ∧ (Claims.Heard s src AC.READ_EVENTS tag [w] →
      let x := s.eventsFrom (fieldGet w 0 32) (fieldGet w 32 5)
      let next := if x.1 = [] then fieldGet w 0 32 else (x.2.2 + x.1.length) % 2 ^ 32
      Claims.Flows (.readEvents src tag w) s (fun u => u.readNext = Nat.max s.readNext next ∧ u.log = s.log
        ∧ ∃ d, Claims.Answered u src tag AC.READ_EVENTS AS.OK 0 d ∧ d.length = 1 + 4 * x.1.length
          ∧ fieldGet (d.getD 0 0) 0 32 = next
          ∧ ∀ k r, x.1[k]? = some r → (d.drop (1 + 4 * k)).take 4 = [r.w0, r.w1, r.w2, r.w3]))
    ∧ (Claims.Heard s src AC.SELF_TEST tag [w] → (s.get F.RK_EPOCH_NUMBER 0 = 0 ∨ s.anyActive = false) →
      (∀ p, p < 6 → s.portState p = PS.DARK ∨ s.portState p = PS.DOWN) → Claims.Flows (.selfTest src tag w) s (fun u =>
        u.alorn.background = s.alorn.background ++ [⟨src, tag, AC.SELF_TEST, fieldGet w 0 4⟩]
        ∧ Claims.Answered u src tag AC.SELF_TEST AS.IN_PROGRESS 0 [] ∧ SameBytes s u))
    ∧ (∀ (failed : BitVec 4) (first : Word) b rest, s.chipReset = false → s.alornRuns = true → s.backgroundOf AC.SELF_TEST = b :: rest →
      Claims.Flows (.selfTestDone failed first) s (fun u => u.fifos = [] ∧ u.links = [] ∧ u.grants = [] ∧ u.waits = []
        ∧ u.alorn.background = s.alorn.background.erase b ∧ u.mem = s.mem
        ∧ ∀ e ∈ u.alorn.cache, e.src = b.src → e.tag = b.tag → e.busy = false
          ∧ e.resp = u.responseWords AC.SELF_TEST AS.OK b.tag 0 [BitVec.ofNat 64 (failed.toNat &&& b.arg), first &&& 0x07FF07FF#64]))

/-- The management lock (R346 to R348): CLAIM takes a free lock for its source and job, tells once of a break, renews the
lease of its holder, and is refused while another holds it; RELEASE frees it; the lease of a silent holder breaks it and empties the staging bound to the holder.
Where the rules leave a case to reading, the model's choice is stated: log entry 30. -/
def Obligations.TheLockHasOneHolder : Prop :=
  ∀ (s : State) (src : Source) (tag : BitVec 32) (w : Word),
    (Claims.Heard s src AC.CLAIM tag [w] → s.flag F.AL_LOCK_HELD 0 = false → Claims.Flows (.claim src tag w) s (fun u =>
      u.holdsLock src = true ∧ u.get F.AL_LOCK_JOB 0 = fieldGet w 0 16 ∧ u.get F.AL_LOCK_BROKEN 0 = 0 ∧ u.alorn.lockSince = s.now
      ∧ ∃ d, Claims.Answered u src tag AC.CLAIM (if s.flag F.AL_LOCK_BROKEN 0 then AS.BROKEN else AS.OK) 0 [d]
        ∧ (s.flag F.AL_LOCK_BROKEN 0 = true → d = holderWord s.alorn.brokenLock s.alorn.brokenCause)))
    ∧ (Claims.Heard s src AC.CLAIM tag [w] → s.holdsLock src = true → Claims.Flows (.claim src tag w) s (fun u =>
      u.word .AL_LOCK 0 = s.word .AL_LOCK 0 ∧ u.alorn.lockSince = s.now
      ∧ Claims.Answered u src tag AC.CLAIM AS.OK 0 [holderWord (s.word .AL_LOCK 0) 0]))
    ∧ (Claims.Heard s src AC.CLAIM tag [w] → s.flag F.AL_LOCK_HELD 0 = true → s.holdsLock src = false →
      Claims.Flows (.claim src tag w) s (fun u => u.word .AL_LOCK 0 = s.word .AL_LOCK 0
        ∧ Claims.Answered u src tag AC.CLAIM AS.NOT_HOLDER 0 [holderWord (s.word .AL_LOCK 0) 0]))
    ∧ (Claims.Heard s src AC.RELEASE tag [] → s.holdsLock src = true → Claims.Flows (.release src tag) s (fun u =>
      u.get F.AL_LOCK_HELD 0 = 0 ∧ (s.alorn.stageSrc = some src → u.alorn.stage = [])
      ∧ Claims.Answered u src tag AC.RELEASE AS.OK 0 []))
    ∧ (Claims.Heard s src AC.RELEASE tag [] → s.holdsLock src = false → Claims.Flows (.release src tag) s (fun u =>
      u.word .AL_LOCK 0 = s.word .AL_LOCK 0 ∧ Claims.Answered u src tag AC.RELEASE AS.NOT_HOLDER 0 []))
    ∧ (s.chipReset = false → s.mgLost = false → s.holderBusy = false → s.flag F.AL_LOCK_HELD 0 = true →
      Claims.Does .lockLeaseExpiry s (fun t => t.get F.AL_LOCK_HELD 0 = 0 ∧ t.get F.AL_LOCK_BROKEN 0 = 1 ∧ t.alorn.brokenCause = 2
        ∧ t.alorn.brokenLock = s.lockImage ∧ Logged s t evLockBroken 9 0 s.lockImage.toNat 2
        ∧ (∀ x, s.alorn.stageSrc = some x → s.holdsLock x = true → t.alorn.stage = [])))

/-- LOAD_STENCIL (R308, R313 to R315, R321, Table 12-9): BEGIN binds the staging store to its source, DATA writes its bytes there, DISCARD
frees it, and COMMIT judges the container: one that passes waits for step 7, one that fails leaves its code in RK_STENCIL. Step 7 writes
the shadow and makes it PENDING, or CLEAN by a first load, unless the guard refuses one of its writes (R316, R349, R350): then it writes
nothing; a load that has not come so far in time is refused with code 0x16. -/
def Claims.LoadsAreStagedJudgedAndWritten : Prop :=
  ∀ (s : State) (src : Source) (tag : BitVec 32) (w : Word),
    (
      let a := [fixed 0 2 0 w]
      Claims.Heard s src AC.LOAD_STENCIL tag a → fieldGet w 32 32 ≤ stageMax → fieldGet w 32 32 % 8 = 0 →
      s.backgroundOf AC.LOAD_STENCIL = [] → Claims.Flows (.loadStencilBegin src tag w) s (fun u =>
        u.alorn.stageSrc = some src ∧ u.alorn.stageSize = fieldGet w 32 32 ∧ u.alorn.stage = []
        ∧ Claims.Answered u src tag AC.LOAD_STENCIL AS.OK 0 []))
    ∧ (∀ l : List Word,
      let off := fieldGet w 32 32
      let n := fieldGet w 16 10
      Claims.Heard s src AC.LOAD_STENCIL tag (fixed 0 2 1 w :: l) → s.alorn.stageSrc = some src → off + n ≤ s.alorn.stageSize →
      Claims.Flows (.loadStencilData src tag w l) s (fun u =>
        (∀ k, k < n → lookup u.alorn.stage (off + k) = some ((wordBytes l).getD k 0))
        ∧ (∀ k, k < off ∨ off + n ≤ k → lookup u.alorn.stage k = lookup s.alorn.stage k)
        ∧ Claims.Answered u src tag AC.LOAD_STENCIL AS.OK 0 []))
    ∧ (
      let a := [fixed 0 2 2 w]
      Claims.Heard s src AC.LOAD_STENCIL tag a → s.alorn.stageSrc = some src → s.alorn.stage.length = s.alorn.stageSize →
      let v := ((((Claims.heard s src AC.LOAD_STENCIL tag a).emptyStaging.startBackground (Claims.asker src tag) AC.LOAD_STENCIL 0).1).put
        F.RK_STENCIL_LOADING 0 1).useKey (s.alorn.stage.map (fun e => e.2))
      Claims.Flows (.loadStencilCommit src tag w) s (fun u => u.shadow = s.shadow ∧
        match v.judgeLoad (s.alorn.stage.map (fun e => e.2)) false with
        | .ok x => u.alorn.load = some (loadOf (s.get F.RK_EPOCH_NUMBER 0 == 0) x.1 x.2) ∧ u.get F.RK_STENCIL_LOADING 0 = 1
          ∧ u.alorn.stage = [] ∧ Claims.Answered u src tag AC.LOAD_STENCIL AS.IN_PROGRESS 0 []
        | .error r => u.get F.RK_STENCIL_CODE 0 = r.code % 2 ^ F.RK_STENCIL_CODE.width ∧ u.get F.RK_STENCIL_LOADING 0 = 0
          ∧ u.alorn.load = none))
    ∧ (Claims.Heard s src AC.LOAD_STENCIL tag [fixed 0 2 3 w] → Claims.Flows (.loadStencilDiscard src tag w) s (fun u =>
      u.alorn.stageSrc = none ∧ u.alorn.stage = [] ∧ Claims.Answered u src tag AC.LOAD_STENCIL AS.OK 0 []))
    ∧ (s.chipReset = false → s.alornRuns = true → ∀ l, s.alorn.load = some l →
      Claims.Does .stencilLoadLimitExpiry s (fun t => t.alorn.load = none ∧ t.get F.RK_STENCIL_CODE 0 = 0x16
        ∧ t.get F.RK_STENCIL_LOADING 0 = 0 ∧ t.shadow = s.shadow)
      ∧ (∀ r n, s.loadStops l = some (r, n) → Claims.Flows .stencilLoadStep7 s (fun u => u.alorn.load = none
        ∧ u.get F.RK_STENCIL_LOADING 0 = 0 ∧ u.get F.AL_ERRCNT_GUARD 0 = Claims.counted s F.AL_ERRCNT_GUARD 0 1
        ∧ u.tune = s.tune ∧ u.planKeys = s.planKeys ∧ u.guard = s.guard
        ∧ ∀ x m b, b < 2 → x ∉ [.RK_STENCIL, .AL_ERRCNT, .AL_GUARD, .TM_LOGSTAT] → u.word x m b = s.word x m b))
      ∧ (s.loadStops l = none → Claims.Flows .stencilLoadStep7 s (fun u => u.alorn.load = none ∧ u.get F.RK_STENCIL_CODE 0 = 0
        ∧ u.get F.RK_STENCIL_LOADING 0 = 0 ∧ u.shadow = (if l.first then SH.CLEAN else SH.PENDING)
        ∧ (l.first = false → u.get F.RK_EPOCH_NUMBER 0 = s.get F.RK_EPOCH_NUMBER 0
          ∧ ∀ r n x, r.info.cls = .epoch → lookup l.image (256 * n + 2 * r.num) = some x →
            u.word r n (1 - s.parity) &&& r.info.cfg = x &&& r.info.cfg ∧ u.word r n s.parity &&& r.info.cfg = s.word r n s.parity &&& r.info.cfg))))

/-- APPLY_EPOCH (R322, R327): the next epoch arms the chip, another NUMBER is refused; CANCEL disarms it and starts EPOCH_SETTLE. -/
def Claims.EpochsAreArmedAndCancelled : Prop :=
  ∀ (s : State) (src : Source) (tag : BitVec 32) (w : Word),
    (Claims.Heard s src AC.APPLY_EPOCH tag [fixed 16 1 0 w] →
      (fieldGet w 0 16 = nextEpoch (s.get F.RK_EPOCH_NUMBER 0) → s.backgroundOf AC.LOAD_STENCIL = [] → s.epochCtl.settle = none →
        s.shadow = SH.CLEAN ∨ s.shadow = SH.PENDING → Claims.Flows (.applyEpoch src tag w) s (fun u =>
          u.get F.RK_EPOCH_ARMED 0 = 1
          ∧ (fieldGet w 17 2 = 0 → Claims.Answered u src tag AC.APPLY_EPOCH AS.OK 0 u.epochData)
          ∧ (fieldGet w 17 2 ≠ 0 → Claims.Answered u src tag AC.APPLY_EPOCH AS.IN_PROGRESS 0 []
            ∧ u.alorn.background = s.alorn.background ++ [⟨src, tag, AC.APPLY_EPOCH, fieldGet w 17 2⟩])))
      ∧ (fieldGet w 0 16 ≠ nextEpoch (s.get F.RK_EPOCH_NUMBER 0) → Claims.Flows (.applyEpoch src tag w) s (fun u =>
        u.word .RK_EPOCH 0 = s.word .RK_EPOCH 0 ∧ Claims.Answered u src tag AC.APPLY_EPOCH AS.REFUSED DT.NOT_NEXT s.epochData)))
    ∧ (Claims.Heard s src AC.APPLY_EPOCH tag [fixed 16 1 1 w] → Claims.Flows (.applyEpochCancel src tag w) s (fun u =>
      u.get F.RK_EPOCH_ARMED 0 = 0 ∧ u.epochCtl.settle = some (s.epochCtl.arrived.getD (fieldGet w 0 16))
      ∧ u.get F.RK_EPOCH_NUMBER 0 = s.get F.RK_EPOCH_NUMBER 0
      ∧ (s.flag F.RK_EPOCH_ARMED 0 = true → u.backgroundOf AC.APPLY_EPOCH = [])
      ∧ Claims.Answered u src tag AC.APPLY_EPOCH AS.OK 0 u.epochData))

/-- The life of a partition (R316, R373, R374, R377, R379, R380, R383): QUIESCE starts a drain, which ends when the partition has drained and
answers STUCK at its limit; FENCE stops it at once and frees its send contexts; RESUME makes it as new; an uncorrectable table word fences
what the table serves.
Where the rules leave a case to reading, the model's choice is stated: log entry 28. -/
def Obligations.PartitionsQuiesceResumeAndFence : Prop :=
  ∀ (s : State) (src : Source) (tag : BitVec 32) (w : Word),
    let p := fieldGet w 0 4
    (Claims.Heard s src AC.QUIESCE tag [w] → s.flag F.RK_PARTJOB_VALID p = true →
      ((s.part p).quiesced = false → (s.part p).fenced = false → Claims.Flows (.quiesce src tag w) s (fun u =>
        u.part p = { s.part p with draining := true, since := s.now }
        ∧ u.alorn.background = s.alorn.background ++ [⟨src, tag, AC.QUIESCE, p⟩]
        ∧ Claims.Answered u src tag AC.QUIESCE AS.IN_PROGRESS 0 []))
      ∧ ((s.part p).quiesced = true ∨ (s.part p).fenced = true → Claims.Flows (.quiesce src tag w) s (fun u =>
        u.part p = { s.part p with reported := true } ∧ Claims.Answered u src tag AC.QUIESCE AS.DRAINED 0 [])))
    ∧ (Claims.Heard s src AC.RESUME tag [w] → s.flag F.RK_PARTJOB_VALID p = true →
      (bit (s.get F.RK_STENCIL_NEW_PARTS 0) p = false → s.shadow ≠ SH.INCOMPLETE → (s.part p).reported = true →
        Claims.Flows (.resume src tag w) s (fun u => u.part p = Part.initial ∧ Claims.Answered u src tag AC.RESUME AS.OK 0 []))
      ∧ (bit (s.get F.RK_STENCIL_NEW_PARTS 0) p = false → s.shadow ≠ SH.INCOMPLETE → (s.part p).reported = false →
        Claims.Flows (.resume src tag w) s (fun u => u.parts = s.parts ∧ Claims.Answered u src tag AC.RESUME AS.REFUSED DT.ACTIVE [])))
    ∧ (Claims.Heard s src AC.FENCE tag [w] → s.flag F.RK_PARTJOB_VALID p = true → Claims.Flows (.fence src tag w) s (fun u =>
      (u.part p).fenced = true ∧ Claims.Answered u src tag AC.FENCE AS.OK 0 []
      ∧ ((s.part p).fenced = false → ∀ f, s.sendOf p f = true → u.get F.RK_FLOWSEQ_BUSY f = 0)))
    ∧ (∀ q : Fin 16, s.chipReset = false → s.alornRuns = true → (s.part q.val).draining = true →
      (s.partDrained q.val = true → Claims.Does (.quiesceDrained q) s (fun t => (t.part q.val).quiesced = true
        ∧ (t.part q.val).draining = false ∧ (∀ b ∈ t.alorn.background, b.cmd = AC.QUIESCE → b.arg ≠ q.val)
        ∧ Logged s t evQuiesceDrained 9 0 q.val ((s.now - (s.part q.val).since) / 156250)))
      ∧ (∀ b ∈ s.backgroundOf AC.QUIESCE, b.arg = q.val → Claims.Does (.quiesceStuck q) s (fun t => t.parts = s.parts
        ∧ (∀ b ∈ t.alorn.background, b.cmd = AC.QUIESCE → b.arg ≠ q.val)
        ∧ ∀ e ∈ t.alorn.cache, e.src = b.src → e.tag = b.tag →
          e.resp = t.responseWords AC.QUIESCE AS.STUCK b.tag 0 [s.heldLongest.1, s.heldLongest.2])))
    ∧ (∀ (code : BitVec 16) (n : BitVec 32) (r : Reg), s.chipReset = false → Reg.ofCode code.toNat = some r → tableWord r = true →
      n.toNat < r.total →
      Claims.Does (.tableEcc true code n) s (fun t => t = { s with tableCorr := s.tableCorr + 1 })
      ∧ Claims.Flows (.tableEcc false code n) s (fun u =>
        (∀ k, k < 16 → s.flag F.RK_PARTJOB_VALID k = true → (s.tableServes r n.toNat = some k ∨ s.tableServes r n.toNat = none) →
          (u.part k).fenced = true)
        ∧ (s.tableServes r n.toNat = none → u.transitOff = true)))

/-- Ports, lanes and lasers (R296, R301, R304, R349, Table 13-7): PORT_ADMIT and PORT_QUARANTINE write OP_PORTCTL and move the port;
a write that the guard does not allow is refused and counted; PORT_REMAP exchanges the logical ports of a swapped pair; LANE_SPARE starts a
Patch and waits for its switch; LASER_PREPARE and LASER_RESTORE ramp a slot. -/
def Claims.PortCommandsAct : Prop :=
  ∀ (s : State) (src : Source) (tag : BitVec 32) (w : Word),
    let l := fieldGet w 0 3
    let p := s.physOf l
    (Claims.Heard s src AC.PORT_ADMIT tag [w] → s.flag F.OP_PLAN_VALID l = true →
      let ws := [s.portCtl p [(F.OP_PORTCTL_ADMIT, 1), (F.OP_PORTCTL_HOLD_DOWN, 0)]]
      (s.guardStops ws = none → Claims.Flows (.portAdmit src tag w) s (fun u => u.get F.OP_PORTCTL_ADMIT p = 1
        ∧ u.get F.OP_PORTCTL_HOLD_DOWN p = 0 ∧ u.portState p = s.portState p ∧ Claims.Answered u src tag AC.PORT_ADMIT AS.OK 0 []))
      ∧ (∀ r n, s.guardStops ws = some (r, n) → Claims.Flows (.portAdmit src tag w) s (fun u =>
        u.word .OP_PORTCTL p = s.word .OP_PORTCTL p ∧ u.get F.AL_ERRCNT_GUARD 0 = Claims.counted s F.AL_ERRCNT_GUARD 0 1
        ∧ Claims.Answered u src tag AC.PORT_ADMIT AS.REFUSED (0x8000 + r.info.code) [])))
    ∧ (Claims.Heard s src AC.PORT_QUARANTINE tag [w] →
      (fieldGet w 8 1 = 1 → s.guardStops [s.portCtl p [(F.OP_PORTCTL_ADMIT, 0), (F.OP_PORTCTL_HOLD_DOWN, 1)]] = none →
        Claims.Flows (.portQuarantine src tag w) s (fun u => u.portState p = PS.DOWN ∧ u.get F.OP_PORTCTL_ADMIT p = 0
          ∧ u.get F.OP_PORTCTL_HOLD_DOWN p = 1 ∧ Claims.Answered u src tag AC.PORT_QUARANTINE AS.OK 0 []))
      ∧ (fieldGet w 8 1 = 0 → s.guardStops [s.portCtl p [(F.OP_PORTCTL_ADMIT, 0)]] = none →
        Claims.Flows (.portQuarantine src tag w) s (fun u => u.get F.OP_PORTCTL_ADMIT p = 0
          ∧ u.portState p = (if s.admitted p then PS.DRAINING else s.portState p) ∧ Claims.Answered u src tag AC.PORT_QUARANTINE AS.OK 0 [])))
    ∧ (Claims.Heard s src AC.PORT_REMAP tag [w] → let m := fieldGet w 8 3
      let q := s.physOf m
      s.swapped p q = true → p ≠ q → s.flag F.OP_PLAN_REMAP_OK l = true → s.flag F.OP_PLAN_REMAP_OK m = true →
      s.guardStops [s.portCtl p [(F.OP_PORTCTL_LOGICAL, m)], s.portCtl q [(F.OP_PORTCTL_LOGICAL, l)]] = none →
      Claims.Flows (.portRemap src tag w) s (fun u => u.get F.OP_PORTCTL_LOGICAL p = m ∧ u.get F.OP_PORTCTL_LOGICAL q = l
        ∧ Claims.Answered u src tag AC.PORT_REMAP AS.OK 0 []))
    ∧ (Claims.Heard s src AC.LANE_SPARE tag [w] → let lane := fieldGet w 8 5
      lane < 18 → s.laneOf p 1 lane < 16 → s.inData p = true → (∀ x ∈ (s.port p).patch, x.src ≠ lane) → (lookup (s.port p).mode0 lane).getD 0 = 0 →
      ∀ d, (s.lockedSpares p).find? (fun d => !(s.port p).patch.any (fun x => x.dst == d)) = some d →
      Claims.Flows (.laneSpare src tag w) s (fun u => (u.port p).spareWait = (s.port p).spareWait ++ [(lane, Claims.asker src tag)]
        ∧ ∃ x, (u.port p).patch = (s.port p).patch ++ [x] ∧ x.src = lane ∧ x.dst = d))
    ∧ (Claims.Heard s src AC.LASER_PREPARE tag [w] → (∀ k, k < 8 → s.laserState k = LS.RUN) →
      Claims.Flows (.laserPrepare src tag w) s (fun u => u.laserState l = LS.RAMPING ∧ lookup u.ramps l = some 0
        ∧ Claims.Answered u src tag AC.LASER_PREPARE AS.IN_PROGRESS 0 []))
    ∧ (Claims.Heard s src AC.LASER_RESTORE tag [w] → s.laserState l = LS.INSERTED →
      Claims.Flows (.laserRestore src tag w) s (fun u => u.laserState l = LS.RAMPING ∧ lookup u.ramps l = some 7
        ∧ Claims.Answered u src tag AC.LASER_RESTORE AS.IN_PROGRESS 0 []))

/-- Coordinates, time and banks (R201, R206, R316, R394, Table 13-7): SET_COORDS gives a chip without coordinates its address,
SET_TIMEBASE loads or moves the timestamp at the next tick, and BANK_HANDOVER makes a bank PENDING with its next owner, or gives a BROKEN bank away. -/
def Claims.ChipSettingsAreWritten : Prop :=
  ∀ (s : State) (src : Source) (tag : BitVec 32) (w v : Word),
    (Claims.Heard s src AC.SET_COORDS tag [w] → s.flag F.RK_COORDS_SET 0 = false → s.anyActive = false →
      s.guardStops [(.RK_COORDS, 0, overlay (s.word .RK_COORDS 0) [(F.RK_COORDS_ADDR, fieldGet w 0 12), (F.RK_COORDS_SET, 1)])] = none →
      Claims.Flows (.setCoords src tag w) s (fun u => u.flag F.RK_COORDS_SET 0 = true ∧ u.own = fieldGet w 0 12
        ∧ Claims.Answered u src tag AC.SET_COORDS AS.OK 0 []))
    ∧ (Claims.Heard s src AC.SET_TIMEBASE tag [w, v] →
      let new := if fieldGet w 0 1 = 1 then s.word .TM_TIMESTAMP 0 + v else v
      s.guardStops [(.TM_TIMESTAMP, 0, new)] = none →
      Claims.Flows (.setTimebase src tag w v) s (fun u => u.timeSets = s.timeSets ++ [(decide (fieldGet w 0 1 = 1), v)]
        ∧ u.word .TM_TIMESTAMP 0 = s.word .TM_TIMESTAMP 0 ∧ Claims.Answered u src tag AC.SET_TIMEBASE AS.OK 0 []))
    ∧ (Claims.Heard s src AC.BANK_HANDOVER tag [w] → let h := newOwner w
      s.handoverValid h = true → s.handoverStops h = none →
      (s.bank F.CP_BANKOWN_STATE h.mem h.bank ≠ 2 → s.bank F.CP_BANKOWN_STATE h.mem h.bank ≠ 3 → ∀ k, s.hoFree = some k →
        Claims.Flows (.bankHandover src tag w) s (fun u => u.bank F.CP_BANKOWN_STATE h.mem h.bank = 2
          ∧ u.bank F.CP_BANKOWN_NEXT_NET h.mem h.bank = h.net ∧ u.bank F.CP_BANKOWN_NEXT_EP h.mem h.bank = h.ep
          ∧ u.flag F.RK_HANDOVER_VALID k = true ∧ u.get F.RK_HANDOVER_HOLDER_EP k = 287
          ∧ (fieldGet w 48 1 = 0 → Claims.Answered u src tag AC.BANK_HANDOVER AS.OK 0 [])
          ∧ (fieldGet w 48 1 = 1 → Claims.Answered u src tag AC.BANK_HANDOVER AS.IN_PROGRESS 0 [])))
      ∧ (s.bank F.CP_BANKOWN_STATE h.mem h.bank = 3 → s.alorn.banksToDo = [] → Claims.Flows (.bankHandover src tag w) s (fun u =>
        u.bank F.CP_BANKOWN_STATE h.mem h.bank = 1 ∧ u.bank F.CP_BANKOWN_NET_HELD h.mem h.bank = h.net
        ∧ Claims.Answered u src tag AC.BANK_HANDOVER AS.BROKEN 0 [])))

/-- The sealed store and the life-cycle (R355 to R361, Table 13-11): SEAL_KEY of a BLANK chip writes or erases its slot, and else only
under a signature of the root key with the current NONCE, which then advances, also where the guard refuses what follows; the root
key is used once its digest has held (R354); ZEROIZE wipes the store; LIFECYCLE makes the transitions of
Table 13-11 alone, burns one and seals the root key anew.
Where the rules leave a case to reading, the model's choice is stated: log entries 6 and 31. -/
def Obligations.KeysAndLifeCycleChange : Prop :=
  ∀ (s : State) (src : Source) (tag : BitVec 32) (w : Word) (l m : List Word),
    let slot := fieldGet w 0 4
    let a := w :: (l ++ m)
    let s' := s.useSlot 0
    (Claims.Heard s src AC.SEAL_KEY tag a → let ws := requestWords src AC.SEAL_KEY tag a
      let kept (u : State) : Prop := (fieldGet w 8 1 = 0 → lookup u.sealStore slot = some ⟨keyOf ws, 0⟩)
        ∧ (fieldGet w 8 1 = 1 → u.sealStore = remove s.sealStore slot)
      (s.fuse.lifecycle = LC.BLANK → Claims.Flows (.sealKey src tag w l m) s (fun u => kept u
        ∧ u.get F.AL_STATUS_NONCE 0 = s.get F.AL_STATUS_NONCE 0 ∧ Claims.Answered u src tag AC.SEAL_KEY AS.OK 0 []))
      ∧ (s.fuse.lifecycle ≠ LC.BLANK → (fieldGet w 8 1 = 0 ∨ slot ≠ 0) → s'.signedBy s'.rootKey ws = true →
        Claims.Flows (.sealKey src tag w l m) s (fun u => kept u
          ∧ u.get F.AL_STATUS_NONCE 0 = (s.get F.AL_STATUS_NONCE 0 + 1) % 2 ^ F.AL_STATUS_NONCE.width
          ∧ Claims.Answered u src tag AC.SEAL_KEY AS.OK 0 []))
      ∧ (s.fuse.lifecycle ≠ LC.BLANK → (fieldGet w 8 1 = 0 ∨ slot ≠ 0) → s'.signedBy s'.rootKey ws = false →
        Claims.Flows (.sealKey src tag w l m) s (fun u => u.sealStore = s'.sealStore
          ∧ u.get F.AL_STATUS_NONCE 0 = s.get F.AL_STATUS_NONCE 0 ∧ Claims.Answered u src tag AC.SEAL_KEY AS.AUTH 0 []))
      ∧ (s.fuse.lifecycle ≠ LC.BLANK → fieldGet w 8 1 = 1 → slot = 0 → Claims.Flows (.sealKey src tag w l m) s (fun u =>
        u.sealStore = s.sealStore ∧ Claims.Answered u src tag AC.SEAL_KEY AS.REFUSED DT.LIFECYCLE [])))
    ∧ (Claims.Heard s src AC.ZEROIZE tag [] → Claims.Flows (.zeroize src tag) s (fun u => u.sealStore = [] ∧ u.wiped = true
      ∧ Claims.Answered u src tag AC.ZEROIZE AS.OK 0 []))
    ∧ (Claims.Heard s src AC.LIFECYCLE tag a → let ws := requestWords src AC.LIFECYCLE tag a
      let target := fieldGet w 0 2
      (authority s.fuse.lifecycle target s.wiped = none → Claims.Flows (.lifecycle src tag w l m) s (fun u => u.fuse = s.fuse
        ∧ u.sealStore = s.sealStore ∧ Claims.Answered u src tag AC.LIFECYCLE AS.REFUSED DT.LIFECYCLE []))
      ∧ (∀ x, authority s.fuse.lifecycle target s.wiped = some x → s.anyActive = false → s.backgroundOf AC.LOAD_STENCIL = [] →
        s.flag F.RK_EPOCH_ARMED 0 = false → target = LC.DECOMMISSIONED ∨ s.fuse.transitions < 15 →
        let v := if x = .root then s' else s
        let advanced := if x = .lockAlone then s.get F.AL_STATUS_NONCE 0
          else (s.get F.AL_STATUS_NONCE 0 + 1) % 2 ^ F.AL_STATUS_NONCE.width
        (v.authorised x ws = false → Claims.Flows (.lifecycle src tag w l m) s (fun u => u.fuse = s.fuse ∧ u.sealStore = v.sealStore
          ∧ u.get F.AL_STATUS_NONCE 0 = s.get F.AL_STATUS_NONCE 0 ∧ Claims.Answered u src tag AC.LIFECYCLE AS.AUTH 0 []))
        ∧ (v.authorised x ws = true → target = LC.DECOMMISSIONED → ∀ r n,
          s.guardStops ((List.range 6).map (fun p => s.portCtl p [(F.OP_PORTCTL_HOLD_DOWN, 1)])) = some (r, n) →
          Claims.Flows (.lifecycle src tag w l m) s (fun u => u.fuse = s.fuse ∧ u.get F.AL_STATUS_NONCE 0 = advanced
            ∧ Claims.Answered u src tag AC.LIFECYCLE AS.REFUSED (0x8000 + r.info.code) []))
        ∧ (v.authorised x ws = true → target ≠ LC.DECOMMISSIONED → Claims.Flows (.lifecycle src tag w l m) s (fun u =>
          u.fuse = { s.fuse with lifecycle := target, transitions := s.fuse.transitions + 1 } ∧ u.wiped = false
          ∧ lookup u.sealStore 0 = some ⟨keyOf ws, 0⟩
          ∧ u.get F.AL_STATUS_NONCE 0 = advanced))
        ∧ (v.authorised x ws = true → target = LC.DECOMMISSIONED →
          s.guardStops ((List.range 6).map (fun p => s.portCtl p [(F.OP_PORTCTL_HOLD_DOWN, 1)])) = none →
          Claims.Flows (.lifecycle src tag w l m) s (fun u => u.fuse.lifecycle = LC.DECOMMISSIONED ∧ u.sealStore = [] ∧ u.wiped = false
            ∧ (∀ p, p < 6 → u.portState p = PS.DOWN)
            ∧ ∀ k, k < 16 → s.flag F.RK_PARTJOB_VALID k = true → (u.part k).fenced = true))))

/-- Errors, restarts and the log of Alorn (R351 to R354, R387, R388, R392): its watchdog restarts it, counted, with every running command
ABORTED in the cache, or halts it at the eighth restart in 10 s; a memory error is counted, mended or restarts it; it comes into service
with its store checked; an event of the intake becomes a record of the log. -/
def Claims.AlornRestartsAndLogs : Prop :=
  ∀ s : State, s.chipReset = false → s.mgLost = false →
    (∀ rom : Word, s.halted = false →
      let recent := (s.alorn.restarts.filter (fun t => s.now ≤ t + tenSeconds)).length
      Claims.Flows (.watchdogExpiry rom) s (fun u => u.get F.AL_STATUS_RESTARTS 0 = Claims.counted s F.AL_STATUS_RESTARTS 0 1
        ∧ u.get F.AL_STATUS_STATE 0 = (if 7 ≤ recent then 2 else 1) ∧ u.alorn.background = [] ∧ u.alorn.relays = []
        ∧ (∀ e ∈ u.alorn.cache, e.busy = false) ∧ u.alorn.stage = [] ∧ u.alorn.load = none
        ∧ u.alorn.intake = (if 7 ≤ recent then [] else s.alorn.intake)
        ∧ (recent < 7 → (∀ p, p < 6 → (s.port p).spareWait = []) → ∀ r, s.alorn.relays = [r] →
          Claims.Delivered u r.asker (u.responseWords r.cmd AS.ABORTED r.asker.tag 0 []))))
    ∧ (∀ addr : Word,
      Claims.Does (.alornEcc .rom true addr) s (fun t => t.get F.AL_ERRCNT_ROM_CORR 0 = Claims.counted s F.AL_ERRCNT_ROM_CORR 0 1
        ∧ FieldsBut [(F.AL_ERRCNT_ROM_CORR, 0)] s t ∧ t.alorn = s.alorn)
      ∧ (∀ m, m ≠ .rom → Claims.Does (.alornEcc m true addr) s (fun t =>
        t.get F.AL_ERRCNT_RAM_CORR 0 = Claims.counted s F.AL_ERRCNT_RAM_CORR 0 1 ∧ FieldsBut [(F.AL_ERRCNT_RAM_CORR, 0)] s t
        ∧ t.alorn = s.alorn))
      ∧ (∀ k : Fin 64, Claims.Does (.alornEcc (.retainedCache k) false addr) s (fun t =>
        t = { s with alorn := { s.alorn with cache := s.alorn.cache.eraseIdx k.val } }))
      ∧ (s.flag F.AL_LOCK_HELD 0 = true → Claims.Does (.alornEcc .retainedLock false addr) s (fun t =>
        t.get F.AL_LOCK_HELD 0 = 0 ∧ t.get F.AL_LOCK_BROKEN 0 = 1))
      ∧ Claims.Does (.alornEcc .staging false addr) s (fun t => t = { s with alorn := { s.alorn with stage := [] } })
      ∧ (s.halted = false → ∀ m, m = .rom ∨ m = .working → Claims.Flows (.alornEcc m false addr) s (fun u =>
        u.get F.AL_STATUS_STATE 0 ≠ 0 ∧ u.get F.AL_STATUS_RESTARTS 0 = Claims.counted s F.AL_STATUS_RESTARTS 0 1)))
    ∧ (∀ corrupt : BitVec 16, s.get F.AL_STATUS_STATE 0 = 1 → Claims.Does (.alornRunning corrupt) s (fun t =>
      t.get F.AL_STATUS_STATE 0 = 0 ∧ t.alorn.i3cHeld = []
      ∧ ∀ k, k < 16 → lookup t.sealStore k = (if corrupt.getLsbD k then none else lookup s.sealStore k)))
    ∧ (∀ e rest, s.logIntake = e :: rest → e.more = none → Claims.Does .logRecordWrite s (fun t => t.logIntake = rest
      ∧ t.get F.TM_LOGSTAT_NEXT_SEQ 0 = (s.get F.TM_LOGSTAT_NEXT_SEQ 0 + 1) % 2 ^ 32 ∧ t.get F.AL_MBCTL_EVENTS 0 = 1
      ∧ ∃ r, t.log = (if s.log.length < 4096 then s.log else s.log.drop 1) ++ [r]
        ∧ fieldGet r.w0 32 32 = s.get F.TM_LOGSTAT_NEXT_SEQ 0 ∧ r.w1 = e.time ∧ r.w2 = e.arg0 ∧ r.w3 = e.arg1))

/-- A relay ends once (R336): with the neighbour's answer, RELAYED set, or with TIMEOUT; its MGMT packet's TAG names it. -/
def Claims.RelaysEndOnce : Prop :=
  ∀ (s : State) (p : Fin 6) (hdr : BitVec 16) (ws : List Word) (r : Relay), s.chipReset = false → s.alornRuns = true →
    s.relayOf p.val hdr = some r →
    Claims.Flows (.relayResponse p ⟨hdr, ws⟩) s (fun u =>
      u.alorn.relays = s.alorn.relays.erase r ∧ Claims.Delivered u r.asker (withBit 17 ws))
    ∧ Claims.Flows (.relayTimeout p hdr) s (fun u =>
      u.alorn.relays = s.alorn.relays.erase r
      ∧ Claims.Delivered u r.asker (u.responseWords r.cmd AS.TIMEOUT r.asker.tag 0 []))

/-- No row of the table gives its command bits, so no word spells one, and none is put into the queue (the model's reading of
the table, log entry 1). -/
def Obligations.NoWordSpellsACommand : Prop :=
  ∀ (nbits w : Nat) (s : State), decodeTableWord nbits w = none ∧ s.withFetchWord nbits w = s

/-! ### Statements of several parts -/

/-- The corner monitor, the rack reference, tamper and glitch inputs. -/
def Obligations.InputsAreNotedAndLogged : Prop :=
  Claims.CornerMonitorFollows ∧ Claims.ReferenceLossIsLogged ∧ Claims.TamperWipesTheSealedStore

/-- Frames of resets, clocks, FIFOs, links, core writes and transports.
Where the rules leave a case to reading, the model's choice is stated: log entries 10 and 32. -/
def Obligations.FramesOfChipMeshAndCores : Prop :=
  Claims.FramesOfResetsAndClocks ∧ Claims.FramesOfTheMesh ∧ Claims.FramesOfCoreWrites ∧ Claims.FramesOfTransports

/-- Frames of command queues and of packets that arrive.
Where the rules leave a case to reading, the model's choice is stated: log entries 10, 15 and 20. -/
def Obligations.FramesOfQueuesAndArrivals : Prop :=
  Claims.FramesOfQueues ∧ Claims.FramesOfArrivals

/-- Frames of port packets, port states and lasers.
Where the rules leave a case to reading, the model's choice is stated: log entries 10, 16 and 17. -/
def Obligations.FramesOfPortsAndLasers : Prop :=
  Claims.FramesOfPortPackets ∧ Claims.FramesOfPortStates ∧ Claims.FramesOfLasers

/-- Frames of Screed, Plumb and Alorn commands.
Where the rules leave a case to reading, the model's choice is stated: log entries 10, 23 and 30. -/
def Obligations.FramesOfTreesPlumbAndAlorn : Prop :=
  Claims.FramesOfScreed ∧ Claims.FramesOfPlumb ∧ Claims.FramesOfAlorn

/-- An in FIFO admits and shows whole packets. -/
def Obligations.InFifoHoldsWholePackets : Prop :=
  Claims.InFifoReadsCompletePackets ∧ Claims.InFifoAdmitsWholePackets ∧ Claims.HostHeadersPassTheirWindow

/-- Router outputs are requested, and granted by rank.
Where the rules leave a case to reading, the model's choice is stated: log entries 11, 14 and 44. -/
def Obligations.OutputsAreGrantedByRank : Prop :=
  Claims.HeadersRequestOutputs ∧ Claims.LowestRankIsGranted

/-- PUT and PUT_MC store their payload.
Where the rules leave a case to reading, the model's choice is stated: log entries 9 and 15. -/
def Obligations.PutsStoreTheirPayload : Prop :=
  Claims.PutStoresItsPayload ∧ Claims.PutMcStoresAtEachMember

/-- Atomics return the old value, SIGNAL adds to its counter.
Where the rules leave a case to reading, the model's choice is stated: log entries 9 and 15. -/
def Obligations.AtomicsAndSignalsAct : Prop :=
  Claims.AtomicsReplaceAndReturnTheOld ∧ Claims.SignalAddsToItsCounter

/-- Active messages and their replies enter their rings.
Where the rules leave a case to reading, the model's choice is stated: log entries 2 and 21. -/
def Obligations.MessagesEnterTheirRings : Prop :=
  Claims.ActiveMessagesEnterTheirRing ∧ Claims.ActiveRepliesEnterTheirRing

/-- A request that fails a check is refused, a bad header discarded, and an optical port's own endpoint takes nothing.
Where the rules leave a case to reading, the model's choice is stated: log entry 15. -/
def Obligations.RefusedRequestsStoreNothing : Prop :=
  Claims.FailedChecksStoreNothing ∧ Claims.BadHeadersAreDiscarded ∧ Claims.PortEndpointsRefuse

/-- Replies answer their packet or are stray, at cores, the host bridge and Alorn; other endpoints discard them.
Where the rules leave a case to reading, the model's choice is stated: log entries 15 and 45. -/
def Obligations.RepliesFindTheirCommand : Prop :=
  Claims.StrayRepliesAreCounted ∧ Claims.RepliesAnswerTheirPacket ∧ Claims.RepliesElsewhereAreJudged

/-- Lane losses are marked and alignment blocks judged.
Where the rules leave a case to reading, the model's choice is stated: log entry 18. -/
def Obligations.LanesAreWatched : Prop :=
  Claims.LaneLossesAreMarked ∧ Claims.AlignmentBlocksAreJudged

/-- Packets are staged and leave with credit.
Where the rules leave a case to reading, the model's choice is stated: log entries 13 and 17. -/
def Obligations.PacketsLeaveByThePort : Prop :=
  Claims.PacketsAreStagedForTheFibre ∧ Claims.StagedPacketsNeedCredit

/-- Parcels are sent in turn and received in order.
Where the rules leave a case to reading, the model's choice is stated: log entry 17. -/
def Obligations.ParcelsKeepTheirOrder : Prop :=
  Claims.ParcelsAreSentInTurn ∧ Claims.ParcelsAreReceivedInOrder

/-- Link timers queue messages, and control messages are taken.
Where the rules leave a case to reading, the model's choice is stated: log entries 2, 17 and 19. -/
def Obligations.LinkMessagesAreSentAndTaken : Prop :=
  Claims.LinkTimersQueueTheirMessages ∧ Claims.ControlMessagesAreTaken

/-- Tree packets enter their node and move by room counts.
Where the rules leave a case to reading, the model's choice is stated: log entries 13 and 23. -/
def Obligations.TreePacketsMoveByRoom : Prop :=
  Claims.TreePacketsEnterTheirNode ∧ Claims.RoomCountsAreKept ∧ Claims.CopiesMoveToTheirBranch

/-- Contributions fill their slot and results are copied once.
Where the rules leave a case to reading, the model's choice is stated: log entry 23. -/
def Obligations.ChunksAreFoldedAndCopied : Prop :=
  Claims.ContributionsFillTheirSlot ∧ Claims.ResultsAreCopiedOnce

/-- Plumb arrivals are recorded and releases go down.
Where the rules leave a case to reading, the model's choice is stated: log entry 24. -/
def Obligations.PlumbRoundsGoUpAndDown : Prop :=
  Claims.PlumbArrivalsAreRecorded ∧ Claims.ReleasesGoDown

/-- A missed copy is counted; Plumb packets reach the hubs.
Where the rules leave a case to reading, the model's choice is stated: log entry 24. -/
def Obligations.PlumbMissesAndPackets : Prop :=
  Claims.MissedCopiesTellOnTheHub ∧ Claims.PlumbPacketsReachTheHubs

/-- The token switches an armed chip, and the old epoch retires.
Where the rules leave a case to reading, the model's choice is stated: log entries 27 and 33. -/
def Obligations.EpochsSwitchAndRetire : Prop :=
  Claims.TheTokenSwitchesArmedChips ∧ Claims.RetirementEndsWithTheOldEpoch

/-- NOP and misfits complete at once, transfers issue their packets.
Where the rules leave a case to reading, the model's choice is stated: log entry 20. -/
def Obligations.TransfersCompleteOrIssue : Prop :=
  Claims.NopAndMisfitsCompleteAtOnce ∧ Claims.TransfersIssueTheirPackets

/-- Core registers take their writes; rings are enabled, advanced, disabled.
Where the rules leave a case to reading, the model's choice is stated: log entry 21. -/
def Obligations.CoreRegistersAndRings : Prop :=
  Claims.CoreRegistersTakeTheirWrites ∧ Claims.RingsAreAdvancedEnabledDisabled

/-- Requests come to Alorn, and repeats are answered from the cache.
Where the rules leave a case to reading, the model's choice is stated: log entries 29, 30 and 35. -/
def Obligations.RequestsComeOnce : Prop :=
  Claims.RequestsComeToAlorn ∧ Claims.RepeatsAreAnsweredFromTheCache

/-- Stencils are staged, judged and written; epochs are armed and cancelled.
Where the rules leave a case to reading, the model's choice is stated: log entries 2, 26, 27 and 30. -/
def Obligations.StencilsAreLoadedAndArmed : Prop :=
  Claims.LoadsAreStagedJudgedAndWritten ∧ Claims.EpochsAreArmedAndCancelled

/-- Port, lane, laser, coordinate, time and bank commands act.
Where the rules leave a case to reading, the model's choice is stated: log entries 18, 19, 22 and 30. -/
def Obligations.PortAndChipCommandsAct : Prop :=
  Claims.PortCommandsAct ∧ Claims.ChipSettingsAreWritten

/-- Alorn restarts, its memories are mended, events are logged, relays end.
Where the rules leave a case to reading, the model's choice is stated: log entries 2, 30 and 31. -/
def Obligations.AlornRestartsAndRelaysEnd : Prop :=
  Claims.AlornRestartsAndLogs ∧ Claims.RelaysEndOnce
end

