-- ==== Sys2Proof/Laws/Table.lean ====
section
/-! SUPPORT. Laws of sparse tables, rising lists of numbers and fields of words. -/

namespace Sys2Proof.Machine

section Tables
variable {α : Type}

@[simp] theorem lookup_nil (k : Nat) : lookup ([] : Tbl α) k = none := rfl

@[simp] theorem lookup_upsert_self (t : Tbl α) (k : Nat) (v : α) : lookup (upsert t k v) k = some v := by
  induction t with
  | nil => simp [upsert, lookup]
  | cons e t ih =>
    unfold upsert
    split
    · simp [lookup]
    · split
      · simp [lookup]
      · next h => simp [lookup, Ne.symm h, ih]

theorem lookup_upsert_ne (t : Tbl α) (k j : Nat) (v : α) (h : j ≠ k) : lookup (upsert t k v) j = lookup t j := by
  induction t with
  | nil => simp [upsert, lookup, h.symm]
  | cons e t ih =>
    unfold upsert
    split
    · simp [lookup, h.symm]
    · split
      · next e' => simp [lookup, h.symm, ← e']
      · simp [lookup, ih]

theorem lookup_remove_ne (t : Tbl α) (k j : Nat) (h : j ≠ k) : lookup (remove t k) j = lookup t j := by
  induction t with
  | nil => rfl
  | cons e t ih =>
    unfold remove at ih ⊢
    rw [List.filter_cons]
    by_cases hk : e.1 = k
    · simp [hk, lookup, h.symm, ih]
    · simp [hk, lookup, ih]

@[simp] theorem lookup_remove_self (t : Tbl α) (k : Nat) : lookup (remove t k) k = none := by
  induction t with
  | nil => rfl
  | cons e t ih =>
    unfold remove at ih ⊢
    rw [List.filter_cons]
    by_cases hk : e.1 = k
    · simp [hk, ih]
    · simp [hk, lookup, ih]

/-- What a table with default `d` reads after one of its keys is set. -/
theorem getD_assign_self [DecidableEq α] (t : Tbl α) (k : Nat) (v d : α) : (lookup (assign t k v d) k).getD d = v := by
  unfold assign
  split
  · next h => simp [h]
  · simp

theorem lookup_assign_ne [DecidableEq α] (t : Tbl α) (k j : Nat) (v d : α) (h : j ≠ k) :
    lookup (assign t k v d) j = lookup t j := by
  unfold assign
  split
  · exact lookup_remove_ne t k j h
  · exact lookup_upsert_ne t k j v h

theorem mem_upsert {t : Tbl α} {k : Nat} {v : α} {e : Nat × α} (h : e ∈ upsert t k v) : e = (k, v) ∨ e ∈ t := by
  induction t with
  | nil => simpa [upsert] using h
  | cons x t ih =>
    unfold upsert at h
    split at h
    · simpa using h
    · split at h
      · rcases List.mem_cons.1 h with h | h
        · exact .inl h
        · exact .inr (List.mem_cons_of_mem _ h)
      · rcases List.mem_cons.1 h with h | h
        · exact .inr (by simp [h])
        · rcases ih h with h | h
          · exact .inl h
          · exact .inr (List.mem_cons_of_mem _ h)

theorem mem_remove {t : Tbl α} {k : Nat} {e : Nat × α} (h : e ∈ remove t k) : e ∈ t := (List.mem_filter.1 h).1

theorem mem_assign [DecidableEq α] {t : Tbl α} {k : Nat} {v d : α} {e : Nat × α} (h : e ∈ assign t k v d) :
    e = (k, v) ∨ e ∈ t := by
  unfold assign at h
  split at h
  · exact .inr (mem_remove h)
  · exact mem_upsert h

theorem rising_filter {t : Tbl α} (p : Nat × α → Bool) (h : rising t = true) : rising (t.filter p) = true := by
  induction t with
  | nil => rfl
  | cons e t ih =>
    simp only [rising, Bool.and_eq_true, List.all_eq_true, decide_eq_true_eq] at h
    simp only [List.filter]
    split
    · simp only [rising, Bool.and_eq_true, List.all_eq_true, decide_eq_true_eq]
      exact ⟨fun x hx => h.1 x (List.mem_filter.1 hx).1, ih h.2⟩
    · exact ih h.2

theorem rising_upsert {t : Tbl α} (k : Nat) (v : α) (h : rising t = true) : rising (upsert t k v) = true := by
  induction t with
  | nil => simp [upsert, rising]
  | cons e t ih =>
    obtain ⟨k', v'⟩ := e
    have h0 := h
    simp only [rising, Bool.and_eq_true, List.all_eq_true, decide_eq_true_eq] at h
    unfold upsert
    split
    · next hk =>
      simp only [rising, Bool.and_eq_true, List.all_eq_true, decide_eq_true_eq, List.mem_cons]
      refine ⟨?_, h.1, h.2⟩
      rintro x (rfl | hx)
      · exact hk
      · exact Nat.lt_trans hk (h.1 x hx)
    · split
      · next hk =>
        subst hk
        simp only [rising, Bool.and_eq_true, List.all_eq_true, decide_eq_true_eq]
        exact h
      · next h1 h2 =>
        simp only [rising, Bool.and_eq_true, List.all_eq_true, decide_eq_true_eq]
        refine ⟨fun x hx => ?_, ih h.2⟩
        rcases mem_upsert hx with rfl | hx
        · exact Nat.lt_of_le_of_ne (Nat.le_of_not_lt h1) (fun e => h2 e.symm)
        · exact h.1 x hx

/-- Setting a key keeps the keys of a table in rising order. -/
theorem rising_assign [DecidableEq α] {t : Tbl α} (k : Nat) (v d : α) (h : rising t = true) :
    rising (assign t k v d) = true := by
  unfold assign
  split
  · exact rising_filter _ h
  · exact rising_upsert _ _ h

end Tables

/-! ### Fields -/

theorem getLsbD_fieldMask (lo n i : Nat) (hn : n ≤ 64) :
    (fieldMask lo n).getLsbD i = decide (i < 64 ∧ lo ≤ i ∧ i < lo + n) := by
  simp only [fieldMask, BitVec.getLsbD_shiftLeft, BitVec.getLsbD_ushiftRight, BitVec.getLsbD_allOnes]
  by_cases h1 : i < 64
  · by_cases h2 : i < lo
    · rw [Bool.eq_iff_iff]; simp [h1]; omega
    · simp only [h1, h2, decide_true, decide_false, Bool.not_false, Bool.true_and, true_and]
      exact decide_eq_decide.2 (by omega)
  · simp [h1]

theorem getLsbD_fieldPut (w : Word) (lo n v i : Nat) (hn : n ≤ 64) :
    (fieldPut w lo n v).getLsbD i =
      if lo ≤ i ∧ i < lo + n then (decide (i < 64) && v.testBit (i - lo)) else w.getLsbD i := by
  simp only [fieldPut, BitVec.getLsbD_or, BitVec.getLsbD_and, BitVec.getLsbD_not, getLsbD_fieldMask _ _ _ hn,
    BitVec.getLsbD_shiftLeft, BitVec.getLsbD_ofNat]
  by_cases h0 : i < 64
  · by_cases h1 : lo ≤ i
    · by_cases h2 : i < lo + n
      · simp [h0, h1, h2, show i - lo < 64 by omega, show ¬ i < lo by omega]
      · simp [h0, h2]
    · simp [h0, h1]
  · simp [h0, BitVec.getLsbD_of_ge w i (by omega)]

/-- A field reads back the value set, modulo its width. -/
theorem fieldGet_fieldPut_self (w : Word) (lo n v : Nat) (h : lo + n ≤ 64) : fieldGet (fieldPut w lo n v) lo n = v % 2 ^ n := by
  apply Nat.eq_of_testBit_eq
  intro i
  rw [fieldGet, BitVec.testBit_toNat, Nat.testBit_mod_two_pow]
  simp only [BitVec.getLsbD_and, BitVec.getLsbD_ushiftRight, BitVec.getLsbD_allOnes,
    getLsbD_fieldPut _ _ _ _ _ (show n ≤ 64 by omega)]
  by_cases h1 : i < n
  · have a : lo ≤ lo + i ∧ lo + i < lo + n := by omega
    simp [h1, a, show lo + i < 64 by omega, show 64 - n + i < 64 by omega]
  · simp [h1]; intros; omega

/-- Setting one field leaves every field beside it. -/
theorem fieldGet_fieldPut_ne (w : Word) (lo n v lo' n' : Nat) (hn : n ≤ 64) (h : lo' + n' ≤ lo ∨ lo + n ≤ lo')
    (hw : n' ≤ 64) : fieldGet (fieldPut w lo n v) lo' n' = fieldGet w lo' n' := by
  unfold fieldGet
  congr 1
  apply BitVec.eq_of_getLsbD_eq
  intro i hi
  simp only [BitVec.getLsbD_and, BitVec.getLsbD_ushiftRight, BitVec.getLsbD_allOnes, getLsbD_fieldPut _ _ _ _ _ hn]
  by_cases h1 : i < n'
  · have a : ¬(lo ≤ lo' + i ∧ lo' + i < lo + n) := by omega
    simp [a]
  · have b : ¬(64 - n' + i < 64) := by omega
    simp [b]

end Sys2Proof.Machine
end

