-- ==== Sys2Proof/Laws/Regs.lean ====
section
/-! SUPPORT. Laws of the register file: words and fields after one of them is set. -/

namespace Sys2Proof.Machine

open Safety (apart)

theorem Reg.all_num (r : Reg) : Reg.all[r.num]? = some r := by cases r <;> rfl

theorem Reg.num_lt (r : Reg) : r.num < 81 := by
  have h := (List.getElem?_eq_some_iff.1 (Reg.all_num r)).1
  have e : Reg.all.length = 81 := rfl
  omega

theorem Reg.num_inj {r r' : Reg} (h : r.num = r'.num) : r = r' := by
  have a := Reg.all_num r
  rw [h, Reg.all_num r'] at a
  exact (Option.some.inj a).symm

theorem regKey_inj {r r' : Reg} {n n' b b' : Nat} (hb : b < 2) (hb' : b' < 2) (h : regKey r n b = regKey r' n' b') :
    r = r' ∧ n = n' ∧ b = b' := by
  have h1 := Reg.num_lt r
  have h2 := Reg.num_lt r'
  unfold regKey at h
  exact ⟨Reg.num_inj (by omega), by omega, by omega⟩

@[simp] theorem State.word_setWord_self (s : State) (r : Reg) (n : Nat) (v : Word) (b : Nat) :
    (s.setWord r n v b).word r n b = v := by
  simp [State.word, State.setWord, getD_assign_self]

/-- Setting a word leaves every other word. -/
theorem State.word_setWord_ne (s : State) {r r' : Reg} {n n' b b' : Nat} (v : Word) (hb : b < 2) (hb' : b' < 2)
    (h : r' ≠ r ∨ n' ≠ n ∨ b' ≠ b) : (s.setWord r n v b).word r' n' b' = s.word r' n' b' := by
  have hk : regKey r' n' b' ≠ regKey r n b := by
    intro e
    obtain ⟨e1, e2, e3⟩ := regKey_inj hb' hb e
    rcases h with h | h | h <;> contradiction
  simp [State.word, State.setWord, lookup_assign_ne _ _ _ _ _ hk]

theorem fieldGet_lt (w : Word) (lo n : Nat) (hn : n ≤ 64) : fieldGet w lo n < 2 ^ n := by
  unfold fieldGet
  rw [BitVec.toNat_and, BitVec.toNat_ushiftRight]
  refine Nat.lt_of_le_of_lt Nat.and_le_right ?_
  rw [BitVec.toNat_ushiftRight, BitVec.toNat_allOnes, Nat.shiftRight_eq_div_pow]
  rw [Nat.div_lt_iff_lt_mul (Nat.two_pow_pos _), ← Nat.pow_add, show n + (64 - n) = 64 by omega]
  omega

theorem State.parity_lt (s : State) : s.parity < 2 := fieldGet_lt _ _ 1 (by decide)

theorem Reg.bank_lt {e : Nat} (r : Reg) (he : e < 2) : r.bank e < 2 := by
  unfold Reg.bank
  split <;> omega

theorem Fld.bank_lt {e : Nat} (f : Fld) (he : e < 2) : f.bank e < 2 := by
  unfold Fld.bank
  split
  · omega
  · exact f.reg.bank_lt he

/-- Setting a field leaves the words of other registers. -/
theorem State.word_put_ne (s : State) (f : Fld) {r : Reg} {n m b : Nat} (v : Nat) (hb : b < 2)
    (h : r ≠ f.reg ∨ m ≠ n) : (s.put f n v).word r m b = s.word r m b :=
  State.word_setWord_ne s _ (f.bank_lt s.parity_lt) hb (by rcases h with h | h <;> simp [h])

/-- Setting a field leaves, in any bank, a field apart from it, and the same field of other copies. -/
theorem State.fieldGet_put (s : State) (f g : Fld) {n m b : Nat} (v : Nat) (hb : b < 2) (h : apart f g = true ∨ m ≠ n) :
    fieldGet ((s.put f n v).word g.reg m b) g.lo g.width = fieldGet (s.word g.reg m b) g.lo g.width := by
  by_cases hk : g.reg ≠ f.reg ∨ m ≠ n
  · rw [State.word_put_ne s f v hb hk]
  · simp only [not_or, Classical.not_not] at hk
    obtain ⟨hr, rfl⟩ := hk
    rcases h with h | h
    · simp only [Safety.apart, hr, bne_self_eq_false, Bool.false_or, Bool.and_eq_true, Bool.or_eq_true, decide_eq_true_eq] at h
      by_cases hbb : b = f.bank s.parity
      · subst hbb
        unfold State.put
        simp only [hr, State.word_setWord_self]
        exact fieldGet_fieldPut_ne _ _ _ _ _ _ h.1.1 h.2 h.1.2
      · unfold State.put
        rw [State.word_setWord_ne s _ (f.bank_lt s.parity_lt) hb (.inr (.inr hbb))]
    · exact absurd rfl h

/-- Only PARITY of RK_EPOCH sets the parity in effect. -/
theorem State.parity_put (s : State) (f : Fld) (n v : Nat) (h : apart f F.RK_EPOCH_PARITY = true) :
    (s.put f n v).parity = s.parity :=
  State.fieldGet_put s f F.RK_EPOCH_PARITY v (by omega) (.inl h)

theorem State.getE_put_ne (s : State) (f g : Fld) {n m e : Nat} (v : Nat) (he : e < 2) (h : apart f g = true ∨ m ≠ n) :
    (s.put f n v).getE e g m = s.getE e g m :=
  State.fieldGet_put s f g v (g.bank_lt he) h

/-- Setting a field leaves every field apart from it, and the same field of other copies. -/
theorem State.get_put_ne (s : State) (f g : Fld) {n m : Nat} (v : Nat) (hp : apart f F.RK_EPOCH_PARITY = true)
    (h : apart f g = true ∨ m ≠ n) : (s.put f n v).get g m = s.get g m := by
  unfold State.get
  rw [State.parity_put s f n v hp]
  exact State.getE_put_ne s f g v s.parity_lt h

/-- A field reads back what was set, modulo its width. -/
theorem State.get_put_self (s : State) (f : Fld) (n v : Nat) (hp : apart f F.RK_EPOCH_PARITY = true)
    (hw : f.lo + f.width ≤ 64) : (s.put f n v).get f n = v % 2 ^ f.width := by
  unfold State.get
  rw [State.parity_put s f n v hp]
  unfold State.getE State.put
  simp only [State.word_setWord_self]
  exact fieldGet_fieldPut_self _ _ _ _ hw

end Sys2Proof.Machine
end

