-- ==== Sys2Proof/Laws/Frame.lean ====
section
/-! SUPPORT. Frames by footprint: a number whose bit r.num stands for register r and whose bit 81 + k stands for the
k-th store (Store.bit). `Off M s t`: `t` differs from `s` only where M has a bit. -/

namespace Sys2Proof.Machine

open Safety (Store)

/-- The bit of a store in a footprint. -/
def storeBit : Store → Nat
  | .pending => 81
  | .now => 82
  | .freeCtr => 83
  | .chipReset => 84
  | .fuse => 85
  | .mem => 86
  | .badWords => 87
  | .softWords => 88
  | .refLostAt => 89
  | .mgLost => 90
  | .lkLost => 91
  | .clkStopped => 92
  | .clkSince => 93
  | .sampled => 94
  | .timeSets => 95
  | .coreRst => 96
  | .idleHeld => 97
  | .fabLow => 98
  | .tapState => 99
  | .tapIr => 100
  | .fifos => 101
  | .stackVia => 102
  | .hostWait => 103
  | .outWait => 104
  | .turns => 105
  | .links => 106
  | .grants => 107
  | .waits => 108
  | .cmds => 109
  | .stale => 110
  | .rings => 111
  | .holds => 112
  | .parts => 113
  | .fenceDue => 114
  | .tableCorr => 115
  | .pulses => 116
  | .slots => 117
  | .mcBufs => 118
  | .merges => 119
  | .rooms => 120
  | .flushGen => 121
  | .nodes => 122
  | .awaitMarker => 123
  | .markers => 124
  | .fibreHold => 125
  | .plumb => 126
  | .copies => 127
  | .plumbOut => 128
  | .plumbHeld => 129
  | .hubMiss => 130
  | .hubDown => 131
  | .arrivals => 132
  | .lastColls => 133
  | .sinkRuns => 134
  | .raised => 135
  | .ports => 136
  | .ramps => 137
  | .released => 138
  | .tune => 139
  | .planKeys => 140
  | .guard => 141
  | .transitOff => 142
  | .hoPending => 143
  | .hoSince => 144
  | .epochCtl => 145
  | .alorn => 146
  | .wiped => 147
  | .sealStore => 148
  | .logIntake => 149
  | .log => 150
  | .readNext => 151
  | .hostRx => 152
  | .hostTags => 153

/-- `t` differs from `s` only where the footprint `M` has a bit. -/
structure Off (M : Nat) (s t : State) : Prop where
  words : ∀ r n b, b < 2 → M.testBit r.num = false → t.word r n b = s.word r n b
  stores : ∀ x : Store, M.testBit (storeBit x) = false → x.same s t

variable {M L : Nat} {s0 s : State}

theorem Off.refl (M : Nat) (s : State) : Off M s s := ⟨fun _ _ _ _ _ => rfl, fun x _ => by cases x <;> rfl⟩

/-- A footprint within a footprint within `M`. -/
theorem foot_sub {a b : Nat} (hM : b &&& M = b) (h : a &&& b = a) : a &&& M = a := by rw [← h, Nat.and_assoc, hM]

/-- A bit of a footprint within `M` is a bit of `M`. -/
theorem foot_bit {k : Nat} (hM : L &&& M = L) (h : L.testBit k = true) : M.testBit k = true := by
  rw [← hM, Nat.testBit_and, Bool.and_eq_true] at h
  exact h.2

/-- A footprint has a bit. -/
theorem foot_has {k : Nat} (h : L.testBit k = true) : L.testBit k = true := h

theorem Off.ite {c : Prop} [Decidable c] {a b : State} (ha : Off M s0 a) (hb : Off M s0 b) : Off M s0 (if c then a else b) := by
  split
  · exact ha
  · exact hb

theorem Off.ite_fst {α : Type} {c : Prop} [Decidable c] {a b : State × α} (ha : Off M s0 a.1) (hb : Off M s0 b.1) :
    Off M s0 (if c then a else b).1 := by
  split
  · exact ha
  · exact hb

theorem Off.ite_snd {α : Type} {c : Prop} [Decidable c] {a b : α × State} (ha : Off M s0 a.2) (hb : Off M s0 b.2) :
    Off M s0 (if c then a else b).2 := by
  split
  · exact ha
  · exact hb

theorem Off.foldl {α : Type} {g : State → α → State} {l : List α} {s : State} (h : Off M s0 s)
    (hg : ∀ s a, Off M s0 s → Off M s0 (g s a)) : Off M s0 (l.foldl g s) := by
  induction l generalizing s with
  | nil => exact h
  | cons a l ih => exact ih (hg s a h)

/-- What an effect may change, a command may change. -/
theorem live_off {g : State → State} (hg : ∀ s, Off M s0 s → Off M s0 (g s)) (h : Off M s0 s) {t : State}
    (e : live s g = .next t) : Off M s0 t := by
  cases e
  exact Off.ite h (hg s h)

theorem Off.setWord (r : Reg) (n : Nat) (v : Word) (b : Nat) (hb : b < 2) (hr : M.testBit r.num = true) (h : Off M s0 s) :
    Off M s0 (s.setWord r n v b) := by
  refine ⟨fun r' n' b' hb' hr' => ?_, fun x hx => ?_⟩
  · rw [State.word_setWord_ne s v hb hb' (.inl (by intro e; subst e; simp [hr] at hr'))]
    exact h.words r' n' b' hb' hr'
  · have := h.stores x hx
    cases x <;> exact this

/-- Setting a word of the bank in effect for all. -/
theorem Off.setWord0 (hM : L &&& M = L) (r : Reg) (n : Nat) (v : Word) (hr : L.testBit r.num = true) (h : Off M s0 s) :
    Off M s0 (s.setWord r n v 0) := h.setWord r n v 0 (by decide) (foot_bit hM hr)

theorem Off.put (hM : L &&& M = L) (f : Fld) (n v : Nat) (hf : L.testBit f.reg.num = true) (h : Off M s0 s) :
    Off M s0 (s.put f n v) := h.setWord _ _ _ _ (f.bank_lt s.parity_lt) (foot_bit hM hf)

theorem Off.sat (hM : L &&& M = L) (f : Fld) (n k : Nat) (hf : L.testBit f.reg.num = true) (h : Off M s0 s) :
    Off M s0 (s.sat f n k) := h.put hM f n _ hf
theorem Off.wrap (hM : L &&& M = L) (f : Fld) (n k : Nat) (hf : L.testBit f.reg.num = true) (h : Off M s0 s) :
    Off M s0 (s.wrap f n k) := h.put hM f n _ hf
theorem Off.raiseTo (hM : L &&& M = L) (f : Fld) (n v : Nat) (hf : L.testBit f.reg.num = true) (h : Off M s0 s) :
    Off M s0 (s.raiseTo f n v) := h.put hM f n _ hf

/-- A field known only by its register, or one of several. -/
theorem Off.putIf (f : Fld) (n v : Nat) (hf : M.testBit f.reg.num = true) (h : Off M s0 s) : Off M s0 (s.put f n v) :=
  h.setWord _ _ _ _ (f.bank_lt s.parity_lt) hf

/-! ### A record update of stores that the footprint names -/

theorem Off.set_pending (v : List Instr) (hb : M.testBit 81 = true) (h : Off M s0 s) :
    Off M s0 { s with pending := v } := by
  refine ⟨h.words, fun x hx => ?_⟩
  have k := h.stores x hx
  cases x
  case pending => rw [show storeBit .pending = 81 from rfl, hb] at hx; contradiction
  all_goals exact k

theorem Off.set_now (v : Nat) (hb : M.testBit 82 = true) (h : Off M s0 s) :
    Off M s0 { s with now := v } := by
  refine ⟨h.words, fun x hx => ?_⟩
  have k := h.stores x hx
  cases x
  case now => rw [show storeBit .now = 82 from rfl, hb] at hx; contradiction
  all_goals exact k

theorem Off.set_freeCtr (v : Nat) (hb : M.testBit 83 = true) (h : Off M s0 s) :
    Off M s0 { s with freeCtr := v } := by
  refine ⟨h.words, fun x hx => ?_⟩
  have k := h.stores x hx
  cases x
  case freeCtr => rw [show storeBit .freeCtr = 83 from rfl, hb] at hx; contradiction
  all_goals exact k

theorem Off.set_chipReset (v : Bool) (hb : M.testBit 84 = true) (h : Off M s0 s) :
    Off M s0 { s with chipReset := v } := by
  refine ⟨h.words, fun x hx => ?_⟩
  have k := h.stores x hx
  cases x
  case chipReset => rw [show storeBit .chipReset = 84 from rfl, hb] at hx; contradiction
  all_goals exact k

theorem Off.set_fuse (v : Fuse) (hb : M.testBit 85 = true) (h : Off M s0 s) :
    Off M s0 { s with fuse := v } := by
  refine ⟨h.words, fun x hx => ?_⟩
  have k := h.stores x hx
  cases x
  case fuse => rw [show storeBit .fuse = 85 from rfl, hb] at hx; contradiction
  all_goals exact k

theorem Off.set_mem (v : List Host.Cell) (hb : M.testBit 86 = true) (h : Off M s0 s) :
    Off M s0 { s with mem := v } := by
  refine ⟨h.words, fun x hx => ?_⟩
  have k := h.stores x hx
  cases x
  case mem => rw [show storeBit .mem = 86 from rfl, hb] at hx; contradiction
  all_goals exact k

theorem Off.set_badWords (v : List Nat) (hb : M.testBit 87 = true) (h : Off M s0 s) :
    Off M s0 { s with badWords := v } := by
  refine ⟨h.words, fun x hx => ?_⟩
  have k := h.stores x hx
  cases x
  case badWords => rw [show storeBit .badWords = 87 from rfl, hb] at hx; contradiction
  all_goals exact k

theorem Off.set_softWords (v : List Nat) (hb : M.testBit 88 = true) (h : Off M s0 s) :
    Off M s0 { s with softWords := v } := by
  refine ⟨h.words, fun x hx => ?_⟩
  have k := h.stores x hx
  cases x
  case softWords => rw [show storeBit .softWords = 88 from rfl, hb] at hx; contradiction
  all_goals exact k

theorem Off.set_refLostAt (v : Option Nat) (hb : M.testBit 89 = true) (h : Off M s0 s) :
    Off M s0 { s with refLostAt := v } := by
  refine ⟨h.words, fun x hx => ?_⟩
  have k := h.stores x hx
  cases x
  case refLostAt => rw [show storeBit .refLostAt = 89 from rfl, hb] at hx; contradiction
  all_goals exact k

theorem Off.set_mgLost (v : Bool) (hb : M.testBit 90 = true) (h : Off M s0 s) :
    Off M s0 { s with mgLost := v } := by
  refine ⟨h.words, fun x hx => ?_⟩
  have k := h.stores x hx
  cases x
  case mgLost => rw [show storeBit .mgLost = 90 from rfl, hb] at hx; contradiction
  all_goals exact k

theorem Off.set_lkLost (v : Bool) (hb : M.testBit 91 = true) (h : Off M s0 s) :
    Off M s0 { s with lkLost := v } := by
  refine ⟨h.words, fun x hx => ?_⟩
  have k := h.stores x hx
  cases x
  case lkLost => rw [show storeBit .lkLost = 91 from rfl, hb] at hx; contradiction
  all_goals exact k

theorem Off.set_clkStopped (v : Tbl Nat) (hb : M.testBit 92 = true) (h : Off M s0 s) :
    Off M s0 { s with clkStopped := v } := by
  refine ⟨h.words, fun x hx => ?_⟩
  have k := h.stores x hx
  cases x
  case clkStopped => rw [show storeBit .clkStopped = 92 from rfl, hb] at hx; contradiction
  all_goals exact k

theorem Off.set_clkSince (v : Tbl Nat) (hb : M.testBit 93 = true) (h : Off M s0 s) :
    Off M s0 { s with clkSince := v } := by
  refine ⟨h.words, fun x hx => ?_⟩
  have k := h.stores x hx
  cases x
  case clkSince => rw [show storeBit .clkSince = 93 from rfl, hb] at hx; contradiction
  all_goals exact k

theorem Off.set_sampled (v : Tbl Word) (hb : M.testBit 94 = true) (h : Off M s0 s) :
    Off M s0 { s with sampled := v } := by
  refine ⟨h.words, fun x hx => ?_⟩
  have k := h.stores x hx
  cases x
  case sampled => rw [show storeBit .sampled = 94 from rfl, hb] at hx; contradiction
  all_goals exact k

theorem Off.set_timeSets (v : List (Bool × Word)) (hb : M.testBit 95 = true) (h : Off M s0 s) :
    Off M s0 { s with timeSets := v } := by
  refine ⟨h.words, fun x hx => ?_⟩
  have k := h.stores x hx
  cases x
  case timeSets => rw [show storeBit .timeSets = 95 from rfl, hb] at hx; contradiction
  all_goals exact k

theorem Off.set_coreRst (v : List Nat) (hb : M.testBit 96 = true) (h : Off M s0 s) :
    Off M s0 { s with coreRst := v } := by
  refine ⟨h.words, fun x hx => ?_⟩
  have k := h.stores x hx
  cases x
  case coreRst => rw [show storeBit .coreRst = 96 from rfl, hb] at hx; contradiction
  all_goals exact k

theorem Off.set_idleHeld (v : List Nat) (hb : M.testBit 97 = true) (h : Off M s0 s) :
    Off M s0 { s with idleHeld := v } := by
  refine ⟨h.words, fun x hx => ?_⟩
  have k := h.stores x hx
  cases x
  case idleHeld => rw [show storeBit .idleHeld = 97 from rfl, hb] at hx; contradiction
  all_goals exact k

theorem Off.set_fabLow (v : Bool) (hb : M.testBit 98 = true) (h : Off M s0 s) :
    Off M s0 { s with fabLow := v } := by
  refine ⟨h.words, fun x hx => ?_⟩
  have k := h.stores x hx
  cases x
  case fabLow => rw [show storeBit .fabLow = 98 from rfl, hb] at hx; contradiction
  all_goals exact k

theorem Off.set_tapState (v : Nat) (hb : M.testBit 99 = true) (h : Off M s0 s) :
    Off M s0 { s with tapState := v } := by
  refine ⟨h.words, fun x hx => ?_⟩
  have k := h.stores x hx
  cases x
  case tapState => rw [show storeBit .tapState = 99 from rfl, hb] at hx; contradiction
  all_goals exact k

theorem Off.set_tapIr (v : Nat) (hb : M.testBit 100 = true) (h : Off M s0 s) :
    Off M s0 { s with tapIr := v } := by
  refine ⟨h.words, fun x hx => ?_⟩
  have k := h.stores x hx
  cases x
  case tapIr => rw [show storeBit .tapIr = 100 from rfl, hb] at hx; contradiction
  all_goals exact k

theorem Off.set_fifos (v : Tbl Fifo) (hb : M.testBit 101 = true) (h : Off M s0 s) :
    Off M s0 { s with fifos := v } := by
  refine ⟨h.words, fun x hx => ?_⟩
  have k := h.stores x hx
  cases x
  case fifos => rw [show storeBit .fifos = 101 from rfl, hb] at hx; contradiction
  all_goals exact k

theorem Off.set_stackVia (v : Tbl Nat) (hb : M.testBit 102 = true) (h : Off M s0 s) :
    Off M s0 { s with stackVia := v } := by
  refine ⟨h.words, fun x hx => ?_⟩
  have k := h.stores x hx
  cases x
  case stackVia => rw [show storeBit .stackVia = 102 from rfl, hb] at hx; contradiction
  all_goals exact k

theorem Off.set_hostWait (v : Tbl (BitVec 512)) (hb : M.testBit 103 = true) (h : Off M s0 s) :
    Off M s0 { s with hostWait := v } := by
  refine ⟨h.words, fun x hx => ?_⟩
  have k := h.stores x hx
  cases x
  case hostWait => rw [show storeBit .hostWait = 103 from rfl, hb] at hx; contradiction
  all_goals exact k

theorem Off.set_outWait (v : List OutWait) (hb : M.testBit 104 = true) (h : Off M s0 s) :
    Off M s0 { s with outWait := v } := by
  refine ⟨h.words, fun x hx => ?_⟩
  have k := h.stores x hx
  cases x
  case outWait => rw [show storeBit .outWait = 104 from rfl, hb] at hx; contradiction
  all_goals exact k

theorem Off.set_turns (v : Tbl Nat) (hb : M.testBit 105 = true) (h : Off M s0 s) :
    Off M s0 { s with turns := v } := by
  refine ⟨h.words, fun x hx => ?_⟩
  have k := h.stores x hx
  cases x
  case turns => rw [show storeBit .turns = 105 from rfl, hb] at hx; contradiction
  all_goals exact k

theorem Off.set_links (v : Tbl Link) (hb : M.testBit 106 = true) (h : Off M s0 s) :
    Off M s0 { s with links := v } := by
  refine ⟨h.words, fun x hx => ?_⟩
  have k := h.stores x hx
  cases x
  case links => rw [show storeBit .links = 106 from rfl, hb] at hx; contradiction
  all_goals exact k

theorem Off.set_grants (v : Tbl Grant) (hb : M.testBit 107 = true) (h : Off M s0 s) :
    Off M s0 { s with grants := v } := by
  refine ⟨h.words, fun x hx => ?_⟩
  have k := h.stores x hx
  cases x
  case grants => rw [show storeBit .grants = 107 from rfl, hb] at hx; contradiction
  all_goals exact k

theorem Off.set_waits (v : List Waiting) (hb : M.testBit 108 = true) (h : Off M s0 s) :
    Off M s0 { s with waits := v } := by
  refine ⟨h.words, fun x hx => ?_⟩
  have k := h.stores x hx
  cases x
  case waits => rw [show storeBit .waits = 108 from rfl, hb] at hx; contradiction
  all_goals exact k

theorem Off.set_cmds (v : List Cmd) (hb : M.testBit 109 = true) (h : Off M s0 s) :
    Off M s0 { s with cmds := v } := by
  refine ⟨h.words, fun x hx => ?_⟩
  have k := h.stores x hx
  cases x
  case cmds => rw [show storeBit .cmds = 109 from rfl, hb] at hx; contradiction
  all_goals exact k

theorem Off.set_stale (v : List (Nat × Nat × Nat)) (hb : M.testBit 110 = true) (h : Off M s0 s) :
    Off M s0 { s with stale := v } := by
  refine ⟨h.words, fun x hx => ?_⟩
  have k := h.stores x hx
  cases x
  case stale => rw [show storeBit .stale = 110 from rfl, hb] at hx; contradiction
  all_goals exact k

theorem Off.set_rings (v : Tbl Ring) (hb : M.testBit 111 = true) (h : Off M s0 s) :
    Off M s0 { s with rings := v } := by
  refine ⟨h.words, fun x hx => ?_⟩
  have k := h.stores x hx
  cases x
  case rings => rw [show storeBit .rings = 111 from rfl, hb] at hx; contradiction
  all_goals exact k

theorem Off.set_holds (v : List Held) (hb : M.testBit 112 = true) (h : Off M s0 s) :
    Off M s0 { s with holds := v } := by
  refine ⟨h.words, fun x hx => ?_⟩
  have k := h.stores x hx
  cases x
  case holds => rw [show storeBit .holds = 112 from rfl, hb] at hx; contradiction
  all_goals exact k

theorem Off.set_parts (v : Tbl Part) (hb : M.testBit 113 = true) (h : Off M s0 s) :
    Off M s0 { s with parts := v } := by
  refine ⟨h.words, fun x hx => ?_⟩
  have k := h.stores x hx
  cases x
  case parts => rw [show storeBit .parts = 113 from rfl, hb] at hx; contradiction
  all_goals exact k

theorem Off.set_fenceDue (v : List Nat) (hb : M.testBit 114 = true) (h : Off M s0 s) :
    Off M s0 { s with fenceDue := v } := by
  refine ⟨h.words, fun x hx => ?_⟩
  have k := h.stores x hx
  cases x
  case fenceDue => rw [show storeBit .fenceDue = 114 from rfl, hb] at hx; contradiction
  all_goals exact k

theorem Off.set_tableCorr (v : Nat) (hb : M.testBit 115 = true) (h : Off M s0 s) :
    Off M s0 { s with tableCorr := v } := by
  refine ⟨h.words, fun x hx => ?_⟩
  have k := h.stores x hx
  cases x
  case tableCorr => rw [show storeBit .tableCorr = 115 from rfl, hb] at hx; contradiction
  all_goals exact k

theorem Off.set_pulses (v : Tbl Nat) (hb : M.testBit 116 = true) (h : Off M s0 s) :
    Off M s0 { s with pulses := v } := by
  refine ⟨h.words, fun x hx => ?_⟩
  have k := h.stores x hx
  cases x
  case pulses => rw [show storeBit .pulses = 116 from rfl, hb] at hx; contradiction
  all_goals exact k

theorem Off.set_slots (v : Tbl Slot) (hb : M.testBit 117 = true) (h : Off M s0 s) :
    Off M s0 { s with slots := v } := by
  refine ⟨h.words, fun x hx => ?_⟩
  have k := h.stores x hx
  cases x
  case slots => rw [show storeBit .slots = 117 from rfl, hb] at hx; contradiction
  all_goals exact k

theorem Off.set_mcBufs (v : Tbl McBuf) (hb : M.testBit 118 = true) (h : Off M s0 s) :
    Off M s0 { s with mcBufs := v } := by
  refine ⟨h.words, fun x hx => ?_⟩
  have k := h.stores x hx
  cases x
  case mcBufs => rw [show storeBit .mcBufs = 118 from rfl, hb] at hx; contradiction
  all_goals exact k

theorem Off.set_merges (v : Tbl Merge) (hb : M.testBit 119 = true) (h : Off M s0 s) :
    Off M s0 { s with merges := v } := by
  refine ⟨h.words, fun x hx => ?_⟩
  have k := h.stores x hx
  cases x
  case merges => rw [show storeBit .merges = 119 from rfl, hb] at hx; contradiction
  all_goals exact k

theorem Off.set_rooms (v : Tbl Room) (hb : M.testBit 120 = true) (h : Off M s0 s) :
    Off M s0 { s with rooms := v } := by
  refine ⟨h.words, fun x hx => ?_⟩
  have k := h.stores x hx
  cases x
  case rooms => rw [show storeBit .rooms = 120 from rfl, hb] at hx; contradiction
  all_goals exact k

theorem Off.set_flushGen (v : List Nat) (hb : M.testBit 121 = true) (h : Off M s0 s) :
    Off M s0 { s with flushGen := v } := by
  refine ⟨h.words, fun x hx => ?_⟩
  have k := h.stores x hx
  cases x
  case flushGen => rw [show storeBit .flushGen = 121 from rfl, hb] at hx; contradiction
  all_goals exact k

theorem Off.set_nodes (v : Tbl NodeRun) (hb : M.testBit 122 = true) (h : Off M s0 s) :
    Off M s0 { s with nodes := v } := by
  refine ⟨h.words, fun x hx => ?_⟩
  have k := h.stores x hx
  cases x
  case nodes => rw [show storeBit .nodes = 122 from rfl, hb] at hx; contradiction
  all_goals exact k

theorem Off.set_awaitMarker (v : List (Nat × Nat × Nat)) (hb : M.testBit 123 = true) (h : Off M s0 s) :
    Off M s0 { s with awaitMarker := v } := by
  refine ⟨h.words, fun x hx => ?_⟩
  have k := h.stores x hx
  cases x
  case awaitMarker => rw [show storeBit .awaitMarker = 123 from rfl, hb] at hx; contradiction
  all_goals exact k

theorem Off.set_markers (v : List (Nat × Nat × Nat)) (hb : M.testBit 124 = true) (h : Off M s0 s) :
    Off M s0 { s with markers := v } := by
  refine ⟨h.words, fun x hx => ?_⟩
  have k := h.stores x hx
  cases x
  case markers => rw [show storeBit .markers = 124 from rfl, hb] at hx; contradiction
  all_goals exact k

theorem Off.set_fibreHold (v : List (Nat × Packet)) (hb : M.testBit 125 = true) (h : Off M s0 s) :
    Off M s0 { s with fibreHold := v } := by
  refine ⟨h.words, fun x hx => ?_⟩
  have k := h.stores x hx
  cases x
  case fibreHold => rw [show storeBit .fibreHold = 125 from rfl, hb] at hx; contradiction
  all_goals exact k

theorem Off.set_plumb (v : Tbl PlumbRun) (hb : M.testBit 126 = true) (h : Off M s0 s) :
    Off M s0 { s with plumb := v } := by
  refine ⟨h.words, fun x hx => ?_⟩
  have k := h.stores x hx
  cases x
  case plumb => rw [show storeBit .plumb = 126 from rfl, hb] at hx; contradiction
  all_goals exact k

theorem Off.set_copies (v : List (Nat × Hub × PlumbMsg)) (hb : M.testBit 127 = true) (h : Off M s0 s) :
    Off M s0 { s with copies := v } := by
  refine ⟨h.words, fun x hx => ?_⟩
  have k := h.stores x hx
  cases x
  case copies => rw [show storeBit .copies = 127 from rfl, hb] at hx; contradiction
  all_goals exact k

theorem Off.set_plumbOut (v : List PlumbSent) (hb : M.testBit 128 = true) (h : Off M s0 s) :
    Off M s0 { s with plumbOut := v } := by
  refine ⟨h.words, fun x hx => ?_⟩
  have k := h.stores x hx
  cases x
  case plumbOut => rw [show storeBit .plumbOut = 128 from rfl, hb] at hx; contradiction
  all_goals exact k

theorem Off.set_plumbHeld (v : Tbl Nat) (hb : M.testBit 129 = true) (h : Off M s0 s) :
    Off M s0 { s with plumbHeld := v } := by
  refine ⟨h.words, fun x hx => ?_⟩
  have k := h.stores x hx
  cases x
  case plumbHeld => rw [show storeBit .plumbHeld = 129 from rfl, hb] at hx; contradiction
  all_goals exact k

theorem Off.set_hubMiss (v : Tbl Nat) (hb : M.testBit 130 = true) (h : Off M s0 s) :
    Off M s0 { s with hubMiss := v } := by
  refine ⟨h.words, fun x hx => ?_⟩
  have k := h.stores x hx
  cases x
  case hubMiss => rw [show storeBit .hubMiss = 130 from rfl, hb] at hx; contradiction
  all_goals exact k

theorem Off.set_hubDown (v : List Nat) (hb : M.testBit 131 = true) (h : Off M s0 s) :
    Off M s0 { s with hubDown := v } := by
  refine ⟨h.words, fun x hx => ?_⟩
  have k := h.stores x hx
  cases x
  case hubDown => rw [show storeBit .hubDown = 131 from rfl, hb] at hx; contradiction
  all_goals exact k

theorem Off.set_arrivals (v : Tbl Arrivals) (hb : M.testBit 132 = true) (h : Off M s0 s) :
    Off M s0 { s with arrivals := v } := by
  refine ⟨h.words, fun x hx => ?_⟩
  have k := h.stores x hx
  cases x
  case arrivals => rw [show storeBit .arrivals = 132 from rfl, hb] at hx; contradiction
  all_goals exact k

theorem Off.set_lastColls (v : Tbl Cmd) (hb : M.testBit 133 = true) (h : Off M s0 s) :
    Off M s0 { s with lastColls := v } := by
  refine ⟨h.words, fun x hx => ?_⟩
  have k := h.stores x hx
  cases x
  case lastColls => rw [show storeBit .lastColls = 133 from rfl, hb] at hx; contradiction
  all_goals exact k

theorem Off.set_sinkRuns (v : Tbl (Nat × Nat)) (hb : M.testBit 134 = true) (h : Off M s0 s) :
    Off M s0 { s with sinkRuns := v } := by
  refine ⟨h.words, fun x hx => ?_⟩
  have k := h.stores x hx
  cases x
  case sinkRuns => rw [show storeBit .sinkRuns = 134 from rfl, hb] at hx; contradiction
  all_goals exact k

theorem Off.set_raised (v : List (Nat × Nat × Nat)) (hb : M.testBit 135 = true) (h : Off M s0 s) :
    Off M s0 { s with raised := v } := by
  refine ⟨h.words, fun x hx => ?_⟩
  have k := h.stores x hx
  cases x
  case raised => rw [show storeBit .raised = 135 from rfl, hb] at hx; contradiction
  all_goals exact k

theorem Off.set_ports (v : Tbl Port) (hb : M.testBit 136 = true) (h : Off M s0 s) :
    Off M s0 { s with ports := v } := by
  refine ⟨h.words, fun x hx => ?_⟩
  have k := h.stores x hx
  cases x
  case ports => rw [show storeBit .ports = 136 from rfl, hb] at hx; contradiction
  all_goals exact k

theorem Off.set_ramps (v : Tbl Nat) (hb : M.testBit 137 = true) (h : Off M s0 s) :
    Off M s0 { s with ramps := v } := by
  refine ⟨h.words, fun x hx => ?_⟩
  have k := h.stores x hx
  cases x
  case ramps => rw [show storeBit .ramps = 137 from rfl, hb] at hx; contradiction
  all_goals exact k

theorem Off.set_released (v : Tbl Nat) (hb : M.testBit 138 = true) (h : Off M s0 s) :
    Off M s0 { s with released := v } := by
  refine ⟨h.words, fun x hx => ?_⟩
  have k := h.stores x hx
  cases x
  case released => rw [show storeBit .released = 138 from rfl, hb] at hx; contradiction
  all_goals exact k

theorem Off.set_tune (v : Tbl Nat) (hb : M.testBit 139 = true) (h : Off M s0 s) :
    Off M s0 { s with tune := v } := by
  refine ⟨h.words, fun x hx => ?_⟩
  have k := h.stores x hx
  cases x
  case tune => rw [show storeBit .tune = 139 from rfl, hb] at hx; contradiction
  all_goals exact k

theorem Off.set_planKeys (v : Tbl (BitVec 384)) (hb : M.testBit 140 = true) (h : Off M s0 s) :
    Off M s0 { s with planKeys := v } := by
  refine ⟨h.words, fun x hx => ?_⟩
  have k := h.stores x hx
  cases x
  case planKeys => rw [show storeBit .planKeys = 140 from rfl, hb] at hx; contradiction
  all_goals exact k

theorem Off.set_guard (v : Tbl Word) (hb : M.testBit 141 = true) (h : Off M s0 s) :
    Off M s0 { s with guard := v } := by
  refine ⟨h.words, fun x hx => ?_⟩
  have k := h.stores x hx
  cases x
  case guard => rw [show storeBit .guard = 141 from rfl, hb] at hx; contradiction
  all_goals exact k

theorem Off.set_transitOff (v : Bool) (hb : M.testBit 142 = true) (h : Off M s0 s) :
    Off M s0 { s with transitOff := v } := by
  refine ⟨h.words, fun x hx => ?_⟩
  have k := h.stores x hx
  cases x
  case transitOff => rw [show storeBit .transitOff = 142 from rfl, hb] at hx; contradiction
  all_goals exact k

theorem Off.set_hoPending (v : List (Nat × Nat × Nat)) (hb : M.testBit 143 = true) (h : Off M s0 s) :
    Off M s0 { s with hoPending := v } := by
  refine ⟨h.words, fun x hx => ?_⟩
  have k := h.stores x hx
  cases x
  case hoPending => rw [show storeBit .hoPending = 143 from rfl, hb] at hx; contradiction
  all_goals exact k

theorem Off.set_hoSince (v : Tbl Nat) (hb : M.testBit 144 = true) (h : Off M s0 s) :
    Off M s0 { s with hoSince := v } := by
  refine ⟨h.words, fun x hx => ?_⟩
  have k := h.stores x hx
  cases x
  case hoSince => rw [show storeBit .hoSince = 144 from rfl, hb] at hx; contradiction
  all_goals exact k

theorem Off.set_epochCtl (v : EpochCtl) (hb : M.testBit 145 = true) (h : Off M s0 s) :
    Off M s0 { s with epochCtl := v } := by
  refine ⟨h.words, fun x hx => ?_⟩
  have k := h.stores x hx
  cases x
  case epochCtl => rw [show storeBit .epochCtl = 145 from rfl, hb] at hx; contradiction
  all_goals exact k

theorem Off.set_alorn (v : Alorn) (hb : M.testBit 146 = true) (h : Off M s0 s) :
    Off M s0 { s with alorn := v } := by
  refine ⟨h.words, fun x hx => ?_⟩
  have k := h.stores x hx
  cases x
  case alorn => rw [show storeBit .alorn = 146 from rfl, hb] at hx; contradiction
  all_goals exact k

theorem Off.set_wiped (v : Bool) (hb : M.testBit 147 = true) (h : Off M s0 s) :
    Off M s0 { s with wiped := v } := by
  refine ⟨h.words, fun x hx => ?_⟩
  have k := h.stores x hx
  cases x
  case wiped => rw [show storeBit .wiped = 147 from rfl, hb] at hx; contradiction
  all_goals exact k

theorem Off.set_sealStore (v : Tbl SealSlot) (hb : M.testBit 148 = true) (h : Off M s0 s) :
    Off M s0 { s with sealStore := v } := by
  refine ⟨h.words, fun x hx => ?_⟩
  have k := h.stores x hx
  cases x
  case sealStore => rw [show storeBit .sealStore = 148 from rfl, hb] at hx; contradiction
  all_goals exact k

theorem Off.set_logIntake (v : List LogEntry) (hb : M.testBit 149 = true) (h : Off M s0 s) :
    Off M s0 { s with logIntake := v } := by
  refine ⟨h.words, fun x hx => ?_⟩
  have k := h.stores x hx
  cases x
  case logIntake => rw [show storeBit .logIntake = 149 from rfl, hb] at hx; contradiction
  all_goals exact k

theorem Off.set_log (v : List LogRec) (hb : M.testBit 150 = true) (h : Off M s0 s) :
    Off M s0 { s with log := v } := by
  refine ⟨h.words, fun x hx => ?_⟩
  have k := h.stores x hx
  cases x
  case log => rw [show storeBit .log = 150 from rfl, hb] at hx; contradiction
  all_goals exact k

theorem Off.set_readNext (v : Nat) (hb : M.testBit 151 = true) (h : Off M s0 s) :
    Off M s0 { s with readNext := v } := by
  refine ⟨h.words, fun x hx => ?_⟩
  have k := h.stores x hx
  cases x
  case readNext => rw [show storeBit .readNext = 151 from rfl, hb] at hx; contradiction
  all_goals exact k

theorem Off.set_hostRx (v : List Packet) (hb : M.testBit 152 = true) (h : Off M s0 s) :
    Off M s0 { s with hostRx := v } := by
  refine ⟨h.words, fun x hx => ?_⟩
  have k := h.stores x hx
  cases x
  case hostRx => rw [show storeBit .hostRx = 152 from rfl, hb] at hx; contradiction
  all_goals exact k

theorem Off.set_hostTags (v : List Nat) (hb : M.testBit 153 = true) (h : Off M s0 s) :
    Off M s0 { s with hostTags := v } := by
  refine ⟨h.words, fun x hx => ?_⟩
  have k := h.stores x hx
  cases x
  case hostTags => rw [show storeBit .hostTags = 153 from rfl, hb] at hx; contradiction
  all_goals exact k

theorem Off.upd_alorn {v0 : Alorn}
    (h0 : M.testBit 146 = true)
    (h : Off M s0 s) : Off M s0 { s with alorn := v0 } :=
  (h.set_alorn v0 h0)

theorem Off.upd_arrivals {v0 : Tbl Arrivals}
    (h0 : M.testBit 132 = true)
    (h : Off M s0 s) : Off M s0 { s with arrivals := v0 } :=
  (h.set_arrivals v0 h0)

theorem Off.upd_awaitMarker {v0 : List (Nat × Nat × Nat)}
    (h0 : M.testBit 123 = true)
    (h : Off M s0 s) : Off M s0 { s with awaitMarker := v0 } :=
  (h.set_awaitMarker v0 h0)

theorem Off.upd_badWords {v0 : List Nat}
    (h0 : M.testBit 87 = true)
    (h : Off M s0 s) : Off M s0 { s with badWords := v0 } :=
  (h.set_badWords v0 h0)

theorem Off.upd_chipReset {v0 : Bool}
    (h0 : M.testBit 84 = true)
    (h : Off M s0 s) : Off M s0 { s with chipReset := v0 } :=
  (h.set_chipReset v0 h0)

theorem Off.upd_clkStopped {v0 : Tbl Nat}
    (h0 : M.testBit 92 = true)
    (h : Off M s0 s) : Off M s0 { s with clkStopped := v0 } :=
  (h.set_clkStopped v0 h0)

theorem Off.upd_cmds {v0 : List Cmd}
    (h0 : M.testBit 109 = true)
    (h : Off M s0 s) : Off M s0 { s with cmds := v0 } :=
  (h.set_cmds v0 h0)

theorem Off.upd_copies {v0 : List (Nat × Hub × PlumbMsg)}
    (h0 : M.testBit 127 = true)
    (h : Off M s0 s) : Off M s0 { s with copies := v0 } :=
  (h.set_copies v0 h0)

theorem Off.upd_coreRst {v0 : List Nat}
    (h0 : M.testBit 96 = true)
    (h : Off M s0 s) : Off M s0 { s with coreRst := v0 } :=
  (h.set_coreRst v0 h0)

theorem Off.upd_coreRst_idleHeld {v0 : List Nat} {v1 : List Nat}
    (h0 : M.testBit 96 = true) (h1 : M.testBit 97 = true)
    (h : Off M s0 s) : Off M s0 { s with coreRst := v0, idleHeld := v1 } :=
  ((h.set_coreRst v0 h0).set_idleHeld v1 h1)

theorem Off.upd_epochCtl {v0 : EpochCtl}
    (h0 : M.testBit 145 = true)
    (h : Off M s0 s) : Off M s0 { s with epochCtl := v0 } :=
  (h.set_epochCtl v0 h0)

theorem Off.upd_epochCtl_alorn {v0 : EpochCtl} {v1 : Alorn}
    (h0 : M.testBit 145 = true) (h1 : M.testBit 146 = true)
    (h : Off M s0 s) : Off M s0 { s with epochCtl := v0, alorn := v1 } :=
  ((h.set_epochCtl v0 h0).set_alorn v1 h1)

theorem Off.upd_fabLow {v0 : Bool}
    (h0 : M.testBit 98 = true)
    (h : Off M s0 s) : Off M s0 { s with fabLow := v0 } :=
  (h.set_fabLow v0 h0)

theorem Off.upd_fenceDue {v0 : List Nat}
    (h0 : M.testBit 114 = true)
    (h : Off M s0 s) : Off M s0 { s with fenceDue := v0 } :=
  (h.set_fenceDue v0 h0)

theorem Off.upd_fibreHold {v0 : List (Nat × Packet)}
    (h0 : M.testBit 125 = true)
    (h : Off M s0 s) : Off M s0 { s with fibreHold := v0 } :=
  (h.set_fibreHold v0 h0)

theorem Off.upd_fifos {v0 : Tbl Fifo}
    (h0 : M.testBit 101 = true)
    (h : Off M s0 s) : Off M s0 { s with fifos := v0 } :=
  (h.set_fifos v0 h0)

theorem Off.upd_fifos_links_grants_waits_copies_plumbOut {v0 : Tbl Fifo} {v1 : Tbl Link} {v2 : Tbl Grant} {v3 : List Waiting} {v4 : List (Nat × Hub × PlumbMsg)} {v5 : List PlumbSent}
    (h0 : M.testBit 101 = true) (h1 : M.testBit 106 = true) (h2 : M.testBit 107 = true) (h3 : M.testBit 108 = true) (h4 : M.testBit 127 = true) (h5 : M.testBit 128 = true)
    (h : Off M s0 s) : Off M s0 { s with fifos := v0, links := v1, grants := v2, waits := v3, copies := v4, plumbOut := v5 } :=
  ((((((h.set_fifos v0 h0).set_links v1 h1).set_grants v2 h2).set_waits v3 h3).set_copies v4 h4).set_plumbOut v5 h5)

theorem Off.upd_flushGen {v0 : List Nat}
    (h0 : M.testBit 121 = true)
    (h : Off M s0 s) : Off M s0 { s with flushGen := v0 } :=
  (h.set_flushGen v0 h0)

theorem Off.upd_freeCtr {v0 : Nat}
    (h0 : M.testBit 83 = true)
    (h : Off M s0 s) : Off M s0 { s with freeCtr := v0 } :=
  (h.set_freeCtr v0 h0)

theorem Off.upd_freeCtr_mem_badWords_softWords {v0 : Nat} {v1 : List Host.Cell} {v2 : List Nat} {v3 : List Nat}
    (h0 : M.testBit 83 = true) (h1 : M.testBit 86 = true) (h2 : M.testBit 87 = true) (h3 : M.testBit 88 = true)
    (h : Off M s0 s) : Off M s0 { s with freeCtr := v0, mem := v1, badWords := v2, softWords := v3 } :=
  ((((h.set_freeCtr v0 h0).set_mem v1 h1).set_badWords v2 h2).set_softWords v3 h3)

theorem Off.upd_fuse {v0 : Fuse}
    (h0 : M.testBit 85 = true)
    (h : Off M s0 s) : Off M s0 { s with fuse := v0 } :=
  (h.set_fuse v0 h0)

theorem Off.upd_grants {v0 : Tbl Grant}
    (h0 : M.testBit 107 = true)
    (h : Off M s0 s) : Off M s0 { s with grants := v0 } :=
  (h.set_grants v0 h0)

theorem Off.upd_grants_waits {v0 : Tbl Grant} {v1 : List Waiting}
    (h0 : M.testBit 107 = true) (h1 : M.testBit 108 = true)
    (h : Off M s0 s) : Off M s0 { s with grants := v0, waits := v1 } :=
  ((h.set_grants v0 h0).set_waits v1 h1)

theorem Off.upd_hoPending {v0 : List (Nat × Nat × Nat)}
    (h0 : M.testBit 143 = true)
    (h : Off M s0 s) : Off M s0 { s with hoPending := v0 } :=
  (h.set_hoPending v0 h0)

theorem Off.upd_hoSince {v0 : Tbl Nat}
    (h0 : M.testBit 144 = true)
    (h : Off M s0 s) : Off M s0 { s with hoSince := v0 } :=
  (h.set_hoSince v0 h0)

theorem Off.upd_holds {v0 : List Held}
    (h0 : M.testBit 112 = true)
    (h : Off M s0 s) : Off M s0 { s with holds := v0 } :=
  (h.set_holds v0 h0)

theorem Off.upd_hostRx {v0 : List Packet}
    (h0 : M.testBit 152 = true)
    (h : Off M s0 s) : Off M s0 { s with hostRx := v0 } :=
  (h.set_hostRx v0 h0)

theorem Off.upd_hostRx_hostTags {v0 : List Packet} {v1 : List Nat}
    (h0 : M.testBit 152 = true) (h1 : M.testBit 153 = true)
    (h : Off M s0 s) : Off M s0 { s with hostRx := v0, hostTags := v1 } :=
  ((h.set_hostRx v0 h0).set_hostTags v1 h1)

theorem Off.upd_hostTags {v0 : List Nat}
    (h0 : M.testBit 153 = true)
    (h : Off M s0 s) : Off M s0 { s with hostTags := v0 } :=
  (h.set_hostTags v0 h0)

theorem Off.upd_hostWait {v0 : Tbl (BitVec 512)}
    (h0 : M.testBit 103 = true)
    (h : Off M s0 s) : Off M s0 { s with hostWait := v0 } :=
  (h.set_hostWait v0 h0)

theorem Off.upd_hostWait_hostRx_hostTags {v0 : Tbl (BitVec 512)} {v1 : List Packet} {v2 : List Nat}
    (h0 : M.testBit 103 = true) (h1 : M.testBit 152 = true) (h2 : M.testBit 153 = true)
    (h : Off M s0 s) : Off M s0 { s with hostWait := v0, hostRx := v1, hostTags := v2 } :=
  (((h.set_hostWait v0 h0).set_hostRx v1 h1).set_hostTags v2 h2)

theorem Off.upd_hubMiss {v0 : Tbl Nat}
    (h0 : M.testBit 130 = true)
    (h : Off M s0 s) : Off M s0 { s with hubMiss := v0 } :=
  (h.set_hubMiss v0 h0)

theorem Off.upd_hubMiss_hubDown {v0 : Tbl Nat} {v1 : List Nat}
    (h0 : M.testBit 130 = true) (h1 : M.testBit 131 = true)
    (h : Off M s0 s) : Off M s0 { s with hubMiss := v0, hubDown := v1 } :=
  ((h.set_hubMiss v0 h0).set_hubDown v1 h1)

theorem Off.upd_lastColls {v0 : Tbl Cmd}
    (h0 : M.testBit 133 = true)
    (h : Off M s0 s) : Off M s0 { s with lastColls := v0 } :=
  (h.set_lastColls v0 h0)

theorem Off.upd_lastColls_sinkRuns {v0 : Tbl Cmd} {v1 : Tbl (Nat × Nat)}
    (h0 : M.testBit 133 = true) (h1 : M.testBit 134 = true)
    (h : Off M s0 s) : Off M s0 { s with lastColls := v0, sinkRuns := v1 } :=
  ((h.set_lastColls v0 h0).set_sinkRuns v1 h1)

theorem Off.upd_links {v0 : Tbl Link}
    (h0 : M.testBit 106 = true)
    (h : Off M s0 s) : Off M s0 { s with links := v0 } :=
  (h.set_links v0 h0)

theorem Off.upd_lkLost {v0 : Bool}
    (h0 : M.testBit 91 = true)
    (h : Off M s0 s) : Off M s0 { s with lkLost := v0 } :=
  (h.set_lkLost v0 h0)

theorem Off.upd_lkLost_idleHeld {v0 : Bool} {v1 : List Nat}
    (h0 : M.testBit 91 = true) (h1 : M.testBit 97 = true)
    (h : Off M s0 s) : Off M s0 { s with lkLost := v0, idleHeld := v1 } :=
  ((h.set_lkLost v0 h0).set_idleHeld v1 h1)

theorem Off.upd_log {v0 : List LogRec}
    (h0 : M.testBit 150 = true)
    (h : Off M s0 s) : Off M s0 { s with log := v0 } :=
  (h.set_log v0 h0)

theorem Off.upd_logIntake {v0 : List LogEntry}
    (h0 : M.testBit 149 = true)
    (h : Off M s0 s) : Off M s0 { s with logIntake := v0 } :=
  (h.set_logIntake v0 h0)

theorem Off.upd_markers {v0 : List (Nat × Nat × Nat)}
    (h0 : M.testBit 124 = true)
    (h : Off M s0 s) : Off M s0 { s with markers := v0 } :=
  (h.set_markers v0 h0)

theorem Off.upd_mcBufs {v0 : Tbl McBuf}
    (h0 : M.testBit 118 = true)
    (h : Off M s0 s) : Off M s0 { s with mcBufs := v0 } :=
  (h.set_mcBufs v0 h0)

theorem Off.upd_mcBufs_awaitMarker_fibreHold {v0 : Tbl McBuf} {v1 : List (Nat × Nat × Nat)} {v2 : List (Nat × Packet)}
    (h0 : M.testBit 118 = true) (h1 : M.testBit 123 = true) (h2 : M.testBit 125 = true)
    (h : Off M s0 s) : Off M s0 { s with mcBufs := v0, awaitMarker := v1, fibreHold := v2 } :=
  (((h.set_mcBufs v0 h0).set_awaitMarker v1 h1).set_fibreHold v2 h2)

theorem Off.upd_mcBufs_merges {v0 : Tbl McBuf} {v1 : Tbl Merge}
    (h0 : M.testBit 118 = true) (h1 : M.testBit 119 = true)
    (h : Off M s0 s) : Off M s0 { s with mcBufs := v0, merges := v1 } :=
  ((h.set_mcBufs v0 h0).set_merges v1 h1)

theorem Off.upd_mem_badWords_softWords {v0 : List Host.Cell} {v1 : List Nat} {v2 : List Nat}
    (h0 : M.testBit 86 = true) (h1 : M.testBit 87 = true) (h2 : M.testBit 88 = true)
    (h : Off M s0 s) : Off M s0 { s with mem := v0, badWords := v1, softWords := v2 } :=
  (((h.set_mem v0 h0).set_badWords v1 h1).set_softWords v2 h2)

theorem Off.upd_merges {v0 : Tbl Merge}
    (h0 : M.testBit 119 = true)
    (h : Off M s0 s) : Off M s0 { s with merges := v0 } :=
  (h.set_merges v0 h0)

theorem Off.upd_mgLost {v0 : Bool}
    (h0 : M.testBit 90 = true)
    (h : Off M s0 s) : Off M s0 { s with mgLost := v0 } :=
  (h.set_mgLost v0 h0)

theorem Off.upd_mgLost_lkLost_clkStopped_clkSince_idleHeld {v0 : Bool} {v1 : Bool} {v2 : Tbl Nat} {v3 : Tbl Nat} {v4 : List Nat}
    (h0 : M.testBit 90 = true) (h1 : M.testBit 91 = true) (h2 : M.testBit 92 = true) (h3 : M.testBit 93 = true) (h4 : M.testBit 97 = true)
    (h : Off M s0 s) : Off M s0 { s with mgLost := v0, lkLost := v1, clkStopped := v2, clkSince := v3, idleHeld := v4 } :=
  (((((h.set_mgLost v0 h0).set_lkLost v1 h1).set_clkStopped v2 h2).set_clkSince v3 h3).set_idleHeld v4 h4)

theorem Off.upd_nodes {v0 : Tbl NodeRun}
    (h0 : M.testBit 122 = true)
    (h : Off M s0 s) : Off M s0 { s with nodes := v0 } :=
  (h.set_nodes v0 h0)

theorem Off.upd_now_sampled_timeSets {v0 : Nat} {v1 : Tbl Word} {v2 : List (Bool × Word)}
    (h0 : M.testBit 82 = true) (h1 : M.testBit 94 = true) (h2 : M.testBit 95 = true)
    (h : Off M s0 s) : Off M s0 { s with now := v0, sampled := v1, timeSets := v2 } :=
  (((h.set_now v0 h0).set_sampled v1 h1).set_timeSets v2 h2)

theorem Off.upd_outWait {v0 : List OutWait}
    (h0 : M.testBit 104 = true)
    (h : Off M s0 s) : Off M s0 { s with outWait := v0 } :=
  (h.set_outWait v0 h0)

theorem Off.upd_outWait_cmds {v0 : List OutWait} {v1 : List Cmd}
    (h0 : M.testBit 104 = true) (h1 : M.testBit 109 = true)
    (h : Off M s0 s) : Off M s0 { s with outWait := v0, cmds := v1 } :=
  ((h.set_outWait v0 h0).set_cmds v1 h1)

theorem Off.upd_parts {v0 : Tbl Part}
    (h0 : M.testBit 113 = true)
    (h : Off M s0 s) : Off M s0 { s with parts := v0 } :=
  (h.set_parts v0 h0)

theorem Off.upd_pending {v0 : List Instr}
    (h0 : M.testBit 81 = true)
    (h : Off M s0 s) : Off M s0 { s with pending := v0 } :=
  (h.set_pending v0 h0)

theorem Off.upd_plumb {v0 : Tbl PlumbRun}
    (h0 : M.testBit 126 = true)
    (h : Off M s0 s) : Off M s0 { s with plumb := v0 } :=
  (h.set_plumb v0 h0)

theorem Off.upd_plumb_copies {v0 : Tbl PlumbRun} {v1 : List (Nat × Hub × PlumbMsg)}
    (h0 : M.testBit 126 = true) (h1 : M.testBit 127 = true)
    (h : Off M s0 s) : Off M s0 { s with plumb := v0, copies := v1 } :=
  ((h.set_plumb v0 h0).set_copies v1 h1)

theorem Off.upd_plumbHeld {v0 : Tbl Nat}
    (h0 : M.testBit 129 = true)
    (h : Off M s0 s) : Off M s0 { s with plumbHeld := v0 } :=
  (h.set_plumbHeld v0 h0)

theorem Off.upd_plumbOut {v0 : List PlumbSent}
    (h0 : M.testBit 128 = true)
    (h : Off M s0 s) : Off M s0 { s with plumbOut := v0 } :=
  (h.set_plumbOut v0 h0)

theorem Off.upd_ports {v0 : Tbl Port}
    (h0 : M.testBit 136 = true)
    (h : Off M s0 s) : Off M s0 { s with ports := v0 } :=
  (h.set_ports v0 h0)

theorem Off.upd_pulses {v0 : Tbl Nat}
    (h0 : M.testBit 116 = true)
    (h : Off M s0 s) : Off M s0 { s with pulses := v0 } :=
  (h.set_pulses v0 h0)

theorem Off.upd_raised {v0 : List (Nat × Nat × Nat)}
    (h0 : M.testBit 135 = true)
    (h : Off M s0 s) : Off M s0 { s with raised := v0 } :=
  (h.set_raised v0 h0)

theorem Off.upd_ramps {v0 : Tbl Nat}
    (h0 : M.testBit 137 = true)
    (h : Off M s0 s) : Off M s0 { s with ramps := v0 } :=
  (h.set_ramps v0 h0)

theorem Off.upd_readNext {v0 : Nat}
    (h0 : M.testBit 151 = true)
    (h : Off M s0 s) : Off M s0 { s with readNext := v0 } :=
  (h.set_readNext v0 h0)

theorem Off.upd_refLostAt {v0 : Option Nat}
    (h0 : M.testBit 89 = true)
    (h : Off M s0 s) : Off M s0 { s with refLostAt := v0 } :=
  (h.set_refLostAt v0 h0)

theorem Off.upd_released {v0 : Tbl Nat}
    (h0 : M.testBit 138 = true)
    (h : Off M s0 s) : Off M s0 { s with released := v0 } :=
  (h.set_released v0 h0)

theorem Off.upd_rings {v0 : Tbl Ring}
    (h0 : M.testBit 111 = true)
    (h : Off M s0 s) : Off M s0 { s with rings := v0 } :=
  (h.set_rings v0 h0)

theorem Off.upd_rooms {v0 : Tbl Room}
    (h0 : M.testBit 120 = true)
    (h : Off M s0 s) : Off M s0 { s with rooms := v0 } :=
  (h.set_rooms v0 h0)

theorem Off.upd_rooms_nodes {v0 : Tbl Room} {v1 : Tbl NodeRun}
    (h0 : M.testBit 120 = true) (h1 : M.testBit 122 = true)
    (h : Off M s0 s) : Off M s0 { s with rooms := v0, nodes := v1 } :=
  ((h.set_rooms v0 h0).set_nodes v1 h1)

theorem Off.upd_sampled {v0 : Tbl Word}
    (h0 : M.testBit 94 = true)
    (h : Off M s0 s) : Off M s0 { s with sampled := v0 } :=
  (h.set_sampled v0 h0)

theorem Off.upd_sealStore {v0 : Tbl SealSlot}
    (h0 : M.testBit 148 = true)
    (h : Off M s0 s) : Off M s0 { s with sealStore := v0 } :=
  (h.set_sealStore v0 h0)

theorem Off.upd_sinkRuns {v0 : Tbl (Nat × Nat)}
    (h0 : M.testBit 134 = true)
    (h : Off M s0 s) : Off M s0 { s with sinkRuns := v0 } :=
  (h.set_sinkRuns v0 h0)

theorem Off.upd_slots {v0 : Tbl Slot}
    (h0 : M.testBit 117 = true)
    (h : Off M s0 s) : Off M s0 { s with slots := v0 } :=
  (h.set_slots v0 h0)

theorem Off.upd_stackVia {v0 : Tbl Nat}
    (h0 : M.testBit 102 = true)
    (h : Off M s0 s) : Off M s0 { s with stackVia := v0 } :=
  (h.set_stackVia v0 h0)

theorem Off.upd_stale {v0 : List (Nat × Nat × Nat)}
    (h0 : M.testBit 110 = true)
    (h : Off M s0 s) : Off M s0 { s with stale := v0 } :=
  (h.set_stale v0 h0)

theorem Off.upd_tableCorr {v0 : Nat}
    (h0 : M.testBit 115 = true)
    (h : Off M s0 s) : Off M s0 { s with tableCorr := v0 } :=
  (h.set_tableCorr v0 h0)

theorem Off.upd_tapState_tapIr {v0 : Nat} {v1 : Nat}
    (h0 : M.testBit 99 = true) (h1 : M.testBit 100 = true)
    (h : Off M s0 s) : Off M s0 { s with tapState := v0, tapIr := v1 } :=
  ((h.set_tapState v0 h0).set_tapIr v1 h1)

theorem Off.upd_timeSets {v0 : List (Bool × Word)}
    (h0 : M.testBit 95 = true)
    (h : Off M s0 s) : Off M s0 { s with timeSets := v0 } :=
  (h.set_timeSets v0 h0)

theorem Off.upd_transitOff {v0 : Bool}
    (h0 : M.testBit 142 = true)
    (h : Off M s0 s) : Off M s0 { s with transitOff := v0 } :=
  (h.set_transitOff v0 h0)

theorem Off.upd_tune_planKeys_guard {v0 : Tbl Nat} {v1 : Tbl (BitVec 384)} {v2 : Tbl Word}
    (h0 : M.testBit 139 = true) (h1 : M.testBit 140 = true) (h2 : M.testBit 141 = true)
    (h : Off M s0 s) : Off M s0 { s with tune := v0, planKeys := v1, guard := v2 } :=
  (((h.set_tune v0 h0).set_planKeys v1 h1).set_guard v2 h2)

theorem Off.upd_tune_planKeys_guard_transitOff_epochCtl {v0 : Tbl Nat} {v1 : Tbl (BitVec 384)} {v2 : Tbl Word} {v3 : Bool} {v4 : EpochCtl}
    (h0 : M.testBit 139 = true) (h1 : M.testBit 140 = true) (h2 : M.testBit 141 = true) (h3 : M.testBit 142 = true) (h4 : M.testBit 145 = true)
    (h : Off M s0 s) : Off M s0 { s with tune := v0, planKeys := v1, guard := v2, transitOff := v3, epochCtl := v4 } :=
  (((((h.set_tune v0 h0).set_planKeys v1 h1).set_guard v2 h2).set_transitOff v3 h3).set_epochCtl v4 h4)

theorem Off.upd_turns {v0 : Tbl Nat}
    (h0 : M.testBit 105 = true)
    (h : Off M s0 s) : Off M s0 { s with turns := v0 } :=
  (h.set_turns v0 h0)

theorem Off.upd_turns_cmds_stale_rings_holds_fenceDue_hoPending {v0 : Tbl Nat} {v1 : List Cmd} {v2 : List (Nat × Nat × Nat)} {v3 : Tbl Ring} {v4 : List Held} {v5 : List Nat} {v6 : List (Nat × Nat × Nat)}
    (h0 : M.testBit 105 = true) (h1 : M.testBit 109 = true) (h2 : M.testBit 110 = true) (h3 : M.testBit 111 = true) (h4 : M.testBit 112 = true) (h5 : M.testBit 114 = true) (h6 : M.testBit 143 = true)
    (h : Off M s0 s) : Off M s0 { s with turns := v0, cmds := v1, stale := v2, rings := v3, holds := v4, fenceDue := v5, hoPending := v6 } :=
  (((((((h.set_turns v0 h0).set_cmds v1 h1).set_stale v2 h2).set_rings v3 h3).set_holds v4 h4).set_fenceDue v5 h5).set_hoPending v6 h6)

theorem Off.upd_waits {v0 : List Waiting}
    (h0 : M.testBit 108 = true)
    (h : Off M s0 s) : Off M s0 { s with waits := v0 } :=
  (h.set_waits v0 h0)

theorem Off.upd_wiped_sealStore {v0 : Bool} {v1 : Tbl SealSlot}
    (h0 : M.testBit 147 = true) (h1 : M.testBit 148 = true)
    (h : Off M s0 s) : Off M s0 { s with wiped := v0, sealStore := v1 } :=
  ((h.set_wiped v0 h0).set_sealStore v1 h1)


/-- A bit of the footprint of a definition. -/
theorem Off.named (hM : L &&& M = L) {k : Nat} {p : Prop} (h : L.testBit k = true) : p ∨ M.testBit k = true := .inr (foot_bit hM h)

end Sys2Proof.Machine
end

