-- ==== Sys2Proof/Laws/FrameOps.lean ====
section
/-! SUPPORT. What every operation may change, one lemma per operation, by footprint (Laws/Frame.lean): answers, banks, completion, rings, the mesh and arrivals. -/

namespace Sys2Proof.Machine

variable {M L : Nat} {s0 s : State}

theorem Off.drawn (hM : 0x800000000000000000000 &&& M = 0x800000000000000000000) (n)
    (h : Off M s0 s) : Off M s0 (State.drawn s n) := by
  unfold State.drawn
  with_reducible repeat' first
    | assumption | exact foot_bit hM (by decide) | apply Off.upd_freeCtr

theorem Off.writeBytes (hM : 0x1c000000000000000000000 &&& M = 0x1c000000000000000000000) (ep a bs)
    (h : Off M s0 s) : Off M s0 (State.writeBytes s ep a bs) := by
  unfold State.writeBytes
  with_reducible repeat' first
    | assumption | exact foot_bit hM (by decide) | apply Off.upd_mem_badWords_softWords

theorem Off.poisonBytes (hM : 0x1c800000000000000000000 &&& M = 0x1c800000000000000000000) (ep a n)
    (h : Off M s0 s) : Off M s0 (State.poisonBytes s ep a n) := by
  unfold State.poisonBytes
  with_reducible repeat' first
    | assumption | exact foot_bit hM (by decide) | apply Off.foldl | intro _ _ _
    | apply Off.upd_freeCtr_mem_badWords_softWords

theorem Off.event (hM : 0x20000000000000000080000000000000000000 &&& M = 0x20000000000000000080000000000000000000) (e' window unit arg0 arg1 more)
    (h : Off M s0 s) : Off M s0 (State.event s e' window unit arg0 arg1 more) := by
  unfold State.event
  with_reducible repeat' first
    | assumption | exact foot_has (by decide) | exact foot_bit hM (by decide) | exact foot_sub hM (by decide)
    | apply Off.sat hM | apply Off.ite | split | apply Off.upd_logIntake

theorem Off.noteOld (hM : 0x40000000000000000 &&& M = 0x40000000000000000) (e')
    (h : Off M s0 s) : Off M s0 (State.noteOld s e') := by
  unfold State.noteOld
  with_reducible repeat' first
    | assumption | exact foot_has (by decide) | exact foot_sub hM (by decide) | apply Off.put hM | apply Off.ite
    | split

theorem Off.pulse (hM : 0x100000000800000000000000000100 &&& M = 0x100000000800000000000000000100) (k)
    (h : Off M s0 s) : Off M s0 (State.pulse s k) := by
  unfold State.pulse
  with_reducible repeat' first
    | assumption | exact foot_has (by decide) | exact foot_bit hM (by decide) | exact foot_sub hM (by decide)
    | apply Off.put hM | apply Off.drawn | apply Off.ite | split | apply Off.upd_pulses

theorem Off.pulsesStop (hM : 0x100000000800000000000000000000 &&& M = 0x100000000800000000000000000000)
    (h : Off M s0 s) : Off M s0 (State.pulsesStop s) := by
  unfold State.pulsesStop
  with_reducible repeat' first
    | assumption | exact foot_bit hM (by decide) | exact foot_sub hM (by decide) | apply Off.drawn
    | apply Off.upd_pulses

theorem Off.pulsesStart (hM : 0x100000000000000000000000000000 &&& M = 0x100000000000000000000000000000)
    (h : Off M s0 s) : Off M s0 (State.pulsesStart s) := by
  unfold State.pulsesStart
  with_reducible repeat' first
    | assumption | exact foot_bit hM (by decide) | apply Off.upd_pulses

theorem Off.setPart (hM : 0x20000000000000000000000000000 &&& M = 0x20000000000000000000000000000) (p v)
    (h : Off M s0 s) : Off M s0 (State.setPart s p v) := by
  unfold State.setPart
  with_reducible repeat' first
    | assumption | exact foot_bit hM (by decide) | apply Off.upd_parts

theorem Off.setFifo (hM : 0x20000000000000000000000000 &&& M = 0x20000000000000000000000000) (n f')
    (h : Off M s0 s) : Off M s0 (State.setFifo s n f') := by
  unfold State.setFifo
  with_reducible repeat' first
    | assumption | exact foot_bit hM (by decide) | apply Off.upd_fifos

theorem Off.popFifo (hM : 0x20000000000000000000000200 &&& M = 0x20000000000000000000000200) (n)
    (h : Off M s0 s) : Off M s0 (State.popFifo s n) := by
  unfold State.popFifo
  with_reducible repeat' first
    | assumption | exact foot_has (by decide) | exact foot_sub hM (by decide) | apply Off.setFifo | apply Off.sat hM
    | apply Off.ite | split

theorem Off.consume (hM : 0x20000000000000000000000200 &&& M = 0x20000000000000000000000200) (n p)
    (h : Off M s0 s) : Off M s0 (State.consume s n p) := by
  unfold State.consume
  with_reducible repeat' first
    | assumption | exact foot_sub hM (by decide) | apply Off.popFifo | apply Off.ite | split

theorem Off.pushFifo (hM : 0x20000000000000000000000400 &&& M = 0x20000000000000000000000400) (n p)
    (h : Off M s0 s) : Off M s0 (State.pushFifo s n p) := by
  unfold State.pushFifo
  with_reducible repeat' first
    | assumption | exact foot_has (by decide) | exact foot_sub hM (by decide) | apply Off.setFifo | apply Off.wrap hM
    | apply Off.ite | split

theorem Off.setRoom (hM : 0x1000000000000000000000000000000 &&& M = 0x1000000000000000000000000000000) (k r)
    (h : Off M s0 s) : Off M s0 (State.setRoom s k r) := by
  unfold State.setRoom
  with_reducible repeat' first
    | assumption | exact foot_bit hM (by decide) | apply Off.upd_rooms

theorem Off.startMove (hM : 0x1000000000000000000000000000000 &&& M = 0x1000000000000000000000000000000) (k)
    (h : Off M s0 s) : Off M s0 (State.startMove s k) := by
  unfold State.startMove
  with_reducible repeat' first
    | assumption | exact foot_sub hM (by decide) | apply Off.setRoom

theorem Off.countHeader (hM : 0x10004000020004000000 &&& M = 0x10004000020004000000) (ep)
    (h : Off M s0 s) : Off M s0 (State.countHeader s ep) := by
  unfold State.countHeader
  with_reducible repeat' first
    | assumption | exact foot_has (by decide) | exact foot_sub hM (by decide) | apply Off.sat hM | apply Off.ite
    | split

theorem Off.countRoute (hM : 0x10004000020008000000 &&& M = 0x10004000020008000000) (ep)
    (h : Off M s0 s) : Off M s0 (State.countRoute s ep) := by
  unfold State.countRoute
  with_reducible repeat' first
    | assumption | exact foot_has (by decide) | exact foot_sub hM (by decide) | apply Off.sat hM | apply Off.ite
    | split

theorem Off.headEvent (hM : 0x20000000000000000080000000000000000000 &&& M = 0x20000000000000000080000000000000000000) (e' window unit p)
    (h : Off M s0 s) : Off M s0 (State.headEvent s e' window unit p) := by
  unfold State.headEvent
  with_reducible repeat' first
    | assumption | exact foot_sub hM (by decide) | apply Off.event

theorem Off.discardHead (hM : 0x20000000000000000090004000020004000000 &&& M = 0x20000000000000000090004000020004000000) (e' ep p)
    (h : Off M s0 s) : Off M s0 (State.discardHead s e' ep p) := by
  unfold State.discardHead
  with_reducible repeat' first
    | assumption | exact foot_sub hM (by decide) | apply Off.headEvent | apply Off.countHeader

theorem Off.stray (hM : 0x20000000000000000090000000000004000000 &&& M = 0x20000000000000000090000000000004000000) (ep p)
    (h : Off M s0 s) : Off M s0 (State.stray s ep p) := by
  unfold State.stray
  with_reducible repeat' first
    | assumption | exact foot_has (by decide) | exact foot_sub hM (by decide) | apply Off.sat hM | apply Off.event
    | apply Off.ite | split

theorem Off.setBank (hM : 0x1800000000 &&& M = 0x1800000000) (ep b l) (h : Off M s0 s) : Off M s0 (State.setBank s ep b l) := by
  refine h.setWord0 hM _ _ _ ?_
  unfold bankReg
  split <;> decide


theorem Off.countReads (hM : 0xc000000000 &&& M = 0xc000000000) (ep a n)
    (h : Off M s0 s) : Off M s0 (State.countReads s ep a n) := by
  unfold State.countReads
  with_reducible repeat' first
    | assumption | exact foot_has (by decide) | exact foot_sub hM (by decide) | apply Off.sat hM | apply Off.ite
    | split

theorem Off.countNoOwner (hM : 0xc000000000 &&& M = 0xc000000000) (ep)
    (h : Off M s0 s) : Off M s0 (State.countNoOwner s ep) := by
  unfold State.countNoOwner
  with_reducible repeat' first
    | assumption | exact foot_has (by decide) | exact foot_sub hM (by decide) | apply Off.sat hM | apply Off.ite
    | split

theorem Off.dropForm (hM : 0x2100000000000000000000000000 &&& M = 0x2100000000000000000000000000) (w st)
    (h : Off M s0 s) : Off M s0 (State.dropForm s w st) := by
  unfold State.dropForm
  with_reducible repeat' first
    | assumption | exact foot_bit hM (by decide) | apply Off.ite | split | apply Off.upd_outWait_cmds

theorem Off.launch (hM : 0x1000020000000000000000000010400 &&& M = 0x1000020000000000000000000010400) (n g p)
    (h : Off M s0 s) : Off M s0 (State.launch s n g p) := by
  unfold State.launch
  with_reducible repeat' first
    | assumption | exact foot_has (by decide) | exact foot_sub hM (by decide) | apply Off.pushFifo | apply Off.put hM
    | apply Off.startMove | apply Off.ite | split

theorem Off.noteTurn (hM : 0x200000000000000000000000000 &&& M = 0x200000000000000000000000000) (n q')
    (h : Off M s0 s) : Off M s0 (State.noteTurn s n q') := by
  unfold State.noteTurn
  with_reducible repeat' first
    | assumption | exact foot_bit hM (by decide) | apply Off.ite | split | apply Off.upd_turns

theorem Off.emit (hM : 0x1000320000000000000000000010400 &&& M = 0x1000320000000000000000000010400) (n g p q')
    (h : Off M s0 s) : Off M s0 (State.emit s n g p q') := by
  unfold State.emit
  with_reducible repeat' first
    | assumption | exact foot_has (by decide) | exact foot_bit hM (by decide) | exact foot_sub hM (by decide)
    | apply Off.noteTurn | apply Off.launch | apply Off.wrap hM | apply Off.ite | split | apply Off.upd_outWait

theorem Off.enqueue (hM : 0x100000000000000000000000000 &&& M = 0x100000000000000000000000000) (n q' g f' p)
    (h : Off M s0 s) : Off M s0 (State.enqueue s n q' g f' p) := by
  unfold State.enqueue
  with_reducible repeat' first
    | assumption | exact foot_bit hM (by decide) | apply Off.upd_outWait

theorem Off.leave (hM : 0x100032000000000000000c000010400 &&& M = 0x100032000000000000000c000010400) (e' b)
    (h : Off M s0 s) : Off M s0 (State.leave s e' b) := by
  unfold State.leave
  with_reducible repeat' first
    | assumption | exact foot_bit hM (by decide) | exact foot_sub hM (by decide) | apply Off.countReads
    | apply Off.noteTurn | apply Off.launch | apply Off.ite | split | apply Off.upd_outWait

theorem Off.pumpFifo (hM : 0x100232000000000000000c000010400 &&& M = 0x100232000000000000000c000010400) (n n1)
    (h : Off M s0 s) : Off M s0 (State.pumpFifo s n n1) := by
  induction n1 generalizing n s with
  | zero => exact h
  | succ k ih =>
    unfold State.pumpFifo
    with_reducible repeat' first
      | assumption | exact foot_sub hM (by decide) | apply Off.dropForm | apply Off.leave | apply ih | apply Off.ite
      | split

theorem Off.noteWaits (hM : 0x100000000000000000000010000 &&& M = 0x100000000000000000000010000)
    (h : Off M s0 s) : Off M s0 (State.noteWaits s) := by
  unfold State.noteWaits
  with_reducible repeat' first
    | assumption | exact foot_has (by decide) | exact foot_bit hM (by decide) | exact foot_sub hM (by decide)
    | apply Off.wrap hM | apply Off.foldl | intro _ _ _ | apply Off.ite | split | apply Off.upd_outWait

theorem Off.pump (hM : 0x100232000000000000000c000010400 &&& M = 0x100232000000000000000c000010400)
    (h : Off M s0 s) : Off M s0 (State.pump s) := by
  unfold State.pump
  with_reducible repeat' first
    | assumption | exact foot_sub hM (by decide) | apply Off.noteWaits | apply Off.pumpFifo | apply Off.foldl
    | intro _ _ _

theorem Off.sendReply (hM : 0x1000320000010004000020008010400 &&& M = 0x1000320000010004000020008010400) (ep p)
    (h : Off M s0 s) : Off M s0 (State.sendReply s ep p) := by
  unfold State.sendReply
  with_reducible repeat' first
    | assumption | exact foot_sub hM (by decide) | apply Off.emit | apply Off.countRoute | apply Off.ite | split

theorem Off.answer (hM : 0x1000320000810004000020008010400 &&& M = 0x1000320000810004000020008010400) (ep req opcode status bytes poison extra)
    (h : Off M s0 s) : Off M s0 (State.answer s ep req opcode status bytes poison extra) := by
  unfold State.answer
  with_reducible repeat' first
    | assumption | exact foot_sub hM (by decide) | apply Off.sendReply | apply Off.drawn

theorem Off.nack (hM : 0x1000320000810004000020008010400 &&& M = 0x1000320000810004000020008010400) (ep req status)
    (h : Off M s0 s) : Off M s0 (State.nack s ep req status) := by
  unfold State.nack
  with_reducible repeat' first
    | assumption | exact foot_sub hM (by decide) | apply Off.answer

theorem Off.modAlorn (hM : 0x4000000000000000000000000000000000000 &&& M = 0x4000000000000000000000000000000000000) (f')
    (h : Off M s0 s) : Off M s0 (State.modAlorn s f') := by
  unfold State.modAlorn
  with_reducible repeat' first
    | assumption | exact foot_bit hM (by decide) | apply Off.upd_alorn

theorem Off.cacheAnswer (hM : 0x4000000000000000000000000000000000000 &&& M = 0x4000000000000000000000000000000000000) (src tag resp busy)
    (h : Off M s0 s) : Off M s0 (State.cacheAnswer s src tag resp busy) := by
  unfold State.cacheAnswer
  with_reducible repeat' first
    | assumption | exact foot_sub hM (by decide) | apply Off.modAlorn | apply Off.ite | split

theorem Off.endBackground (hM : 0x4000000000000000000000000000000000000 &&& M = 0x4000000000000000000000000000000000000) (b st detail data)
    (h : Off M s0 s) : Off M s0 (State.endBackground s b st detail data) := by
  unfold State.endBackground
  with_reducible repeat' first
    | assumption | exact foot_sub hM (by decide) | apply Off.cacheAnswer | apply Off.modAlorn

theorem Off.endAll (hM : 0x4000000000000000000000000000000000000 &&& M = 0x4000000000000000000000000000000000000) (cmd keep st detail data)
    (h : Off M s0 s) : Off M s0 (State.endAll s cmd keep st detail data) := by
  unfold State.endAll
  with_reducible repeat' first
    | assumption | exact foot_sub hM (by decide) | apply Off.endBackground | apply Off.foldl | intro _ _ _

theorem Off.sendMgmt (hM : 0x1000320000010004000020008010400 &&& M = 0x1000320000010004000020008010400) (l response tag ws)
    (h : Off M s0 s) : Off M s0 (State.sendMgmt s l response tag ws) := by
  unfold State.sendMgmt
  with_reducible repeat' first
    | assumption | exact foot_sub hM (by decide) | apply Off.countRoute | apply Off.emit | apply Off.ite | split

theorem Off.deliver (hM : 0x4000001000320000015004000020008010400 &&& M = 0x4000001000320000015004000020008010400) (a ws)
    (h : Off M s0 s) : Off M s0 (State.deliver s a ws) := by
  unfold State.deliver
  with_reducible repeat' first
    | assumption | exact foot_has (by decide) | exact foot_sub hM (by decide) | apply Off.setWord0 hM
    | apply Off.put hM | apply Off.modAlorn | apply Off.sendMgmt | apply Off.foldl | intro _ _ _ | apply Off.ite
    | split

theorem Off.finalAnswer (hM : 0x4000001000320000015004000020008010400 &&& M = 0x4000001000320000015004000020008010400) (a ws)
    (h : Off M s0 s) : Off M s0 (State.finalAnswer s a ws) := by
  unfold State.finalAnswer
  with_reducible repeat' first
    | assumption | exact foot_sub hM (by decide) | apply Off.deliver | apply Off.cacheAnswer

theorem Off.emptyStaging (hM : 0x4000000000000000000000000000000000000 &&& M = 0x4000000000000000000000000000000000000)
    (h : Off M s0 s) : Off M s0 (State.emptyStaging s) := by
  unfold State.emptyStaging
  with_reducible repeat' first
    | assumption | exact foot_sub hM (by decide) | apply Off.modAlorn

theorem Off.freeStaging (hM : 0x4000000000000000000000000000000000000 &&& M = 0x4000000000000000000000000000000000000)
    (h : Off M s0 s) : Off M s0 (State.freeStaging s) := by
  unfold State.freeStaging
  with_reducible repeat' first
    | assumption | exact foot_sub hM (by decide) | apply Off.modAlorn

theorem Off.dropStaging (hM : 0x4000000000000000000000000000000000000 &&& M = 0x4000000000000000000000000000000000000)
    (h : Off M s0 s) : Off M s0 (State.dropStaging s) := by
  unfold State.dropStaging
  with_reducible repeat' first
    | assumption | exact foot_sub hM (by decide) | apply Off.emptyStaging | apply Off.ite | split

theorem Off.breakLock (hM : 0x24000000000000000080200000000000000000 &&& M = 0x24000000000000000080200000000000000000) (cause)
    (h : Off M s0 s) : Off M s0 (State.breakLock s cause) := by
  unfold State.breakLock
  with_reducible repeat' first
    | assumption | exact foot_has (by decide) | exact foot_sub hM (by decide) | apply Off.setWord0 hM
    | apply Off.event | apply Off.dropStaging | apply Off.modAlorn | apply Off.put hM | apply Off.ite | split

theorem Off.writePayload (hM : 0x1c800000000000000000000 &&& M = 0x1c800000000000000000000) (ep a bs poison)
    (h : Off M s0 s) : Off M s0 (State.writePayload s ep a bs poison) := by
  unfold State.writePayload
  with_reducible repeat' first
    | assumption | exact foot_sub hM (by decide) | apply Off.poisonBytes | apply Off.writeBytes | apply Off.foldl
    | intro _ _ _ | apply Off.ite | split

theorem Off.memEvent (hM : 0x20000000000000000080000000000000000000 &&& M = 0x20000000000000000080000000000000000000) (e' ep arg0 arg1)
    (h : Off M s0 s) : Off M s0 (State.memEvent s e' ep arg0 arg1) := by
  unfold State.memEvent
  with_reducible repeat' first
    | assumption | exact foot_sub hM (by decide) | apply Off.event

theorem Off.showPending (hM : 0x2000000000 &&& M = 0x2000000000) (i)
    (h : Off M s0 s) : Off M s0 (State.showPending s i) := by
  unfold State.showPending
  with_reducible repeat' first
    | assumption | exact foot_has (by decide) | exact foot_sub hM (by decide) | apply Off.put hM

theorem Off.endRequests (hM : 0x1800000000000000000000000012000000000 &&& M = 0x1800000000000000000000000012000000000) (mem b free)
    (h : Off M s0 s) : Off M s0 (State.endRequests s mem b free) := by
  unfold State.endRequests
  with_reducible repeat' first
    | assumption | exact foot_has (by decide) | exact foot_bit hM (by decide) | exact foot_sub hM (by decide)
    | apply Off.showPending | apply Off.setWord0 hM | apply Off.foldl | intro _ _ _ | apply Off.ite | split
    | apply Off.upd_hoPending | apply Off.upd_hoSince

theorem Off.startHandover (hM : 0x1000000000000000000000000011800000000 &&& M = 0x1000000000000000000000000011800000000) (holder job k h')
    (h : Off M s0 s) : Off M s0 (State.startHandover s holder job k h') := by
  unfold State.startHandover
  with_reducible repeat' first
    | assumption | exact foot_has (by decide) | exact foot_bit hM (by decide) | exact foot_sub hM (by decide)
    | apply Off.setBank | apply Off.setWord0 hM | apply Off.foldl | intro _ _ _ | apply Off.upd_hoSince

theorem Off.giveBank (hM : 0x24000000000000000080000000001800000000 &&& M = 0x24000000000000000080000000001800000000) (h')
    (h : Off M s0 s) : Off M s0 (State.giveBank s h') := by
  unfold State.giveBank
  with_reducible repeat' first
    | assumption | exact foot_sub hM (by decide) | apply Off.setBank | apply Off.endAll | apply Off.memEvent
    | apply Off.ite | split

theorem Off.coreHandover (hM : 0x25800000000000000080000000013800000000 &&& M = 0x25800000000000000080000000013800000000) (i h')
    (h : Off M s0 s) : Off M s0 (State.coreHandover s i h').2 := by
  unfold State.coreHandover
  with_reducible repeat' first
    | assumption | exact foot_bit hM (by decide) | exact foot_sub hM (by decide) | apply Off.giveBank
    | apply Off.endRequests | apply Off.startHandover | apply Off.showPending | apply Off.ite_snd | split
    | apply Off.upd_hoPending

theorem Off.coreHandover_eq (hM : 0x25800000000000000080000000013800000000 &&& M = 0x25800000000000000080000000013800000000) {i} {h'} {x t}
    (h : Off M s0 s) (e : State.coreHandover s i h' = (x, t)) : Off M s0 t := by
  have k := Off.coreHandover hM i h' h
  rwa [e] at k

theorem Off.alornHandover (hM : 0x25800000000000000080000000013800000000 &&& M = 0x25800000000000000080000000013800000000) (h')
    (h : Off M s0 s) : Off M s0 (State.alornHandover s h').2 := by
  unfold State.alornHandover
  with_reducible repeat' first
    | assumption | exact foot_sub hM (by decide) | apply Off.giveBank | apply Off.endRequests
    | apply Off.startHandover | apply Off.ite_snd | split

theorem Off.alornHandover_eq (hM : 0x25800000000000000080000000013800000000 &&& M = 0x25800000000000000080000000013800000000) {h'} {x t}
    (h : Off M s0 s) (e : State.alornHandover s h' = (x, t)) : Off M s0 t := by
  have k := Off.alornHandover hM h' h
  rwa [e] at k

theorem Off.finishHandover (hM : 0x25800000000000000080000000013800000000 &&& M = 0x25800000000000000080000000013800000000) (ep b)
    (h : Off M s0 s) : Off M s0 (State.finishHandover s ep b) := by
  unfold State.finishHandover
  with_reducible repeat' first
    | assumption | exact foot_sub hM (by decide) | apply Off.giveBank | apply Off.endRequests | apply Off.ite | split

theorem Off.breakHandover (hM : 0x21800000002000000080000000013800000000 &&& M = 0x21800000002000000080000000013800000000) (ep b cause)
    (h : Off M s0 s) : Off M s0 (State.breakHandover s ep b cause) := by
  unfold State.breakHandover
  with_reducible repeat' first
    | assumption | exact foot_bit hM (by decide) | exact foot_sub hM (by decide) | apply Off.setBank
    | apply Off.memEvent | apply Off.endRequests | apply Off.ite | split | apply Off.upd_cmds

theorem Off.breakAll (hM : 0x21800000002000000080000000013800000000 &&& M = 0x21800000002000000080000000013800000000) (holder)
    (h : Off M s0 s) : Off M s0 (State.breakAll s holder) := by
  unfold State.breakAll
  with_reducible repeat' first
    | assumption | exact foot_sub hM (by decide) | apply Off.breakHandover | apply Off.foldl | intro _ _ _
    | apply Off.ite | split

theorem Off.signalCtr (hM : 0x2000000 &&& M = 0x2000000) (i k n)
    (h : Off M s0 s) : Off M s0 (State.signalCtr s i k n) := by
  unfold State.signalCtr
  with_reducible repeat' first
    | assumption | exact foot_has (by decide) | exact foot_sub hM (by decide) | apply Off.wrap hM

theorem Off.setCmd (hM : 0x2000000000000000000000000000 &&& M = 0x2000000000000000000000000000) (c)
    (h : Off M s0 s) : Off M s0 (State.setCmd s c) := by
  unfold State.setCmd
  with_reducible repeat' first
    | assumption | exact foot_bit hM (by decide) | apply Off.ite | split | apply Off.upd_cmds

theorem Off.retire (hM : 0x2000000000000000000001000000 &&& M = 0x2000000000000000000001000000) (i q' n2)
    (h : Off M s0 s) : Off M s0 (State.retire s i q' n2) := by
  induction n2 generalizing i q' s with
  | zero => exact h
  | succ k ih =>
    unfold State.retire
    with_reducible repeat' first
      | assumption | exact foot_has (by decide) | exact foot_bit hM (by decide) | exact foot_sub hM (by decide)
      | apply Off.put hM | apply ih | apply Off.ite | split | apply Off.upd_cmds

theorem Off.releaseAm (hM : 0x400000000 &&& M = 0x400000000) (c)
    (h : Off M s0 s) : Off M s0 (State.releaseAm s c) := by
  unfold State.releaseAm
  with_reducible repeat' first
    | assumption | exact foot_has (by decide) | exact foot_sub hM (by decide) | apply Off.put hM | apply Off.ite
    | split

theorem Off.endFlow (hM : 0x80000 &&& M = 0x80000) (fl)
    (h : Off M s0 s) : Off M s0 (State.endFlow s fl) := by
  unfold State.endFlow
  with_reducible repeat' first
    | assumption | exact foot_has (by decide) | exact foot_sub hM (by decide) | apply Off.put hM | apply Off.ite
    | split

theorem Off.showRing (hM : 0x1c000000000000000000000 &&& M = 0x1c000000000000000000000) (i k)
    (h : Off M s0 s) : Off M s0 (State.showRing s i k) := by
  unfold State.showRing
  with_reducible repeat' first
    | assumption | exact foot_sub hM (by decide) | apply Off.writeBytes | apply Off.ite | split

theorem Off.dropReplies (hM : 0x1000001c000000000000000000000 &&& M = 0x1000001c000000000000000000000) (c)
    (h : Off M s0 s) : Off M s0 (State.dropReplies s c) := by
  unfold State.dropReplies
  with_reducible repeat' first
    | assumption | exact foot_bit hM (by decide) | exact foot_sub hM (by decide) | apply Off.showRing
    | apply Off.foldl | intro _ _ _ | apply Off.upd_holds

theorem Off.complete (hM : 0x1610001c000000000000407080000 &&& M = 0x1610001c000000000000407080000) (c status)
    (h : Off M s0 s) : Off M s0 (State.complete s c status) := by
  unfold State.complete
  with_reducible repeat' first
    | assumption | exact foot_has (by decide) | exact foot_bit hM (by decide) | exact foot_sub hM (by decide)
    | apply Off.writeBytes | apply Off.sat hM | apply Off.signalCtr | apply Off.releaseAm | apply Off.endFlow
    | apply Off.dropReplies | apply Off.setCmd | apply Off.retire | apply Off.foldl | intro _ _ _ | apply Off.ite
    | split | apply Off.upd_stale | apply Off.upd_outWait

theorem Off.takeSerial (hM : 0x4000000000000000000001000000 &&& M = 0x4000000000000000000001000000) (i q')
    (h : Off M s0 s) : Off M s0 (State.takeSerial s i q').2 := by
  unfold State.takeSerial
  with_reducible repeat' first
    | assumption | exact foot_has (by decide) | exact foot_bit hM (by decide) | exact foot_sub hM (by decide)
    | apply Off.put hM | apply Off.upd_stale

theorem Off.takeSerial_eq (hM : 0x4000000000000000000001000000 &&& M = 0x4000000000000000000001000000) {i} {q'} {x t}
    (h : Off M s0 s) (e : State.takeSerial s i q' = (x, t)) : Off M s0 t := by
  have k := Off.takeSerial hM i q' h
  rwa [e] at k

theorem Off.settle (hM : 0x1610001c000000000000407080000 &&& M = 0x1610001c000000000000407080000)
    (h : Off M s0 s) : Off M s0 (State.settle s) := by
  unfold State.settle
  with_reducible repeat' first
    | assumption | exact foot_sub hM (by decide) | apply Off.complete | apply Off.foldl | intro _ _ _

theorem Off.flow (hM : 0x101632001c00000000000c407090400 &&& M = 0x101632001c00000000000c407090400)
    (h : Off M s0 s) : Off M s0 (State.flow s) := by
  unfold State.flow
  with_reducible repeat' first
    | assumption | exact foot_sub hM (by decide) | apply Off.settle | apply Off.pump

theorem Off.afterAnswer (hM : 0x1610001c000000000000407080000 &&& M = 0x1610001c000000000000407080000) (c)
    (h : Off M s0 s) : Off M s0 (State.afterAnswer s c) := by
  unfold State.afterAnswer
  with_reducible repeat' first
    | assumption | exact foot_sub hM (by decide) | apply Off.complete | apply Off.setCmd | apply Off.ite | split

theorem Off.dropWait (hM : 0x2100000010004000020008000000 &&& M = 0x2100000010004000020008000000) (w)
    (h : Off M s0 s) : Off M s0 (State.dropWait s w) := by
  unfold State.dropWait
  with_reducible repeat' first
    | assumption | exact foot_bit hM (by decide) | exact foot_sub hM (by decide) | apply Off.dropForm
    | apply Off.countRoute | apply Off.ite | split | apply Off.upd_outWait

theorem Off.shutPort (hM : 0x1610001c01000400002040f080000 &&& M = 0x1610001c01000400002040f080000) (l)
    (h : Off M s0 s) : Off M s0 (State.shutPort s l) := by
  unfold State.shutPort
  with_reducible repeat' first
    | assumption | exact foot_sub hM (by decide) | apply Off.settle | apply Off.dropWait | apply Off.foldl
    | intro _ _ _ | apply Off.ite | split

theorem Off.putRecord (hM : 0x1c800000000000000000000 &&& M = 0x1c800000000000000000000) (i a p reply)
    (h : Off M s0 s) : Off M s0 (State.putRecord s i a p reply) := by
  unfold State.putRecord
  with_reducible repeat' first
    | assumption | exact foot_sub hM (by decide) | apply Off.writeBytes | apply Off.drawn | apply Off.poisonBytes
    | apply Off.foldl | intro _ _ _ | apply Off.ite | split

theorem Off.putPad (hM : 0x1c800000000000000000000 &&& M = 0x1c800000000000000000000) (i a bytes)
    (h : Off M s0 s) : Off M s0 (State.putPad s i a bytes) := by
  unfold State.putPad
  with_reducible repeat' first
    | assumption | exact foot_sub hM (by decide) | apply Off.drawn | apply Off.writeBytes

theorem Off.placeAt (hM : 0x800001c800000000000002000000 &&& M = 0x800001c800000000000002000000) (i k r skip p reply)
    (h : Off M s0 s) : Off M s0 (State.placeAt s i k r skip p reply).2 := by
  unfold State.placeAt
  with_reducible repeat' first
    | assumption | exact foot_bit hM (by decide) | exact foot_sub hM (by decide) | apply Off.putRecord
    | apply Off.showRing | apply Off.signalCtr | apply Off.ite_snd | split | apply Off.upd_rings

theorem Off.placeAt_eq (hM : 0x800001c800000000000002000000 &&& M = 0x800001c800000000000002000000) {i} {k} {r} {skip} {p} {reply} {x t}
    (h : Off M s0 s) (e : State.placeAt s i k r skip p reply = (x, t)) : Off M s0 t := by
  have k := Off.placeAt hM i k r skip p reply h
  rwa [e] at k

theorem Off.place (hM : 0x800001c800000000000002000000 &&& M = 0x800001c800000000000002000000) {i k p reply x t} (h : Off M s0 s) (e : State.place s i k p reply = some (x, t)) :
    Off M s0 t := by
  unfold State.place at e
  split at e
  · contradiction
  · next r _ =>
    dsimp only at e
    split at e
    · have k1 := Off.placeAt (foot_sub hM (by decide)) i k r 0 p reply h
      rw [Option.some.inj e] at k1
      exact k1
    · split at e
      · have k1 := Off.placeAt (foot_sub hM (by decide)) i k r (r.size - r.writePos % r.size) p reply
          (Off.putPad (foot_sub hM (by decide)) i (r.base + r.writePos % r.size) (r.size - r.writePos % r.size) h)
        rw [Option.some.inj e] at k1
        exact k1
      · contradiction


theorem Off.tryPlace (hM : 0x800001c800000000000002000000 &&& M = 0x800001c800000000000002000000) {i k p reply x t} (h : Off M s0 s) (e : State.tryPlace s i k p reply = some (x, t)) :
    Off M s0 t := by
  unfold State.tryPlace at e
  split at e
  · contradiction
  · exact Off.place (foot_sub hM (by decide)) h e


theorem Off.replyWritten (hM : 0x1610001c000000000000407080000 &&& M = 0x1610001c000000000000407080000) (c p pos)
    (h : Off M s0 s) : Off M s0 (State.replyWritten s c p pos) := by
  unfold State.replyWritten
  with_reducible repeat' first
    | assumption | exact foot_sub hM (by decide) | apply Off.complete

theorem Off.dropReply (hM : 0x1610001c000000000000447080000 &&& M = 0x1610001c000000000000447080000) (c)
    (h : Off M s0 s) : Off M s0 (State.dropReply s c) := by
  unfold State.dropReply
  with_reducible repeat' first
    | assumption | exact foot_has (by decide) | exact foot_sub hM (by decide) | apply Off.complete | apply Off.sat hM

theorem Off.takeAmReply (hM : 0x2000000001e10001c890000000000447080000 &&& M = 0x2000000001e10001c890000000000447080000) (i p)
    (h : Off M s0 s) : Off M s0 (State.takeAmReply s i p) := by
  unfold State.takeAmReply
  with_reducible repeat' first
    | assumption | exact foot_bit hM (by decide) | exact foot_sub hM (by decide) | apply Off.stray
    | apply Off.dropReply | refine Off.tryPlace ?_ ?_ (by assumption) | apply Off.replyWritten | apply Off.setCmd
    | apply Off.releaseAm | apply Off.showRing | apply Off.ite | split | apply Off.upd_holds

theorem Off.takeAnswer (hM : 0x2000000001610001c890000000000407080000 &&& M = 0x2000000001610001c890000000000407080000) (i op p)
    (h : Off M s0 s) : Off M s0 (State.takeAnswer s i op p) := by
  unfold State.takeAnswer
  with_reducible repeat' first
    | assumption | exact foot_sub hM (by decide) | apply Off.stray | apply Off.writePayload | apply Off.releaseAm
    | apply Off.setCmd | apply Off.complete | apply Off.afterAnswer | apply Off.ite | split

theorem Off.takeReply (hM : 0x2000000001e10001c890000000000447080000 &&& M = 0x2000000001e10001c890000000000447080000) (i p)
    (h : Off M s0 s) : Off M s0 (State.takeReply s i p) := by
  unfold State.takeReply
  with_reducible repeat' first
    | assumption | exact foot_sub hM (by decide) | apply Off.takeAmReply | apply Off.takeAnswer | apply Off.ite
    | split

theorem Off.respond (hM : 0x2000000101e32001c89000400002044f090400 &&& M = 0x2000000101e32001c89000400002044f090400) (ep req opcode status bytes poison extra)
    (h : Off M s0 s) : Off M s0 (State.respond s ep req opcode status bytes poison extra) := by
  unfold State.respond
  with_reducible repeat' first
    | assumption | exact foot_sub hM (by decide) | apply Off.takeReply | apply Off.drawn | apply Off.answer
    | apply Off.ite | split

theorem Off.cacheReply (hM : 0x180000 &&& M = 0x180000) (req opcode status value)
    (h : Off M s0 s) : Off M s0 (State.cacheReply s req opcode status value) := by
  unfold State.cacheReply
  with_reducible repeat' first
    | assumption | exact foot_has (by decide) | exact foot_sub hM (by decide) | apply Off.put hM | apply Off.ite
    | split

theorem Off.ackAm (hM : 0x2000000101e32001c89000400002044f190400 &&& M = 0x2000000101e32001c89000400002044f190400) (i p)
    (h : Off M s0 s) : Off M s0 (State.ackAm s i p) := by
  unfold State.ackAm
  with_reducible repeat' first
    | assumption | exact foot_sub hM (by decide) | apply Off.cacheReply | apply Off.respond | apply Off.ite | split

theorem Off.freeHold (hM : 0x10000000000000000000400000000 &&& M = 0x10000000000000000000400000000) (h')
    (h : Off M s0 s) : Off M s0 (State.freeHold s h') := by
  unfold State.freeHold
  with_reducible repeat' first
    | assumption | exact foot_has (by decide) | exact foot_bit hM (by decide) | exact foot_sub hM (by decide)
    | apply Off.put hM | apply Off.ite | split | apply Off.upd_holds

theorem Off.drainRing (hM : 0x2000000101e32001c89000400002044f190400 &&& M = 0x2000000101e32001c89000400002044f190400) (i k n2)
    (h : Off M s0 s) : Off M s0 (State.drainRing s i k n2) := by
  induction n2 generalizing i k s with
  | zero => exact h
  | succ k ih =>
    unfold State.drainRing
    with_reducible repeat' first
      | assumption | exact foot_sub hM (by decide) | refine Off.place ?_ ?_ (by assumption) | apply Off.freeHold
      | apply Off.replyWritten | apply Off.ackAm | apply ih | apply Off.ite | split

theorem Off.noteHostTag (hM : 0x200000000000000000000000000000000000000 &&& M = 0x200000000000000000000000000000000000000) (n)
    (h : Off M s0 s) : Off M s0 (State.noteHostTag s n) := by
  unfold State.noteHostTag
  with_reducible repeat' first
    | assumption | exact foot_bit hM (by decide) | apply Off.ite | split | apply Off.upd_hostTags

theorem Off.writeStage (hM : 0x220000000000020000080040000000000000700 &&& M = 0x220000000000020000080040000000000000700) (n d w)
    (h : Off M s0 s) : Off M s0 (State.writeStage s n d w) := by
  unfold State.writeStage
  with_reducible repeat' first
    | assumption | exact foot_has (by decide) | exact foot_sub hM (by decide) | apply Off.setFifo | apply Off.put hM
    | apply Off.event | apply Off.sat hM | apply Off.noteOld | apply Off.noteHostTag | apply Off.wrap hM
    | apply Off.ite | split

theorem Off.hostRefuse (hM : 0x100000000000000000810004000020008000000 &&& M = 0x100000000000000000810004000020008000000) (p st)
    (h : Off M s0 s) : Off M s0 (State.hostRefuse s p st) := by
  unfold State.hostRefuse
  with_reducible repeat' first
    | assumption | exact foot_bit hM (by decide) | exact foot_sub hM (by decide) | apply Off.drawn
    | apply Off.countRoute | apply Off.ite | split | apply Off.upd_hostRx

theorem Off.hostHead (hM : 0x3200000000000a0000890044000020008010700 &&& M = 0x3200000000000a0000890044000020008010700) (n d w)
    (h : Off M s0 s) : Off M s0 (State.hostHead s n d w) := by
  unfold State.hostHead
  with_reducible repeat' first
    | assumption | exact foot_has (by decide) | exact foot_bit hM (by decide) | exact foot_sub hM (by decide)
    | apply Off.writeStage | apply Off.hostRefuse | apply Off.put hM | apply Off.wrap hM | apply Off.ite | split
    | apply Off.upd_hostWait

theorem Off.readStage (hM : 0x20000000000000000000000200 &&& M = 0x20000000000000000000000200) (n d) (h : Off M s0 s) : Off M s0 (State.readStage s n d) := by
  unfold State.readStage
  dsimp only
  split
  · exact Off.sat hM _ _ _ (by decide) (Off.setFifo (foot_sub hM (by decide)) _ _ h)
  · exact Off.setFifo (foot_sub hM (by decide)) _ _ h


theorem execFifoWrite_off {t} (f' w) (e : execFifoWrite f' w s = .next t) :
    Off 0x3200000000000a0000890044000020008010700 s t := by
  have hM : 0x3200000000000a0000890044000020008010700 &&& 0x3200000000000a0000890044000020008010700 = 0x3200000000000a0000890044000020008010700 := Nat.and_self _
  refine live_off (fun s h => ?_) (Off.refl _ s) e
  with_reducible repeat' first
    | assumption | exact foot_sub hM (by decide) | apply Off.hostHead | apply Off.writeStage | apply Off.ite | split

theorem execFifoRead_off {t} (f') (e : execFifoRead f' s = .next t) :
    Off 0x20000000000000000000000200 s t := by
  have hM : 0x20000000000000000000000200 &&& 0x20000000000000000000000200 = 0x20000000000000000000000200 := Nat.and_self _
  refine live_off (fun s h => ?_) (Off.refl _ s) e
  with_reducible repeat' first
    | assumption | exact foot_sub hM (by decide) | apply Off.readStage | apply Off.ite | split

theorem Off.countLink (hM : 0x200000000c0 &&& M = 0x200000000c0) (l parity viol)
    (h : Off M s0 s) : Off M s0 (State.countLink s l parity viol) := by
  unfold State.countLink
  with_reducible repeat' first
    | assumption | exact foot_has (by decide) | exact foot_sub hM (by decide) | apply Off.sat hM | apply Off.put hM
    | apply Off.ite | split

theorem Off.passTail (hM : 0x800000000000000000000000000 &&& M = 0x800000000000000000000000000) (m n r out)
    (h : Off M s0 s) : Off M s0 (State.passTail s m n r out) := by
  induction n generalizing r out s with
  | zero => exact h
  | succ k ih =>
    unfold State.passTail
    dsimp only
    split
    · exact h
    · refine Off.ite h ?_
      split
      · apply ih; exact Off.upd_grants (foot_bit hM (by decide)) h
      · exact Off.upd_grants (foot_bit hM (by decide)) h


theorem Off.takeReady (hM : 0x400000000000000000000000000 &&& M = 0x400000000000000000000000000) (key)
    (h : Off M s0 s) : Off M s0 (State.takeReady s key) := by
  unfold State.takeReady
  with_reducible repeat' first
    | assumption | exact foot_bit hM (by decide) | apply Off.ite | split | apply Off.upd_links

theorem Off.takeFlits (hM : 0x400000000000000000000000000 &&& M = 0x400000000000000000000000000) (l levels head tail fs)
    (h : Off M s0 s) : Off M s0 (State.takeFlits s l levels head tail fs) := by
  unfold State.takeFlits
  with_reducible repeat' first
    | assumption | exact foot_bit hM (by decide) | apply Off.ite | split | apply Off.upd_links

theorem Off.popNeighbour (hM : 0x101672001c04000000000c407090600 &&& M = 0x101672001c04000000000c407090600) (l)
    (h : Off M s0 s) : Off M s0 (State.popNeighbour s l) := by
  unfold State.popNeighbour
  with_reducible repeat' first
    | assumption | exact foot_has (by decide) | exact foot_bit hM (by decide) | exact foot_sub hM (by decide)
    | apply Off.flow | apply Off.wrap hM | apply Off.popFifo | apply Off.ite | split | apply Off.upd_links

theorem Off.meshHandshake (hM : 0x4000008000000000200000000c0 &&& M = 0x4000008000000000200000000c0) (l levels change)
    (h : Off M s0 s) : Off M s0 (State.meshHandshake s l levels change) := by
  unfold State.meshHandshake
  with_reducible repeat' first
    | assumption | exact foot_sub hM (by decide) | apply Off.drawn | apply Off.countLink | apply Off.takeFlits
    | apply Off.ite | split

theorem Off.neighbourHandshake (hM : 0x101672001c84000000002c4070906c0 &&& M = 0x101672001c84000000002c4070906c0) (l levels change)
    (h : Off M s0 s) : Off M s0 (State.neighbourHandshake s l levels change) := by
  unfold State.neighbourHandshake
  with_reducible repeat' first
    | assumption | exact foot_sub hM (by decide) | apply Off.takeFlits | apply Off.drawn | apply Off.countLink
    | apply Off.popNeighbour

theorem Off.handshake (hM : 0x101672001c84000000002c4070906c0 &&& M = 0x101672001c84000000002c4070906c0) (l levels)
    (h : Off M s0 s) : Off M s0 (State.handshake s l levels) := by
  unfold State.handshake
  with_reducible repeat' first
    | assumption | exact foot_sub hM (by decide) | apply Off.neighbourHandshake | apply Off.meshHandshake
    | apply Off.ite | split

theorem execLinkHandshake_off {t} (l levels) (e : execLinkHandshake l levels s = .next t) :
    Off 0x101672001c84000000002c4070906c0 s t := by
  have hM : 0x101672001c84000000002c4070906c0 &&& 0x101672001c84000000002c4070906c0 = 0x101672001c84000000002c4070906c0 := Nat.and_self _
  refine live_off (fun s h => ?_) (Off.refl _ s) e
  with_reducible repeat' first
    | assumption | exact foot_sub hM (by decide) | apply Off.handshake

theorem Off.depart (hM : 0xc00000000000000000000000000 &&& M = 0xc00000000000000000000000000) (n0)
    (h : Off M s0 s) : Off M s0 (State.depart s n0) := by
  unfold State.depart
  with_reducible repeat' first
    | assumption | exact foot_sub hM (by decide) | apply Off.passTail | apply Off.takeReady | apply Off.ite | split

theorem Off.admitHeader (hM : 0xc20000040000000000000000600 &&& M = 0xc20000040000000000000000600) (f' w p)
    (h : Off M s0 s) : Off M s0 (State.admitHeader s f' w p) := by
  unfold State.admitHeader
  with_reducible repeat' first
    | assumption | exact foot_has (by decide) | exact foot_sub hM (by decide) | apply Off.sat hM | apply Off.put hM
    | apply Off.depart | apply Off.pushFifo | apply Off.wrap hM | apply Off.ite | split

theorem Off.takeIn (hM : 0xc60000000000000000000000200 &&& M = 0xc60000000000000000000000200) (ep p)
    (h : Off M s0 s) : Off M s0 (State.takeIn s ep p) := by
  unfold State.takeIn
  with_reducible repeat' first
    | assumption | exact foot_bit hM (by decide) | exact foot_sub hM (by decide) | apply Off.takeReady
    | apply Off.passTail | apply Off.popFifo | apply Off.ite | split | apply Off.upd_stackVia

theorem Off.leaveFifo (hM : 0x101632001c04000000000c407090600 &&& M = 0x101632001c04000000000c407090600) (m r inp p)
    (h : Off M s0 s) : Off M s0 (State.leaveFifo s m r inp p) := by
  unfold State.leaveFifo
  with_reducible repeat' first
    | assumption | exact foot_has (by decide) | exact foot_sub hM (by decide) | apply Off.popFifo | apply Off.flow
    | apply Off.wrap hM | apply Off.ite | split

theorem Off.requestOutput (hM : 0x1800000000000000000000000000 &&& M = 0x1800000000000000000000000000) (m r inp out p)
    (h : Off M s0 s) : Off M s0 (State.requestOutput s m r inp out p) := by
  unfold State.requestOutput
  with_reducible repeat' first
    | assumption | exact foot_bit hM (by decide) | apply Off.ite | split | apply Off.upd_grants | apply Off.upd_waits

theorem execRouterHeaderArrival_off {t} (m r inp pkt) (e : execRouterHeaderArrival m r inp pkt s = .next t) :
    Off 0x1017f2001c04000000000c407090600 s t := by
  have hM : 0x1017f2001c04000000000c407090600 &&& 0x1017f2001c04000000000c407090600 = 0x1017f2001c04000000000c407090600 := Nat.and_self _
  refine live_off (fun s h => ?_) (Off.refl _ s) e
  with_reducible repeat' first
    | assumption | exact foot_sub hM (by decide) | apply Off.requestOutput | apply Off.leaveFifo | apply Off.takeReady
    | apply Off.ite | split

theorem Off.countWait (hM : 0x18 &&& M = 0x18) (m n t')
    (h : Off M s0 s) : Off M s0 (State.countWait s m n t') := by
  unfold State.countWait
  with_reducible repeat' first
    | assumption | exact foot_has (by decide) | exact foot_sub hM (by decide) | apply Off.sat hM
    | apply Off.raiseTo hM | apply Off.ite | split

theorem Off.freeOutput (hM : 0x1800000000000000000000000018 &&& M = 0x1800000000000000000000000018) (m r out)
    (h : Off M s0 s) : Off M s0 (State.freeOutput s m r out) := by
  unfold State.freeOutput
  with_reducible repeat' first
    | assumption | exact foot_bit hM (by decide) | exact foot_sub hM (by decide) | apply Off.countWait | apply Off.ite
    | split | apply Off.upd_grants | apply Off.upd_grants_waits

theorem Off.setPort (hM : 0x10000000000000000000000000000000000 &&& M = 0x10000000000000000000000000000000000) (p v)
    (h : Off M s0 s) : Off M s0 (State.setPort s p v) := by
  unfold State.setPort
  with_reducible repeat' first
    | assumption | exact foot_bit hM (by decide) | apply Off.upd_ports

theorem Off.modPort (hM : 0x10000000000000000000000000000000000 &&& M = 0x10000000000000000000000000000000000) (p f')
    (h : Off M s0 s) : Off M s0 (State.modPort s p f') := by
  unfold State.modPort
  with_reducible repeat' first
    | assumption | exact foot_sub hM (by decide) | apply Off.setPort

theorem Off.stage (hM : 0x10000000000000000000000000000000000 &&& M = 0x10000000000000000000000000000000000) (p src vl pkt)
    (h : Off M s0 s) : Off M s0 (State.stage s p src vl pkt) := by
  unfold State.stage
  with_reducible repeat' first
    | assumption | exact foot_sub hM (by decide) | apply Off.modPort

theorem Off.releaseFor (hM : 0x40000000000000000000000000000000000 &&& M = 0x40000000000000000000000000000000000) (p src pkt)
    (h : Off M s0 s) : Off M s0 (State.releaseFor s p src pkt) := by
  unfold State.releaseFor
  with_reducible repeat' first
    | assumption | exact foot_bit hM (by decide) | apply Off.ite | split | apply Off.upd_released

theorem Off.portRefuse (hM : 0x40001000320000810004000020008010400 &&& M = 0x40001000320000810004000020008010400) (p src st pkt)
    (h : Off M s0 s) : Off M s0 (State.portRefuse s p src st pkt) := by
  unfold State.portRefuse
  with_reducible repeat' first
    | assumption | exact foot_has (by decide) | exact foot_sub hM (by decide) | apply Off.sat hM
    | apply Off.releaseFor | apply Off.nack | apply Off.ite | split

theorem Off.loopRefuse (hM : 0x20040001000320000890004000020008010400 &&& M = 0x20040001000320000890004000020008010400) (p src pkt)
    (h : Off M s0 s) : Off M s0 (State.loopRefuse s p src pkt) := by
  unfold State.loopRefuse
  with_reducible repeat' first
    | assumption | exact foot_has (by decide) | exact foot_sub hM (by decide) | apply Off.sat hM
    | apply Off.releaseFor | apply Off.headEvent | apply Off.nack | apply Off.ite | split

theorem Off.egress (hM : 0x20050001000320000890004000020008010400 &&& M = 0x20050001000320000890004000020008010400) (p src sameRing pkt)
    (h : Off M s0 s) : Off M s0 (State.egress s p src sameRing pkt) := by
  unfold State.egress
  with_reducible repeat' first
    | assumption | exact foot_sub hM (by decide) | apply Off.portRefuse | apply Off.loopRefuse | apply Off.stage
    | apply Off.ite | split

theorem execPortEgress_off {t} (p src pkt) (e : execPortEgress p src pkt s = .next t) :
    Off 0x20050001016f6001c89000400002c40f090600 s t := by
  have hM : 0x20050001016f6001c89000400002c40f090600 &&& 0x20050001016f6001c89000400002c40f090600 = 0x20050001016f6001c89000400002c40f090600 := Nat.and_self _
  refine live_off (fun s h => ?_) (Off.refl _ s) e
  with_reducible repeat' first
    | assumption | exact foot_sub hM (by decide) | apply Off.takeIn | apply Off.flow | apply Off.discardHead
    | apply Off.releaseFor | apply Off.egress | apply Off.ite | split

theorem execMgmtRelayAtPort_off {t} (p pkt) (e : execMgmtRelayAtPort p pkt s = .next t) :
    Off 0x50001016f6001c00000400000c407090600 s t := by
  have hM : 0x50001016f6001c00000400000c407090600 &&& 0x50001016f6001c00000400000c407090600 = 0x50001016f6001c00000400000c407090600 := Nat.and_self _
  refine live_off (fun s h => ?_) (Off.refl _ s) e
  with_reducible repeat' first
    | assumption | exact foot_has (by decide) | exact foot_sub hM (by decide) | apply Off.takeIn | apply Off.stage
    | apply Off.flow | apply Off.sat hM | apply Off.releaseFor | apply Off.ite | split

theorem execWindowRelease_off {t} (p k src) (e : execWindowRelease p k src s = .next t) :
    Off 0x4000101632001c00000000000c407090400 s t := by
  have hM : 0x4000101632001c00000000000c407090400 &&& 0x4000101632001c00000000000c407090400 = 0x4000101632001c00000000000c407090400 := Nat.and_self _
  refine live_off (fun s h => ?_) (Off.refl _ s) e
  with_reducible repeat' first
    | assumption | exact foot_has (by decide) | exact foot_bit hM (by decide) | exact foot_sub hM (by decide)
    | apply Off.flow | apply Off.put hM | apply Off.upd_released

theorem Off.treeToFibre (hM : 0x20050001000320000890004000020008010400 &&& M = 0x20050001000320000890004000020008010400) (l pkt)
    (h : Off M s0 s) : Off M s0 (State.treeToFibre s l pkt) := by
  unfold State.treeToFibre
  with_reducible repeat' first
    | assumption | exact foot_sub hM (by decide) | apply Off.egress | apply Off.ite | split

theorem Off.plumbToFibre (hM : 0x10000000000000000000000000000000000 &&& M = 0x10000000000000000000000000000000000) (l m bad)
    (h : Off M s0 s) : Off M s0 (State.plumbToFibre s l m bad) := by
  unfold State.plumbToFibre
  with_reducible repeat' first
    | assumption | exact foot_sub hM (by decide) | apply Off.stage | apply Off.ite | split

theorem Off.setLane (hM : 0x10000000000000000 &&& M = 0x10000000000000000) (p d l v)
    (h : Off M s0 s) : Off M s0 (State.setLane s p d l v) := by
  unfold State.setLane
  with_reducible repeat' first
    | assumption | exact foot_has (by decide) | exact foot_sub hM (by decide) | apply Off.put hM

theorem Off.formBlocks (hM : 0x10000000000000000000000000000000000 &&& M = 0x10000000000000000000000000000000000) (p)
    (h : Off M s0 s) : Off M s0 (State.formBlocks s p) := by
  unfold State.formBlocks
  with_reducible repeat' first
    | assumption | exact foot_sub hM (by decide) | apply Off.modPort | apply Off.ite | split

theorem Off.sendWord (hM : 0x10000000000000000000000000000000000 &&& M = 0x10000000000000000000000000000000000) (p message)
    (h : Off M s0 s) : Off M s0 (State.sendWord s p message) := by
  unfold State.sendWord
  with_reducible repeat' first
    | assumption | exact foot_sub hM (by decide) | apply Off.modPort | apply Off.ite | split

theorem Off.stripe (hM : 0x10000000000000000000000000000000000 &&& M = 0x10000000000000000000000000000000000) (p)
    (h : Off M s0 s) : Off M s0 (State.stripe s p) := by
  unfold State.stripe
  with_reducible repeat' first
    | assumption | exact foot_sub hM (by decide) | apply Off.sendWord | apply Off.modPort | apply Off.formBlocks
    | apply Off.ite | split

theorem Off.countWord (hM : 0x10000000000000000002000000000000000 &&& M = 0x10000000000000000002000000000000000) (p d)
    (h : Off M s0 s) : Off M s0 (State.countWord s p d) := by
  unfold State.countWord
  with_reducible repeat' first
    | assumption | exact foot_has (by decide) | exact foot_sub hM (by decide) | apply Off.sat hM | apply Off.modPort
    | apply Off.foldl | intro _ _ _ | apply Off.ite | split

theorem Off.receive (hM : 0x10000000000000000002000000000000000 &&& M = 0x10000000000000000002000000000000000) (p n a b)
    (h : Off M s0 s) : Off M s0 (State.receive s p n a b).1 := by
  unfold State.receive
  with_reducible repeat' first
    | assumption | exact foot_sub hM (by decide) | apply Off.countWord | apply Off.ite_fst | split

theorem Off.receive_eq (hM : 0x10000000000000000002000000000000000 &&& M = 0x10000000000000000002000000000000000) {p} {n} {a} {b} {x t}
    (h : Off M s0 s) (e : State.receive s p n a b = (t, x)) : Off M s0 t := by
  have k := Off.receive hM p n a b h
  rwa [e] at k

theorem Off.answerRepeat (hM : 0x2000000101e32001c89000400002044f090400 &&& M = 0x2000000101e32001c89000400002044f090400) (ep p stale)
    (h : Off M s0 s) : Off M s0 (State.answerRepeat s ep p stale) := by
  unfold State.answerRepeat
  with_reducible repeat' first
    | assumption | exact foot_has (by decide) | exact foot_sub hM (by decide) | apply Off.sat hM | apply Off.respond
    | apply Off.ite | split

theorem Off.takeSeq (hM : 0x80000 &&& M = 0x80000) (p)
    (h : Off M s0 s) : Off M s0 (State.takeSeq s p) := by
  unfold State.takeSeq
  with_reducible repeat' first
    | assumption | exact foot_has (by decide) | exact foot_sub hM (by decide) | apply Off.put hM | apply Off.ite
    | split

theorem Off.conclude (hM : 0x2000000101e32001c89000400002044f190400 &&& M = 0x2000000101e32001c89000400002044f190400) (ep p op st bytes poison extra)
    (h : Off M s0 s) : Off M s0 (State.conclude s ep p op st bytes poison extra) := by
  unfold State.conclude
  with_reducible repeat' first
    | assumption | exact foot_sub hM (by decide) | apply Off.respond | apply Off.cacheReply | apply Off.takeSeq

theorem Off.signalFlag (hM : 0x2000000 &&& M = 0x2000000) (ep p)
    (h : Off M s0 s) : Off M s0 (State.signalFlag s ep p) := by
  unfold State.signalFlag
  with_reducible repeat' first
    | assumption | exact foot_sub hM (by decide) | apply Off.signalCtr | apply Off.ite | split

theorem Off.acknowledge (hM : 0x2000000101e32001c89000400002044f190400 &&& M = 0x2000000101e32001c89000400002044f190400) (ep p poisoned)
    (h : Off M s0 s) : Off M s0 (State.acknowledge s ep p poisoned) := by
  unfold State.acknowledge
  with_reducible repeat' first
    | assumption | exact foot_sub hM (by decide) | apply Off.conclude | apply Off.cacheReply | apply Off.takeSeq
    | apply Off.ite | split

theorem Off.toHost (hM : 0x100000000000000000000000000000000000000 &&& M = 0x100000000000000000000000000000000000000) (p)
    (h : Off M s0 s) : Off M s0 (State.toHost s p) := by
  unfold State.toHost
  with_reducible repeat' first
    | assumption | exact foot_bit hM (by decide) | apply Off.upd_hostRx

theorem Off.doPut (hM : 0x12000000101e32001c89000400002044f190400 &&& M = 0x12000000101e32001c89000400002044f190400) (ep p)
    (h : Off M s0 s) : Off M s0 (State.doPut s ep p) := by
  unfold State.doPut
  with_reducible repeat' first
    | assumption | exact foot_sub hM (by decide) | apply Off.acknowledge | apply Off.toHost | apply Off.writePayload
    | apply Off.signalFlag | apply Off.ite | split

theorem Off.doGet (hM : 0x12000000101e32001c89000400002c44f090400 &&& M = 0x12000000101e32001c89000400002c44f090400) (ep p)
    (h : Off M s0 s) : Off M s0 (State.doGet s ep p) := by
  unfold State.doGet
  with_reducible repeat' first
    | assumption | exact foot_sub hM (by decide) | apply Off.respond | apply Off.drawn | apply Off.toHost
    | apply Off.signalFlag | apply Off.countReads | apply Off.ite | split

theorem Off.atomicAt (hM : 0x1c00000000000c000000000 &&& M = 0x1c00000000000c000000000) (add fmt ep a len operand) (h : Off M s0 s) :
    Off M s0 (State.atomicAt s add fmt ep a len operand).2.2 := by
  unfold State.atomicAt
  dsimp only
  have h1 := Off.countReads (foot_sub hM (by decide)) ep a len h
  split
  · exact h1
  · exact Off.writeBytes (foot_sub hM (by decide)) _ _ _ h1

theorem Off.doAtomic (hM : 0x2000000101e32001c89000400002c44f190400 &&& M = 0x2000000101e32001c89000400002c44f190400) (add ep p) (h : Off M s0 s) : Off M s0 (State.doAtomic s add ep p) := by
  unfold State.doAtomic
  dsimp only
  split
  · exact Off.conclude (foot_sub hM (by decide)) _ _ _ _ _ _ _ (Off.countReads (foot_sub hM (by decide)) _ _ _ h)
  · exact Off.conclude (foot_sub hM (by decide)) _ _ _ _ _ _ _ (Off.atomicAt (foot_sub hM (by decide)) _ _ _ _ _ _ h)


theorem Off.doSignal (hM : 0x2000000101e32001c89000400002044f190400 &&& M = 0x2000000101e32001c89000400002044f190400) (ep p)
    (h : Off M s0 s) : Off M s0 (State.doSignal s ep p) := by
  unfold State.doSignal
  with_reducible repeat' first
    | assumption | exact foot_sub hM (by decide) | apply Off.acknowledge | apply Off.signalCtr

theorem Off.doAm (hM : 0x2000000101e32001c89000400002044f190400 &&& M = 0x2000000101e32001c89000400002044f190400) (i p)
    (h : Off M s0 s) : Off M s0 (State.doAm s i p) := by
  unfold State.doAm
  with_reducible repeat' first
    | assumption | exact foot_has (by decide) | exact foot_bit hM (by decide) | exact foot_sub hM (by decide)
    | refine Off.tryPlace ?_ ?_ (by assumption) | apply Off.ackAm | apply Off.takeSeq | apply Off.put hM
    | apply Off.cacheReply | apply Off.showRing | apply Off.wrap hM | apply Off.event | apply Off.respond
    | apply Off.ite | split | apply Off.upd_holds

theorem Off.portEndpoint (hM : 0x20000001000320000890004000020008010400 &&& M = 0x20000001000320000890004000020008010400) (ep p)
    (h : Off M s0 s) : Off M s0 (State.portEndpoint s ep p) := by
  unfold State.portEndpoint
  with_reducible repeat' first
    | assumption | exact foot_has (by decide) | exact foot_sub hM (by decide) | apply Off.headEvent | apply Off.sat hM
    | apply Off.nack | apply Off.ite | split

theorem Off.resetDiscard (hM : 0x200 &&& M = 0x200) (ep p)
    (h : Off M s0 s) : Off M s0 (State.resetDiscard s ep p) := by
  unfold State.resetDiscard
  with_reducible repeat' first
    | assumption | exact foot_has (by decide) | exact foot_sub hM (by decide) | apply Off.sat hM

theorem Off.judge (hM : 0x2000000101e32001c89000400002c44f190400 &&& M = 0x2000000101e32001c89000400002c44f190400) (ep p act) (ha : ∀ s, Off M s0 s → Off M s0 (act s)) (h : Off M s0 s) :
    Off M s0 (State.judge s ep p act) := by
  unfold State.judge
  with_reducible repeat' first
    | assumption | exact foot_sub hM (by decide) | apply ha | apply Off.discardHead | apply Off.portEndpoint
    | apply Off.respond | apply Off.answerRepeat | apply Off.conclude | apply Off.countNoOwner | apply Off.ite | split


theorem Off.request (hM : 0x2000000101ef6001c89000400002c44f190600 &&& M = 0x2000000101ef6001c89000400002c44f190600) (op ep p act) (ha : ∀ s, Off M s0 s → Off M s0 (act s)) (h : Off M s0 s) :
    Off M s0 (State.request s op ep p act) := by
  unfold State.request
  have hc := Off.takeIn (foot_sub hM (by decide)) ep p h
  exact Off.ite h (Off.ite h (Off.ite (Off.resetDiscard (foot_sub hM (by decide)) _ _ hc)
    (Off.judge (foot_sub hM (by decide)) _ _ _ ha hc)))


theorem Off.hostReply (hM : 0x320000000000000000090000000000004000000 &&& M = 0x320000000000000000090000000000004000000) (p)
    (h : Off M s0 s) : Off M s0 (State.hostReply s p) := by
  unfold State.hostReply
  with_reducible repeat' first
    | assumption | exact foot_bit hM (by decide) | exact foot_sub hM (by decide) | apply Off.stray | apply Off.ite
    | split | apply Off.upd_hostRx_hostTags

theorem Off.reply (hM : 0x32000000101ef6001c89000400002044f090600 &&& M = 0x32000000101ef6001c89000400002044f090600) (op ep p)
    (h : Off M s0 s) : Off M s0 (State.reply s op ep p) := by
  unfold State.reply
  with_reducible repeat' first
    | assumption | exact foot_sub hM (by decide) | apply Off.takeIn | apply Off.resetDiscard | apply Off.discardHead
    | apply Off.portEndpoint | apply Off.hostReply | apply Off.stray | apply Off.takeReply | apply Off.ite | split

theorem execPutArrival_off {t} (ep pkt) (e : execPutArrival ep pkt s = .next t) :
    Off 0x12000000101ef6001c89000400002c44f190600 s t := by
  have hM : 0x12000000101ef6001c89000400002c44f190600 &&& 0x12000000101ef6001c89000400002c44f190600 = 0x12000000101ef6001c89000400002c44f190600 := Nat.and_self _
  refine live_off (fun s h => ?_) (Off.refl _ s) e
  with_reducible repeat' first
    | assumption | exact foot_sub hM (by decide) | apply Off.flow | apply Off.request | apply Off.doPut | intro _ _

theorem execGetReqArrival_off {t} (ep pkt) (e : execGetReqArrival ep pkt s = .next t) :
    Off 0x12000000101ef6001c89000400002c44f190600 s t := by
  have hM : 0x12000000101ef6001c89000400002c44f190600 &&& 0x12000000101ef6001c89000400002c44f190600 = 0x12000000101ef6001c89000400002c44f190600 := Nat.and_self _
  refine live_off (fun s h => ?_) (Off.refl _ s) e
  with_reducible repeat' first
    | assumption | exact foot_sub hM (by decide) | apply Off.flow | apply Off.request | apply Off.doGet | intro _ _

theorem execAtomAddArrival_off {t} (ep pkt) (e : execAtomAddArrival ep pkt s = .next t) :
    Off 0x2000000101ef6001c89000400002c44f190600 s t := by
  have hM : 0x2000000101ef6001c89000400002c44f190600 &&& 0x2000000101ef6001c89000400002c44f190600 = 0x2000000101ef6001c89000400002c44f190600 := Nat.and_self _
  refine live_off (fun s h => ?_) (Off.refl _ s) e
  with_reducible repeat' first
    | assumption | exact foot_sub hM (by decide) | apply Off.flow | apply Off.request | apply Off.doAtomic | intro _ _

theorem execAtomSwapArrival_off {t} (ep pkt) (e : execAtomSwapArrival ep pkt s = .next t) :
    Off 0x2000000101ef6001c89000400002c44f190600 s t := by
  have hM : 0x2000000101ef6001c89000400002c44f190600 &&& 0x2000000101ef6001c89000400002c44f190600 = 0x2000000101ef6001c89000400002c44f190600 := Nat.and_self _
  refine live_off (fun s h => ?_) (Off.refl _ s) e
  with_reducible repeat' first
    | assumption | exact foot_sub hM (by decide) | apply Off.flow | apply Off.request | apply Off.doAtomic | intro _ _

theorem execSignalArrival_off {t} (ep pkt) (e : execSignalArrival ep pkt s = .next t) :
    Off 0x2000000101ef6001c89000400002c44f190600 s t := by
  have hM : 0x2000000101ef6001c89000400002c44f190600 &&& 0x2000000101ef6001c89000400002c44f190600 = 0x2000000101ef6001c89000400002c44f190600 := Nat.and_self _
  refine live_off (fun s h => ?_) (Off.refl _ s) e
  with_reducible repeat' first
    | assumption | exact foot_sub hM (by decide) | apply Off.flow | apply Off.request | apply Off.doSignal | intro _ _

theorem execAmArrival_off {t} (ep pkt) (e : execAmArrival ep pkt s = .next t) :
    Off 0x2000000101ef6001c89000400002c44f190600 s t := by
  have hM : 0x2000000101ef6001c89000400002c44f190600 &&& 0x2000000101ef6001c89000400002c44f190600 = 0x2000000101ef6001c89000400002c44f190600 := Nat.and_self _
  refine live_off (fun s h => ?_) (Off.refl _ s) e
  with_reducible repeat' first
    | assumption | exact foot_sub hM (by decide) | apply Off.flow | apply Off.request | apply Off.doAm | intro _ _

theorem execGetRspArrival_off {t} (ep pkt) (e : execGetRspArrival ep pkt s = .next t) :
    Off 0x32000000101ef6001c89000400002c44f090600 s t := by
  have hM : 0x32000000101ef6001c89000400002c44f090600 &&& 0x32000000101ef6001c89000400002c44f090600 = 0x32000000101ef6001c89000400002c44f090600 := Nat.and_self _
  refine live_off (fun s h => ?_) (Off.refl _ s) e
  with_reducible repeat' first
    | assumption | exact foot_sub hM (by decide) | apply Off.flow | apply Off.reply

theorem execAtomRspArrival_off {t} (ep pkt) (e : execAtomRspArrival ep pkt s = .next t) :
    Off 0x32000000101ef6001c89000400002c44f090600 s t := by
  have hM : 0x32000000101ef6001c89000400002c44f090600 &&& 0x32000000101ef6001c89000400002c44f090600 = 0x32000000101ef6001c89000400002c44f090600 := Nat.and_self _
  refine live_off (fun s h => ?_) (Off.refl _ s) e
  with_reducible repeat' first
    | assumption | exact foot_sub hM (by decide) | apply Off.flow | apply Off.reply

theorem execAckArrival_off {t} (ep pkt) (e : execAckArrival ep pkt s = .next t) :
    Off 0x32000000101ef6001c89000400002c44f090600 s t := by
  have hM : 0x32000000101ef6001c89000400002c44f090600 &&& 0x32000000101ef6001c89000400002c44f090600 = 0x32000000101ef6001c89000400002c44f090600 := Nat.and_self _
  refine live_off (fun s h => ?_) (Off.refl _ s) e
  with_reducible repeat' first
    | assumption | exact foot_sub hM (by decide) | apply Off.flow | apply Off.reply

theorem execNackArrival_off {t} (ep pkt) (e : execNackArrival ep pkt s = .next t) :
    Off 0x32000000101ef6001c89000400002c44f090600 s t := by
  have hM : 0x32000000101ef6001c89000400002c44f090600 &&& 0x32000000101ef6001c89000400002c44f090600 = 0x32000000101ef6001c89000400002c44f090600 := Nat.and_self _
  refine live_off (fun s h => ?_) (Off.refl _ s) e
  with_reducible repeat' first
    | assumption | exact foot_sub hM (by decide) | apply Off.flow | apply Off.reply

theorem execAmReplyArrival_off {t} (ep pkt) (e : execAmReplyArrival ep pkt s = .next t) :
    Off 0x32000000101ef6001c89000400002c44f090600 s t := by
  have hM : 0x32000000101ef6001c89000400002c44f090600 &&& 0x32000000101ef6001c89000400002c44f090600 = 0x32000000101ef6001c89000400002c44f090600 := Nat.and_self _
  refine live_off (fun s h => ?_) (Off.refl _ s) e
  with_reducible repeat' first
    | assumption | exact foot_sub hM (by decide) | apply Off.flow | apply Off.reply

theorem execHostDrainExpiry_off {t} (e : execHostDrainExpiry s = .next t) :
    Off 0x2000000101632001c89000400002c40f090600 s t := by
  have hM : 0x2000000101632001c89000400002c40f090600 &&& 0x2000000101632001c89000400002c40f090600 = 0x2000000101632001c89000400002c40f090600 := Nat.and_self _
  refine live_off (fun s h => ?_) (Off.refl _ s) e
  with_reducible repeat' first
    | assumption | exact foot_has (by decide) | exact foot_sub hM (by decide) | apply Off.popFifo | apply Off.flow
    | apply Off.discardHead | apply Off.sat hM | apply Off.nack | apply Off.ite | split

end Sys2Proof.Machine
end

