-- ==== Sys2Proof/Laws/FrameTrees.lean ====
section
/-! SUPPORT. What every operation may change, one lemma per operation, by footprint (Laws/Frame.lean): trees and collectives. -/

namespace Sys2Proof.Machine

variable {M L : Nat} {s0 s : State}

theorem Off.cornerEvent (hM : 0x20000000000000000080000000000000000000 &&& M = 0x20000000000000000080000000000000000000) (e')
    (h : Off M s0 s) : Off M s0 (State.cornerEvent s e') := by
  unfold State.cornerEvent
  with_reducible repeat' first
    | assumption | exact foot_sub hM (by decide) | apply Off.event

theorem execThrottleAssert_off {t} (e : execThrottleAssert s = .next t) :
    Off 0x20000000000000000080000000000000000020 s t := by
  have hM : 0x20000000000000000080000000000000000020 &&& 0x20000000000000000080000000000000000020 = 0x20000000000000000080000000000000000020 := Nat.and_self _
  refine live_off (fun s h => ?_) (Off.refl _ s) e
  with_reducible repeat' first
    | assumption | exact foot_has (by decide) | exact foot_sub hM (by decide) | apply Off.cornerEvent
    | apply Off.put hM | apply Off.ite | split

theorem execThrottleRelease_off {t} (e : execThrottleRelease s = .next t) :
    Off 0x20000000000000000080000000000000000020 s t := by
  have hM : 0x20000000000000000080000000000000000020 &&& 0x20000000000000000080000000000000000020 = 0x20000000000000000080000000000000000020 := Nat.and_self _
  refine live_off (fun s h => ?_) (Off.refl _ s) e
  with_reducible repeat' first
    | assumption | exact foot_has (by decide) | exact foot_sub hM (by decide) | apply Off.cornerEvent
    | apply Off.put hM | apply Off.ite | split

theorem Off.judgeSupply (hM : 0x20000000000000000080000000000000000020 &&& M = 0x20000000000000000080000000000000000020) (vdd)
    (h : Off M s0 s) : Off M s0 (State.judgeSupply s vdd) := by
  unfold State.judgeSupply
  with_reducible repeat' first
    | assumption | exact foot_has (by decide) | exact foot_sub hM (by decide) | apply Off.cornerEvent
    | apply Off.put hM | apply Off.ite | split

theorem execFabricMeasurement_off {t} (vdd temp speed) (e : execFabricMeasurement vdd temp speed s = .next t) :
    Off 0x20000000000004000080000000000000000020 s t := by
  have hM : 0x20000000000004000080000000000000000020 &&& 0x20000000000004000080000000000000000020 = 0x20000000000004000080000000000000000020 := Nat.and_self _
  refine live_off (fun s h => ?_) (Off.refl _ s) e
  with_reducible repeat' first
    | assumption | exact foot_has (by decide) | exact foot_bit hM (by decide) | exact foot_sub hM (by decide)
    | apply Off.put hM | apply Off.judgeSupply | apply Off.cornerEvent | apply Off.ite | split | apply Off.upd_fabLow

theorem execRefLost_off {t} (e : execRefLost s = .next t) :
    Off 0x20000000000000020080000000000000000000 s t := by
  have hM : 0x20000000000000020080000000000000000000 &&& 0x20000000000000020080000000000000000000 = 0x20000000000000020080000000000000000000 := Nat.and_self _
  refine live_off (fun s h => ?_) (Off.refl _ s) e
  with_reducible repeat' first
    | assumption | exact foot_bit hM (by decide) | exact foot_sub hM (by decide) | apply Off.event | apply Off.ite
    | split | apply Off.upd_refLostAt

theorem execRefBack_off {t} (e : execRefBack s = .next t) :
    Off 0x20000000000000020080000000000000000000 s t := by
  have hM : 0x20000000000000020080000000000000000000 &&& 0x20000000000000020080000000000000000000 = 0x20000000000000020080000000000000000000 := Nat.and_self _
  refine live_off (fun s h => ?_) (Off.refl _ s) e
  with_reducible repeat' first
    | assumption | exact foot_bit hM (by decide) | exact foot_sub hM (by decide) | apply Off.event | apply Off.ite
    | split | apply Off.upd_refLostAt

theorem execTestLogicReset_off {t} (e : execTestLogicReset s = .next t) :
    Off 0x18000000000000000000000000 s t := by
  have hM : 0x18000000000000000000000000 &&& 0x18000000000000000000000000 = 0x18000000000000000000000000 := Nat.and_self _
  refine live_off (fun s h => ?_) (Off.refl _ s) e
  with_reducible repeat' first
    | assumption | exact foot_bit hM (by decide) | exact foot_sub hM (by decide) | apply Off.upd_tapState_tapIr

theorem execClkMgLost_off {t} (e : execClkMgLost s = .next t) :
    Off 0x100000040800000000000000000000 s t := by
  have hM : 0x100000040800000000000000000000 &&& 0x100000040800000000000000000000 = 0x100000040800000000000000000000 := Nat.and_self _
  refine live_off (fun s h => ?_) (Off.refl _ s) e
  with_reducible repeat' first
    | assumption | exact foot_bit hM (by decide) | exact foot_sub hM (by decide) | apply Off.pulsesStop
    | apply Off.ite | split | apply Off.upd_mgLost

theorem Off.setRun (hM : 0x4000000000000000000000000000000 &&& M = 0x4000000000000000000000000000000) (n r)
    (h : Off M s0 s) : Off M s0 (State.setRun s n r) := by
  unfold State.setRun
  with_reducible repeat' first
    | assumption | exact foot_bit hM (by decide) | apply Off.upd_nodes

theorem Off.countMove (hM : 0x1000000000000000000000000000000 &&& M = 0x1000000000000000000000000000000) (k)
    (h : Off M s0 s) : Off M s0 (State.countMove s k) := by
  unfold State.countMove
  with_reducible repeat' first
    | assumption | exact foot_sub hM (by decide) | apply Off.setRoom

theorem Off.portSend (hM : 0x20050021000320000890004000020008010400 &&& M = 0x20050021000320000890004000020008010400) (l p)
    (h : Off M s0 s) : Off M s0 (State.portSend s l p) := by
  unfold State.portSend
  with_reducible repeat' first
    | assumption | exact foot_bit hM (by decide) | exact foot_sub hM (by decide) | apply Off.treeToFibre
    | apply Off.ite | split | apply Off.upd_fibreHold

theorem Off.sendTree (hM : 0x20050021001b20000890004000020008010400 &&& M = 0x20050021001b20000890004000020008010400) (u edge p)
    (h : Off M s0 s) : Off M s0 (State.sendTree s u edge p) := by
  unfold State.sendTree
  with_reducible repeat' first
    | assumption | exact foot_sub hM (by decide) | apply Off.requestOutput | apply Off.portSend | apply Off.emit
    | apply Off.ite | split

theorem Off.noEntry (hM : 0x20000000000000000080000000800000000000 &&& M = 0x20000000000000000080000000800000000000) (u p)
    (h : Off M s0 s) : Off M s0 (State.noEntry s u p) := by
  unfold State.noEntry
  with_reducible repeat' first
    | assumption | exact foot_has (by decide) | exact foot_sub hM (by decide) | apply Off.event | apply Off.sat hM

theorem Off.finishMerge (hM : 0x20050021801b20000890004000020008010400 &&& M = 0x20050021801b20000890004000020008010400) (u k m)
    (h : Off M s0 s) : Off M s0 (State.finishMerge s u k m) := by
  unfold State.finishMerge
  with_reducible repeat' first
    | assumption | exact foot_bit hM (by decide) | exact foot_sub hM (by decide) | apply Off.sendTree
    | apply Off.drawn | apply Off.ite | split | apply Off.upd_merges

theorem Off.mergeAnswer (hM : 0x20050021801b20000890004000020008010400 &&& M = 0x20050021801b20000890004000020008010400) (u k out m failed rank ep st)
    (h : Off M s0 s) : Off M s0 (State.mergeAnswer s u k out m failed rank ep st) := by
  unfold State.mergeAnswer
  with_reducible repeat' first
    | assumption | exact foot_has (by decide) | exact foot_bit hM (by decide) | exact foot_sub hM (by decide)
    | apply Off.finishMerge | apply Off.ite | split | apply Off.upd_merges

theorem Off.takeAnswerAt (hM : 0x20050021801b20000890004000820008010400 &&& M = 0x20050021801b20000890004000820008010400) (u out p)
    (h : Off M s0 s) : Off M s0 (State.takeAnswerAt s u out p) := by
  unfold State.takeAnswerAt
  with_reducible repeat' first
    | assumption | exact foot_has (by decide) | exact foot_sub hM (by decide) | apply Off.sat hM
    | apply Off.mergeAnswer | apply Off.ite | split

theorem Off.answerBeyond (hM : 0x20050021801b20000890004000020008010400 &&& M = 0x20050021801b20000890004000020008010400) (l k m)
    (h : Off M s0 s) : Off M s0 (State.answerBeyond s l k m) := by
  unfold State.answerBeyond
  with_reducible repeat' first
    | assumption | exact foot_sub hM (by decide) | apply Off.mergeAnswer | apply Off.ite | split

theorem Off.sendCopy (hM : 0x20050021001b20000890004000020008010400 &&& M = 0x20050021001b20000890004000020008010400) (n out p)
    (h : Off M s0 s) : Off M s0 (State.sendCopy s n out p) := by
  unfold State.sendCopy
  with_reducible repeat' first
    | assumption | exact foot_sub hM (by decide) | apply Off.startMove | apply Off.sendTree | apply Off.ite | split

theorem Off.sendBranches (hM : 0x20050021401b20000890004000020008010400 &&& M = 0x20050021401b20000890004000020008010400) (n)
    (h : Off M s0 s) : Off M s0 (State.sendBranches s n) := by
  unfold State.sendBranches
  with_reducible repeat' first
    | assumption | exact foot_bit hM (by decide) | exact foot_sub hM (by decide) | apply Off.sendCopy
    | apply Off.foldl | intro _ _ _ | apply Off.ite | split | apply Off.upd_mcBufs

theorem Off.copyOut (hM : 0x20050021c01b20000890004000020008010400 &&& M = 0x20050021c01b20000890004000020008010400) (n k out)
    (h : Off M s0 s) : Off M s0 (State.copyOut s n k out) := by
  unfold State.copyOut
  with_reducible repeat' first
    | assumption | exact foot_bit hM (by decide) | exact foot_sub hM (by decide) | apply Off.answerBeyond
    | apply Off.sendCopy | apply Off.ite | split | apply Off.upd_mcBufs

theorem Off.forkCopy (hM : 0x20050021c01b20000890004000020008010400 &&& M = 0x20050021c01b20000890004000020008010400) (n k)
    (h : Off M s0 s) : Off M s0 (State.forkCopy s n k) := by
  unfold State.forkCopy
  with_reducible repeat' first
    | assumption | exact foot_sub hM (by decide) | apply Off.sendBranches | apply Off.copyOut | apply Off.foldl
    | intro _ _ _

theorem Off.takeMulticast (hM : 0x20050021c01b20000890004000020008010400 &&& M = 0x20050021c01b20000890004000020008010400) (n p)
    (h : Off M s0 s) : Off M s0 (State.takeMulticast s n p) := by
  unfold State.takeMulticast
  with_reducible repeat' first
    | assumption | exact foot_has (by decide) | exact foot_bit hM (by decide) | exact foot_sub hM (by decide)
    | apply Off.countMove | apply Off.finishMerge | apply Off.foldl | intro _ _ _ | apply Off.ite | split
    | apply Off.upd_mcBufs_merges | apply Off.upd_mcBufs

theorem Off.setSlot (hM : 0x200000000000000000000000000000 &&& M = 0x200000000000000000000000000000) (k v)
    (h : Off M s0 s) : Off M s0 (State.setSlot s k v) := by
  unfold State.setSlot
  with_reducible repeat' first
    | assumption | exact foot_bit hM (by decide) | apply Off.upd_slots

theorem Off.freeSlot (hM : 0x200000000000000000400000000000 &&& M = 0x200000000000000000400000000000) (k)
    (h : Off M s0 s) : Off M s0 (State.freeSlot s k) := by
  unfold State.freeSlot
  with_reducible repeat' first
    | assumption | exact foot_has (by decide) | exact foot_bit hM (by decide) | exact foot_sub hM (by decide)
    | apply Off.setWord0 hM | apply Off.upd_slots

theorem Off.toResult (hM : 0x200000000000000000400000000000 &&& M = 0x200000000000000000400000000000) (n k v)
    (h : Off M s0 s) : Off M s0 (State.toResult s n k v) := by
  unfold State.toResult
  with_reducible repeat' first
    | assumption | exact foot_has (by decide) | exact foot_sub hM (by decide) | apply Off.setSlot | apply Off.put hM
    | apply Off.foldl | intro _ _ _

theorem Off.release (hM : 0x20050021000320000890004000020008010400 &&& M = 0x20050021000320000890004000020008010400) (n v)
    (h : Off M s0 s) : Off M s0 (State.release s n v) := by
  unfold State.release
  with_reducible repeat' first
    | assumption | exact foot_sub hM (by decide) | apply Off.portSend | apply Off.ite | split

theorem Off.settleSlot (hM : 0x20050021200320000890004000420008010400 &&& M = 0x20050021200320000890004000420008010400) (n k)
    (h : Off M s0 s) : Off M s0 (State.settleSlot s n k) := by
  unfold State.settleSlot
  with_reducible repeat' first
    | assumption | exact foot_sub hM (by decide) | apply Off.release | apply Off.freeSlot | apply Off.ite | split

theorem Off.useInvite (hM : 0x2000000000000000000000000000 &&& M = 0x2000000000000000000000000000) (u g q' k)
    (h : Off M s0 s) : Off M s0 (State.useInvite s u g q' k) := by
  unfold State.useInvite
  with_reducible repeat' first
    | assumption | exact foot_bit hM (by decide) | apply Off.ite | split | apply Off.upd_cmds

theorem Off.copyResult (hM : 0x20050021203b20000890004000420008010400 &&& M = 0x20050021203b20000890004000420008010400) (n k out)
    (h : Off M s0 s) : Off M s0 (State.copyResult s n k out) := by
  unfold State.copyResult
  with_reducible repeat' first
    | assumption | exact foot_sub hM (by decide) | apply Off.startMove | apply Off.useInvite | apply Off.settleSlot
    | apply Off.sendTree | apply Off.setSlot | apply Off.ite | split

theorem Off.leftUnit (hM : 0x20050021600320000890004000420008010400 &&& M = 0x20050021600320000890004000420008010400) (m r out p)
    (h : Off M s0 s) : Off M s0 (State.leftUnit s m r out p) := by
  unfold State.leftUnit
  with_reducible repeat' first
    | assumption | exact foot_bit hM (by decide) | exact foot_sub hM (by decide) | apply Off.settleSlot
    | apply Off.setSlot | apply Off.foldl | intro _ _ _ | apply Off.ite | split | apply Off.upd_mcBufs

theorem execArbiterGrant_off {t} (m r out) (e : execArbiterGrant m r out s = .next t) :
    Off 0x20050021601b20000890004000420008010418 s t := by
  have hM : 0x20050021601b20000890004000420008010418 &&& 0x20050021601b20000890004000420008010418 = 0x20050021601b20000890004000420008010418 := Nat.and_self _
  refine live_off (fun s h => ?_) (Off.refl _ s) e
  with_reducible repeat' first
    | assumption | exact foot_sub hM (by decide) | apply Off.leftUnit | apply Off.freeOutput | apply Off.ite | split

theorem Off.toggleGen (hM : 0x2000000000000000000000000000000 &&& M = 0x2000000000000000000000000000000) (u g)
    (h : Off M s0 s) : Off M s0 (State.toggleGen s u g) := by
  unfold State.toggleGen
  with_reducible repeat' first
    | assumption | exact foot_bit hM (by decide) | apply Off.ite | split | apply Off.upd_flushGen

theorem Off.flushPort (hM : 0x20050039000320000890004000820008010400 &&& M = 0x20050039000320000890004000820008010400) (l g q')
    (h : Off M s0 s) : Off M s0 (State.flushPort s l g q') := by
  unfold State.flushPort
  with_reducible repeat' first
    | assumption | exact foot_has (by decide) | exact foot_bit hM (by decide) | exact foot_sub hM (by decide)
    | apply Off.sat hM | apply Off.treeToFibre | apply Off.ite | split | apply Off.upd_fibreHold
    | apply Off.upd_markers | apply Off.upd_awaitMarker

theorem Off.takeMarker (hM : 0x20050039000320000890004000020008010400 &&& M = 0x20050039000320000890004000020008010400) (l g q')
    (h : Off M s0 s) : Off M s0 (State.takeMarker s l g q') := by
  unfold State.takeMarker
  with_reducible repeat' first
    | assumption | exact foot_bit hM (by decide) | exact foot_sub hM (by decide) | apply Off.treeToFibre
    | apply Off.foldl | intro _ _ _ | apply Off.ite | split | apply Off.upd_awaitMarker | apply Off.upd_fibreHold
    | apply Off.upd_markers

theorem Off.flushGroup (hM : 0x2005003f200320000890004000c20008010400 &&& M = 0x2005003f200320000890004000c20008010400) (g q')
    (h : Off M s0 s) : Off M s0 (State.flushGroup s g q') := by
  unfold State.flushGroup
  with_reducible repeat' first
    | assumption | exact foot_bit hM (by decide) | exact foot_sub hM (by decide) | apply Off.freeSlot
    | apply Off.toggleGen | apply Off.flushPort | apply Off.foldl | intro _ _ _ | apply Off.ite | split
    | apply Off.upd_rooms_nodes | apply Off.upd_outWait

theorem Off.screedPortLost (hM : 0x2005002de01b20000890004000420008010400 &&& M = 0x2005002de01b20000890004000420008010400) (l)
    (h : Off M s0 s) : Off M s0 (State.screedPortLost s l) := by
  unfold State.screedPortLost
  with_reducible repeat' first
    | assumption | exact foot_bit hM (by decide) | exact foot_sub hM (by decide) | apply Off.freeSlot
    | apply Off.answerBeyond | apply Off.foldl | intro _ _ _ | apply Off.ite | split
    | apply Off.upd_mcBufs_awaitMarker_fibreHold | apply Off.upd_nodes

theorem Off.memberAnswer (hM : 0x1000320000800000000000000010400 &&& M = 0x1000320000800000000000000010400) (ep p st)
    (h : Off M s0 s) : Off M s0 (State.memberAnswer s ep p st) := by
  unfold State.memberAnswer
  with_reducible repeat' first
    | assumption | exact foot_sub hM (by decide) | apply Off.emit | apply Off.drawn | apply Off.ite | split

theorem Off.doPutMc (hM : 0x100032001c800000000000002010400 &&& M = 0x100032001c800000000000002010400) (ep p)
    (h : Off M s0 s) : Off M s0 (State.doPutMc s ep p) := by
  unfold State.doPutMc
  with_reducible repeat' first
    | assumption | exact foot_sub hM (by decide) | apply Off.writePayload | apply Off.memberAnswer
    | apply Off.signalFlag | apply Off.ite | split

theorem Off.judgeMember (hM : 0x2000000101e32001c89000400002c44f090400 &&& M = 0x2000000101e32001c89000400002c44f090400) (e' p)
    (h : Off M s0 s) : Off M s0 (State.judgeMember s e' p) := by
  unfold State.judgeMember
  with_reducible repeat' first
    | assumption | exact foot_sub hM (by decide) | apply Off.discardHead | apply Off.portEndpoint | apply Off.respond
    | apply Off.memberAnswer | apply Off.countNoOwner | apply Off.doPutMc | apply Off.ite | split

theorem execPutMcArrival_off {t} (ep pkt) (e : execPutMcArrival ep pkt s = .next t) :
    Off 0x2000000101ef6001c89000400002c44f090600 s t := by
  have hM : 0x2000000101ef6001c89000400002c44f090600 &&& 0x2000000101ef6001c89000400002c44f090600 = 0x2000000101ef6001c89000400002c44f090600 := Nat.and_self _
  refine live_off (fun s h => ?_) (Off.refl _ s) e
  with_reducible repeat' first
    | assumption | exact foot_sub hM (by decide) | apply Off.takeIn | apply Off.flow | apply Off.resetDiscard
    | apply Off.judgeMember | apply Off.ite | split

theorem Off.leaveBuffers (hM : 0x1c800000000000000000000 &&& M = 0x1c800000000000000000000) (c r)
    (h : Off M s0 s) : Off M s0 (State.leaveBuffers s c r) := by
  unfold State.leaveBuffers
  with_reducible repeat' first
    | assumption | exact foot_sub hM (by decide) | apply Off.drawn | apply Off.poisonBytes | apply Off.foldl
    | intro _ _ _ | apply Off.ite | split

theorem Off.noteColl (hM : 0x2000000000000000000000000000000000 &&& M = 0x2000000000000000000000000000000000) (c r)
    (h : Off M s0 s) : Off M s0 (State.noteColl s c r) := by
  unfold State.noteColl
  with_reducible repeat' first
    | assumption | exact foot_bit hM (by decide) | apply Off.ite | split | apply Off.upd_lastColls

theorem Off.finishColl (hM : 0x200001610001c800000000000407080000 &&& M = 0x200001610001c800000000000407080000) (c r st)
    (h : Off M s0 s) : Off M s0 (State.finishColl s c r st) := by
  unfold State.finishColl
  with_reducible repeat' first
    | assumption | exact foot_sub hM (by decide) | apply Off.leaveBuffers | apply Off.noteColl | apply Off.complete
    | apply Off.drawn | apply Off.ite | split

theorem Off.leaveSink (hM : 0x1c800000000000000000000 &&& M = 0x1c800000000000000000000) (st g n)
    (h : Off M s0 s) : Off M s0 (State.leaveSink s st g n) := by
  unfold State.leaveSink
  with_reducible repeat' first
    | assumption | exact foot_sub hM (by decide) | apply Off.drawn | apply Off.poisonBytes | apply Off.foldl
    | intro _ _ _ | apply Off.ite | split

theorem Off.noteSink (hM : 0x4000000000000000000000000000000000 &&& M = 0x4000000000000000000000000000000000) (st g q' n)
    (h : Off M s0 s) : Off M s0 (State.noteSink s st g q' n) := by
  unfold State.noteSink
  with_reducible repeat' first
    | assumption | exact foot_bit hM (by decide) | apply Off.ite | split | apply Off.upd_sinkRuns

theorem Off.leaveDone (hM : 0x600000000001c800000000000000000000 &&& M = 0x600000000001c800000000000000000000) (g q')
    (h : Off M s0 s) : Off M s0 (State.leaveDone s g q') := by
  unfold State.leaveDone
  with_reducible repeat' first
    | assumption | exact foot_bit hM (by decide) | exact foot_sub hM (by decide) | apply Off.leaveBuffers
    | apply Off.leaveSink | apply Off.foldl | intro _ _ _ | apply Off.ite | split | apply Off.upd_lastColls_sinkRuns

theorem Off.endAt (hM : 0x200001610001c800000000000407080000 &&& M = 0x200001610001c800000000000407080000) (i g q' st)
    (h : Off M s0 s) : Off M s0 (State.endAt s i g q' st) := by
  unfold State.endAt
  with_reducible repeat' first
    | assumption | exact foot_sub hM (by decide) | apply Off.finishColl | apply Off.foldl | intro _ _ _
    | apply Off.ite | split

theorem Off.noteInput (hM : 0x1000000000000000000060000000000000 &&& M = 0x1000000000000000000060000000000000) (g q key total) (h : Off M s0 s) : Off M s0 (State.noteInput s g q key total) := by
  unfold State.noteInput
  extract_lets a a'
  refine Off.ite h (Off.ite (Off.upd_arrivals (foot_bit hM (by decide)) h) ?_)
  refine Off.sat hM _ _ _ ?_ ?_
  · have : ∀ k : Nat, ([F.TM_SLOWHIST_BIN0, F.TM_SLOWHIST_BIN1, F.TM_SLOWHIST_BIN2, F.TM_SLOWHIST_BIN3].getD k
        F.TM_SLOWHIST_BIN0).reg = .TM_SLOWHIST
      | 0 => rfl
      | 1 => rfl
      | 2 => rfl
      | 3 => rfl
      | _ + 4 => rfl
    rw [this]
    decide
  · with_reducible repeat' first
      | assumption | exact foot_has (by decide) | exact foot_bit hM (by decide) | apply Off.put hM | apply Off.upd_arrivals


theorem Off.noteTreeInput (hM : 0x1000000000000000000060000000000000 &&& M = 0x1000000000000000000060000000000000) (e' g q' key)
    (h : Off M s0 s) : Off M s0 (State.noteTreeInput s e' g q' key) := by
  unfold State.noteTreeInput
  with_reducible repeat' first
    | assumption | exact foot_sub hM (by decide) | apply Off.noteInput | apply Off.ite | split

theorem Off.recordAbort (hM : 0x10000000000000 &&& M = 0x10000000000000) (g q')
    (h : Off M s0 s) : Off M s0 (State.recordAbort s g q') := by
  unfold State.recordAbort
  with_reducible repeat' first
    | assumption | exact foot_has (by decide) | exact foot_sub hM (by decide) | apply Off.put hM

theorem Off.forgetAborts (hM : 0x8000000000000000000000000000000000 &&& M = 0x8000000000000000000000000000000000) (g q')
    (h : Off M s0 s) : Off M s0 (State.forgetAborts s g q') := by
  unfold State.forgetAborts
  with_reducible repeat' first
    | assumption | exact foot_bit hM (by decide) | apply Off.upd_raised

theorem Off.clearPlumb (hM : 0xc0000000000000000010000000000000 &&& M = 0xc0000000000000000010000000000000) (g q')
    (h : Off M s0 s) : Off M s0 (State.clearPlumb s g q') := by
  unfold State.clearPlumb
  with_reducible repeat' first
    | assumption | exact foot_has (by decide) | exact foot_bit hM (by decide) | exact foot_sub hM (by decide)
    | apply Off.put hM | apply Off.ite | split | apply Off.upd_plumb_copies

theorem Off.armEnded (hM : 0x6000000000000000000040000000000000000 &&& M = 0x6000000000000000000040000000000000000) (g q' st)
    (h : Off M s0 s) : Off M s0 (State.armEnded s g q' st) := by
  unfold State.armEnded
  with_reducible repeat' first
    | assumption | exact foot_has (by decide) | exact foot_bit hM (by decide) | exact foot_sub hM (by decide)
    | apply Off.put hM | apply Off.endAll | apply Off.ite | split | apply Off.upd_epochCtl

theorem Off.plumbSend (hM : 0x100000000000000000000000000000000 &&& M = 0x100000000000000000000000000000000) (src dst m)
    (h : Off M s0 s) : Off M s0 (State.plumbSend s src dst m) := by
  unfold State.plumbSend
  with_reducible repeat' first
    | assumption | exact foot_bit hM (by decide) | apply Off.upd_plumbOut

theorem Off.plumbTake (hM : 0x100000000000000000000000000000000 &&& M = 0x100000000000000000000000000000000) (src dst m)
    (h : Off M s0 s) : Off M s0 (State.plumbTake s src dst m) := by
  unfold State.plumbTake
  with_reducible repeat' first
    | assumption | exact foot_bit hM (by decide) | apply Off.upd_plumbOut

theorem Off.plumbCopies (hM : 0x100000000000000000000000000000000 &&& M = 0x100000000000000000000000000000000) (dst m)
    (h : Off M s0 s) : Off M s0 (State.plumbCopies s dst m) := by
  unfold State.plumbCopies
  with_reducible repeat' first
    | assumption | exact foot_sub hM (by decide) | apply Off.plumbSend | apply Off.foldl | intro _ _ _

theorem Off.toPort (hM : 0x100000000000000000000000000000000 &&& M = 0x100000000000000000000000000000000) (l m)
    (h : Off M s0 s) : Off M s0 (State.toPort s l m) := by
  unfold State.toPort
  with_reducible repeat' first
    | assumption | exact foot_sub hM (by decide) | apply Off.plumbCopies | apply Off.ite | split

theorem Off.takeStage (hM : 0x20000000000000000000000200 &&& M = 0x20000000000000000000000200) (n m)
    (h : Off M s0 s) : Off M s0 (State.takeStage s n m) := by
  unfold State.takeStage
  with_reducible repeat' first
    | assumption | exact foot_sub hM (by decide) | apply Off.popFifo | apply Off.ite | split

theorem Off.memberTakes (hM : 0x200001610001c800000000000407080000 &&& M = 0x200001610001c800000000000407080000) (i m)
    (h : Off M s0 s) : Off M s0 (State.memberTakes s i m) := by
  unfold State.memberTakes
  with_reducible repeat' first
    | assumption | exact foot_sub hM (by decide) | apply Off.endAt | apply Off.finishColl | apply Off.writeBytes
    | apply Off.ite | split | dsimp only

theorem Off.drainPlumb (hM : 0x200001612001c800000000000407080200 &&& M = 0x200001612001c800000000000407080200) (i n1)
    (h : Off M s0 s) : Off M s0 (State.drainPlumb s i n1) := by
  induction n1 generalizing i s with
  | zero => exact h
  | succ k ih =>
    unfold State.drainPlumb
    with_reducible repeat' first
      | assumption | exact foot_sub hM (by decide) | apply Off.memberTakes | apply Off.popFifo | apply ih
      | apply Off.ite | split

theorem Off.holdPlumb (hM : 0x200000000000000000000000000000400 &&& M = 0x200000000000000000000000000000400) (n)
    (h : Off M s0 s) : Off M s0 (State.holdPlumb s n) := by
  unfold State.holdPlumb
  with_reducible repeat' first
    | assumption | exact foot_has (by decide) | exact foot_bit hM (by decide) | exact foot_sub hM (by decide)
    | apply Off.put hM | apply Off.upd_plumbHeld

theorem Off.unholdPlumb (hM : 0x200000000000000000000000000000400 &&& M = 0x200000000000000000000000000000400) (n)
    (h : Off M s0 s) : Off M s0 (State.unholdPlumb s n) := by
  unfold State.unholdPlumb
  with_reducible repeat' first
    | assumption | exact foot_has (by decide) | exact foot_bit hM (by decide) | exact foot_sub hM (by decide)
    | apply Off.put hM | apply Off.upd_plumbHeld

theorem Off.admitMember (hM : 0x200001612001c800000000000407080600 &&& M = 0x200001612001c800000000000407080600) (i m)
    (h : Off M s0 s) : Off M s0 (State.admitMember s i m) := by
  unfold State.admitMember
  with_reducible repeat' first
    | assumption | exact foot_has (by decide) | exact foot_sub hM (by decide) | apply Off.sat hM
    | apply Off.drainPlumb | apply Off.pushFifo | apply Off.ite | split

theorem Off.toMember (hM : 0x230001612001c800000000000407080600 &&& M = 0x230001612001c800000000000407080600) (i m)
    (h : Off M s0 s) : Off M s0 (State.toMember s i m) := by
  unfold State.toMember
  with_reducible repeat' first
    | assumption | exact foot_sub hM (by decide) | apply Off.plumbSend | apply Off.holdPlumb | apply Off.admitMember
    | apply Off.ite | split

theorem Off.toAlorn (hM : 0x300000020000000000000000000000400 &&& M = 0x300000020000000000000000000000400) (m)
    (h : Off M s0 s) : Off M s0 (State.toAlorn s m) := by
  unfold State.toAlorn
  with_reducible repeat' first
    | assumption | exact foot_sub hM (by decide) | apply Off.plumbSend | apply Off.holdPlumb | apply Off.pushFifo
    | apply Off.ite | split

theorem Off.fromAlorn (hM : 0x100000020000000000000000000000400 &&& M = 0x100000020000000000000000000000400) (m)
    (h : Off M s0 s) : Off M s0 (State.fromAlorn s m) := by
  unfold State.fromAlorn
  with_reducible repeat' first
    | assumption | exact foot_sub hM (by decide) | apply Off.plumbSend | apply Off.pushFifo | apply Off.ite | split

theorem Off.spreadOne (hM : 0x260573ff21632001c890044010c2040f090600 &&& M = 0x260573ff21632001c890044010c2040f090600) (g q' st src)
    (h : Off M s0 s) : Off M s0 (State.spreadOne s g q' st src) := by
  unfold State.spreadOne
  with_reducible repeat' first
    | assumption | exact foot_has (by decide) | exact foot_bit hM (by decide) | exact foot_sub hM (by decide)
    | apply Off.recordAbort | apply Off.put hM | apply Off.clearPlumb | apply Off.toPort | apply Off.flushGroup
    | apply Off.leaveDone | apply Off.armEnded | apply Off.toMember | apply Off.foldl | intro _ _ _ | apply Off.ite
    | split | apply Off.upd_arrivals

theorem Off.spreadAbort (hM : 0x260573ff21632001c890044010c2040f090600 &&& M = 0x260573ff21632001c890044010c2040f090600) (g q' st src)
    (h : Off M s0 s) : Off M s0 (State.spreadAbort s g q' st src) := by
  unfold State.spreadAbort
  with_reducible repeat' first
    | assumption | exact foot_sub hM (by decide) | apply Off.spreadOne | apply Off.foldl | intro _ _ _ | apply Off.ite
    | split

theorem Off.raiseAbort (hM : 0x2605f3ff21632001c890044090c2040f090600 &&& M = 0x2605f3ff21632001c890044090c2040f090600) (agent g q' st cause)
    (h : Off M s0 s) : Off M s0 (State.raiseAbort s agent g q' st cause) := by
  unfold State.raiseAbort
  with_reducible repeat' first
    | assumption | exact foot_has (by decide) | exact foot_bit hM (by decide) | exact foot_sub hM (by decide)
    | apply Off.event | apply Off.sat hM | apply Off.spreadAbort | apply Off.ite | split | apply Off.upd_raised

theorem Off.abortColl (hM : 0x2605f3ff21632001c890044090c2040f090600 &&& M = 0x2605f3ff21632001c890044090c2040f090600) (c st cause)
    (h : Off M s0 s) : Off M s0 (State.abortColl s c st cause) := by
  unfold State.abortColl
  with_reducible repeat' first
    | assumption | exact foot_sub hM (by decide) | apply Off.raiseAbort | apply Off.finishColl | apply Off.ite | split

theorem Off.takeInput (hM : 0x100000020000000000000000000000200 &&& M = 0x100000020000000000000000000000200) (src m)
    (h : Off M s0 s) : Off M s0 (State.takeInput s src m) := by
  unfold State.takeInput
  with_reducible repeat' first
    | assumption | exact foot_sub hM (by decide) | apply Off.plumbTake | apply Off.takeStage | apply Off.ite | split

theorem execAbort_off {t} (src m) (e : execAbort src m s = .next t) :
    Off 0x260573ff21632001c890044010c2c40f090600 s t := by
  have hM : 0x260573ff21632001c890044010c2c40f090600 &&& 0x260573ff21632001c890044010c2c40f090600 = 0x260573ff21632001c890044010c2c40f090600 := Nat.and_self _
  refine live_off (fun s h => ?_) (Off.refl _ s) e
  with_reducible repeat' first
    | assumption | exact foot_sub hM (by decide) | apply Off.takeInput | apply Off.flow | apply Off.spreadAbort
    | apply Off.ite | split

theorem Off.sendChunks (hM : 0x2100000000000000000000000000 &&& M = 0x2100000000000000000000000000) (c r n2)
    (h : Off M s0 s) : Off M s0 (State.sendChunks s c r n2) := by
  induction n2 generalizing c r s with
  | zero => exact h
  | succ k ih =>
    unfold State.sendChunks
    with_reducible repeat' first
      | assumption | exact foot_sub hM (by decide) | apply Off.enqueue | apply Off.setCmd | apply ih | apply Off.ite
      | split

theorem Off.feedRoom (hM : 0x2100000000000000000000000000 &&& M = 0x2100000000000000000000000000) (i k n2)
    (h : Off M s0 s) : Off M s0 (State.feedRoom s i k n2) := by
  induction n2 generalizing i k s with
  | zero => exact h
  | succ k ih =>
    unfold State.feedRoom
    with_reducible repeat' first
      | assumption | exact foot_sub hM (by decide) | apply Off.sendChunks | apply ih | apply Off.ite | split

theorem Off.feed (hM : 0x2100000000000000000000000000 &&& M = 0x2100000000000000000000000000) (i)
    (h : Off M s0 s) : Off M s0 (State.feed s i) := by
  unfold State.feed
  with_reducible repeat' first
    | assumption | exact foot_sub hM (by decide) | apply Off.feedRoom | apply Off.foldl | intro _ _ _ | apply Off.ite
    | split

end Sys2Proof.Machine
end

