-- ==== Sys2Proof/Laws/FramePorts.lean ====
section
/-! SUPPORT. What every operation may change, one lemma per operation, by footprint (Laws/Frame.lean): keying, epochs, pools, Screed, Plumb and the optical ports. -/

namespace Sys2Proof.Machine

variable {M L : Nat} {s0 s : State}

theorem Off.countFreed (hM : 0x10000000000000000000000000000000000 &&& M = 0x10000000000000000000000000000000000) (p k n)
    (h : Off M s0 s) : Off M s0 (State.countFreed s p k n) := by
  unfold State.countFreed
  with_reducible repeat' first
    | assumption | exact foot_sub hM (by decide) | apply Off.modPort | apply Off.ite | split

theorem Off.freeParcels (hM : 0x10000000000000000000000000000020000 &&& M = 0x10000000000000000000000000000020000) (p vl res shared account entry)
    (h : Off M s0 s) : Off M s0 (State.freeParcels s p vl res shared account entry) := by
  unfold State.freeParcels
  with_reducible repeat' first
    | assumption | exact foot_has (by decide) | exact foot_sub hM (by decide) | apply Off.countFreed
    | apply Off.put hM | apply Off.ite | split

theorem Off.freePooled (hM : 0x10000000000000000000000000000020000 &&& M = 0x10000000000000000000000000000020000) (p e')
    (h : Off M s0 s) : Off M s0 (State.freePooled s p e') := by
  unfold State.freePooled
  with_reducible repeat' first
    | assumption | exact foot_sub hM (by decide) | apply Off.freeParcels

theorem Off.dropTree (hM : 0x10000000820000000000000000000020200 &&& M = 0x10000000820000000000000000000020200) (u inp pkt)
    (h : Off M s0 s) : Off M s0 (State.dropTree s u inp pkt) := by
  unfold State.dropTree
  with_reducible repeat' first
    | assumption | exact foot_sub hM (by decide) | apply Off.passTail | apply Off.popFifo | apply Off.freePooled
    | apply Off.modPort | apply Off.ite | split | dsimp only

theorem Off.screedHead (hM : 0x20000000000000000080000000800000000000 &&& M = 0x20000000000000000080000000800000000000) (e' u pkt)
    (h : Off M s0 s) : Off M s0 (State.screedHead s e' u pkt) := by
  unfold State.screedHead
  with_reducible repeat' first
    | assumption | exact foot_has (by decide) | exact foot_sub hM (by decide) | apply Off.headEvent | apply Off.sat hM

theorem Off.markSlot (hM : 0x400000000000 &&& M = 0x400000000000) (n key q' k state input)
    (h : Off M s0 s) : Off M s0 (State.markSlot s n key q' k state input) := by
  unfold State.markSlot
  with_reducible repeat' first
    | assumption | exact foot_has (by decide) | exact foot_sub hM (by decide) | apply Off.put hM

theorem Off.takeDown (hM : 0x20050025200320000890004010420008010400 &&& M = 0x20050025200320000890004010420008010400) {n p t} (h : Off M s0 s) (e : State.takeDown s n p = some t) : Off M s0 t := by
  unfold State.takeDown at e
  dsimp only at e
  have h1 := Off.put hM F.PL_GROUPSTATE_SEQ n.group (pget p H.SEQ) (by decide) h
  split at e
  · contradiction
  · split at e
    · rw [← Option.some.inj e]
      exact Off.settleSlot (foot_sub hM (by decide)) _ _ (Off.toResult (foot_sub hM (by decide)) _ _ _ h1)
    · split at e
      · rw [← Option.some.inj e]
        exact Off.settleSlot (foot_sub hM (by decide)) _ _ (Off.toResult (foot_sub hM (by decide)) _ _ _ (Off.markSlot (foot_sub hM (by decide)) _ _ _ _ _ _ (Off.countMove (foot_sub hM (by decide)) _ (Off.setRun (foot_sub hM (by decide)) _ _ h1))))
      · contradiction


theorem Off.takeRelease (hM : 0x200000000000000000400000000000 &&& M = 0x200000000000000000400000000000) {n p t} (h : Off M s0 s) (e : State.takeRelease s n p = some t) : Off M s0 t := by
  unfold State.takeRelease at e
  split at e
  · contradiction
  · split at e
    · rw [← Option.some.inj e]
      exact Off.freeSlot (foot_sub hM (by decide)) _ h
    · contradiction


theorem Off.enterNode (hM : 0x20050025e01b20000890004010420008010400 &&& M = 0x20050025e01b20000890004010420008010400) {n inp p t} (h : Off M s0 s) (e : State.enterNode s n inp p = some t) : Off M s0 t := by
  unfold State.enterNode at e
  dsimp only at e
  split at e
  · split at e
    · contradiction
    · split at e
      · rw [← Option.some.inj e]
        exact Off.ite (Off.forkCopy (foot_sub hM (by decide)) _ _ (Off.takeMulticast (foot_sub hM (by decide)) _ _ h)) (Off.takeMulticast (foot_sub hM (by decide)) _ _ h)
      · contradiction
  · split at e
    · split at e
      · exact Off.takeDown (foot_sub hM (by decide)) h e
      · contradiction
    · split at e
      · exact Off.takeRelease (foot_sub hM (by decide)) h e
      · contradiction


theorem Off.treeArrive (hM : 0x2605f3ffe17b2001c890044090c2040f0b0600 &&& M = 0x2605f3ffe17b2001c890044090c2040f0b0600) {u inp p t} (h : Off M s0 s) (e : State.treeArrive s u inp p = some t) : Off M s0 t := by
  have hd := Off.dropTree (foot_sub hM (by decide)) u inp p h
  unfold State.treeArrive at e
  dsimp only at e
  split at e
  · contradiction
  split at e
  · rw [← Option.some.inj e]; exact Off.screedHead (foot_sub hM (by decide)) _ _ _ hd
  split at e
  · rw [← Option.some.inj e]; exact Off.screedHead (foot_sub hM (by decide)) _ _ _ hd
  split at e
  · contradiction
  split at e
  · rw [← Option.some.inj e]; exact Off.noEntry (foot_sub hM (by decide)) _ _ hd
  split at e
  · rw [← Option.some.inj e]; exact Off.takeMarker (foot_sub hM (by decide)) _ _ _ hd
  split at e
  · rw [← Option.some.inj e]; exact Off.sat hM _ _ _ (by decide) hd
  split at e
  · rw [← Option.some.inj e]; exact Off.raiseAbort (foot_sub hM (by decide)) _ _ _ _ _ hd
  split at e
  · contradiction
  · exact Off.enterNode (foot_sub hM (by decide)) hd e


theorem Off.noteEntry (hM : 0x1000000000000000000060000000000000 &&& M = 0x1000000000000000000060000000000000) (u inp p)
    (h : Off M s0 s) : Off M s0 (State.noteEntry s u inp p) := by
  unfold State.noteEntry
  with_reducible repeat' first
    | assumption | exact foot_sub hM (by decide) | apply Off.noteTreeInput | apply Off.ite | split | dsimp only

theorem execTreePacketArrival_off {t} (u inp pkt) (e : execTreePacketArrival u inp pkt s = .next t) :
    Off 0x2605f3ffe17b2001c8900440f0c2c40f0b0600 s t := by
  have hM : 0x2605f3ffe17b2001c8900440f0c2c40f0b0600 &&& 0x2605f3ffe17b2001c8900440f0c2c40f0b0600 = 0x2605f3ffe17b2001c8900440f0c2c40f0b0600 := Nat.and_self _
  refine live_off (fun s h => ?_) (Off.refl _ s) e
  with_reducible repeat' first
    | assumption | exact foot_sub hM (by decide) | refine Off.treeArrive ?_ ?_ (by assumption) | apply Off.flow
    | apply Off.noteEntry | apply Off.ite | split

theorem Off.orderFault (hM : 0x2605f3ff21632001c890044090c2040f090600 &&& M = 0x2605f3ff21632001c890044090c2040f090600) (n key k pos field p)
    (h : Off M s0 s) : Off M s0 (State.orderFault s n key k pos field p) := by
  unfold State.orderFault
  with_reducible repeat' first
    | assumption | exact foot_has (by decide) | exact foot_sub hM (by decide) | apply Off.event | apply Off.sat hM
    | apply Off.put hM | apply Off.setRun | apply Off.raiseAbort | apply Off.ite | split

theorem Off.residueOne (hM : 0x20000000000000000080000000800000000000 &&& M = 0x20000000000000000080000000800000000000) (n q' k fmt count bad r)
    (h : Off M s0 s) : Off M s0 (State.residueOne s n q' k fmt count bad r).2 := by
  unfold State.residueOne
  with_reducible repeat' first
    | assumption | exact foot_has (by decide) | exact foot_sub hM (by decide) | apply Off.sat hM | apply Off.event
    | apply Off.ite_snd | split

theorem Off.residueOne_eq (hM : 0x20000000000000000080000000800000000000 &&& M = 0x20000000000000000080000000800000000000) {n} {q'} {k} {fmt} {count} {bad} {r} {x t}
    (h : Off M s0 s) (e : State.residueOne s n q' k fmt count bad r = (x, t)) : Off M s0 t := by
  have k := Off.residueOne hM n q' k fmt count bad r h
  rwa [e] at k

theorem Off.residue (hM : 0x20000000000000000080000000800000000000 &&& M = 0x20000000000000000080000000800000000000) (n q' k fmt count bad l)
    (h : Off M s0 s) : Off M s0 (State.residue s n q' k fmt count bad l).2 := by
  unfold State.residue
  induction l generalizing s bad with
  | nil => exact h
  | cons r l ih => exact ih _ (Off.residueOne (foot_sub hM (by decide)) n q' k fmt count bad r h)


theorem Off.foldInput (hM : 0x20000000200000000080000000c00000000000 &&& M = 0x20000000200000000080000000c00000000000) (n key k pos p r)
    (h : Off M s0 s) : Off M s0 (State.foldInput s n key k pos p r) := by
  unfold State.foldInput
  with_reducible repeat' first
    | assumption | exact foot_has (by decide) | exact foot_sub hM (by decide) | apply Off.setSlot
    | refine Off.residue_eq ?_ ?_ (by assumption) | apply Off.residue | apply Off.put hM | apply Off.ite | split

theorem Off.sendSum (hM : 0x20050021001b20000890004000420008010400 &&& M = 0x20050021001b20000890004000420008010400) (n key)
    (h : Off M s0 s) : Off M s0 (State.sendSum s n key) := by
  unfold State.sendSum
  with_reducible repeat' first
    | assumption | exact foot_has (by decide) | exact foot_sub hM (by decide) | apply Off.startMove
    | apply Off.sendTree | apply Off.put hM | apply Off.ite | split

theorem Off.sendSums (hM : 0x20050021001b20000890004000420008010400 &&& M = 0x20050021001b20000890004000420008010400) (n)
    (h : Off M s0 s) : Off M s0 (State.sendSums s n) := by
  unfold State.sendSums
  with_reducible repeat' first
    | assumption | exact foot_sub hM (by decide) | apply Off.sendSum | apply Off.foldl | intro _ _ _

theorem Off.rootResult (hM : 0x20050021200320000890004000420008010400 &&& M = 0x20050021200320000890004000420008010400) (n key)
    (h : Off M s0 s) : Off M s0 (State.rootResult s n key) := by
  unfold State.rootResult
  with_reducible repeat' first
    | assumption | exact foot_sub hM (by decide) | apply Off.settleSlot | apply Off.toResult | apply Off.ite | split

theorem Off.advanceNode (hM : 0x4000000000000000000000000000000 &&& M = 0x4000000000000000000000000000000) (n k pos p)
    (h : Off M s0 s) : Off M s0 (State.advanceNode s n k pos p) := by
  unfold State.advanceNode
  with_reducible repeat' first
    | assumption | exact foot_sub hM (by decide) | apply Off.setRun | apply Off.ite | split

theorem Off.acceptInput (hM : 0x20051025201b20000890004070c20008010400 &&& M = 0x20051025201b20000890004070c20008010400) (n key k pos inp p r)
    (h : Off M s0 s) : Off M s0 (State.acceptInput s n key k pos inp p r) := by
  unfold State.acceptInput
  with_reducible repeat' first
    | assumption | exact foot_has (by decide) | exact foot_sub hM (by decide) | apply Off.countMove | apply Off.put hM
    | apply Off.noteTreeInput | apply Off.markSlot | apply Off.foldInput | apply Off.advanceNode
    | apply Off.rootResult | apply Off.sendSums | apply Off.ite | split

theorem Off.stallSlot (hM : 0x2605f3ff21632001c890044090c2040f090600 &&& M = 0x2605f3ff21632001c890044090c2040f090600) (key)
    (h : Off M s0 s) : Off M s0 (State.stallSlot s key) := by
  unfold State.stallSlot
  with_reducible repeat' first
    | assumption | exact foot_sub hM (by decide) | apply Off.raiseAbort | apply Off.ite | split

theorem Off.stallSlots (hM : 0x2605f3ff21632001c890044090c2040f090600 &&& M = 0x2605f3ff21632001c890044090c2040f090600)
    (h : Off M s0 s) : Off M s0 (State.stallSlots s) := by
  unfold State.stallSlots
  with_reducible repeat' first
    | assumption | exact foot_sub hM (by decide) | apply Off.stallSlot | apply Off.foldl | intro _ _ _

theorem Off.contribute (hM : 0x2605f3ff217b2001c8900440f0c2040f0b0600 &&& M = 0x2605f3ff217b2001c8900440f0c2040f0b0600) (u inp p r)
    (h : Off M s0 s) : Off M s0 (State.contribute s u inp p r) := by
  unfold State.contribute
  with_reducible repeat' first
    | assumption | exact foot_sub hM (by decide) | apply Off.dropTree | apply Off.orderFault | apply Off.stallSlot
    | apply Off.acceptInput | apply Off.ite | split | dsimp only

theorem execContributionTaken_off {t} (u inp pkt res) (e : execContributionTaken u inp pkt res s = .next t) :
    Off 0x2605f3ff217b2001c8900440f0c2c40f0b0600 s t := by
  have hM : 0x2605f3ff217b2001c8900440f0c2c40f0b0600 &&& 0x2605f3ff217b2001c8900440f0c2c40f0b0600 = 0x2605f3ff217b2001c8900440f0c2c40f0b0600 := Nat.and_self _
  refine live_off (fun s h => ?_) (Off.refl _ s) e
  with_reducible repeat' first
    | assumption | exact foot_sub hM (by decide) | apply Off.flow | apply Off.contribute | apply Off.ite | split

theorem Off.roomArrive (hM : 0x20050021c01b20000890004000420008010400 &&& M = 0x20050021c01b20000890004000420008010400) (u edge g k e' count gen)
    (h : Off M s0 s) : Off M s0 (State.roomArrive s u edge g k e' count gen) := by
  unfold State.roomArrive
  with_reducible repeat' first
    | assumption | exact foot_sub hM (by decide) | apply Off.setRoom | apply Off.sendSums | apply Off.forkCopy
    | apply Off.foldl | intro _ _ _ | apply Off.ite | split

theorem execRoomCountArrival_off {t} (u edge group kind epoch count gen) (e : execRoomCountArrival u edge group kind epoch count gen s = .next t) :
    Off 0x20050021c17b2001c89000400042c40f090400 s t := by
  have hM : 0x20050021c17b2001c89000400042c40f090400 &&& 0x20050021c17b2001c89000400042c40f090400 = 0x20050021c17b2001c89000400042c40f090400 := Nat.and_self _
  refine live_off (fun s h => ?_) (Off.refl _ s) e
  with_reducible repeat' first
    | assumption | exact foot_sub hM (by decide) | apply Off.roomArrive | apply Off.flow | apply Off.feed
    | apply Off.ite | split

theorem execForkCopy_off {t} (u buf) (e : execForkCopy u buf s = .next t) :
    Off 0x20050021c17b2001c89000400002c40f090400 s t := by
  have hM : 0x20050021c17b2001c89000400002c40f090400 &&& 0x20050021c17b2001c89000400002c40f090400 = 0x20050021c17b2001c89000400002c40f090400 := Nat.and_self _
  refine live_off (fun s h => ?_) (Off.refl _ s) e
  with_reducible repeat' first
    | assumption | exact foot_sub hM (by decide) | apply Off.flow | apply Off.forkCopy | apply Off.ite | split
    | dsimp only

theorem execMergeAnswerArrival_off {t} (u out pkt) (e : execMergeAnswerArrival u out pkt s = .next t) :
    Off 0x20050021817b2001c89000400082c40f0b0600 s t := by
  have hM : 0x20050021817b2001c89000400082c40f0b0600 &&& 0x20050021817b2001c89000400082c40f0b0600 = 0x20050021817b2001c89000400082c40f0b0600 := Nat.and_self _
  refine live_off (fun s h => ?_) (Off.refl _ s) e
  with_reducible repeat' first
    | assumption | exact foot_sub hM (by decide) | apply Off.flow | apply Off.takeAnswerAt | apply Off.dropTree
    | apply Off.ite | split

theorem execMergeTimeout_off {t} (u entry) (e : execMergeTimeout u entry s = .next t) :
    Off 0x20000000800000000080000000800000000000 s t := by
  have hM : 0x20000000800000000080000000800000000000 &&& 0x20000000800000000080000000800000000000 = 0x20000000800000000080000000800000000000 := Nat.and_self _
  refine live_off (fun s h => ?_) (Off.refl _ s) e
  with_reducible repeat' first
    | assumption | exact foot_has (by decide) | exact foot_bit hM (by decide) | exact foot_sub hM (by decide)
    | apply Off.event | apply Off.sat hM | apply Off.ite | split | apply Off.upd_merges

theorem execResultCopy_off {t} (u slot out) (e : execResultCopy u slot out s = .next t) :
    Off 0x20050021217b2001c89000400042c40f090400 s t := by
  have hM : 0x20050021217b2001c89000400042c40f090400 &&& 0x20050021217b2001c89000400042c40f090400 = 0x20050021217b2001c89000400042c40f090400 := Nat.and_self _
  refine live_off (fun s h => ?_) (Off.refl _ s) e
  with_reducible repeat' first
    | assumption | exact foot_sub hM (by decide) | apply Off.flow | apply Off.copyResult | apply Off.ite | split

theorem Off.control (hM : 0x10000000000000000000000000000000000 &&& M = 0x10000000000000000000000000000000000) (p m)
    (h : Off M s0 s) : Off M s0 (State.control s p m) := by
  unfold State.control
  with_reducible repeat' first
    | assumption | exact foot_sub hM (by decide) | apply Off.modPort

theorem Off.corruptSlot (hM : 0x30000000000000000080000000000000000000 &&& M = 0x30000000000000000080000000000000000000) (k)
    (h : Off M s0 s) : Off M s0 (State.corruptSlot s k) := by
  unfold State.corruptSlot
  with_reducible repeat' first
    | assumption | exact foot_bit hM (by decide) | exact foot_sub hM (by decide) | apply Off.event | apply Off.ite
    | split | apply Off.upd_sealStore

theorem Off.useSlot (hM : 0x30000000000000000880000000000000000000 &&& M = 0x30000000000000000880000000000000000000) (k)
    (h : Off M s0 s) : Off M s0 (State.useSlot s k) := by
  unfold State.useSlot
  with_reducible repeat' first
    | assumption | exact foot_sub hM (by decide) | apply Off.drawn | apply Off.corruptSlot | apply Off.ite | split

theorem Off.showAdmit (hM : 0x100000000000000 &&& M = 0x100000000000000) (p)
    (h : Off M s0 s) : Off M s0 (State.showAdmit s p) := by
  unfold State.showAdmit
  with_reducible repeat' first
    | assumption | exact foot_has (by decide) | exact foot_sub hM (by decide) | apply Off.put hM

theorem Off.judgeOffer (hM : 0x20000000000000000080000900000000000000 &&& M = 0x20000000000000000080000900000000000000) (p o)
    (h : Off M s0 s) : Off M s0 (State.judgeOffer s p o) := by
  unfold State.judgeOffer
  with_reducible repeat' first
    | assumption | exact foot_has (by decide) | exact foot_sub hM (by decide) | apply Off.put hM | apply Off.showAdmit
    | apply Off.event | apply Off.ite | split

theorem Off.sendProbes (hM : 0x10000000000000000000000000000000000 &&& M = 0x10000000000000000000000000000000000) (p)
    (h : Off M s0 s) : Off M s0 (State.sendProbes s p) := by
  unfold State.sendProbes
  with_reducible repeat' first
    | assumption | exact foot_sub hM (by decide) | apply Off.control | apply Off.modPort | apply Off.foldl
    | intro _ _ _

theorem Off.sendOffer (hM : 0x30010000000000000880000000000000000000 &&& M = 0x30010000000000000880000000000000000000) (p)
    (h : Off M s0 s) : Off M s0 (State.sendOffer s p) := by
  unfold State.sendOffer
  with_reducible repeat' first
    | assumption | exact foot_sub hM (by decide) | apply Off.useSlot | apply Off.drawn | apply Off.control
    | apply Off.modPort

theorem Off.startKeying (hM : 0x30010000000000000880001900000000000000 &&& M = 0x30010000000000000880001900000000000000) (p rerun)
    (h : Off M s0 s) : Off M s0 (State.startKeying s p rerun) := by
  unfold State.startKeying
  with_reducible repeat' first
    | assumption | exact foot_has (by decide) | exact foot_sub hM (by decide) | apply Off.modPort
    | apply Off.sendProbes | apply Off.sendOffer | apply Off.judgeOffer | apply Off.put hM | apply Off.ite | split
    | dsimp only

theorem Off.deriveKeys (hM : 0x10000000000000000000000000000000000 &&& M = 0x10000000000000000000000000000000000) (p)
    (h : Off M s0 s) : Off M s0 (State.deriveKeys s p) := by
  unfold State.deriveKeys
  with_reducible repeat' first
    | assumption | exact foot_sub hM (by decide) | apply Off.modPort | apply Off.ite | split | dsimp only

theorem Off.startSeq (hM : 0x10000000000000000008000000000020000 &&& M = 0x10000000000000000008000000000020000) (p o)
    (h : Off M s0 s) : Off M s0 (State.startSeq s p o) := by
  unfold State.startSeq
  with_reducible repeat' first
    | assumption | exact foot_has (by decide) | exact foot_sub hM (by decide) | apply Off.modPort
    | apply Off.setWord0 hM | apply Off.put hM | apply Off.foldl | intro _ _ _ | apply Off.ite | split

theorem Off.cableSwap (hM : 0x20010000000000000080000000000000000000 &&& M = 0x20010000000000000080000000000000000000) (p)
    (h : Off M s0 s) : Off M s0 (State.cableSwap s p) := by
  unfold State.cableSwap
  with_reducible repeat' first
    | assumption | exact foot_sub hM (by decide) | apply Off.modPort | apply Off.event | apply Off.ite | split
    | dsimp only

theorem Off.repeatKeying (hM : 0x30010000000000000880001900000000000000 &&& M = 0x30010000000000000880001900000000000000)
    (h : Off M s0 s) : Off M s0 (State.repeatKeying s) := by
  unfold State.repeatKeying
  with_reducible repeat' first
    | assumption | exact foot_sub hM (by decide) | apply Off.startKeying | apply Off.foldl | intro _ _ _
    | apply Off.ite | split

theorem epochKey_bit {k : Nat} (h : epochKey k = true) (r : Reg) (hr : r.num = k % 256 / 2) : (0x40f3c000002f006 : Nat).testBit r.num = true := by
  have : ∀ a b : Reg, (b.num == a.num && decide (b.info.cls = .epoch)) = true → (0x40f3c000002f006 : Nat).testBit a.num = true := by
    intro a b e
    rw [Bool.and_eq_true, beq_iff_eq, decide_eq_true_eq] at e
    rw [← e.1]
    cases b <;> first | decide | (exact absurd e.2 (by decide))
  unfold epochKey at h
  rw [List.any_eq_true] at h
  obtain ⟨b, _, hb⟩ := h
  exact this r b (by rw [hr]; simpa using hb)

theorem Off.copyRegs (hM : 0x40f3c000002f006 &&& M = 0x40f3c000002f006) (src d) (h : Off M s0 s) : Off M s0 (State.copyRegs s src (1 - d)) := by
  unfold State.copyRegs
  dsimp only
  have hk : ∀ k ∈ (s.regs.filter (fun e => epochKey e.1)).map (fun e => e.1 - e.1 % 2),
      ∀ r n b, b < 2 → M.testBit (Reg.num r) = false → regKey r n b ≠ k + (1 - d) := by
    intro k hkm r n b hb hr e
    obtain ⟨x, hx, rfl⟩ := List.mem_map.1 hkm
    have he := (List.mem_filter.1 hx).2
    have hl := Reg.num_lt r
    have hn : r.num = x.1 % 256 / 2 := by unfold regKey at e; omega
    have := foot_bit hM (epochKey_bit he r hn)
    rw [hr] at this
    contradiction
  generalize (s.regs.filter (fun e => epochKey e.1)).map (fun e => e.1 - e.1 % 2) = ks at hk
  induction ks generalizing s with
  | nil => exact h
  | cons k ks ih =>
    rw [List.foldl_cons]
    refine ih ?_ (fun k' hk' => hk k' (List.mem_cons_of_mem _ hk'))
    refine ⟨fun r n b hb hr => ?_, fun x hx => ?_⟩
    · rw [← h.words r n b hb hr]
      show (lookup (assign s.regs _ _ _) _).getD _ = _
      rw [lookup_assign_ne _ _ _ _ _ (hk k List.mem_cons_self r n b hb hr)]
      rfl
    · have := h.stores x hx
      cases x <;> exact this


theorem Off.cleanShadow (hM : 0x38000000000000000004040f3c000002f006 &&& M = 0x38000000000000000004040f3c000002f006)
    (h : Off M s0 s) : Off M s0 (State.cleanShadow s) := by
  unfold State.cleanShadow
  with_reducible repeat' first
    | assumption | exact foot_has (by decide) | exact foot_bit hM (by decide) | exact foot_sub hM (by decide)
    | apply Off.copyRegs | apply Off.put hM | apply Off.upd_tune_planKeys_guard

theorem Off.retireBank (hM : 0x2638000000000000008004040f3c000002f006 &&& M = 0x2638000000000000008004040f3c000002f006)
    (h : Off M s0 s) : Off M s0 (State.retireBank s) := by
  unfold State.retireBank
  with_reducible repeat' first
    | assumption | exact foot_bit hM (by decide) | exact foot_sub hM (by decide) | apply Off.cleanShadow
    | apply Off.event | apply Off.endAll | apply Off.upd_epochCtl

theorem Off.sendRound (hM : 0x2638010000002000008004040f3c000002f406 &&& M = 0x2638010000002000008004040f3c000002f406)
    (h : Off M s0 s) : Off M s0 (State.sendRound s) := by
  unfold State.sendRound
  with_reducible repeat' first
    | assumption | exact foot_has (by decide) | exact foot_bit hM (by decide) | exact foot_sub hM (by decide)
    | apply Off.retireBank | apply Off.sat hM | apply Off.put hM | apply Off.fromAlorn | apply Off.ite | split
    | apply Off.upd_epochCtl

theorem execRetirementRoundResult_off {t} (m) (e : execRetirementRoundResult m s = .next t) :
    Off 0x2638000000002000008004040f3c000002f206 s t := by
  have hM : 0x2638000000002000008004040f3c000002f206 &&& 0x2638000000002000008004040f3c000002f206 = 0x2638000000002000008004040f3c000002f206 := Nat.and_self _
  refine live_off (fun s h => ?_) (Off.refl _ s) e
  with_reducible repeat' first
    | assumption | exact foot_bit hM (by decide) | exact foot_sub hM (by decide) | apply Off.takeStage
    | apply Off.retireBank | apply Off.ite | split | apply Off.upd_epochCtl

theorem execEpochPollExpiry_off {t} (e : execEpochPollExpiry s = .next t) :
    Off 0x2638010000002000008004040f3c000002f406 s t := by
  have hM : 0x2638010000002000008004040f3c000002f406 &&& 0x2638010000002000008004040f3c000002f406 = 0x2638010000002000008004040f3c000002f406 := Nat.and_self _
  refine live_off (fun s h => ?_) (Off.refl _ s) e
  with_reducible repeat' first
    | assumption | exact foot_sub hM (by decide) | apply Off.sendRound | apply Off.ite | split

theorem execEpochSettleExpiry_off {t} (e : execEpochSettleExpiry s = .next t) :
    Off 0x2000000000000000000000000000000000000 s t := by
  have hM : 0x2000000000000000000000000000000000000 &&& 0x2000000000000000000000000000000000000 = 0x2000000000000000000000000000000000000 := Nat.and_self _
  refine live_off (fun s h => ?_) (Off.refl _ s) e
  with_reducible repeat' first
    | assumption | exact foot_bit hM (by decide) | exact foot_sub hM (by decide) | apply Off.upd_epochCtl

theorem Off.clearStandby (hM : 0x10000000000000 &&& M = 0x10000000000000)
    (h : Off M s0 s) : Off M s0 (State.clearStandby s) := by
  unfold State.clearStandby
  with_reducible repeat' first
    | assumption | exact foot_has (by decide) | exact foot_sub hM (by decide) | apply Off.put hM | apply Off.foldl
    | intro _ _ _

theorem Off.switchEpoch (hM : 0x367901001000200008800c1d1f3c000002f506 &&& M = 0x367901001000200008800c1d1f3c000002f506) (e' arrival)
    (h : Off M s0 s) : Off M s0 (State.switchEpoch s e' arrival) := by
  unfold State.switchEpoch
  with_reducible repeat' first
    | assumption | exact foot_has (by decide) | exact foot_bit hM (by decide) | exact foot_sub hM (by decide)
    | apply Off.put hM | apply Off.clearStandby | apply Off.pulse | apply Off.event | apply Off.endAll
    | apply Off.repeatKeying | apply Off.startKeying | apply Off.sendRound | apply Off.foldl | intro _ _ _
    | apply Off.ite | split | apply Off.upd_tune_planKeys_guard_transitOff_epochCtl

theorem Off.clearArm (hM : 0x40000000000000000010000000000000 &&& M = 0x40000000000000000010000000000000) (g e')
    (h : Off M s0 s) : Off M s0 (State.clearArm s g e') := by
  unfold State.clearArm
  with_reducible repeat' first
    | assumption | exact foot_has (by decide) | exact foot_bit hM (by decide) | exact foot_sub hM (by decide)
    | apply Off.put hM | apply Off.ite | split | apply Off.upd_plumb

theorem Off.takeToken (hM : 0x367901401000200008800c1d1f3c000002f506 &&& M = 0x367901401000200008800c1d1f3c000002f506) (port m)
    (h : Off M s0 s) : Off M s0 (State.takeToken s port m) := by
  unfold State.takeToken
  with_reducible repeat' first
    | assumption | exact foot_sub hM (by decide) | apply Off.clearArm | apply Off.event | apply Off.toPort
    | apply Off.switchEpoch | apply Off.foldl | intro _ _ _ | apply Off.ite | split

theorem execEpoch_off {t} (port m) (e : execEpoch port m s = .next t) :
    Off 0x3679014111632001c8800c1d1f3cc4070bf706 s t := by
  have hM : 0x3679014111632001c8800c1d1f3cc4070bf706 &&& 0x3679014111632001c8800c1d1f3cc4070bf706 = 0x3679014111632001c8800c1d1f3cc4070bf706 := Nat.and_self _
  refine live_off (fun s h => ?_) (Off.refl _ s) e
  with_reducible repeat' first
    | assumption | exact foot_sub hM (by decide) | apply Off.takeInput | apply Off.flow | apply Off.takeToken
    | apply Off.ite | split

theorem Off.plumbOrder (hM : 0x2605f3ff21632001c890044090c2040f090600 &&& M = 0x2605f3ff21632001c890044090c2040f090600) (n g held got)
    (h : Off M s0 s) : Off M s0 (State.plumbOrder s n g held got) := by
  unfold State.plumbOrder
  with_reducible repeat' first
    | assumption | exact foot_has (by decide) | exact foot_sub hM (by decide) | apply Off.event | apply Off.sat hM
    | apply Off.raiseAbort

theorem Off.plumbDown (hM : 0x340000020000000000010000000000400 &&& M = 0x340000020000000000010000000000400) (g e' m)
    (h : Off M s0 s) : Off M s0 (State.plumbDown s g e' m) := by
  unfold State.plumbDown
  with_reducible repeat' first
    | assumption | exact foot_has (by decide) | exact foot_bit hM (by decide) | exact foot_sub hM (by decide)
    | apply Off.toPort | apply Off.put hM | apply Off.toAlorn | apply Off.plumbCopies | apply Off.foldl | intro _ _ _
    | apply Off.ite | split | apply Off.upd_plumb

theorem Off.settlePlumb (hM : 0x367903401000200008800c1d1f3c000002f506 &&& M = 0x367903401000200008800c1d1f3c000002f506) (n g)
    (h : Off M s0 s) : Off M s0 (State.settlePlumb s n g) := by
  unfold State.settlePlumb
  with_reducible repeat' first
    | assumption | exact foot_bit hM (by decide) | exact foot_sub hM (by decide) | apply Off.plumbSend
    | apply Off.toPort | apply Off.plumbDown | apply Off.takeToken | apply Off.ite | split | apply Off.upd_plumb

theorem Off.plumbArrive (hM : 0x367df3ff31632001c8900c5d9ffe040f0bf706 &&& M = 0x367df3ff31632001c8900c5d9ffe040f0bf706) (node src m scalar bad)
    (h : Off M s0 s) : Off M s0 (State.plumbArrive s node src m scalar bad) := by
  unfold State.plumbArrive
  with_reducible repeat' first
    | assumption | exact foot_has (by decide) | exact foot_bit hM (by decide) | exact foot_sub hM (by decide)
    | apply Off.put hM | apply Off.plumbOrder | apply Off.settlePlumb | apply Off.ite | split | apply Off.upd_plumb

theorem Off.timeInput (hM : 0x1000000000000000000060000000000000 &&& M = 0x1000000000000000000060000000000000) (e' g q' key)
    (h : Off M s0 s) : Off M s0 (State.timeInput s e' g q' key) := by
  unfold State.timeInput
  with_reducible repeat' first
    | assumption | exact foot_sub hM (by decide) | apply Off.noteInput | apply Off.ite | split

theorem Off.timeMember (hM : 0x1000000000000000000060000000000000 &&& M = 0x1000000000000000000060000000000000) (src m)
    (h : Off M s0 s) : Off M s0 (State.timeMember s src m) := by
  unfold State.timeMember
  with_reducible repeat' first
    | assumption | exact foot_sub hM (by decide) | apply Off.timeInput | apply Off.ite | split

theorem Off.plumbInput (hM : 0x367df3ff31632001c8900c5dfffe040f0bf706 &&& M = 0x367df3ff31632001c8900c5dfffe040f0bf706) (n src m scalar)
    (h : Off M s0 s) : Off M s0 (State.plumbInput s n src m scalar) := by
  unfold State.plumbInput
  with_reducible repeat' first
    | assumption | exact foot_sub hM (by decide) | apply Off.plumbArrive | apply Off.timeMember | apply Off.takeInput

theorem Off.stallRun (hM : 0x2605f3ff21632001c890044090c2040f090600 &&& M = 0x2605f3ff21632001c890044090c2040f090600) (n g r)
    (h : Off M s0 s) : Off M s0 (State.stallRun s n g r) := by
  unfold State.stallRun
  with_reducible repeat' first
    | assumption | exact foot_sub hM (by decide) | apply Off.raiseAbort | apply Off.ite | split

theorem Off.stallPlumb (hM : 0x2605f3ff21632001c890044090c2040f090600 &&& M = 0x2605f3ff21632001c890044090c2040f090600)
    (h : Off M s0 s) : Off M s0 (State.stallPlumb s) := by
  unfold State.stallPlumb
  with_reducible repeat' first
    | assumption | exact foot_sub hM (by decide) | apply Off.stallRun | apply Off.foldl | intro _ _ _ | apply Off.ite
    | split

theorem execBarArrive_off {t} (n src m) (e : execBarArrive n src m s = .next t) :
    Off 0x367df3ff31632001c8900c5dfffec40f0bf706 s t := by
  have hM : 0x367df3ff31632001c8900c5dfffec40f0bf706 &&& 0x367df3ff31632001c8900c5dfffec40f0bf706 = 0x367df3ff31632001c8900c5dfffec40f0bf706 := Nat.and_self _
  refine live_off (fun s h => ?_) (Off.refl _ s) e
  with_reducible repeat' first
    | assumption | exact foot_sub hM (by decide) | apply Off.flow | apply Off.stallPlumb | apply Off.plumbInput
    | apply Off.ite | split

theorem execSredUp_off {t} (n src m) (e : execSredUp n src m s = .next t) :
    Off 0x367df3ff31632001c8900c5dfffec40f0bf706 s t := by
  have hM : 0x367df3ff31632001c8900c5dfffec40f0bf706 &&& 0x367df3ff31632001c8900c5dfffec40f0bf706 = 0x367df3ff31632001c8900c5dfffec40f0bf706 := Nat.and_self _
  refine live_off (fun s h => ?_) (Off.refl _ s) e
  with_reducible repeat' first
    | assumption | exact foot_sub hM (by decide) | apply Off.flow | apply Off.stallPlumb | apply Off.plumbInput
    | apply Off.ite | split

theorem Off.clusterDown (hM : 0x234001612001c800000000000407080600 &&& M = 0x234001612001c800000000000407080600) (c m)
    (h : Off M s0 s) : Off M s0 (State.clusterDown s c m) := by
  unfold State.clusterDown
  with_reducible repeat' first
    | assumption | exact foot_bit hM (by decide) | exact foot_sub hM (by decide) | apply Off.toMember
    | apply Off.foldl | intro _ _ _ | apply Off.upd_plumb

theorem Off.plumbStray (hM : 0x20000000000000000080000080000000000000 &&& M = 0x20000000000000000080000080000000000000) (n m)
    (h : Off M s0 s) : Off M s0 (State.plumbStray s n m) := by
  unfold State.plumbStray
  with_reducible repeat' first
    | assumption | exact foot_has (by decide) | exact foot_sub hM (by decide) | apply Off.event | apply Off.sat hM
    | apply Off.ite | split

theorem Off.copyTake (hM : 0x100000000000000000000000000000000 &&& M = 0x100000000000000000000000000000000) (n h' m)
    (h : Off M s0 s) : Off M s0 (State.copyTake s n h' m) := by
  unfold State.copyTake
  with_reducible repeat' first
    | assumption | exact foot_bit hM (by decide) | exact foot_sub hM (by decide) | apply Off.plumbTake | apply Off.ite
    | split | apply Off.upd_plumbOut

theorem Off.keepCopy (hM : 0x80000000000000000000000000000000 &&& M = 0x80000000000000000000000000000000) (n h' m)
    (h : Off M s0 s) : Off M s0 (State.keepCopy s n h' m) := by
  unfold State.keepCopy
  with_reducible repeat' first
    | assumption | exact foot_bit hM (by decide) | apply Off.upd_copies

theorem Off.dropCopy (hM : 0x80000000000000000000000000000000 &&& M = 0x80000000000000000000000000000000) (n h' m)
    (h : Off M s0 s) : Off M s0 (State.dropCopy s n h' m) := by
  unfold State.dropCopy
  with_reducible repeat' first
    | assumption | exact foot_bit hM (by decide) | apply Off.upd_copies

theorem Off.copyMismatch (hM : 0x20000000000000000080000080000000000000 &&& M = 0x20000000000000000080000080000000000000) (w u a b)
    (h : Off M s0 s) : Off M s0 (State.copyMismatch s w u a b) := by
  unfold State.copyMismatch
  with_reducible repeat' first
    | assumption | exact foot_has (by decide) | exact foot_sub hM (by decide) | apply Off.event | apply Off.sat hM

theorem Off.copiesMatch (hM : 0x400000000000000000000000000000000 &&& M = 0x400000000000000000000000000000000)
    (h : Off M s0 s) : Off M s0 (State.copiesMatch s) := by
  unfold State.copiesMatch
  with_reducible repeat' first
    | assumption | exact foot_bit hM (by decide) | apply Off.upd_hubMiss

theorem Off.clusterAlone (hM : 0x2000234001612001c880000080000407080600 &&& M = 0x2000234001612001c880000080000407080600) (c m)
    (h : Off M s0 s) : Off M s0 (State.clusterAlone s c m) := by
  unfold State.clusterAlone
  with_reducible repeat' first
    | assumption | exact foot_sub hM (by decide) | apply Off.clusterDown | apply Off.plumbStray | apply Off.ite
    | split

theorem Off.clusterPair (hM : 0x2000274001612001c880000080000407080600 &&& M = 0x2000274001612001c880000080000407080600) (c h' m first)
    (h : Off M s0 s) : Off M s0 (State.clusterPair s c h' m first) := by
  unfold State.clusterPair
  with_reducible repeat' first
    | assumption | exact foot_sub hM (by decide) | apply Off.clusterDown | apply Off.copiesMatch
    | apply Off.copyMismatch | apply Off.ite | split

theorem Off.copyDown (hM : 0x200027c001612001c880000080000407080600 &&& M = 0x200027c001612001c880000080000407080600) (c h' m altered)
    (h : Off M s0 s) : Off M s0 (State.copyDown s c h' m altered) := by
  unfold State.copyDown
  with_reducible repeat' first
    | assumption | exact foot_sub hM (by decide) | apply Off.clusterPair | apply Off.dropCopy | apply Off.clusterAlone
    | apply Off.keepCopy | apply Off.plumbStray | apply Off.clusterDown | apply Off.ite | split | dsimp only

theorem Off.restage (hM : 0x10000000000000000000000000000000000 &&& M = 0x10000000000000000000000000000000000) (p old new)
    (h : Off M s0 s) : Off M s0 (State.restage s p old new) := by
  unfold State.restage
  with_reducible repeat' first
    | assumption | exact foot_sub hM (by decide) | apply Off.modPort | apply Off.ite | split

theorem Off.portSends (hM : 0x10000000000000000000000000000000000 &&& M = 0x10000000000000000000000000000000000) (l m)
    (h : Off M s0 s) : Off M s0 (State.portSends s l m) := by
  unfold State.portSends
  with_reducible repeat' first
    | assumption | exact foot_sub hM (by decide) | apply Off.plumbToFibre

theorem Off.portCopyIn (hM : 0x20010480000000000080000080000000000000 &&& M = 0x20010480000000000080000080000000000000) (l h' m)
    (h : Off M s0 s) : Off M s0 (State.portCopyIn s l h' m) := by
  unfold State.portCopyIn
  with_reducible repeat' first
    | assumption | exact foot_sub hM (by decide) | apply Off.dropCopy | apply Off.copiesMatch | apply Off.restage
    | apply Off.copyMismatch | apply Off.portSends | apply Off.keepCopy | apply Off.ite | split | dsimp only

theorem Off.copyFails (hM : 0x200023c001612001c880000080000407080600 &&& M = 0x200023c001612001c880000080000407080600) (n h')
    (h : Off M s0 s) : Off M s0 (State.copyFails s n h') := by
  unfold State.copyFails
  with_reducible repeat' first
    | assumption | exact foot_has (by decide) | exact foot_sub hM (by decide) | apply Off.sat hM | apply Off.keepCopy
    | apply Off.dropCopy | apply Off.clusterAlone | apply Off.ite | split | dsimp only

theorem Off.clusterTakes (hM : 0x200027c001612001c880000080000407080600 &&& M = 0x200027c001612001c880000080000407080600) (c h' m sound)
    (h : Off M s0 s) : Off M s0 (State.clusterTakes s c h' m sound) := by
  unfold State.clusterTakes
  with_reducible repeat' first
    | assumption | exact foot_sub hM (by decide) | apply Off.copyTake | apply Off.copyDown | apply Off.copyFails
    | apply Off.ite | split

theorem Off.hubDownward (hM : 0x20000340000020000080000090000000000600 &&& M = 0x20000340000020000080000090000000000600) (m)
    (h : Off M s0 s) : Off M s0 (State.hubDownward s m) := by
  unfold State.hubDownward
  with_reducible repeat' first
    | assumption | exact foot_sub hM (by decide) | apply Off.takeStage | apply Off.plumbDown | apply Off.plumbStray
    | apply Off.ite | split | dsimp only

theorem execBarRelease_off {t} (n hub m) (e : execBarRelease n hub m s = .next t) :
    Off 0x200027c101632001c88000009000c407090600 s t := by
  have hM : 0x200027c101632001c88000009000c407090600 &&& 0x200027c101632001c88000009000c407090600 = 0x200027c101632001c88000009000c407090600 := Nat.and_self _
  refine live_off (fun s h => ?_) (Off.refl _ s) e
  with_reducible repeat' first
    | assumption | exact foot_sub hM (by decide) | apply Off.flow | apply Off.hubDownward | apply Off.clusterTakes
    | apply Off.ite | split

theorem execSredDown_off {t} (n hub m) (e : execSredDown n hub m s = .next t) :
    Off 0x200027c101632001c88000009000c407090600 s t := by
  have hM : 0x200027c101632001c88000009000c407090600 &&& 0x200027c101632001c88000009000c407090600 = 0x200027c101632001c88000009000c407090600 := Nat.and_self _
  refine live_off (fun s h => ?_) (Off.refl _ s) e
  with_reducible repeat' first
    | assumption | exact foot_sub hM (by decide) | apply Off.flow | apply Off.hubDownward | apply Off.clusterTakes
    | apply Off.ite | split

theorem Off.missCopy (hM : 0x20000c00000000000080000080000000000000 &&& M = 0x20000c00000000000080000080000000000000) (w u late m)
    (h : Off M s0 s) : Off M s0 (State.missCopy s w u late m) := by
  unfold State.missCopy
  with_reducible repeat' first
    | assumption | exact foot_has (by decide) | exact foot_bit hM (by decide) | exact foot_sub hM (by decide)
    | apply Off.event | apply Off.sat hM | apply Off.ite | split | apply Off.upd_hubMiss_hubDown

theorem execPlumbPairExpiry_off {t} (n m) (e : execPlumbPairExpiry n m s = .next t) :
    Off 0x20002fc101632001c88000008000c407090600 s t := by
  have hM : 0x20002fc101632001c88000008000c407090600 &&& 0x20002fc101632001c88000008000c407090600 = 0x20002fc101632001c88000008000c407090600 := Nat.and_self _
  refine live_off (fun s h => ?_) (Off.refl _ s) e
  with_reducible repeat' first
    | assumption | exact foot_sub hM (by decide) | apply Off.dropCopy | apply Off.missCopy | apply Off.flow
    | apply Off.clusterAlone | apply Off.keepCopy | apply Off.ite | split | dsimp only

theorem Off.portReads (hM : 0x200127c001612001c880000080000407080600 &&& M = 0x200127c001612001c880000080000407080600) (p n1)
    (h : Off M s0 s) : Off M s0 (State.portReads s p n1) := by
  induction n1 generalizing p s with
  | zero => exact h
  | succ k ih =>
    unfold State.portReads
    with_reducible repeat' first
      | assumption | exact foot_sub hM (by decide) | apply Off.popFifo | apply Off.copyFails | apply Off.portCopyIn
      | apply ih | apply Off.ite | split

theorem Off.admitCopy (hM : 0x200127c101632001c88000008000c407090600 &&& M = 0x200127c101632001c88000008000c407090600) (p h' x')
    (h : Off M s0 s) : Off M s0 (State.admitCopy s p h' x') := by
  unfold State.admitCopy
  with_reducible repeat' first
    | assumption | exact foot_sub hM (by decide) | apply Off.holdPlumb | apply Off.flow | apply Off.portReads
    | apply Off.pushFifo | apply Off.unholdPlumb | apply Off.copyTake | apply Off.ite | split

theorem Off.admitHeld (hM : 0x30101632001c00000000000c407090400 &&& M = 0x30101632001c00000000000c407090400) (n src dst m enter) (ha : ∀ s, Off M s0 s → Off M s0 (enter s))
    (h : Off M s0 s) : Off M s0 (State.admitHeld s n src dst m enter) := by
  unfold State.admitHeld
  dsimp only
  refine Off.ite h (Off.ite (Off.holdPlumb (foot_sub hM (by decide)) _ h) (Off.flow (foot_sub hM (by decide)) (ha _ ?_)))
  have ht := Off.plumbTake (foot_sub hM (by decide)) src dst m h
  exact Off.ite (Off.unholdPlumb (foot_sub hM (by decide)) _ ht) ht


theorem execInFifoAdmit_off {t} (f' pkt) (e : execInFifoAdmit f' pkt s = .next t) :
    Off 0x200127c1016f2001c8c000008000c407090600 s t := by
  have hM : 0x200127c1016f2001c8c000008000c407090600 &&& 0x200127c1016f2001c8c000008000c407090600 = 0x200127c1016f2001c8c000008000c407090600 := Nat.and_self _
  refine live_off (fun s h => ?_) (Off.refl _ s) e
  with_reducible repeat' first
    | assumption | exact foot_sub hM (by decide) | apply Off.admitHeader | apply Off.admitHeld | apply Off.admitMember
    | apply Off.pushFifo | apply Off.admitCopy | apply Off.ite | split | intro _ _ | dsimp only


theorem Off.recheckHubs (hM : 0x367903401000200008800c1d1f3c000002f506 &&& M = 0x367903401000200008800c1d1f3c000002f506)
    (h : Off M s0 s) : Off M s0 (State.recheckHubs s) := by
  unfold State.recheckHubs
  with_reducible repeat' first
    | assumption | exact foot_sub hM (by decide) | apply Off.settlePlumb

theorem Off.flushStaging (hM : 0x50001000320000810004000020008010400 &&& M = 0x50001000320000810004000020008010400) (p keepMgmt)
    (h : Off M s0 s) : Off M s0 (State.flushStaging s p keepMgmt) := by
  unfold State.flushStaging
  with_reducible repeat' first
    | assumption | exact foot_sub hM (by decide) | apply Off.modPort | apply Off.portRefuse | apply Off.foldl
    | intro _ _ _ | apply Off.ite | split

theorem Off.leaveService (hM : 0x367df3fff17b2001c8900c5d9ffe040f0bf706 &&& M = 0x367df3fff17b2001c8900c5d9ffe040f0bf706) (p)
    (h : Off M s0 s) : Off M s0 (State.leaveService s p) := by
  unfold State.leaveService
  with_reducible repeat' first
    | assumption | exact foot_sub hM (by decide) | apply Off.shutPort | apply Off.screedPortLost
    | apply Off.recheckHubs | apply Off.raiseAbort | apply Off.foldl | intro _ _ _

theorem Off.startTraining (hM : 0x10000000000000000010100000000000000 &&& M = 0x10000000000000000010100000000000000) (p)
    (h : Off M s0 s) : Off M s0 (State.startTraining s p) := by
  unfold State.startTraining
  with_reducible repeat' first
    | assumption | exact foot_has (by decide) | exact foot_sub hM (by decide) | apply Off.modPort | apply Off.put hM
    | apply Off.foldl | intro _ _ _

theorem Off.showLight (hM : 0x10000000000000000010000000000000000 &&& M = 0x10000000000000000010000000000000000) (p)
    (h : Off M s0 s) : Off M s0 (State.showLight s p) := by
  unfold State.showLight
  with_reducible repeat' first
    | assumption | exact foot_has (by decide) | exact foot_sub hM (by decide) | apply Off.formBlocks
    | apply Off.put hM | apply Off.foldl | intro _ _ _

theorem Off.cutLink (hM : 0x10000000000000000000100000000020000 &&& M = 0x10000000000000000000100000000020000) (p)
    (h : Off M s0 s) : Off M s0 (State.cutLink s p) := by
  unfold State.cutLink
  with_reducible repeat' first
    | assumption | exact foot_has (by decide) | exact foot_sub hM (by decide) | apply Off.freeParcels
    | apply Off.freePooled | apply Off.modPort | apply Off.put hM | apply Off.foldl | intro _ _ _

theorem Off.movePort (hM : 0x367df3fff17b2001c8952d5f9ffe040f0bf706 &&& M = 0x367df3fff17b2001c8952d5f9ffe040f0bf706) (p new cause)
    (h : Off M s0 s) : Off M s0 (State.movePort s p new cause) := by
  unfold State.movePort
  with_reducible repeat' first
    | assumption | exact foot_has (by decide) | exact foot_sub hM (by decide) | apply Off.put hM | apply Off.event
    | apply Off.leaveService | apply Off.flushStaging | apply Off.startTraining | apply Off.cutLink
    | apply Off.finalAnswer | apply Off.breakLock | apply Off.sat hM | apply Off.showAdmit | apply Off.modPort
    | apply Off.startKeying | apply Off.control | apply Off.showLight | apply Off.foldl | intro _ _ _ | apply Off.ite
    | split

theorem Off.tryOpen (hM : 0x367df3fff17b2001c8952d5f9ffe040f0bf706 &&& M = 0x367df3fff17b2001c8952d5f9ffe040f0bf706) (p cause)
    (h : Off M s0 s) : Off M s0 (State.tryOpen s p cause) := by
  unfold State.tryOpen
  with_reducible repeat' first
    | assumption | exact foot_sub hM (by decide) | apply Off.modPort | apply Off.control | apply Off.movePort
    | apply Off.ite | split

theorem Off.endKeying (hM : 0x367df3fff17b2001c8952ddf9ffe040f0bf706 &&& M = 0x367df3fff17b2001c8952ddf9ffe040f0bf706) (p)
    (h : Off M s0 s) : Off M s0 (State.endKeying s p) := by
  unfold State.endKeying
  with_reducible repeat' first
    | assumption | exact foot_sub hM (by decide) | apply Off.deriveKeys | apply Off.startSeq | apply Off.modPort
    | apply Off.movePort | apply Off.cableSwap | apply Off.tryOpen | apply Off.ite | split | dsimp only

theorem execKeyOffer_off {t} (p payload) (e : execKeyOffer p payload s = .next t) :
    Off 0x367df3fff17b2001c8952ddf9ffec40f0bf706 s t := by
  have hM : 0x367df3fff17b2001c8952ddf9ffec40f0bf706 &&& 0x367df3fff17b2001c8952ddf9ffec40f0bf706 = 0x367df3fff17b2001c8952ddf9ffec40f0bf706 := Nat.and_self _
  refine live_off (fun s h => ?_) (Off.refl _ s) e
  with_reducible repeat' first
    | assumption | exact foot_sub hM (by decide) | apply Off.modPort | apply Off.judgeOffer | apply Off.flow
    | apply Off.endKeying | apply Off.control | apply Off.ite | split

theorem execKeyResult_off {t} (p payload) (e : execKeyResult p payload s = .next t) :
    Off 0x367df3fff17b2001c8952ddf9ffec40f0bf706 s t := by
  have hM : 0x367df3fff17b2001c8952ddf9ffec40f0bf706 &&& 0x367df3fff17b2001c8952ddf9ffec40f0bf706 = 0x367df3fff17b2001c8952ddf9ffec40f0bf706 := Nat.and_self _
  refine live_off (fun s h => ?_) (Off.refl _ s) e
  with_reducible repeat' first
    | assumption | exact foot_has (by decide) | exact foot_sub hM (by decide) | apply Off.put hM | apply Off.modPort
    | apply Off.control | apply Off.flow | apply Off.endKeying | apply Off.ite | split

theorem execPortOpen_off {t} (p) (e : execPortOpen p s = .next t) :
    Off 0x367df3fff17b2001c8952d5f9ffec40f0bf706 s t := by
  have hM : 0x367df3fff17b2001c8952d5f9ffec40f0bf706 &&& 0x367df3fff17b2001c8952d5f9ffec40f0bf706 = 0x367df3fff17b2001c8952d5f9ffec40f0bf706 := Nat.and_self _
  refine live_off (fun s h => ?_) (Off.refl _ s) e
  with_reducible repeat' first
    | assumption | exact foot_has (by decide) | exact foot_sub hM (by decide) | apply Off.put hM | apply Off.modPort
    | apply Off.control | apply Off.flow | apply Off.tryOpen | apply Off.ite | split

theorem execPortClose_off {t} (p) (e : execPortClose p s = .next t) :
    Off 0x367df3fff17b2001c8952d5f9ffec40f0bf706 s t := by
  have hM : 0x367df3fff17b2001c8952d5f9ffec40f0bf706 &&& 0x367df3fff17b2001c8952d5f9ffec40f0bf706 = 0x367df3fff17b2001c8952d5f9ffec40f0bf706 := Nat.and_self _
  refine live_off (fun s h => ?_) (Off.refl _ s) e
  with_reducible repeat' first
    | assumption | exact foot_sub hM (by decide) | apply Off.flow | apply Off.modPort | apply Off.movePort
    | apply Off.control | apply Off.ite | split

theorem execControlRepeatExpiry_off {t} (p msg) (e : execControlRepeatExpiry p msg s = .next t) :
    Off 0x30010000000000000880000000000000000000 s t := by
  have hM : 0x30010000000000000880000000000000000000 &&& 0x30010000000000000880000000000000000000 = 0x30010000000000000880000000000000000000 := Nat.and_self _
  refine live_off (fun s h => ?_) (Off.refl _ s) e
  with_reducible repeat' first
    | assumption | exact foot_sub hM (by decide) | apply Off.sendOffer | apply Off.control | apply Off.foldl
    | intro _ _ _ | apply Off.ite | split

theorem execLightDetected_off {t} (p) (e : execLightDetected p s = .next t) :
    Off 0x367df3fff17b2001c8952d5f9ffec40f0bf706 s t := by
  have hM : 0x367df3fff17b2001c8952d5f9ffec40f0bf706 &&& 0x367df3fff17b2001c8952d5f9ffec40f0bf706 = 0x367df3fff17b2001c8952d5f9ffec40f0bf706 := Nat.and_self _
  refine live_off (fun s h => ?_) (Off.refl _ s) e
  with_reducible repeat' first
    | assumption | exact foot_sub hM (by decide) | apply Off.flow | apply Off.movePort | apply Off.ite | split

theorem Off.allDark (hM : 0x10000000000000000 &&& M = 0x10000000000000000) (p)
    (h : Off M s0 s) : Off M s0 (State.allDark s p) := by
  unfold State.allDark
  with_reducible repeat' first
    | assumption | exact foot_has (by decide) | exact foot_sub hM (by decide) | apply Off.put hM | apply Off.foldl
    | intro _ _ _

theorem execLightLost_off {t} (p) (e : execLightLost p s = .next t) :
    Off 0x367df3fff17b2001c8952d5f9ffec40f0bf706 s t := by
  have hM : 0x367df3fff17b2001c8952d5f9ffec40f0bf706 &&& 0x367df3fff17b2001c8952d5f9ffec40f0bf706 = 0x367df3fff17b2001c8952d5f9ffec40f0bf706 := Nat.and_self _
  refine live_off (fun s h => ?_) (Off.refl _ s) e
  with_reducible repeat' first
    | assumption | exact foot_sub hM (by decide) | apply Off.allDark | apply Off.flow | apply Off.movePort
    | apply Off.ite | split

theorem execLossOfSignal_off {t} (p lanes) (e : execLossOfSignal p lanes s = .next t) :
    Off 0x367df3fff17b2001c8952d5f9ffec40f0bf706 s t := by
  have hM : 0x367df3fff17b2001c8952d5f9ffec40f0bf706 &&& 0x367df3fff17b2001c8952d5f9ffec40f0bf706 = 0x367df3fff17b2001c8952d5f9ffec40f0bf706 := Nat.and_self _
  refine live_off (fun s h => ?_) (Off.refl _ s) e
  with_reducible repeat' first
    | assumption | exact foot_has (by decide) | exact foot_sub hM (by decide) | apply Off.put hM | apply Off.flow
    | apply Off.movePort | apply Off.foldl | intro _ _ _ | apply Off.ite | split

theorem execRetrainExpiry_off {t} (p) (e : execRetrainExpiry p s = .next t) :
    Off 0x367df3fff17b2001c8952d5f9ffec40f0bf706 s t := by
  have hM : 0x367df3fff17b2001c8952d5f9ffec40f0bf706 &&& 0x367df3fff17b2001c8952d5f9ffec40f0bf706 = 0x367df3fff17b2001c8952d5f9ffec40f0bf706 := Nat.and_self _
  refine live_off (fun s h => ?_) (Off.refl _ s) e
  with_reducible repeat' first
    | assumption | exact foot_has (by decide) | exact foot_sub hM (by decide) | apply Off.sat hM | apply Off.modPort
    | apply Off.flow | apply Off.movePort | apply Off.ite | split

theorem execKeyTimeoutExpiry_off {t} (p) (e : execKeyTimeoutExpiry p s = .next t) :
    Off 0x367df3fff17b2001c8952d5f9ffec40f0bf706 s t := by
  have hM : 0x367df3fff17b2001c8952d5f9ffec40f0bf706 &&& 0x367df3fff17b2001c8952d5f9ffec40f0bf706 = 0x367df3fff17b2001c8952d5f9ffec40f0bf706 := Nat.and_self _
  refine live_off (fun s h => ?_) (Off.refl _ s) e
  with_reducible repeat' first
    | assumption | exact foot_sub hM (by decide) | apply Off.flow | apply Off.movePort | apply Off.ite | split

theorem execDrainComplete_off {t} (p) (e : execDrainComplete p s = .next t) :
    Off 0x367df3fff17b2001c8952d5f9ffec40f0bf706 s t := by
  have hM : 0x367df3fff17b2001c8952d5f9ffec40f0bf706 &&& 0x367df3fff17b2001c8952d5f9ffec40f0bf706 = 0x367df3fff17b2001c8952d5f9ffec40f0bf706 := Nat.and_self _
  refine live_off (fun s h => ?_) (Off.refl _ s) e
  with_reducible repeat' first
    | assumption | exact foot_sub hM (by decide) | apply Off.flow | apply Off.movePort | apply Off.ite | split

theorem execDrainLimitExpiry_off {t} (p) (e : execDrainLimitExpiry p s = .next t) :
    Off 0x367df3fff17b2001c8952d5f9ffec40f0bf706 s t := by
  have hM : 0x367df3fff17b2001c8952d5f9ffec40f0bf706 &&& 0x367df3fff17b2001c8952d5f9ffec40f0bf706 = 0x367df3fff17b2001c8952d5f9ffec40f0bf706 := Nat.and_self _
  refine live_off (fun s h => ?_) (Off.refl _ s) e
  with_reducible repeat' first
    | assumption | exact foot_sub hM (by decide) | apply Off.flow | apply Off.movePort | apply Off.ite | split

theorem execDownHoldExpiry_off {t} (p light) (e : execDownHoldExpiry p light s = .next t) :
    Off 0x367df3fff17b2001c8952d5f9ffec40f0bf706 s t := by
  have hM : 0x367df3fff17b2001c8952d5f9ffec40f0bf706 &&& 0x367df3fff17b2001c8952d5f9ffec40f0bf706 = 0x367df3fff17b2001c8952d5f9ffec40f0bf706 := Nat.and_self _
  refine live_off (fun s h => ?_) (Off.refl _ s) e
  with_reducible repeat' first
    | assumption | exact foot_sub hM (by decide) | apply Off.flow | apply Off.movePort | apply Off.ite | split

theorem execAckStall_off {t} (p) (e : execAckStall p s = .next t) :
    Off 0x367df3fff17b2001c8952d5f9ffec40f0bf706 s t := by
  have hM : 0x367df3fff17b2001c8952d5f9ffec40f0bf706 &&& 0x367df3fff17b2001c8952d5f9ffec40f0bf706 = 0x367df3fff17b2001c8952d5f9ffec40f0bf706 := Nat.and_self _
  refine live_off (fun s h => ?_) (Off.refl _ s) e
  with_reducible repeat' first
    | assumption | exact foot_sub hM (by decide) | apply Off.flow | apply Off.movePort | apply Off.ite | split

theorem Off.allDown (hM : 0x367df3fff17b2001c8952d5f9ffe040f0bf706 &&& M = 0x367df3fff17b2001c8952d5f9ffe040f0bf706)
    (h : Off M s0 s) : Off M s0 (State.allDown s) := by
  unfold State.allDown
  with_reducible repeat' first
    | assumption | exact foot_sub hM (by decide) | apply Off.movePort | apply Off.foldl | intro _ _ _

theorem execClkLkLost_off {t} (e : execClkLkLost s = .next t) :
    Off 0x367df3fff17b2009c8952d5f9ffec40f0bf706 s t := by
  have hM : 0x367df3fff17b2009c8952d5f9ffec40f0bf706 &&& 0x367df3fff17b2009c8952d5f9ffec40f0bf706 = 0x367df3fff17b2009c8952d5f9ffec40f0bf706 := Nat.and_self _
  refine live_off (fun s h => ?_) (Off.refl _ s) e
  with_reducible repeat' first
    | assumption | exact foot_bit hM (by decide) | exact foot_sub hM (by decide) | apply Off.flow | apply Off.allDown
    | apply Off.upd_lkLost

theorem Off.dropPooled (hM : 0x10000000000000000000000000000020000 &&& M = 0x10000000000000000000000000000020000) (p e')
    (h : Off M s0 s) : Off M s0 (State.dropPooled s p e') := by
  unfold State.dropPooled
  with_reducible repeat' first
    | assumption | exact foot_sub hM (by decide) | apply Off.freePooled | apply Off.modPort

theorem Off.answerIngress (hM : 0x1000320000810004000020008010400 &&& M = 0x1000320000810004000020008010400) (p st pkt)
    (h : Off M s0 s) : Off M s0 (State.answerIngress s p st pkt) := by
  unfold State.answerIngress
  with_reducible repeat' first
    | assumption | exact foot_sub hM (by decide) | apply Off.nack | apply Off.ite | split

theorem Off.refuseIngress (hM : 0x20000001000320000890004000020008010400 &&& M = 0x20000001000320000890004000020008010400) (p st log pkt)
    (h : Off M s0 s) : Off M s0 (State.refuseIngress s p st log pkt) := by
  unfold State.refuseIngress
  with_reducible repeat' first
    | assumption | exact foot_has (by decide) | exact foot_sub hM (by decide) | apply Off.sat hM | apply Off.headEvent
    | apply Off.answerIngress | apply Off.ite | split

theorem Off.ingress (hM : 0x2605f3ff21632001c890044090c2040f0b0600 &&& M = 0x2605f3ff21632001c890044090c2040f0b0600) (p e' pkt)
    (h : Off M s0 s) : Off M s0 (State.ingress s p e' pkt) := by
  unfold State.ingress
  with_reducible repeat' first
    | assumption | exact foot_has (by decide) | exact foot_sub hM (by decide) | apply Off.dropPooled
    | apply Off.refuseIngress | apply Off.headEvent | apply Off.raiseAbort | apply Off.modPort | apply Off.put hM
    | apply Off.wrap hM | apply Off.ite | split

theorem Off.poolEmptied (hM : 0x367df3fff17b2001c8952ddf9ffe040f0bf706 &&& M = 0x367df3fff17b2001c8952ddf9ffe040f0bf706) (p)
    (h : Off M s0 s) : Off M s0 (State.poolEmptied s p) := by
  unfold State.poolEmptied
  with_reducible repeat' first
    | assumption | exact foot_sub hM (by decide) | apply Off.endKeying | apply Off.ite | split

theorem execPortIngress_off {t} (p vl pkt) (e : execPortIngress p vl pkt s = .next t) :
    Off 0x367df3fff17b2001c8952ddf9ffec40f0bf706 s t := by
  have hM : 0x367df3fff17b2001c8952ddf9ffec40f0bf706 &&& 0x367df3fff17b2001c8952ddf9ffec40f0bf706 = 0x367df3fff17b2001c8952ddf9ffec40f0bf706 := Nat.and_self _
  refine live_off (fun s h => ?_) (Off.refl _ s) e
  with_reducible repeat' first
    | assumption | exact foot_has (by decide) | exact foot_sub hM (by decide) | apply Off.sat hM
    | apply Off.dropPooled | apply Off.poolEmptied | apply Off.discardHead | apply Off.flow | apply Off.ingress
    | apply Off.ite | split | dsimp only

theorem Off.plumbInward (hM : 0x367df3fff17b2001c8952ddffffe040f0bf706 &&& M = 0x367df3fff17b2001c8952ddffffe040f0bf706) (p e' pkt)
    (h : Off M s0 s) : Off M s0 (State.plumbInward s p e' pkt) := by
  unfold State.plumbInward
  with_reducible repeat' first
    | assumption | exact foot_sub hM (by decide) | apply Off.dropPooled | apply Off.timeInput | apply Off.poolEmptied
    | apply Off.pushFifo | apply Off.ite | split

theorem execPlumbPortIngress_off {t} (p pkt) (e : execPlumbPortIngress p pkt s = .next t) :
    Off 0x367df3fff17b2001c8952ddffffe040f0bf706 s t := by
  have hM : 0x367df3fff17b2001c8952ddffffe040f0bf706 &&& 0x367df3fff17b2001c8952ddffffe040f0bf706 = 0x367df3fff17b2001c8952ddffffe040f0bf706 := Nat.and_self _
  refine live_off (fun s h => ?_) (Off.refl _ s) e
  with_reducible repeat' first
    | assumption | exact foot_has (by decide) | exact foot_sub hM (by decide) | apply Off.sat hM
    | apply Off.dropPooled | apply Off.poolEmptied | apply Off.discardHead | apply Off.plumbInward | apply Off.ite
    | split | dsimp only

theorem Off.forwardPooled (hM : 0x2605f3ffe17b2001c890044090c2040f0b0600 &&& M = 0x2605f3ffe17b2001c890044090c2040f0b0600) (p e) (h : Off M s0 s) : Off M s0 (State.forwardPooled s p e) := by
  unfold State.forwardPooled
  dsimp only
  have hd := Off.dropPooled (foot_sub hM (by decide)) p e h
  split
  · exact h
  · exact Off.ite (Off.emit (foot_sub hM (by decide)) _ _ _ _ hd) h
  · exact Off.ite (Off.emit (foot_sub hM (by decide)) _ _ _ _ hd) h
  · exact Off.ite (Off.refuseIngress (foot_sub hM (by decide)) _ _ _ _ hd) (Off.ite (Off.emit (foot_sub hM (by decide)) _ _ _ _ hd) h)
  · cases hc : s.treeArrive (256 + s.logical p) 1 e.pkt with
    | none => exact h
    | some t => exact Off.treeArrive (foot_sub hM (by decide)) h hc


theorem execPoolForward_off {t} (p k) (e : execPoolForward p k s = .next t) :
    Off 0x367df3fff17b2001c8952ddf9ffec40f0bf706 s t := by
  have hM : 0x367df3fff17b2001c8952ddf9ffec40f0bf706 &&& 0x367df3fff17b2001c8952ddf9ffec40f0bf706 = 0x367df3fff17b2001c8952ddf9ffec40f0bf706 := Nat.and_self _
  refine live_off (fun s h => ?_) (Off.refl _ s) e
  with_reducible repeat' first
    | assumption | exact foot_sub hM (by decide) | apply Off.flow | apply Off.poolEmptied | apply Off.forwardPooled
    | apply Off.ite | split

theorem Off.showCredit (hM : 0x8000000000020000 &&& M = 0x8000000000020000) (p k)
    (h : Off M s0 s) : Off M s0 (State.showCredit s p k) := by
  unfold State.showCredit
  with_reducible repeat' first
    | assumption | exact foot_has (by decide) | exact foot_sub hM (by decide) | apply Off.put hM | apply Off.foldl
    | intro _ _ _ | apply Off.ite | split

theorem Off.takeCredit (hM : 0x10000000000000000008000000000020000 &&& M = 0x10000000000000000008000000000020000) (p k n)
    (h : Off M s0 s) : Off M s0 (State.takeCredit s p k n) := by
  unfold State.takeCredit
  with_reducible repeat' first
    | assumption | exact foot_sub hM (by decide) | apply Off.showCredit | apply Off.modPort | apply Off.ite | split

theorem Off.startPacket (hM : 0x50000000000000000008000000000020000 &&& M = 0x50000000000000000008000000000020000) (p t' r account)
    (h : Off M s0 s) : Off M s0 (State.startPacket s p t' r account) := by
  unfold State.startPacket
  with_reducible repeat' first
    | assumption | exact foot_sub hM (by decide) | apply Off.modPort | apply Off.takeCredit | apply Off.releaseFor
    | apply Off.ite | split

theorem execStagingDeparture_off {t} (p vl) (e : execStagingDeparture p vl s = .next t) :
    Off 0x50000000000000000008000000000020000 s t := by
  have hM : 0x50000000000000000008000000000020000 &&& 0x50000000000000000008000000000020000 = 0x50000000000000000008000000000020000 := Nat.and_self _
  refine live_off (fun s h => ?_) (Off.refl _ s) e
  with_reducible repeat' first
    | assumption | exact foot_has (by decide) | exact foot_sub hM (by decide) | apply Off.startPacket
    | apply Off.modPort | apply Off.wrap hM | apply Off.ite | split

theorem Off.sendParcel (hM : 0x10000000000000000000000000000000000 &&& M = 0x10000000000000000000000000000000000) (p x')
    (h : Off M s0 s) : Off M s0 (State.sendParcel s p x') := by
  unfold State.sendParcel
  with_reducible repeat' first
    | assumption | exact foot_sub hM (by decide) | apply Off.modPort | apply Off.foldl | intro _ _ _ | apply Off.ite
    | split

theorem Off.sendControl (hM : 0x10000000000000800000000000000000000 &&& M = 0x10000000000000800000000000000000000) (p m rest)
    (h : Off M s0 s) : Off M s0 (State.sendControl s p m rest) := by
  unfold State.sendControl
  with_reducible repeat' first
    | assumption | exact foot_sub hM (by decide) | apply Off.sendParcel | apply Off.drawn | apply Off.modPort

theorem Off.sendNew (hM : 0x10000000000000020000000000000000000 &&& M = 0x10000000000000020000000000000000000) (p t')
    (h : Off M s0 s) : Off M s0 (State.sendNew s p t') := by
  unfold State.sendNew
  with_reducible repeat' first
    | assumption | exact foot_has (by decide) | exact foot_sub hM (by decide) | apply Off.modPort
    | apply Off.sendParcel | apply Off.wrap hM | apply Off.ite | split

theorem Off.sendFresh (hM : 0x10000000000000820000000000000000000 &&& M = 0x10000000000000820000000000000000000) (p)
    (h : Off M s0 s) : Off M s0 (State.sendFresh s p) := by
  unfold State.sendFresh
  with_reducible repeat' first
    | assumption | exact foot_sub hM (by decide) | apply Off.sendNew | apply Off.sendControl | apply Off.sendParcel
    | apply Off.ite | split

theorem Off.sendNext (hM : 0x10000000000000820000000000000000000 &&& M = 0x10000000000000820000000000000000000) (p)
    (h : Off M s0 s) : Off M s0 (State.sendNext s p) := by
  unfold State.sendNext
  with_reducible repeat' first
    | assumption | exact foot_sub hM (by decide) | apply Off.sendFresh | apply Off.sendControl | apply Off.sendParcel
    | apply Off.modPort | apply Off.ite | split | dsimp only

theorem execParcelSend_off {t} (p) (e : execParcelSend p s = .next t) :
    Off 0x10000000000000820000000000000000000 s t := by
  have hM : 0x10000000000000820000000000000000000 &&& 0x10000000000000820000000000000000000 = 0x10000000000000820000000000000000000 := Nat.and_self _
  refine live_off (fun s h => ?_) (Off.refl _ s) e
  with_reducible repeat' first
    | assumption | exact foot_sub hM (by decide) | apply Off.stripe | apply Off.sendNext | apply Off.ite | split

theorem Off.startReplay (hM : 0x10000000000000000002000000000000000 &&& M = 0x10000000000000000002000000000000000) (p ack)
    (h : Off M s0 s) : Off M s0 (State.startReplay s p ack) := by
  unfold State.startReplay
  with_reducible repeat' first
    | assumption | exact foot_has (by decide) | exact foot_sub hM (by decide) | apply Off.sat hM | apply Off.modPort
    | apply Off.ite | split

theorem Off.takeReport (hM : 0x1000000000000000000a000000000020000 &&& M = 0x1000000000000000000a000000000020000) (p x')
    (h : Off M s0 s) : Off M s0 (State.takeReport s p x') := by
  unfold State.takeReport
  with_reducible repeat' first
    | assumption | exact foot_sub hM (by decide) | apply Off.modPort | apply Off.startReplay | apply Off.showCredit
    | apply Off.ite | split

theorem Off.enterPool (hM : 0x10000000000000000040000000000000000 &&& M = 0x10000000000000000040000000000000000) (p r pkt)
    (h : Off M s0 s) : Off M s0 (State.enterPool s p r pkt) := by
  unfold State.enterPool
  with_reducible repeat' first
    | assumption | exact foot_sub hM (by decide) | apply Off.noteOld | apply Off.modPort

theorem Off.dropOpen (hM : 0x10000000000000000000000000000020000 &&& M = 0x10000000000000000000000000000020000) (p r)
    (h : Off M s0 s) : Off M s0 (State.dropOpen s p r) := by
  unfold State.dropOpen
  with_reducible repeat' first
    | assumption | exact foot_sub hM (by decide) | apply Off.freeParcels | apply Off.modPort

theorem Off.acceptData (hM : 0x10000000000000000042000000000020000 &&& M = 0x10000000000000000042000000000020000) (p x')
    (h : Off M s0 s) : Off M s0 (State.acceptData s p x') := by
  unfold State.acceptData
  with_reducible repeat' first
    | assumption | exact foot_has (by decide) | exact foot_sub hM (by decide) | apply Off.sat hM | apply Off.dropOpen
    | apply Off.modPort | apply Off.freeParcels | apply Off.enterPool | apply Off.noteOld | apply Off.ite | split
    | dsimp only

theorem Off.authFailure (hM : 0x367df3fff17b2001c8952d5f9ffe040f0bf706 &&& M = 0x367df3fff17b2001c8952d5f9ffe040f0bf706) (p r)
    (h : Off M s0 s) : Off M s0 (State.authFailure s p r) := by
  unfold State.authFailure
  with_reducible repeat' first
    | assumption | exact foot_has (by decide) | exact foot_sub hM (by decide) | apply Off.sat hM | apply Off.dropOpen
    | apply Off.event | apply Off.modPort | apply Off.movePort | apply Off.ite | split

theorem Off.acceptTag (hM : 0x367df3fff17b2001c8952d5f9ffe040f0bf706 &&& M = 0x367df3fff17b2001c8952d5f9ffe040f0bf706) (p x')
    (h : Off M s0 s) : Off M s0 (State.acceptTag s p x') := by
  unfold State.acceptTag
  with_reducible repeat' first
    | assumption | exact foot_sub hM (by decide) | apply Off.modPort | apply Off.enterPool | apply Off.authFailure
    | apply Off.ite | split | dsimp only

theorem Off.takeSequenced (hM : 0x367df3fff17b2001c8b52d7f9ffe040f0bf706 &&& M = 0x367df3fff17b2001c8b52d7f9ffe040f0bf706) (p x')
    (h : Off M s0 s) : Off M s0 (State.takeSequenced s p x') := by
  unfold State.takeSequenced
  with_reducible repeat' first
    | assumption | exact foot_has (by decide) | exact foot_sub hM (by decide) | apply Off.modPort | apply Off.wrap hM
    | apply Off.acceptData | apply Off.acceptTag | apply Off.ite | split

theorem Off.takeParcel (hM : 0x367df3fff17b2001c8b52dff9ffec40f0bf706 &&& M = 0x367df3fff17b2001c8b52dff9ffec40f0bf706) (p x')
    (h : Off M s0 s) : Off M s0 (State.takeParcel s p x') := by
  unfold State.takeParcel
  with_reducible repeat' first
    | assumption | exact foot_sub hM (by decide) | apply Off.modPort | apply Off.takeReport | apply Off.flow
    | apply Off.takeSequenced | apply Off.ite | split

theorem execParcelReceive_off {t} (p n w) (e : execParcelReceive p n w s = .next t) :
    Off 0x367df3fff17b2001c8b52dff9ffec40f0bf706 s t := by
  have hM : 0x367df3fff17b2001c8b52dff9ffec40f0bf706 &&& 0x367df3fff17b2001c8b52dff9ffec40f0bf706 = 0x367df3fff17b2001c8b52dff9ffec40f0bf706 := Nat.and_self _
  refine live_off (fun s h => ?_) (Off.refl _ s) e
  with_reducible repeat' first
    | assumption | exact foot_sub hM (by decide) | refine Off.receive_eq ?_ ?_ (by assumption) | apply Off.receive
    | apply Off.takeParcel | apply Off.ite | split

theorem execLinkRetryExpiry_off {t} (p) (e : execLinkRetryExpiry p s = .next t) :
    Off 0x10000000000000000002000000000000000 s t := by
  have hM : 0x10000000000000000002000000000000000 &&& 0x10000000000000000002000000000000000 = 0x10000000000000000002000000000000000 := Nat.and_self _
  refine live_off (fun s h => ?_) (Off.refl _ s) e
  with_reducible repeat' first
    | assumption | exact foot_sub hM (by decide) | apply Off.startReplay | apply Off.ite | split

theorem execDelayProbe_off {t} (p payload) (e : execDelayProbe p payload s = .next t) :
    Off 0x10000000000000800000000000000000000 s t := by
  have hM : 0x10000000000000800000000000000000000 &&& 0x10000000000000800000000000000000000 = 0x10000000000000800000000000000000000 := Nat.and_self _
  refine live_off (fun s h => ?_) (Off.refl _ s) e
  with_reducible repeat' first
    | assumption | exact foot_sub hM (by decide) | apply Off.drawn | apply Off.control | apply Off.ite | split

theorem execDelayEcho_off {t} (p payload) (e : execDelayEcho p payload s = .next t) :
    Off 0x10000000000000800001000000000000000 s t := by
  have hM : 0x10000000000000800001000000000000000 &&& 0x10000000000000800001000000000000000 = 0x10000000000000800001000000000000000 := Nat.and_self _
  refine live_off (fun s h => ?_) (Off.refl _ s) e
  with_reducible repeat' first
    | assumption | exact foot_has (by decide) | exact foot_sub hM (by decide) | apply Off.drawn | apply Off.modPort
    | apply Off.put hM | apply Off.ite | split

theorem execDelayPeriodExpiry_off {t} (p) (e : execDelayPeriodExpiry p s = .next t) :
    Off 0x10000000000000000000000000000000000 s t := by
  have hM : 0x10000000000000000000000000000000000 &&& 0x10000000000000000000000000000000000 = 0x10000000000000000000000000000000000 := Nat.and_self _
  refine live_off (fun s h => ?_) (Off.refl _ s) e
  with_reducible repeat' first
    | assumption | exact foot_sub hM (by decide) | apply Off.sendProbes | apply Off.ite | split

theorem Off.showSpares (hM : 0x100000000000000 &&& M = 0x100000000000000) (p)
    (h : Off M s0 s) : Off M s0 (State.showSpares s p) := by
  unfold State.showSpares
  with_reducible repeat' first
    | assumption | exact foot_has (by decide) | exact foot_sub hM (by decide) | apply Off.put hM

theorem Off.startPatch (hM : 0x367df3fff17b2001c8952d5f9ffe040f0bf706 &&& M = 0x367df3fff17b2001c8952d5f9ffe040f0bf706) (p l)
    (h : Off M s0 s) : Off M s0 (State.startPatch s p l) := by
  unfold State.startPatch
  with_reducible repeat' first
    | assumption | exact foot_sub hM (by decide) | apply Off.movePort | apply Off.control | apply Off.modPort
    | apply Off.ite | split

theorem Off.switchLane (hM : 0x24010001000320000095014100020008010400 &&& M = 0x24010001000320000095014100020008010400) (p x')
    (h : Off M s0 s) : Off M s0 (State.switchLane s p x') := by
  unfold State.switchLane
  with_reducible repeat' first
    | assumption | exact foot_has (by decide) | exact foot_sub hM (by decide) | apply Off.setLane
    | apply Off.showSpares | apply Off.event | apply Off.sat hM | apply Off.modPort | apply Off.finalAnswer
    | apply Off.foldl | intro _ _ _

theorem execPatchReq_off {t} (p payload) (e : execPatchReq p payload s = .next t) :
    Off 0x10000000000000000000000000000000000 s t := by
  have hM : 0x10000000000000000000000000000000000 &&& 0x10000000000000000000000000000000000 = 0x10000000000000000000000000000000000 := Nat.and_self _
  refine live_off (fun s h => ?_) (Off.refl _ s) e
  with_reducible repeat' first
    | assumption | exact foot_sub hM (by decide) | apply Off.modPort | apply Off.ite | split

theorem Off.applyPatch (hM : 0x20010000000000000080014000000000000000 &&& M = 0x20010000000000000080014000000000000000) (p x')
    (h : Off M s0 s) : Off M s0 (State.applyPatch s p x') := by
  unfold State.applyPatch
  with_reducible repeat' first
    | assumption | exact foot_has (by decide) | exact foot_sub hM (by decide) | apply Off.setLane | apply Off.event
    | apply Off.sat hM | apply Off.modPort | apply Off.ite | split

theorem execPatchApply_off {t} (p) (e : execPatchApply p s = .next t) :
    Off 0x20010000000000000080014000000000000000 s t := by
  have hM : 0x20010000000000000080014000000000000000 &&& 0x20010000000000000080014000000000000000 = 0x20010000000000000080014000000000000000 := Nat.and_self _
  refine live_off (fun s h => ?_) (Off.refl _ s) e
  with_reducible repeat' first
    | assumption | exact foot_sub hM (by decide) | apply Off.formBlocks | apply Off.applyPatch | apply Off.modPort
    | apply Off.foldl | intro _ _ _

theorem execPatchFail_off {t} (p) (e : execPatchFail p s = .next t) :
    Off 0x367df3fff17b2001c8952d5f9ffec40f0bf706 s t := by
  have hM : 0x367df3fff17b2001c8952d5f9ffec40f0bf706 &&& 0x367df3fff17b2001c8952d5f9ffec40f0bf706 = 0x367df3fff17b2001c8952d5f9ffec40f0bf706 := Nat.and_self _
  refine live_off (fun s h => ?_) (Off.refl _ s) e
  with_reducible repeat' first
    | assumption | exact foot_sub hM (by decide) | apply Off.flow | apply Off.movePort | apply Off.event
    | apply Off.ite | split

theorem execLaneSignalLost_off {t} (p lane) (e : execLaneSignalLost p lane s = .next t) :
    Off 0x367df3fff17b2001c8952d5f9ffec40f0bf706 s t := by
  have hM : 0x367df3fff17b2001c8952d5f9ffec40f0bf706 &&& 0x367df3fff17b2001c8952d5f9ffec40f0bf706 = 0x367df3fff17b2001c8952d5f9ffec40f0bf706 := Nat.and_self _
  refine live_off (fun s h => ?_) (Off.refl _ s) e
  with_reducible repeat' first
    | assumption | exact foot_has (by decide) | exact foot_sub hM (by decide) | apply Off.showSpares
    | apply Off.put hM | apply Off.flow | apply Off.startPatch

theorem execSerWindowExpiry_off {t} (p lane corrected) (e : execSerWindowExpiry p lane corrected s = .next t) :
    Off 0x367df3fff17b2001c8952d5f9ffec40f0bf706 s t := by
  have hM : 0x367df3fff17b2001c8952d5f9ffec40f0bf706 &&& 0x367df3fff17b2001c8952d5f9ffec40f0bf706 = 0x367df3fff17b2001c8952d5f9ffec40f0bf706 := Nat.and_self _
  refine live_off (fun s h => ?_) (Off.refl _ s) e
  with_reducible repeat' first
    | assumption | exact foot_has (by decide) | exact foot_sub hM (by decide) | apply Off.modPort | apply Off.put hM
    | apply Off.flow | apply Off.startPatch | apply Off.ite | split

theorem Off.assignTx (hM : 0x10000000000000000 &&& M = 0x10000000000000000) (p rxlock)
    (h : Off M s0 s) : Off M s0 (State.assignTx s p rxlock) := by
  unfold State.assignTx
  with_reducible repeat' first
    | assumption | exact foot_sub hM (by decide) | apply Off.setLane | apply Off.foldl | intro _ _ _ | apply Off.ite
    | split

theorem Off.trainFrame (hM : 0x10000000000000000010000000000000000 &&& M = 0x10000000000000000010000000000000000) (p b)
    (h : Off M s0 s) : Off M s0 (State.trainFrame s p b) := by
  unfold State.trainFrame
  with_reducible repeat' first
    | assumption | exact foot_sub hM (by decide) | apply Off.assignTx | apply Off.formBlocks | apply Off.modPort
    | apply Off.ite | split

theorem Off.mapLane (hM : 0x10100000000000000 &&& M = 0x10100000000000000) (p l b)
    (h : Off M s0 s) : Off M s0 (State.mapLane s p l b) := by
  unfold State.mapLane
  with_reducible repeat' first
    | assumption | exact foot_has (by decide) | exact foot_sub hM (by decide) | apply Off.put hM
    | apply Off.showSpares | apply Off.setLane | apply Off.ite | split

theorem Off.trainBlock (hM : 0x367df3fff17b2001c8952d5f9ffe040f0bf706 &&& M = 0x367df3fff17b2001c8952d5f9ffe040f0bf706) (p l b errors skew)
    (h : Off M s0 s) : Off M s0 (State.trainBlock s p l b errors skew) := by
  unfold State.trainBlock
  with_reducible repeat' first
    | assumption | exact foot_sub hM (by decide) | apply Off.mapLane | apply Off.trainFrame | apply Off.modPort
    | apply Off.movePort | apply Off.ite | split

theorem Off.dataBlock (hM : 0x367df3fff17b2001c8952d5f9ffe040f0bf706 &&& M = 0x367df3fff17b2001c8952d5f9ffe040f0bf706) (p l b errors)
    (h : Off M s0 s) : Off M s0 (State.dataBlock s p l b errors) := by
  unfold State.dataBlock
  with_reducible repeat' first
    | assumption | exact foot_sub hM (by decide) | apply Off.modPort | apply Off.switchLane | apply Off.movePort
    | apply Off.ite | split

theorem execAlignmentBlockReceive_off {t} (p lane b) (e : execAlignmentBlockReceive p lane b s = .next t) :
    Off 0x367df3fff17b2001c8952d5f9ffec40f0bf706 s t := by
  have hM : 0x367df3fff17b2001c8952d5f9ffec40f0bf706 &&& 0x367df3fff17b2001c8952d5f9ffec40f0bf706 = 0x367df3fff17b2001c8952d5f9ffec40f0bf706 := Nat.and_self _
  refine live_off (fun s h => ?_) (Off.refl _ s) e
  with_reducible repeat' first
    | assumption | exact foot_has (by decide) | exact foot_sub hM (by decide) | apply Off.modPort | apply Off.flow
    | apply Off.startPatch | apply Off.put hM | apply Off.trainBlock | apply Off.dataBlock | apply Off.ite | split

theorem Off.showPower (hM : 0x10000000000000000 &&& M = 0x10000000000000000) (p)
    (h : Off M s0 s) : Off M s0 (State.showPower s p) := by
  unfold State.showPower
  with_reducible repeat' first
    | assumption | exact foot_has (by decide) | exact foot_sub hM (by decide) | apply Off.put hM | apply Off.foldl
    | intro _ _ _ | apply Off.ite | split

theorem Off.setFeed (hM : 0x10100000000000000 &&& M = 0x10100000000000000) (p feed v)
    (h : Off M s0 s) : Off M s0 (State.setFeed s p feed v) := by
  unfold State.setFeed
  with_reducible repeat' first
    | assumption | exact foot_has (by decide) | exact foot_sub hM (by decide) | apply Off.showPower | apply Off.put hM
    | apply Off.ite | split

theorem Off.darken (hM : 0x367df3fff17b2001c8952d5f9ffe040f0bf706 &&& M = 0x367df3fff17b2001c8952d5f9ffe040f0bf706) (p)
    (h : Off M s0 s) : Off M s0 (State.darken s p) := by
  unfold State.darken
  with_reducible repeat' first
    | assumption | exact foot_sub hM (by decide) | apply Off.movePort | apply Off.ite | split

theorem Off.relight (hM : 0x367df3fff17b2001c8952d5f9ffec40f0bf706 &&& M = 0x367df3fff17b2001c8952d5f9ffec40f0bf706) (was)
    (h : Off M s0 s) : Off M s0 (State.relight was s) := by
  unfold State.relight
  with_reducible repeat' first
    | assumption | exact foot_sub hM (by decide) | apply Off.setFeed | apply Off.flow | apply Off.darken
    | apply Off.foldl | intro _ _ _ | apply Off.ite | split

theorem Off.raiseOthers (hM : 0x20000000000000000 &&& M = 0x20000000000000000) (k)
    (h : Off M s0 s) : Off M s0 (State.raiseOthers s k) := by
  unfold State.raiseOthers
  with_reducible repeat' first
    | assumption | exact foot_has (by decide) | exact foot_sub hM (by decide) | apply Off.put hM | apply Off.foldl
    | intro _ _ _ | apply Off.ite | split

theorem Off.endLaser (hM : 0x4000000000000000000000000000000000000 &&& M = 0x4000000000000000000000000000000000000) (k)
    (h : Off M s0 s) : Off M s0 (State.endLaser s k) := by
  unfold State.endLaser
  with_reducible repeat' first
    | assumption | exact foot_sub hM (by decide) | apply Off.endAll

theorem execLaserSlotRemoved_off {t} (k) (e : execLaserSlotRemoved k s = .next t) :
    Off 0x367ff3fff17b2001c8952f5f9ffec40f0bf706 s t := by
  have hM : 0x367ff3fff17b2001c8952f5f9ffec40f0bf706 &&& 0x367ff3fff17b2001c8952f5f9ffec40f0bf706 = 0x367ff3fff17b2001c8952f5f9ffec40f0bf706 := Nat.and_self _
  refine live_off (fun s h => ?_) (Off.refl _ s) e
  with_reducible repeat' first
    | assumption | exact foot_has (by decide) | exact foot_bit hM (by decide) | exact foot_sub hM (by decide)
    | apply Off.put hM | apply Off.endLaser | apply Off.relight | apply Off.raiseOthers | apply Off.event
    | apply Off.sat hM | apply Off.ite | split | apply Off.upd_ramps

theorem execLaserSlotInserted_off {t} (k) (e : execLaserSlotInserted k s = .next t) :
    Off 0x20000000000000000 s t := by
  have hM : 0x20000000000000000 &&& 0x20000000000000000 = 0x20000000000000000 := Nat.and_self _
  refine live_off (fun s h => ?_) (Off.refl _ s) e
  with_reducible repeat' first
    | assumption | exact foot_has (by decide) | exact foot_sub hM (by decide) | apply Off.put hM | apply Off.ite
    | split

theorem execLaserFault_off {t} (k output) (e : execLaserFault k output s = .next t) :
    Off 0x367ff3fff17b2001c8952f5f9ffec40f0bf706 s t := by
  have hM : 0x367ff3fff17b2001c8952f5f9ffec40f0bf706 &&& 0x367ff3fff17b2001c8952f5f9ffec40f0bf706 = 0x367ff3fff17b2001c8952f5f9ffec40f0bf706 := Nat.and_self _
  refine live_off (fun s h => ?_) (Off.refl _ s) e
  with_reducible repeat' first
    | assumption | exact foot_has (by decide) | exact foot_bit hM (by decide) | exact foot_sub hM (by decide)
    | apply Off.put hM | apply Off.endLaser | apply Off.relight | apply Off.raiseOthers | apply Off.event
    | apply Off.sat hM | apply Off.ite | split | apply Off.upd_ramps

theorem execLaserFeed_off {t} (p feed) (e : execLaserFeed p feed s = .next t) :
    Off 0x367df3fff17b2001c8952d5f9ffec40f0bf706 s t := by
  have hM : 0x367df3fff17b2001c8952d5f9ffec40f0bf706 &&& 0x367df3fff17b2001c8952d5f9ffec40f0bf706 = 0x367df3fff17b2001c8952d5f9ffec40f0bf706 := Nat.and_self _
  refine live_off (fun s h => ?_) (Off.refl _ s) e
  with_reducible repeat' first
    | assumption | exact foot_sub hM (by decide) | apply Off.flow | apply Off.darken | apply Off.event
    | apply Off.setFeed | apply Off.ite | split

theorem execLaserLow_off {t} (p lane power) (e : execLaserLow p lane power s = .next t) :
    Off 0x367df3fff17b2001c8952d5f9ffec40f0bf706 s t := by
  have hM : 0x367df3fff17b2001c8952d5f9ffec40f0bf706 &&& 0x367df3fff17b2001c8952d5f9ffec40f0bf706 = 0x367df3fff17b2001c8952d5f9ffec40f0bf706 := Nat.and_self _
  refine live_off (fun s h => ?_) (Off.refl _ s) e
  with_reducible repeat' first
    | assumption | exact foot_has (by decide) | exact foot_sub hM (by decide) | apply Off.event | apply Off.put hM
    | apply Off.flow | apply Off.movePort | apply Off.ite | split

theorem execLaserRampDone_off {t} (k) (e : execLaserRampDone k s = .next t) :
    Off 0x367ff3fff17b2001c8952f5f9ffec40f0bf706 s t := by
  have hM : 0x367ff3fff17b2001c8952f5f9ffec40f0bf706 &&& 0x367ff3fff17b2001c8952f5f9ffec40f0bf706 = 0x367ff3fff17b2001c8952f5f9ffec40f0bf706 := Nat.and_self _
  refine live_off (fun s h => ?_) (Off.refl _ s) e
  with_reducible repeat' first
    | assumption | exact foot_has (by decide) | exact foot_bit hM (by decide) | exact foot_sub hM (by decide)
    | apply Off.relight | apply Off.raiseOthers | apply Off.put hM | apply Off.endAll | apply Off.foldl | intro _ _ _
    | apply Off.ite | split | apply Off.upd_ramps

end Sys2Proof.Machine
end

