-- ==== Sys2Proof/Laws/FrameCmds.lean ====
section
/-! SUPPORT. What every operation may change, one lemma per operation, by footprint (Laws/Frame.lean): queues, guards, writes and collective commands. -/

namespace Sys2Proof.Machine

variable {M L : Nat} {s0 s : State}

theorem Off.beginCmd (hM : 0x800000000000000000000 &&& M = 0x800000000000000000000) (i q' pos ws)
    (h : Off M s0 s) : Off M s0 (State.beginCmd s i q' pos ws).2 := by
  unfold State.beginCmd
  with_reducible repeat' first
    | assumption | exact foot_sub hM (by decide) | apply Off.drawn

theorem Off.beginCmd_eq (hM : 0x800000000000000000000 &&& M = 0x800000000000000000000) {i} {q'} {pos} {ws} {x t}
    (h : Off M s0 s) (e : State.beginCmd s i q' pos ws = (x, t)) : Off M s0 t := by
  have k := Off.beginCmd hM i q' pos ws h
  rwa [e] at k

theorem Off.fetchCmd (hM : 0x80000000000c000000000 &&& M = 0x80000000000c000000000) (i q' pos)
    (h : Off M s0 s) : Off M s0 (State.fetchCmd s i q' pos).2 := by
  unfold State.fetchCmd
  with_reducible repeat' first
    | assumption | exact foot_sub hM (by decide) | refine Off.beginCmd_eq ?_ ?_ (by assumption) | apply Off.beginCmd
    | apply Off.countReads

theorem Off.fetchCmd_eq (hM : 0x80000000000c000000000 &&& M = 0x80000000000c000000000) {i} {q'} {pos} {x t}
    (h : Off M s0 s) (e : State.fetchCmd s i q' pos = (x, t)) : Off M s0 t := by
  have k := Off.fetchCmd hM i q' pos h
  rwa [e] at k

theorem Off.carryOut (hM : 0x12000000101e32001c89000400002c44f190400 &&& M = 0x12000000101e32001c89000400002c44f190400) (i p)
    (h : Off M s0 s) : Off M s0 (State.carryOut s i p) := by
  unfold State.carryOut
  with_reducible repeat' first
    | assumption | exact foot_sub hM (by decide) | apply Off.takeAmReply | apply Off.judge | apply Off.doPut
    | apply Off.doGet | apply Off.doAtomic | apply Off.doSignal | apply Off.doAm | intro _ _ | apply Off.ite | split

theorem Off.issueOne (hM : 0x12000000101e32001c89000400002c44f190400 &&& M = 0x12000000101e32001c89000400002c44f190400) (c d f' p)
    (h : Off M s0 s) : Off M s0 (State.issueOne s c d f' p) := by
  unfold State.issueOne
  with_reducible repeat' first
    | assumption | exact foot_sub hM (by decide) | apply Off.carryOut | apply Off.countReads | apply Off.dropForm
    | apply Off.enqueue | apply Off.ite | split | dsimp only

theorem Off.issue (hM : 0x12000000101e32001c89000400002c44f190400 &&& M = 0x12000000101e32001c89000400002c44f190400) (c part d)
    (h : Off M s0 s) : Off M s0 (State.issue s c part d) := by
  unfold State.issue
  with_reducible repeat' first
    | assumption | exact foot_sub hM (by decide) | refine Off.takeSerial_eq ?_ ?_ (by assumption)
    | apply Off.takeSerial | apply Off.setCmd | apply Off.issueOne | apply Off.foldl | intro _ _ _ | apply Off.ite
    | split

theorem Off.takeFlow (hM : 0x80000 &&& M = 0x80000) (c)
    (h : Off M s0 s) : Off M s0 (State.takeFlow s c).2 := by
  unfold State.takeFlow
  with_reducible repeat' first
    | assumption | exact foot_has (by decide) | exact foot_sub hM (by decide) | apply Off.wrap hM | apply Off.put hM
    | apply Off.ite_snd | split

theorem Off.takeFlow_eq (hM : 0x80000 &&& M = 0x80000) {c} {x t}
    (h : Off M s0 s) (e : State.takeFlow s c = (x, t)) : Off M s0 t := by
  have k := Off.takeFlow hM c h
  rwa [e] at k

theorem Off.takeCredit' (hM : 0x400000000 &&& M = 0x400000000) (c)
    (h : Off M s0 s) : Off M s0 (State.takeCredit' s c).2 := by
  unfold State.takeCredit'
  with_reducible repeat' first
    | assumption | exact foot_has (by decide) | exact foot_sub hM (by decide) | apply Off.put hM | apply Off.ite_snd
    | split

theorem Off.takeCredit'_eq (hM : 0x400000000 &&& M = 0x400000000) {c} {x t}
    (h : Off M s0 s) (e : State.takeCredit' s c = (x, t)) : Off M s0 t := by
  have k := Off.takeCredit' hM c h
  rwa [e] at k

theorem Off.send (hM : 0x12000000101e32001c89000400002c44f190400 &&& M = 0x12000000101e32001c89000400002c44f190400) (c part)
    (h : Off M s0 s) : Off M s0 (State.send s c part) := by
  unfold State.send
  with_reducible repeat' first
    | assumption | exact foot_has (by decide) | exact foot_sub hM (by decide) | apply Off.complete | apply Off.wrap hM
    | refine Off.takeFlow_eq ?_ ?_ (by assumption) | apply Off.takeFlow
    | refine Off.takeCredit'_eq ?_ ?_ (by assumption) | apply Off.takeCredit' | apply Off.issue | apply Off.ite
    | split

theorem Off.startTransfer (hM : 0x12000000101e32001c89000400002c44f190400 &&& M = 0x12000000101e32001c89000400002c44f190400) (c)
    (h : Off M s0 s) : Off M s0 (State.startTransfer s c) := by
  unfold State.startTransfer
  with_reducible repeat' first
    | assumption | exact foot_sub hM (by decide) | apply Off.complete | apply Off.send | apply Off.ite | split

theorem Off.startHead (hM : 0x80000000000c001000000 &&& M = 0x80000000000c001000000) (i q' takes run) (hr : ∀ s c, Off M s0 s → Off M s0 (run s c)) (h : Off M s0 s) :
    Off M s0 (State.startHead s i q' takes run) := by
  unfold State.startHead
  refine Off.ite h (Off.ite (Off.put hM _ _ _ (by decide) h) ?_)
  extract_lets pos ws
  refine Off.ite h ?_
  exact hr _ _ (Off.put hM _ _ _ (by decide) (Off.fetchCmd (foot_sub hM (by decide)) i q' pos h))


theorem Off.transferRow (hM : 0x12000000101e32001c89000400002c44f190400 &&& M = 0x12000000101e32001c89000400002c44f190400) (i q' cmd) (h : Off M s0 s) : Off M s0 (State.transferRow s i q' cmd) :=
  Off.flow (foot_sub hM (by decide)) (Off.startHead (foot_sub hM (by decide)) i q' _ _ (fun _ c hs => Off.startTransfer (foot_sub hM (by decide)) c hs) h)


theorem execNop_off {t} (i q') (e : execNop i q' s = .next t) : Off 0x12000000101e32001c89000400002c44f190400 s t := by
  have hM : 0x12000000101e32001c89000400002c44f190400 &&& 0x12000000101e32001c89000400002c44f190400 = 0x12000000101e32001c89000400002c44f190400 := Nat.and_self _
  exact live_off (fun _ h => Off.flow (foot_sub hM (by decide)) (Off.startHead (foot_sub hM (by decide)) _ _ _ _ (fun _ c hs => Off.startTransfer (foot_sub hM (by decide)) c hs) h)) (Off.refl _ s) e


theorem execPut_off {t} (i q') (e : execPut i q' s = .next t) :
    Off 0x12000000101e32001c89000400002c44f190400 s t := by
  have hM : 0x12000000101e32001c89000400002c44f190400 &&& 0x12000000101e32001c89000400002c44f190400 = 0x12000000101e32001c89000400002c44f190400 := Nat.and_self _
  refine live_off (fun s h => ?_) (Off.refl _ s) e
  with_reducible repeat' first
    | assumption | exact foot_sub hM (by decide) | apply Off.transferRow

theorem execGet_off {t} (i q') (e : execGet i q' s = .next t) :
    Off 0x12000000101e32001c89000400002c44f190400 s t := by
  have hM : 0x12000000101e32001c89000400002c44f190400 &&& 0x12000000101e32001c89000400002c44f190400 = 0x12000000101e32001c89000400002c44f190400 := Nat.and_self _
  refine live_off (fun s h => ?_) (Off.refl _ s) e
  with_reducible repeat' first
    | assumption | exact foot_sub hM (by decide) | apply Off.transferRow

theorem execPutMc_off {t} (i q') (e : execPutMc i q' s = .next t) :
    Off 0x12000000101e32001c89000400002c44f190400 s t := by
  have hM : 0x12000000101e32001c89000400002c44f190400 &&& 0x12000000101e32001c89000400002c44f190400 = 0x12000000101e32001c89000400002c44f190400 := Nat.and_self _
  refine live_off (fun s h => ?_) (Off.refl _ s) e
  with_reducible repeat' first
    | assumption | exact foot_sub hM (by decide) | apply Off.transferRow

theorem execAtomAdd_off {t} (i q') (e : execAtomAdd i q' s = .next t) :
    Off 0x12000000101e32001c89000400002c44f190400 s t := by
  have hM : 0x12000000101e32001c89000400002c44f190400 &&& 0x12000000101e32001c89000400002c44f190400 = 0x12000000101e32001c89000400002c44f190400 := Nat.and_self _
  refine live_off (fun s h => ?_) (Off.refl _ s) e
  with_reducible repeat' first
    | assumption | exact foot_sub hM (by decide) | apply Off.transferRow

theorem execAtomSwap_off {t} (i q') (e : execAtomSwap i q' s = .next t) :
    Off 0x12000000101e32001c89000400002c44f190400 s t := by
  have hM : 0x12000000101e32001c89000400002c44f190400 &&& 0x12000000101e32001c89000400002c44f190400 = 0x12000000101e32001c89000400002c44f190400 := Nat.and_self _
  refine live_off (fun s h => ?_) (Off.refl _ s) e
  with_reducible repeat' first
    | assumption | exact foot_sub hM (by decide) | apply Off.transferRow

theorem execSignal_off {t} (i q') (e : execSignal i q' s = .next t) :
    Off 0x12000000101e32001c89000400002c44f190400 s t := by
  have hM : 0x12000000101e32001c89000400002c44f190400 &&& 0x12000000101e32001c89000400002c44f190400 = 0x12000000101e32001c89000400002c44f190400 := Nat.and_self _
  refine live_off (fun s h => ?_) (Off.refl _ s) e
  with_reducible repeat' first
    | assumption | exact foot_sub hM (by decide) | apply Off.transferRow

theorem execAm_off {t} (i q') (e : execAm i q' s = .next t) :
    Off 0x12000000101e32001c89000400002c44f190400 s t := by
  have hM : 0x12000000101e32001c89000400002c44f190400 &&& 0x12000000101e32001c89000400002c44f190400 = 0x12000000101e32001c89000400002c44f190400 := Nat.and_self _
  refine live_off (fun s h => ?_) (Off.refl _ s) e
  with_reducible repeat' first
    | assumption | exact foot_sub hM (by decide) | apply Off.transferRow

theorem execAmReply_off {t} (i q') (e : execAmReply i q' s = .next t) :
    Off 0x12000000101e32001c89000400002c44f190400 s t := by
  have hM : 0x12000000101e32001c89000400002c44f190400 &&& 0x12000000101e32001c89000400002c44f190400 = 0x12000000101e32001c89000400002c44f190400 := Nat.and_self _
  refine live_off (fun s h => ?_) (Off.refl _ s) e
  with_reducible repeat' first
    | assumption | exact foot_sub hM (by decide) | apply Off.transferRow

theorem Off.reissue (hM : 0x12000000101e32001c89000400002c44f190400 &&& M = 0x12000000101e32001c89000400002c44f190400) (c)
    (h : Off M s0 s) : Off M s0 (State.reissue s c) := by
  unfold State.reissue
  with_reducible repeat' first
    | assumption | exact foot_has (by decide) | exact foot_bit hM (by decide) | exact foot_sub hM (by decide)
    | apply Off.sat hM | apply Off.complete | apply Off.issue | apply Off.ite | split | apply Off.upd_stale

theorem execRequestTimeout_off {t} (i q' pos) (e : execRequestTimeout i q' pos s = .next t) :
    Off 0x12000000101e32001c89000400002c44f190400 s t := by
  have hM : 0x12000000101e32001c89000400002c44f190400 &&& 0x12000000101e32001c89000400002c44f190400 = 0x12000000101e32001c89000400002c44f190400 := Nat.and_self _
  refine live_off (fun s h => ?_) (Off.refl _ s) e
  with_reducible repeat' first
    | assumption | exact foot_sub hM (by decide) | apply Off.flow | apply Off.reissue | apply Off.complete
    | apply Off.showRing | apply Off.ite | split

theorem Off.noteGuard (hM : 0x20000000000000000080c00000000000000000 &&& M = 0x20000000000000000080c00000000000000000) (r n cmd)
    (h : Off M s0 s) : Off M s0 (State.noteGuard s r n cmd) := by
  unfold State.noteGuard
  with_reducible repeat' first
    | assumption | exact foot_has (by decide) | exact foot_sub hM (by decide) | apply Off.sat hM
    | apply Off.setWord0 hM | apply Off.event

theorem allRegs_bit (r : Reg) : (0x1ffffffffffffffffffff : Nat).testBit r.num = true := by cases r <;> decide

theorem Off.anyWord (hM : 0x1ffffffffffffffffffff &&& M = 0x1ffffffffffffffffffff) (r : Reg) (n : Nat) (v : Word) (b : Nat)
    (h : Off M s0 s) : Off M s0 (s.setWord r n v b) := by
  refine ⟨fun r' n' b' hb' hr' => ?_, fun x hx => ?_⟩
  · rw [foot_bit hM (allRegs_bit r')] at hr'
    contradiction
  · have := h.stores x hx
    cases x <;> exact this

theorem Off.doWrites (hM : 0x1ffffffffffffffffffff &&& M = 0x1ffffffffffffffffffff) (ws) (h : Off M s0 s) : Off M s0 (State.doWrites s ws) :=
  h.foldl (fun _ _ hs => hs.anyWord hM _ _ _ _)


theorem Off.ownBank (hM : 0x20000000000000000080000000001800000000 &&& M = 0x20000000000000000080000000001800000000) (o) (h : Off M s0 s) : Off M s0 (State.ownBank s o) := by
  unfold State.ownBank
  refine Off.memEvent (foot_sub hM (by decide)) _ _ _ _ (Off.setBank (foot_sub hM (by decide)) _ _ _ (h.setWord0 hM _ _ _ ?_))
  unfold bankReg
  split <;> decide


theorem Off.loadHandover (hM : 0x25800000000000000080c00000013800000000 &&& M = 0x25800000000000000080c00000013800000000) {o t} (h : Off M s0 s) (e : State.loadHandover s o = some t) : Off M s0 t := by
  unfold State.loadHandover at e
  split at e
  · rw [← Option.some.inj e]; exact h
  split at e
  · rw [← Option.some.inj e]; exact Off.noteGuard (foot_sub hM (by decide)) _ _ _ h
  split at e
  · rw [← Option.some.inj e]; exact Off.ownBank (foot_sub hM (by decide)) _ h
  · have k := Off.alornHandover (foot_sub hM (by decide)) o h
    dsimp only at e
    split at e
    · contradiction
    · rw [← Option.some.inj e]; exact k


theorem Off.loadHandovers (hM : 0x25800000000000000080c00000013800000000 &&& M = 0x25800000000000000080c00000013800000000) (h : Off M s0 s) : Off M s0 (State.loadHandovers s) := by
  unfold State.loadHandovers
  have hf : ∀ (l : Tbl Word) (x : State × Tbl Word), Off M s0 x.1 → Off M s0 (l.foldl (fun (x : State × Tbl Word) e =>
      match x.1.loadHandover (recordOwner e.2 (e.1 / 256) (e.1 % 256)) with
      | some t => (t, x.2)
      | none => (x.1, e :: x.2)) x).1 := by
    intro l
    induction l with
    | nil => intro x hx; exact hx
    | cons e l ih =>
      intro x hx
      refine ih _ ?_
      dsimp only
      split
      · next t ht => exact Off.loadHandover (foot_sub hM (by decide)) hx ht
      · exact hx
  exact Off.modAlorn (foot_sub hM (by decide)) _ (hf s.alorn.banksToDo (s, []) h)


theorem Off.refuseWrite (hM : 0x8000000 &&& M = 0x8000000) (i off)
    (h : Off M s0 s) : Off M s0 (State.refuseWrite s i off) := by
  unfold State.refuseWrite
  with_reducible repeat' first
    | assumption | exact foot_has (by decide) | exact foot_sub hM (by decide) | apply Off.put hM

theorem Off.writeTail (hM : 0x1800000 &&& M = 0x1800000) (i q' v)
    (h : Off M s0 s) : Off M s0 (State.writeTail s i q' v) := by
  unfold State.writeTail
  with_reducible repeat' first
    | assumption | exact foot_has (by decide) | exact foot_sub hM (by decide) | apply Off.put hM | apply Off.ite
    | split

theorem Off.skipHead (hM : 0x1610001c80000000000c407080000 &&& M = 0x1610001c80000000000c407080000) (i q')
    (h : Off M s0 s) : Off M s0 (State.skipHead s i q') := by
  unfold State.skipHead
  with_reducible repeat' first
    | assumption | exact foot_has (by decide) | exact foot_sub hM (by decide)
    | refine Off.fetchCmd_eq ?_ ?_ (by assumption) | apply Off.fetchCmd | apply Off.complete | apply Off.put hM
    | apply Off.ite | split

theorem Off.writeBase (hM : 0x1400000 &&& M = 0x1400000) (i q' v)
    (h : Off M s0 s) : Off M s0 (State.writeBase s i q' v) := by
  unfold State.writeBase
  with_reducible repeat' first
    | assumption | exact foot_has (by decide) | exact foot_sub hM (by decide) | apply Off.put hM | apply Off.ite
    | split

theorem Off.writeQctl (hM : 0x1610001c80000000000c40f280000 &&& M = 0x1610001c80000000000c40f280000) (i q' off v)
    (h : Off M s0 s) : Off M s0 (State.writeQctl s i q' off v) := by
  unfold State.writeQctl
  with_reducible repeat' first
    | assumption | exact foot_has (by decide) | exact foot_sub hM (by decide) | apply Off.refuseWrite
    | apply Off.put hM | apply Off.skipHead | apply Off.ite | split

theorem execCpQtailWrite_off {t} (i q' v) (e : execCpQtailWrite i q' v s = .next t) :
    Off 0x1800000 s t := by
  have hM : 0x1800000 &&& 0x1800000 = 0x1800000 := Nat.and_self _
  refine live_off (fun s h => ?_) (Off.refl _ s) e
  with_reducible repeat' first
    | assumption | exact foot_sub hM (by decide) | apply Off.writeTail | apply Off.ite | split

theorem execSkip_off {t} (i q') (e : execSkip i q' s = .next t) :
    Off 0x101632001c80000000000c407090400 s t := by
  have hM : 0x101632001c80000000000c407090400 &&& 0x101632001c80000000000c407090400 = 0x101632001c80000000000c407090400 := Nat.and_self _
  refine live_off (fun s h => ?_) (Off.refl _ s) e
  with_reducible repeat' first
    | assumption | exact foot_sub hM (by decide) | apply Off.flow | apply Off.skipHead | apply Off.ite | split

theorem execCpQbaseWrite_off {t} (i q' v) (e : execCpQbaseWrite i q' v s = .next t) :
    Off 0x1400000 s t := by
  have hM : 0x1400000 &&& 0x1400000 = 0x1400000 := Nat.and_self _
  refine live_off (fun s h => ?_) (Off.refl _ s) e
  with_reducible repeat' first
    | assumption | exact foot_sub hM (by decide) | apply Off.writeBase | apply Off.ite | split

theorem execCpEvcntWrite_off {t} (i k v inc) (e : execCpEvcntWrite i k v inc s = .next t) :
    Off 0x2000000 s t := by
  have hM : 0x2000000 &&& 0x2000000 = 0x2000000 := Nat.and_self _
  refine live_off (fun s h => ?_) (Off.refl _ s) e
  with_reducible repeat' first
    | assumption | exact foot_has (by decide) | exact foot_sub hM (by decide) | apply Off.put hM | apply Off.ite
    | split

/-- Every register of a list has its bit. -/
theorem foot_list {l : List Reg} {r : Reg} (hM : L &&& M = L) (hl : l.all (fun r => L.testBit r.num) = true) (hr : r ∈ l) :
    M.testBit r.num = true := foot_bit hM (List.all_eq_true.1 hl r hr)

theorem Off.foldlMem {α : Type} {g : State → α → State} {l : List α} {s : State} (h : Off M s0 s)
    (hg : ∀ s a, a ∈ l → Off M s0 s → Off M s0 (g s a)) : Off M s0 (l.foldl g s) := by
  induction l generalizing s with
  | nil => exact h
  | cons a l ih => exact ih (hg s a List.mem_cons_self h) (fun s b hb => hg s b (List.mem_cons_of_mem _ hb))

theorem Off.writeHandover (hM : 0x25800000000000000080000000013800000000 &&& M = 0x25800000000000000080000000013800000000) (i v) (h : Off M s0 s) : Off M s0 (State.writeHandover s i v) := by
  unfold State.writeHandover
  refine Off.ite h ?_
  extract_lets s1
  have h1 : Off M s0 s1 := by
    refine Off.foldlMem h (fun s f hf hs => Off.put hM _ _ _ ?_ hs)
    have e : f.reg = .CP_HANDOVER := by
      simp only [List.mem_cons, List.not_mem_nil, or_false] at hf
      rcases hf with rfl | rfl | rfl | rfl | rfl | rfl | rfl <;> rfl
    rw [e]
    decide
  exact Off.put hM _ _ _ (by decide) (Off.coreHandover (foot_sub hM (by decide)) _ _ h1)


theorem execCpHandoverWrite_off {t} (i v) (e : execCpHandoverWrite i v s = .next t) :
    Off 0x25800000000000000080c00000013800000000 s t := by
  have hM : 0x25800000000000000080c00000013800000000 &&& 0x25800000000000000080c00000013800000000 = 0x25800000000000000080c00000013800000000 := Nat.and_self _
  refine live_off (fun s h => ?_) (Off.refl _ s) e
  with_reducible repeat' first
    | assumption | exact foot_sub hM (by decide) | apply Off.loadHandovers | apply Off.writeHandover | apply Off.ite
    | split

theorem execHandoverDrainDone_off {t} (ep bank) (e : execHandoverDrainDone ep bank s = .next t) :
    Off 0x25800000000000000080c00000013800000000 s t := by
  have hM : 0x25800000000000000080c00000013800000000 &&& 0x25800000000000000080c00000013800000000 = 0x25800000000000000080c00000013800000000 := Nat.and_self _
  refine live_off (fun s h => ?_) (Off.refl _ s) e
  with_reducible repeat' first
    | assumption | exact foot_sub hM (by decide) | apply Off.loadHandovers | apply Off.finishHandover | apply Off.ite
    | split

theorem execHandoverLeaseExpiry_off {t} (ep bank) (e : execHandoverLeaseExpiry ep bank s = .next t) :
    Off 0x21800000002000000080000000013800000000 s t := by
  have hM : 0x21800000002000000080000000013800000000 &&& 0x21800000002000000080000000013800000000 = 0x21800000002000000080000000013800000000 := Nat.and_self _
  refine live_off (fun s h => ?_) (Off.refl _ s) e
  with_reducible repeat' first
    | assumption | exact foot_sub hM (by decide) | apply Off.breakHandover | apply Off.ite | split

theorem Off.writeRingtab (hM : 0x10000000 &&& M = 0x10000000) (i v)
    (h : Off M s0 s) : Off M s0 (State.writeRingtab s i v) := by
  unfold State.writeRingtab
  with_reducible repeat' first
    | assumption | exact foot_has (by decide) | exact foot_sub hM (by decide) | apply Off.put hM | apply Off.ite
    | split

theorem execCpRingtabWrite_off {t} (i v) (e : execCpRingtabWrite i v s = .next t) :
    Off 0x10000000 s t := by
  have hM : 0x10000000 &&& 0x10000000 = 0x10000000 := Nat.and_self _
  refine live_off (fun s h => ?_) (Off.refl _ s) e
  with_reducible repeat' first
    | assumption | exact foot_sub hM (by decide) | apply Off.writeRingtab | apply Off.ite | split

theorem Off.refuseRing (hM : 0x20000000000000000080000000000040000000 &&& M = 0x20000000000000000080000000000040000000) (i k word)
    (h : Off M s0 s) : Off M s0 (State.refuseRing s i k word) := by
  unfold State.refuseRing
  with_reducible repeat' first
    | assumption | exact foot_has (by decide) | exact foot_sub hM (by decide) | apply Off.event | apply Off.sat hM

theorem Off.enableRing (hM : 0x2000000000800001c88000000000c040000000 &&& M = 0x2000000000800001c88000000000c040000000) (i k)
    (h : Off M s0 s) : Off M s0 (State.enableRing s i k) := by
  unfold State.enableRing
  with_reducible repeat' first
    | assumption | exact foot_bit hM (by decide) | exact foot_sub hM (by decide) | apply Off.refuseRing
    | apply Off.drawn | apply Off.countReads | apply Off.writeBytes | apply Off.showRing | apply Off.ite | split
    | apply Off.upd_rings

theorem Off.disableRing (hM : 0x2000000101e32001c89000400002044f190400 &&& M = 0x2000000101e32001c89000400002044f190400) (i k)
    (h : Off M s0 s) : Off M s0 (State.disableRing s i k) := by
  unfold State.disableRing
  with_reducible repeat' first
    | assumption | exact foot_bit hM (by decide) | exact foot_sub hM (by decide) | apply Off.freeHold
    | apply Off.dropReply | apply Off.respond | apply Off.cacheReply | apply Off.writeBytes | apply Off.foldl
    | intro _ _ _ | apply Off.ite | split | apply Off.upd_rings

theorem Off.advanceRing (hM : 0x2000000101e32001c89000400002044f190400 &&& M = 0x2000000101e32001c89000400002044f190400) (i k pos)
    (h : Off M s0 s) : Off M s0 (State.advanceRing s i k pos) := by
  unfold State.advanceRing
  with_reducible repeat' first
    | assumption | exact foot_has (by decide) | exact foot_bit hM (by decide) | exact foot_sub hM (by decide)
    | apply Off.sat hM | apply Off.showRing | apply Off.drainRing | apply Off.ite | split | apply Off.upd_rings

theorem Off.writeRingctl (hM : 0x2000000101e32001c89000400002c44f190400 &&& M = 0x2000000101e32001c89000400002c44f190400) (i off v)
    (h : Off M s0 s) : Off M s0 (State.writeRingctl s i off v) := by
  unfold State.writeRingctl
  with_reducible repeat' first
    | assumption | exact foot_sub hM (by decide) | apply Off.advanceRing | apply Off.enableRing
    | apply Off.disableRing | apply Off.refuseWrite | apply Off.ite | split

theorem execRingAdvance_off {t} (i ring pos) (e : execRingAdvance i ring pos s = .next t) :
    Off 0x2000000101e32001c89000400002c44f190400 s t := by
  have hM : 0x2000000101e32001c89000400002c44f190400 &&& 0x2000000101e32001c89000400002c44f190400 = 0x2000000101e32001c89000400002c44f190400 := Nat.and_self _
  refine live_off (fun s h => ?_) (Off.refl _ s) e
  with_reducible repeat' first
    | assumption | exact foot_sub hM (by decide) | apply Off.flow | apply Off.advanceRing | apply Off.ite | split

theorem execRingEnable_off {t} (i ring) (e : execRingEnable i ring s = .next t) :
    Off 0x2000000000800001c88000000000c040000000 s t := by
  have hM : 0x2000000000800001c88000000000c040000000 &&& 0x2000000000800001c88000000000c040000000 = 0x2000000000800001c88000000000c040000000 := Nat.and_self _
  refine live_off (fun s h => ?_) (Off.refl _ s) e
  with_reducible repeat' first
    | assumption | exact foot_sub hM (by decide) | apply Off.enableRing | apply Off.ite | split

theorem execRingDisable_off {t} (i ring) (e : execRingDisable i ring s = .next t) :
    Off 0x2000000101e32001c89000400002c44f190400 s t := by
  have hM : 0x2000000101e32001c89000400002c44f190400 &&& 0x2000000101e32001c89000400002c44f190400 = 0x2000000101e32001c89000400002c44f190400 := Nat.and_self _
  refine live_off (fun s h => ?_) (Off.refl _ s) e
  with_reducible repeat' first
    | assumption | exact foot_sub hM (by decide) | apply Off.flow | apply Off.disableRing | apply Off.ite | split

theorem Off.coreWrite (hM : 0x2580000101e32001c9ffffffffffffffffffff &&& M = 0x2580000101e32001c9ffffffffffffffffffff) (i off v) (h : Off M s0 s) : Off M s0 (State.coreWrite s i off v) := by
  unfold State.coreWrite
  with_reducible repeat' first
    | assumption | exact foot_has (by decide) | exact foot_sub hM (by decide) | apply Off.writeQctl | apply Off.writeBase
    | apply Off.writeTail | apply Off.writeRingtab | apply Off.writeRingctl | apply Off.writeHandover | apply Off.refuseWrite
    | apply Off.put hM | apply Off.anyWord | apply Off.ite | split


theorem Off.copyBytes (hM : 0x1c00000000000c000000000 &&& M = 0x1c00000000000c000000000) (i src dst n)
    (h : Off M s0 s) : Off M s0 (State.copyBytes s i src dst n) := by
  unfold State.copyBytes
  with_reducible repeat' first
    | assumption | exact foot_bit hM (by decide) | exact foot_sub hM (by decide) | apply Off.countReads
    | apply Off.writeBytes | apply Off.foldl | intro _ _ _ | apply Off.upd_badWords

theorem Off.localColl (hM : 0x1610001c00000000000c407080000 &&& M = 0x1610001c00000000000c407080000) (c r)
    (h : Off M s0 s) : Off M s0 (State.localColl s c r) := by
  unfold State.localColl
  with_reducible repeat' first
    | assumption | exact foot_sub hM (by decide) | apply Off.writeBytes | apply Off.complete | apply Off.copyBytes
    | apply Off.ite | split

theorem Off.arriveAt (hM : 0x1000320000000000000000000010400 &&& M = 0x1000320000000000000000000010400) (c r)
    (h : Off M s0 s) : Off M s0 (State.arriveAt s c r) := by
  unfold State.arriveAt
  with_reducible repeat' first
    | assumption | exact foot_sub hM (by decide) | apply Off.emit | apply Off.ite | split

theorem Off.startColl (hM : 0x800101632001c80000001000c407090400 &&& M = 0x800101632001c80000001000c407090400) (c)
    (h : Off M s0 s) : Off M s0 (State.startColl s c) := by
  unfold State.startColl
  with_reducible repeat' first
    | assumption | exact foot_has (by decide) | exact foot_sub hM (by decide) | apply Off.complete
    | apply Off.leaveBuffers | apply Off.forgetAborts | apply Off.put hM | apply Off.localColl | apply Off.arriveAt
    | apply Off.setCmd | apply Off.feed | apply Off.ite | split | dsimp only

theorem Off.collRow (hM : 0x800101632001c80000001000c407090400 &&& M = 0x800101632001c80000001000c407090400) (i q' cmd) (h : Off M s0 s) : Off M s0 (State.collRow s i q' cmd) :=
  Off.flow (foot_sub hM (by decide)) (Off.startHead (foot_sub hM (by decide)) i q' _ _ (fun _ c hs => Off.startColl (foot_sub hM (by decide)) c hs) h)


theorem execBarrier_off {t} (i q') (e : execBarrier i q' s = .next t) :
    Off 0x800101632001c80000001000c407090400 s t := by
  have hM : 0x800101632001c80000001000c407090400 &&& 0x800101632001c80000001000c407090400 = 0x800101632001c80000001000c407090400 := Nat.and_self _
  refine live_off (fun s h => ?_) (Off.refl _ s) e
  with_reducible repeat' first
    | assumption | exact foot_sub hM (by decide) | apply Off.collRow

theorem execScalarReduce_off {t} (i q') (e : execScalarReduce i q' s = .next t) :
    Off 0x800101632001c80000001000c407090400 s t := by
  have hM : 0x800101632001c80000001000c407090400 &&& 0x800101632001c80000001000c407090400 = 0x800101632001c80000001000c407090400 := Nat.and_self _
  refine live_off (fun s h => ?_) (Off.refl _ s) e
  with_reducible repeat' first
    | assumption | exact foot_sub hM (by decide) | apply Off.collRow

theorem execReduce_off {t} (i q') (e : execReduce i q' s = .next t) :
    Off 0x800101632001c80000001000c407090400 s t := by
  have hM : 0x800101632001c80000001000c407090400 &&& 0x800101632001c80000001000c407090400 = 0x800101632001c80000001000c407090400 := Nat.and_self _
  refine live_off (fun s h => ?_) (Off.refl _ s) e
  with_reducible repeat' first
    | assumption | exact foot_sub hM (by decide) | apply Off.collRow

theorem execAllReduce_off {t} (i q') (e : execAllReduce i q' s = .next t) :
    Off 0x800101632001c80000001000c407090400 s t := by
  have hM : 0x800101632001c80000001000c407090400 &&& 0x800101632001c80000001000c407090400 = 0x800101632001c80000001000c407090400 := Nat.and_self _
  refine live_off (fun s h => ?_) (Off.refl _ s) e
  with_reducible repeat' first
    | assumption | exact foot_sub hM (by decide) | apply Off.collRow

theorem execBroadcast_off {t} (i q') (e : execBroadcast i q' s = .next t) :
    Off 0x800101632001c80000001000c407090400 s t := by
  have hM : 0x800101632001c80000001000c407090400 &&& 0x800101632001c80000001000c407090400 = 0x800101632001c80000001000c407090400 := Nat.and_self _
  refine live_off (fun s h => ?_) (Off.refl _ s) e
  with_reducible repeat' first
    | assumption | exact foot_sub hM (by decide) | apply Off.collRow

theorem execReduceScatter_off {t} (i q') (e : execReduceScatter i q' s = .next t) :
    Off 0x800101632001c80000001000c407090400 s t := by
  have hM : 0x800101632001c80000001000c407090400 &&& 0x800101632001c80000001000c407090400 = 0x800101632001c80000001000c407090400 := Nat.and_self _
  refine live_off (fun s h => ?_) (Off.refl _ s) e
  with_reducible repeat' first
    | assumption | exact foot_sub hM (by decide) | apply Off.collRow

theorem execAllGather_off {t} (i q') (e : execAllGather i q' s = .next t) :
    Off 0x800101632001c80000001000c407090400 s t := by
  have hM : 0x800101632001c80000001000c407090400 &&& 0x800101632001c80000001000c407090400 = 0x800101632001c80000001000c407090400 := Nat.and_self _
  refine live_off (fun s h => ?_) (Off.refl _ s) e
  with_reducible repeat' first
    | assumption | exact foot_sub hM (by decide) | apply Off.collRow

theorem Off.writeChunk (hM : 0x1c80000000000c000000000 &&& M = 0x1c80000000000c000000000) (i run a p)
    (h : Off M s0 s) : Off M s0 (State.writeChunk s i run a p).2 := by
  unfold State.writeChunk
  with_reducible repeat' first
    | assumption | exact foot_sub hM (by decide) | apply Off.countNoOwner | apply Off.writePayload | apply Off.ite_snd
    | split

theorem Off.writeChunk_eq (hM : 0x1c80000000000c000000000 &&& M = 0x1c80000000000c000000000) {i} {run} {a} {p} {x t}
    (h : Off M s0 s) (e : State.writeChunk s i run a p = (x, t)) : Off M s0 t := by
  have k := Off.writeChunk hM i run a p h
  rwa [e] at k

theorem Off.takeChunk (hM : 0x200001610001c80000000000c407080000 &&& M = 0x200001610001c80000000000c407080000) (i c r p)
    (h : Off M s0 s) : Off M s0 (State.takeChunk s i c r p) := by
  unfold State.takeChunk
  with_reducible repeat' first
    | assumption | exact foot_sub hM (by decide) | refine Off.writeChunk_eq ?_ ?_ (by assumption)
    | apply Off.writeChunk | apply Off.finishColl | apply Off.setCmd | apply Off.ite | split

theorem Off.redDown (hM : 0x2000200001610001c89000000000c407080000 &&& M = 0x2000200001610001c89000000000c407080000) (i p)
    (h : Off M s0 s) : Off M s0 (State.redDown s i p) := by
  unfold State.redDown
  with_reducible repeat' first
    | assumption | exact foot_sub hM (by decide) | apply Off.stray | apply Off.takeChunk | apply Off.ite | split

theorem Off.takeDownAt (hM : 0x2000200101632001c89000400002c40f090400 &&& M = 0x2000200101632001c89000400002c40f090400) (e' p)
    (h : Off M s0 s) : Off M s0 (State.takeDownAt s e' p) := by
  unfold State.takeDownAt
  with_reducible repeat' first
    | assumption | exact foot_sub hM (by decide) | apply Off.discardHead | apply Off.redDown | apply Off.portEndpoint
    | apply Off.ite | split

theorem execRedDownArrival_off {t} (ep pkt) (e : execRedDownArrival ep pkt s = .next t) :
    Off 0x20002001016f6001c89000400002c40f090600 s t := by
  have hM : 0x20002001016f6001c89000400002c40f090600 &&& 0x20002001016f6001c89000400002c40f090600 = 0x20002001016f6001c89000400002c40f090600 := Nat.and_self _
  refine live_off (fun s h => ?_) (Off.refl _ s) e
  with_reducible repeat' first
    | assumption | exact foot_sub hM (by decide) | apply Off.takeIn | apply Off.flow | apply Off.resetDiscard
    | apply Off.takeDownAt | apply Off.ite | split

theorem Off.sinkRefuse (hM : 0x20000000000000000080000000008000000000 &&& M = 0x20000000000000000080000000008000000000) (st p status)
    (h : Off M s0 s) : Off M s0 (State.sinkRefuse s st p status) := by
  unfold State.sinkRefuse
  with_reducible repeat' first
    | assumption | exact foot_has (by decide) | exact foot_sub hM (by decide) | apply Off.event | apply Off.sat hM

theorem Off.sinkWrite (hM : 0x2000400000000001c880000000008000000000 &&& M = 0x2000400000000001c880000000008000000000) (st p)
    (h : Off M s0 s) : Off M s0 (State.sinkWrite s st p) := by
  unfold State.sinkWrite
  with_reducible repeat' first
    | assumption | exact foot_sub hM (by decide) | apply Off.sinkRefuse | apply Off.noteSink | apply Off.writePayload
    | apply Off.ite | split

theorem execStackSinkRedDown_off {t} (st pkt) (e : execStackSinkRedDown st pkt s = .next t) :
    Off 0x20004001016f6001c89000400002c407090600 s t := by
  have hM : 0x20004001016f6001c89000400002c407090600 &&& 0x20004001016f6001c89000400002c407090600 = 0x20004001016f6001c89000400002c407090600 := Nat.and_self _
  refine live_off (fun s h => ?_) (Off.refl _ s) e
  with_reducible repeat' first
    | assumption | exact foot_sub hM (by decide) | apply Off.takeIn | apply Off.flow | apply Off.discardHead
    | apply Off.sinkWrite | apply Off.ite | split

theorem execCollectiveTimeout_off {t} (i q') (e : execCollectiveTimeout i q' s = .next t) :
    Off 0x2605f3ff21632001c890044090c2c40f090600 s t := by
  have hM : 0x2605f3ff21632001c890044090c2c40f090600 &&& 0x2605f3ff21632001c890044090c2c40f090600 = 0x2605f3ff21632001c890044090c2c40f090600 := Nat.and_self _
  refine live_off (fun s h => ?_) (Off.refl _ s) e
  with_reducible repeat' first
    | assumption | exact foot_sub hM (by decide) | apply Off.flow | apply Off.abortColl | apply Off.ite | split

theorem Off.endOwn (hM : 0x2605f3ff21632001c890044090c2040f090600 &&& M = 0x2605f3ff21632001c890044090c2040f090600) (is pick st cause)
    (h : Off M s0 s) : Off M s0 (State.endOwn s is pick st cause) := by
  unfold State.endOwn
  with_reducible repeat' first
    | assumption | exact foot_sub hM (by decide) | apply Off.finishColl | apply Off.raiseAbort | apply Off.foldl
    | intro _ _ _ | apply Off.ite | split

theorem Off.quiesceColls (hM : 0x2605f3ff21632001c890044090c2040f090600 &&& M = 0x2605f3ff21632001c890044090c2040f090600) (is)
    (h : Off M s0 s) : Off M s0 (State.quiesceColls s is) := by
  unfold State.quiesceColls
  with_reducible repeat' first
    | assumption | exact foot_sub hM (by decide) | apply Off.endOwn

theorem Off.fenceColls (hM : 0x2605f3ff21632001c890044090c2040f090600 &&& M = 0x2605f3ff21632001c890044090c2040f090600) (is)
    (h : Off M s0 s) : Off M s0 (State.fenceColls s is) := by
  unfold State.fenceColls
  with_reducible repeat' first
    | assumption | exact foot_sub hM (by decide) | apply Off.endOwn

theorem Off.resetColls (hM : 0x2605f3ff21632001c890044090c2040f090600 &&& M = 0x2605f3ff21632001c890044090c2040f090600) (i)
    (h : Off M s0 s) : Off M s0 (State.resetColls s i) := by
  unfold State.resetColls
  with_reducible repeat' first
    | assumption | exact foot_bit hM (by decide) | exact foot_sub hM (by decide) | apply Off.raiseAbort
    | apply Off.foldl | intro _ _ _ | apply Off.upd_cmds

end Sys2Proof.Machine
end

