-- ==== Sys2Proof/Laws/FrameAlorn.lean ====
section
/-! SUPPORT. What every operation may change, one lemma per operation, by footprint (Laws/Frame.lean): Stencil loads, Alorn, resets and ticks. -/

namespace Sys2Proof.Machine

variable {M L : Nat} {s0 s : State}

theorem Off.clearReg (hM : 0x1ffffffffffffffffffff &&& M = 0x1ffffffffffffffffffff) (r n) (h : Off M s0 s) : Off M s0 (State.clearReg s r n) :=
  Off.ite h (h.anyWord hM _ _ _ _)


theorem Off.record (hM : 0x40000000100000000881000000000000000100 &&& M = 0x40000000100000000881000000000000000100) (w0 w1 w2 w3)
    (h : Off M s0 s) : Off M s0 (State.record s w0 w1 w2 w3) := by
  unfold State.record
  with_reducible repeat' first
    | assumption | exact foot_has (by decide) | exact foot_bit hM (by decide) | exact foot_sub hM (by decide)
    | apply Off.put hM | apply Off.pulse | apply Off.ite | split | apply Off.upd_log

theorem Off.writeRecord (hM : 0x60000000100000000881000000000000000100 &&& M = 0x60000000100000000881000000000000000100)
    (h : Off M s0 s) : Off M s0 (State.writeRecord s) := by
  unfold State.writeRecord
  with_reducible repeat' first
    | assumption | exact foot_bit hM (by decide) | exact foot_sub hM (by decide) | apply Off.record | apply Off.ite
    | split | dsimp only | apply Off.upd_logIntake

theorem execLogRecordWrite_off {t} (e : execLogRecordWrite s = .next t) :
    Off 0x60000000100000000881000000000000000100 s t := by
  have hM : 0x60000000100000000881000000000000000100 &&& 0x60000000100000000881000000000000000100 = 0x60000000100000000881000000000000000100 := Nat.and_self _
  refine live_off (fun s h => ?_) (Off.refl _ s) e
  with_reducible repeat' first
    | assumption | exact foot_sub hM (by decide) | apply Off.writeRecord | apply Off.ite | split

theorem Off.startBackground (hM : 0x4000000000000000000000000000000000000 &&& M = 0x4000000000000000000000000000000000000) (a cmd arg)
    (h : Off M s0 s) : Off M s0 (State.startBackground s a cmd arg).1 := by
  unfold State.startBackground
  with_reducible repeat' first
    | assumption | exact foot_sub hM (by decide) | apply Off.modAlorn

theorem Off.startBackground_eq (hM : 0x4000000000000000000000000000000000000 &&& M = 0x4000000000000000000000000000000000000) {a} {cmd} {arg} {x t}
    (h : Off M s0 s) (e : State.startBackground s a cmd arg = (t, x)) : Off M s0 t := by
  have k := Off.startBackground hM a cmd arg h
  rwa [e] at k

theorem Off.finishDrain (hM : 0x24000000020000000080000000000000000000 &&& M = 0x24000000020000000080000000000000000000) (p)
    (h : Off M s0 s) : Off M s0 (State.finishDrain s p) := by
  unfold State.finishDrain
  with_reducible repeat' first
    | assumption | exact foot_sub hM (by decide) | apply Off.setPart | apply Off.endAll | apply Off.event

theorem Off.stopIntake (hM : 0x2605f3ff21632001c890044090c2040f090600 &&& M = 0x2605f3ff21632001c890044090c2040f090600) (p)
    (h : Off M s0 s) : Off M s0 (State.stopIntake s p) := by
  unfold State.stopIntake
  with_reducible repeat' first
    | assumption | exact foot_sub hM (by decide) | apply Off.quiesceColls

theorem Off.doQuiesce (hM : 0x2605f3ff23632001c890044090c2040f090600 &&& M = 0x2605f3ff23632001c890044090c2040f090600) (a p)
    (h : Off M s0 s) : Off M s0 (State.doQuiesce s a p).1 := by
  unfold State.doQuiesce
  with_reducible repeat' first
    | assumption | exact foot_sub hM (by decide) | apply Off.setPart | apply Off.stallPlumb | apply Off.stallSlots
    | apply Off.stopIntake | refine Off.startBackground_eq ?_ ?_ (by assumption) | apply Off.startBackground
    | apply Off.ite_fst | split

theorem Off.doQuiesce_eq (hM : 0x2605f3ff23632001c890044090c2040f090600 &&& M = 0x2605f3ff23632001c890044090c2040f090600) {a} {p} {x t}
    (h : Off M s0 s) (e : State.doQuiesce s a p = (t, x)) : Off M s0 t := by
  have k := Off.doQuiesce hM a p h
  rwa [e] at k

theorem execQuiesceDrained_off {t} (p) (e : execQuiesceDrained p s = .next t) :
    Off 0x24000000020000000080000000000000000000 s t := by
  have hM : 0x24000000020000000080000000000000000000 &&& 0x24000000020000000080000000000000000000 = 0x24000000020000000080000000000000000000 := Nat.and_self _
  refine live_off (fun s h => ?_) (Off.refl _ s) e
  with_reducible repeat' first
    | assumption | exact foot_sub hM (by decide) | apply Off.finishDrain | apply Off.ite | split

theorem execQuiesceStuck_off {t} (p) (e : execQuiesceStuck p s = .next t) :
    Off 0x24000000000000000880000000000000000000 s t := by
  have hM : 0x24000000000000000880000000000000000000 &&& 0x24000000000000000880000000000000000000 = 0x24000000000000000880000000000000000000 := Nat.and_self _
  refine live_off (fun s h => ?_) (Off.refl _ s) e
  with_reducible repeat' first
    | assumption | exact foot_sub hM (by decide) | apply Off.event | apply Off.drawn | apply Off.endAll
    | apply Off.ite | split

theorem Off.clearBusy (hM : 0x80000 &&& M = 0x80000) (hit)
    (h : Off M s0 s) : Off M s0 (State.clearBusy s hit) := by
  unfold State.clearBusy
  with_reducible repeat' first
    | assumption | exact foot_has (by decide) | exact foot_sub hM (by decide) | apply Off.put hM | apply Off.foldl
    | intro _ _ _

theorem Off.fenceAt (hM : 0x200001610001c80000000000c407080000 &&& M = 0x200001610001c80000000000c407080000) (i q' pos)
    (h : Off M s0 s) : Off M s0 (State.fenceAt s i q' pos) := by
  unfold State.fenceAt
  with_reducible repeat' first
    | assumption | exact foot_sub hM (by decide) | apply Off.finishColl | apply Off.complete
    | refine Off.fetchCmd_eq ?_ ?_ (by assumption) | apply Off.fetchCmd | apply Off.ite | split

theorem Off.fenceQueue (hM : 0x200001610001c80000000000c407080000 &&& M = 0x200001610001c80000000000c407080000) (i q')
    (h : Off M s0 s) : Off M s0 (State.fenceQueue s i q') := by
  unfold State.fenceQueue
  with_reducible repeat' first
    | assumption | exact foot_has (by decide) | exact foot_sub hM (by decide) | apply Off.put hM | apply Off.fenceAt
    | apply Off.foldl | intro _ _ _ | apply Off.ite | split

theorem Off.fenceHolds (hM : 0x2000000101e32001c89000400002044f190400 &&& M = 0x2000000101e32001c89000400002044f190400) (i)
    (h : Off M s0 s) : Off M s0 (State.fenceHolds s i) := by
  unfold State.fenceHolds
  with_reducible repeat' first
    | assumption | exact foot_sub hM (by decide) | apply Off.respond | apply Off.cacheReply | apply Off.showRing
    | apply Off.freeHold | apply Off.foldl | intro _ _ _

theorem Off.fenceCore (hM : 0x2000200105e32001c89000400002c44f190400 &&& M = 0x2000200105e32001c89000400002c44f190400) (i)
    (h : Off M s0 s) : Off M s0 (State.fenceCore s i) := by
  unfold State.fenceCore
  with_reducible repeat' first
    | assumption | exact foot_bit hM (by decide) | exact foot_sub hM (by decide) | apply Off.fenceHolds
    | apply Off.fenceQueue | apply Off.foldl | intro _ _ _ | apply Off.ite | split | apply Off.upd_fenceDue

theorem Off.fenceCores (hM : 0x2605f3ff25e32001c890044090c2c44f190600 &&& M = 0x2605f3ff25e32001c890044090c2c44f190600) (is)
    (h : Off M s0 s) : Off M s0 (State.fenceCores s is) := by
  unfold State.fenceCores
  with_reducible repeat' first
    | assumption | exact foot_sub hM (by decide) | apply Off.raiseAbort | apply Off.fenceCore | apply Off.foldl
    | intro _ _ _

theorem Off.fencePart (hM : 0x2605f3ff27e32001c890044090c2c44f190600 &&& M = 0x2605f3ff27e32001c890044090c2c44f190600) (p)
    (h : Off M s0 s) : Off M s0 (State.fencePart s p) := by
  unfold State.fencePart
  with_reducible repeat' first
    | assumption | exact foot_sub hM (by decide) | apply Off.setPart | apply Off.clearBusy | apply Off.fenceCores
    | apply Off.finishDrain | apply Off.ite | split

theorem Off.doFence (hM : 0x2605f3ff27e32001c890044090c2c44f190600 &&& M = 0x2605f3ff27e32001c890044090c2c44f190600) (p)
    (h : Off M s0 s) : Off M s0 (State.doFence s p).1 := by
  unfold State.doFence
  with_reducible repeat' first
    | assumption | exact foot_sub hM (by decide) | apply Off.fencePart | apply Off.ite_fst | split

theorem Off.doFence_eq (hM : 0x2605f3ff27e32001c890044090c2c44f190600 &&& M = 0x2605f3ff27e32001c890044090c2c44f190600) {p} {x t}
    (h : Off M s0 s) (e : State.doFence s p = (t, x)) : Off M s0 t := by
  have k := Off.doFence hM p h
  rwa [e] at k

theorem Off.doResume (hM : 0x20000000000000000000000000000 &&& M = 0x20000000000000000000000000000) (p)
    (h : Off M s0 s) : Off M s0 (State.doResume s p).1 := by
  unfold State.doResume
  with_reducible repeat' first
    | assumption | exact foot_sub hM (by decide) | apply Off.setPart | apply Off.ite_fst | split

theorem Off.doResume_eq (hM : 0x20000000000000000000000000000 &&& M = 0x20000000000000000000000000000) {p} {x t}
    (h : Off M s0 s) (e : State.doResume s p = (t, x)) : Off M s0 t := by
  have k := Off.doResume hM p h
  rwa [e] at k

theorem Off.tableFault (hM : 0x2645f3ff27e32001c890044090c2c44f190600 &&& M = 0x2645f3ff27e32001c890044090c2c44f190600) (r n)
    (h : Off M s0 s) : Off M s0 (State.tableFault s r n) := by
  unfold State.tableFault
  with_reducible repeat' first
    | assumption | exact foot_bit hM (by decide) | exact foot_sub hM (by decide) | apply Off.event
    | apply Off.fencePart | apply Off.foldl | intro _ _ _ | apply Off.ite | split | apply Off.upd_transitOff

theorem execTableEcc_off {t} (corrected reg n) (e : execTableEcc corrected reg n s = .next t) :
    Off 0x2645f3ff2fe32001c890044090c2c44f190600 s t := by
  have hM : 0x2645f3ff2fe32001c890044090c2c44f190600 &&& 0x2645f3ff2fe32001c890044090c2c44f190600 = 0x2645f3ff2fe32001c890044090c2c44f190600 := Nat.and_self _
  refine live_off (fun s h => ?_) (Off.refl _ s) e
  with_reducible repeat' first
    | assumption | exact foot_bit hM (by decide) | exact foot_sub hM (by decide) | apply Off.flow
    | apply Off.tableFault | apply Off.ite | split | apply Off.upd_tableCorr

theorem Off.guarded (hM : 0x200000000000000001ffffffffffffffffffff &&& M = 0x200000000000000001ffffffffffffffffffff) (cmd ws act) (ha : ∀ s, Off M s0 s → Off M s0 (act s).1) (h : Off M s0 s) :
    Off M s0 (State.guarded s cmd ws act).1 := by
  unfold State.guarded
  split
  · exact Off.noteGuard (foot_sub hM (by decide)) _ _ _ h
  · exact ha _ (Off.doWrites (foot_sub hM (by decide)) _ h)

theorem Off.guarded_eq (hM : 0x200000000000000001ffffffffffffffffffff &&& M = 0x200000000000000001ffffffffffffffffffff) {cmd ws act x t} (h : Off M s0 s) (e : State.guarded s cmd ws act = (t, x))
    (ha : ∀ s, Off M s0 s → Off M s0 (act s).1) : Off M s0 t := by
  have k := Off.guarded hM cmd ws act ha h
  rwa [e] at k


theorem Off.doPortAdmit (hM : 0x300100000000000009ffffffffffffffffffff &&& M = 0x300100000000000009ffffffffffffffffffff) (l) (h : Off M s0 s) : Off M s0 (State.doPortAdmit s l).1 := by
  unfold State.doPortAdmit
  refine Off.ite_fst h (Off.guarded (foot_sub hM (by decide)) _ _ _ (fun s hs => ?_) h)
  exact Off.ite (Off.startKeying (foot_sub hM (by decide)) _ _ (Off.showLight (foot_sub hM (by decide)) _ (Off.showAdmit (foot_sub hM (by decide)) _ hs))) (Off.showLight (foot_sub hM (by decide)) _ (Off.showAdmit (foot_sub hM (by decide)) _ hs))

theorem Off.doPortAdmit_eq (hM : 0x300100000000000009ffffffffffffffffffff &&& M = 0x300100000000000009ffffffffffffffffffff) {l x t} (h : Off M s0 s) (e : State.doPortAdmit s l = (t, x)) : Off M s0 t := by
  have k := Off.doPortAdmit hM l h
  rwa [e] at k


theorem Off.doPortQuarantine (hM : 0x367df3fff17b2001c9ffffffffffffffffffff &&& M = 0x367df3fff17b2001c9ffffffffffffffffffff) (l hold)
    (h : Off M s0 s) : Off M s0 (State.doPortQuarantine s l hold).1 := by
  unfold State.doPortQuarantine
  with_reducible repeat' first
    | assumption | exact foot_sub hM (by decide) | refine Off.guarded_eq ?_ ?_ (by assumption) | apply Off.guarded
    | apply Off.showAdmit | apply Off.movePort | apply Off.showLight | intro _ _ | apply Off.ite_fst | split

theorem Off.doPortQuarantine_eq (hM : 0x367df3fff17b2001c9ffffffffffffffffffff &&& M = 0x367df3fff17b2001c9ffffffffffffffffffff) {l} {hold} {x t}
    (h : Off M s0 s) (e : State.doPortQuarantine s l hold = (t, x)) : Off M s0 t := by
  have k := Off.doPortQuarantine hM l hold h
  rwa [e] at k

theorem Off.doPortRemap (hM : 0x300100000000000009ffffffffffffffffffff &&& M = 0x300100000000000009ffffffffffffffffffff) (a b) (h : Off M s0 s) : Off M s0 (State.doPortRemap s a b).1 := by
  unfold State.doPortRemap
  refine Off.ite_fst h (Off.ite_fst h (Off.guarded (foot_sub hM (by decide)) _ _ _ (fun s hs => ?_) h))
  dsimp only
  with_reducible refine Off.startKeying (foot_sub hM (by decide)) _ _ (Off.startKeying (foot_sub hM (by decide)) _ _ (Off.foldl hs (fun s x ht => ?_)))
  exact Off.showAdmit (foot_sub hM (by decide)) _ (Off.modPort (foot_sub hM (by decide)) _ _ ht)

theorem Off.doPortRemap_eq (hM : 0x300100000000000009ffffffffffffffffffff &&& M = 0x300100000000000009ffffffffffffffffffff) {a b x t} (h : Off M s0 s) (e : State.doPortRemap s a b = (t, x)) :
    Off M s0 t := by
  have k := Off.doPortRemap hM a b h
  rwa [e] at k


theorem Off.doLaneSpare (hM : 0x367df3fff17b2001c8952d5f9ffe040f0bf706 &&& M = 0x367df3fff17b2001c8952d5f9ffe040f0bf706) (ask l lane)
    (h : Off M s0 s) : Off M s0 (State.doLaneSpare s ask l lane).1 := by
  unfold State.doLaneSpare
  with_reducible repeat' first
    | assumption | exact foot_sub hM (by decide) | apply Off.startPatch | apply Off.modPort | apply Off.ite_fst
    | split

theorem Off.doLaneSpare_eq (hM : 0x367df3fff17b2001c8952d5f9ffe040f0bf706 &&& M = 0x367df3fff17b2001c8952d5f9ffe040f0bf706) {ask} {l} {lane} {x t}
    (h : Off M s0 s) (e : State.doLaneSpare s ask l lane = (t, x)) : Off M s0 t := by
  have k := Off.doLaneSpare hM ask l lane h
  rwa [e] at k

theorem Off.startRamp (hM : 0x367ff3fff17b2001c8952f5f9ffec40f0bf706 &&& M = 0x367ff3fff17b2001c8952f5f9ffec40f0bf706) (k target)
    (h : Off M s0 s) : Off M s0 (State.startRamp s k target) := by
  unfold State.startRamp
  with_reducible repeat' first
    | assumption | exact foot_has (by decide) | exact foot_bit hM (by decide) | exact foot_sub hM (by decide)
    | apply Off.relight | apply Off.put hM | apply Off.upd_ramps

theorem Off.doLaserPrepare (hM : 0x367ff3fff17b2001c8952f5f9ffec40f0bf706 &&& M = 0x367ff3fff17b2001c8952f5f9ffec40f0bf706) (ask k)
    (h : Off M s0 s) : Off M s0 (State.doLaserPrepare s ask k).1 := by
  unfold State.doLaserPrepare
  with_reducible repeat' first
    | assumption | exact foot_sub hM (by decide) | refine Off.startBackground_eq ?_ ?_ (by assumption)
    | apply Off.startBackground | apply Off.startRamp | apply Off.ite_fst | split

theorem Off.doLaserPrepare_eq (hM : 0x367ff3fff17b2001c8952f5f9ffec40f0bf706 &&& M = 0x367ff3fff17b2001c8952f5f9ffec40f0bf706) {ask} {k} {x t}
    (h : Off M s0 s) (e : State.doLaserPrepare s ask k = (t, x)) : Off M s0 t := by
  have k := Off.doLaserPrepare hM ask k h
  rwa [e] at k

theorem Off.doLaserRestore (hM : 0x367ff3fff17b2001c8952f5f9ffec40f0bf706 &&& M = 0x367ff3fff17b2001c8952f5f9ffec40f0bf706) (ask k)
    (h : Off M s0 s) : Off M s0 (State.doLaserRestore s ask k).1 := by
  unfold State.doLaserRestore
  with_reducible repeat' first
    | assumption | exact foot_sub hM (by decide) | refine Off.startBackground_eq ?_ ?_ (by assumption)
    | apply Off.startBackground | apply Off.startRamp | apply Off.ite_fst | split

theorem Off.doLaserRestore_eq (hM : 0x367ff3fff17b2001c8952f5f9ffec40f0bf706 &&& M = 0x367ff3fff17b2001c8952f5f9ffec40f0bf706) {ask} {k} {x t}
    (h : Off M s0 s) (e : State.doLaserRestore s ask k = (t, x)) : Off M s0 t := by
  have k := Off.doLaserRestore hM ask k h
  rwa [e] at k

theorem Off.rekeyCoords (hM : 0x30010000000000000880001900000000000000 &&& M = 0x30010000000000000880001900000000000000)
    (h : Off M s0 s) : Off M s0 (State.rekeyCoords s) := by
  unfold State.rekeyCoords
  with_reducible repeat' first
    | assumption | exact foot_sub hM (by decide) | apply Off.startKeying | apply Off.foldl | intro _ _ _
    | apply Off.ite | split

theorem Off.doSetCoords (hM : 0x300100000000000009ffffffffffffffffffff &&& M = 0x300100000000000009ffffffffffffffffffff) (addr)
    (h : Off M s0 s) : Off M s0 (State.doSetCoords s addr).1 := by
  unfold State.doSetCoords
  with_reducible repeat' first
    | assumption | exact foot_has (by decide) | exact foot_sub hM (by decide) | apply Off.put hM
    | refine Off.guarded_eq ?_ ?_ (by assumption) | apply Off.guarded | apply Off.rekeyCoords | apply Off.repeatKeying
    | intro _ _ | apply Off.ite_fst | split

theorem Off.doSetCoords_eq (hM : 0x300100000000000009ffffffffffffffffffff &&& M = 0x300100000000000009ffffffffffffffffffff) {addr} {x t}
    (h : Off M s0 s) (e : State.doSetCoords s addr = (t, x)) : Off M s0 t := by
  have k := Off.doSetCoords hM addr h
  rwa [e] at k

theorem Off.doSetTimebase (hM : 0x20000000000000800080c00000000000000000 &&& M = 0x20000000000000800080c00000000000000000) (add v) (h : Off M s0 s) : Off M s0 (State.doSetTimebase s add v).1 := by
  unfold State.doSetTimebase
  extract_lets new
  split
  · exact Off.noteGuard (foot_sub hM (by decide)) _ _ _ h
  · exact Off.upd_timeSets (foot_bit hM (by decide)) h

theorem Off.doSetTimebase_eq (hM : 0x20000000000000800080c00000000000000000 &&& M = 0x20000000000000800080c00000000000000000) {add v x t} (h : Off M s0 s) (e : State.doSetTimebase s add v = (t, x)) :
    Off M s0 t := by
  have k := Off.doSetTimebase hM add v h
  rwa [e] at k


theorem Off.doBankHandover (hM : 0x25800000000000000880c00000013800000000 &&& M = 0x25800000000000000880c00000013800000000) (ask h' wait)
    (h : Off M s0 s) : Off M s0 (State.doBankHandover s ask h' wait).1 := by
  unfold State.doBankHandover
  with_reducible repeat' first
    | assumption | exact foot_sub hM (by decide) | apply Off.noteGuard
    | refine Off.alornHandover_eq ?_ ?_ (by assumption) | apply Off.alornHandover | apply Off.loadHandovers
    | apply Off.drawn | refine Off.startBackground_eq ?_ ?_ (by assumption) | apply Off.startBackground
    | apply Off.ite_fst | split

theorem Off.doBankHandover_eq (hM : 0x25800000000000000880c00000013800000000 &&& M = 0x25800000000000000880c00000013800000000) {ask} {h'} {wait} {x t}
    (h : Off M s0 s) (e : State.doBankHandover s ask h' wait = (t, x)) : Off M s0 t := by
  have k := Off.doBankHandover hM ask h' wait h
  rwa [e] at k

theorem Off.doLoadBegin (hM : 0x4000000000000000000000000000000000000 &&& M = 0x4000000000000000000000000000000000000) (ask size)
    (h : Off M s0 s) : Off M s0 (State.doLoadBegin s ask size).1 := by
  unfold State.doLoadBegin
  with_reducible repeat' first
    | assumption | exact foot_sub hM (by decide) | apply Off.modAlorn | apply Off.ite_fst | split

theorem Off.doLoadBegin_eq (hM : 0x4000000000000000000000000000000000000 &&& M = 0x4000000000000000000000000000000000000) {ask} {size} {x t}
    (h : Off M s0 s) (e : State.doLoadBegin s ask size = (t, x)) : Off M s0 t := by
  have k := Off.doLoadBegin hM ask size h
  rwa [e] at k

theorem Off.doLoadData (hM : 0x4000000000000000000000000000000000000 &&& M = 0x4000000000000000000000000000000000000) (ask off n data)
    (h : Off M s0 s) : Off M s0 (State.doLoadData s ask off n data).1 := by
  unfold State.doLoadData
  with_reducible repeat' first
    | assumption | exact foot_sub hM (by decide) | apply Off.modAlorn | apply Off.foldl | intro _ _ _
    | apply Off.ite_fst | split

theorem Off.doLoadData_eq (hM : 0x4000000000000000000000000000000000000 &&& M = 0x4000000000000000000000000000000000000) {ask} {off} {n} {data} {x t}
    (h : Off M s0 s) (e : State.doLoadData s ask off n data = (t, x)) : Off M s0 t := by
  have k := Off.doLoadData hM ask off n data h
  rwa [e] at k

theorem Off.doLoadDiscard (hM : 0x4000000000000000000000000000000000000 &&& M = 0x4000000000000000000000000000000000000)
    (h : Off M s0 s) : Off M s0 (State.doLoadDiscard s).1 := by
  unfold State.doLoadDiscard
  with_reducible repeat' first
    | assumption | exact foot_sub hM (by decide) | apply Off.freeStaging

theorem Off.doLoadDiscard_eq (hM : 0x4000000000000000000000000000000000000 &&& M = 0x4000000000000000000000000000000000000)  {x t}
    (h : Off M s0 s) (e : State.doLoadDiscard s = (t, x)) : Off M s0 t := by
  have k := Off.doLoadDiscard hM  h
  rwa [e] at k

theorem Off.refuseLoad (hM : 0x24000000000000000880080000000000000000 &&& M = 0x24000000000000000880080000000000000000) (r)
    (h : Off M s0 s) : Off M s0 (State.refuseLoad s r) := by
  unfold State.refuseLoad
  with_reducible repeat' first
    | assumption | exact foot_has (by decide) | exact foot_sub hM (by decide) | apply Off.modAlorn | apply Off.drawn
    | apply Off.put hM | apply Off.event | apply Off.endBackground | apply Off.ite | split | dsimp only

theorem Off.useKey (hM : 0x30000000000000000880000000000000000000 &&& M = 0x30000000000000000880000000000000000000) (bytes)
    (h : Off M s0 s) : Off M s0 (State.useKey s bytes) := by
  unfold State.useKey
  with_reducible repeat' first
    | assumption | exact foot_sub hM (by decide) | apply Off.useSlot | apply Off.ite | split

theorem Off.doLoadCommit (hM : 0x34000000000000000880080000000000000000 &&& M = 0x34000000000000000880080000000000000000) (ask)
    (h : Off M s0 s) : Off M s0 (State.doLoadCommit s ask).1 := by
  unfold State.doLoadCommit
  with_reducible repeat' first
    | assumption | exact foot_has (by decide) | exact foot_sub hM (by decide)
    | refine Off.startBackground_eq ?_ ?_ (by assumption) | apply Off.startBackground | apply Off.emptyStaging
    | apply Off.useKey | apply Off.put hM | apply Off.refuseLoad | apply Off.modAlorn | apply Off.ite_fst | split
    | dsimp only

theorem Off.doLoadCommit_eq (hM : 0x34000000000000000880080000000000000000 &&& M = 0x34000000000000000880080000000000000000) {ask} {x t}
    (h : Off M s0 s) (e : State.doLoadCommit s ask = (t, x)) : Off M s0 t := by
  have k := Off.doLoadCommit hM ask h
  rwa [e] at k

theorem execStencilLoadLimitExpiry_off {t} (e : execStencilLoadLimitExpiry s = .next t) :
    Off 0x24000000000000000880080000000000000000 s t := by
  have hM : 0x24000000000000000880080000000000000000 &&& 0x24000000000000000880080000000000000000 = 0x24000000000000000880080000000000000000 := Nat.and_self _
  refine live_off (fun s h => ?_) (Off.refl _ s) e
  with_reducible repeat' first
    | assumption | exact foot_sub hM (by decide) | apply Off.refuseLoad | apply Off.ite | split

theorem Off.putImage (hM : 0x1ffffffffffffffffffff &&& M = 0x1ffffffffffffffffffff) (img bank k) (h : Off M s0 s) : Off M s0 (State.putImage s img bank k) := by
  unfold State.putImage
  split
  · exact h
  · exact h.anyWord hM _ _ _ _


theorem Off.writeBank (hM : 0x1ffffffffffffffffffff &&& M = 0x1ffffffffffffffffffff) (img bank only)
    (h : Off M s0 s) : Off M s0 (State.writeBank s img bank only) := by
  unfold State.writeBank
  with_reducible repeat' first
    | assumption | exact foot_sub hM (by decide) | apply Off.putImage | apply Off.foldl | intro _ _ _

theorem Off.writeStatics (hM : 0x1ffffffffffffffffffff &&& M = 0x1ffffffffffffffffffff) (img only)
    (h : Off M s0 s) : Off M s0 (State.writeStatics s img only) := by
  unfold State.writeStatics
  with_reducible repeat' first
    | assumption | exact foot_has (by decide) | exact foot_sub hM (by decide) | apply Off.putImage
    | apply Off.setWord0 hM | apply Off.foldl | intro _ _ _ | apply Off.ite | split

theorem Off.writeTables (hM : 0x380000000000000000000000000000000000 &&& M = 0x380000000000000000000000000000000000) (l)
    (h : Off M s0 s) : Off M s0 (State.writeTables s l) := by
  unfold State.writeTables
  with_reducible repeat' first
    | assumption | exact foot_bit hM (by decide) | apply Off.foldl | intro _ _ _ | apply Off.ite | split
    | apply Off.upd_tune_planKeys_guard

theorem Off.newParts (hM : 0x20000000000080000000000000000 &&& M = 0x20000000000080000000000000000) (was first)
    (h : Off M s0 s) : Off M s0 (State.newParts s was first) := by
  unfold State.newParts
  with_reducible repeat' first
    | assumption | exact foot_has (by decide) | exact foot_bit hM (by decide) | exact foot_sub hM (by decide)
    | apply Off.setPart | apply Off.put hM | apply Off.foldl | intro _ _ _ | apply Off.ite | split
    | apply Off.upd_parts

theorem Off.firstEpoch (hM : 0x10000000000000000040100000000000000 &&& M = 0x10000000000000000040100000000000000) (l)
    (h : Off M s0 s) : Off M s0 (State.firstEpoch s l) := by
  unfold State.firstEpoch
  with_reducible repeat' first
    | assumption | exact foot_has (by decide) | exact foot_sub hM (by decide) | apply Off.put hM | apply Off.showAdmit
    | apply Off.modPort | apply Off.foldl | intro _ _ _

theorem Off.loadDone (hM : 0x20000000000000000080080000000000000000 &&& M = 0x20000000000000000080080000000000000000) (l)
    (h : Off M s0 s) : Off M s0 (State.loadDone s l) := by
  unfold State.loadDone
  with_reducible repeat' first
    | assumption | exact foot_has (by decide) | exact foot_sub hM (by decide) | apply Off.put hM | apply Off.event

theorem Off.guardLoad (hM : 0x24000000000000000080c80000000000000000 &&& M = 0x24000000000000000080c80000000000000000) (r n)
    (h : Off M s0 s) : Off M s0 (State.guardLoad s r n) := by
  unfold State.guardLoad
  with_reducible repeat' first
    | assumption | exact foot_has (by decide) | exact foot_sub hM (by decide) | apply Off.noteGuard | apply Off.put hM
    | apply Off.modAlorn | apply Off.endBackground | apply Off.ite | split | dsimp only

theorem Off.commitLoad (hM : 0x37b900000200000009ffffffffffffffffffff &&& M = 0x37b900000200000009ffffffffffffffffffff) (l : Load) (h : Off M s0 s) : Off M s0 (State.commitLoad s l) := by
  unfold State.commitLoad
  extract_lets was s1 s2 s3 s4 c5 a5 s5 s6 s7
  have h1 : Off M s0 s1 := Off.writeTables (foot_sub hM (by decide)) _ (Off.writeBank (foot_sub hM (by decide)) _ _ _ h)
  have h2 : Off M s0 s2 := Off.ite (Off.firstEpoch (foot_sub hM (by decide)) _ (Off.writeBank (foot_sub hM (by decide)) _ _ _ h1)) h1
  have h3 : Off M s0 s3 := Off.newParts (foot_sub hM (by decide)) _ _ (Off.writeStatics (foot_sub hM (by decide)) _ _ h2)
  have h4 : Off M s0 s4 := Off.loadDone (foot_sub hM (by decide)) _ (Off.put hM _ _ _ (by decide) h3)
  have h5 : Off M s0 s5 := Off.upd_epochCtl_alorn (foot_bit hM (by decide)) (foot_bit hM (by decide)) h4
  have h6 : Off M s0 s6 := by
    simp only [s6]
    split
    · exact Off.endBackground (foot_sub hM (by decide)) _ _ _ _ h5
    · exact h5
  exact Off.ite (Off.repeatKeying (foot_sub hM (by decide)) (Off.loadHandovers (foot_sub hM (by decide)) h6)) (Off.loadHandovers (foot_sub hM (by decide)) h6)


theorem execStencilLoadStep7_off {t} (e : execStencilLoadStep7 s = .next t) :
    Off 0x37b9000103632001c9ffffffffffffffffffff s t := by
  have hM : 0x37b9000103632001c9ffffffffffffffffffff &&& 0x37b9000103632001c9ffffffffffffffffffff = 0x37b9000103632001c9ffffffffffffffffffff := Nat.and_self _
  refine live_off (fun s h => ?_) (Off.refl _ s) e
  with_reducible repeat' first
    | assumption | exact foot_sub hM (by decide) | apply Off.flow | apply Off.guardLoad | apply Off.commitLoad
    | apply Off.ite | split

theorem Off.cutLoad (hM : 0x40000000200000009ffffffffffffffffffff &&& M = 0x40000000200000009ffffffffffffffffffff)
    (h : Off M s0 s) : Off M s0 (State.cutLoad s) := by
  unfold State.cutLoad
  with_reducible repeat' first
    | assumption | exact foot_has (by decide) | exact foot_sub hM (by decide) | apply Off.modAlorn | apply Off.put hM
    | apply Off.drawn | apply Off.writeStatics | apply Off.writeBank | apply Off.newParts | apply Off.ite | split

theorem Off.arm (hM : 0x2000100000020000000040000000000000400 &&& M = 0x2000100000020000000040000000000000400) (e')
    (h : Off M s0 s) : Off M s0 (State.arm s e') := by
  unfold State.arm
  with_reducible repeat' first
    | assumption | exact foot_has (by decide) | exact foot_bit hM (by decide) | exact foot_sub hM (by decide)
    | apply Off.put hM | apply Off.fromAlorn | apply Off.ite | split | apply Off.upd_epochCtl

theorem Off.awaitEpoch (hM : 0x4000000000000000000000000000000000000 &&& M = 0x4000000000000000000000000000000000000) (ask wait)
    (h : Off M s0 s) : Off M s0 (State.awaitEpoch s ask wait).1 := by
  unfold State.awaitEpoch
  with_reducible repeat' first
    | assumption | exact foot_sub hM (by decide) | refine Off.startBackground_eq ?_ ?_ (by assumption)
    | apply Off.startBackground | apply Off.ite_fst | split

theorem Off.awaitEpoch_eq (hM : 0x4000000000000000000000000000000000000 &&& M = 0x4000000000000000000000000000000000000) {ask} {wait} {x t}
    (h : Off M s0 s) (e : State.awaitEpoch s ask wait = (t, x)) : Off M s0 t := by
  have k := Off.awaitEpoch hM ask wait h
  rwa [e] at k

theorem Off.doApplyEpoch (hM : 0x6000100000020000000040000000000000400 &&& M = 0x6000100000020000000040000000000000400) (ask e' wait)
    (h : Off M s0 s) : Off M s0 (State.doApplyEpoch s ask e' wait).1 := by
  unfold State.doApplyEpoch
  with_reducible repeat' first
    | assumption | exact foot_sub hM (by decide) | refine Off.awaitEpoch_eq ?_ ?_ (by assumption)
    | apply Off.awaitEpoch | apply Off.arm | apply Off.ite_fst | split

theorem Off.doApplyEpoch_eq (hM : 0x6000100000020000000040000000000000400 &&& M = 0x6000100000020000000040000000000000400) {ask} {e'} {wait} {x t}
    (h : Off M s0 s) (e : State.doApplyEpoch s ask e' wait = (t, x)) : Off M s0 t := by
  have k := Off.doApplyEpoch hM ask e' wait h
  rwa [e] at k

theorem Off.disarm (hM : 0x2605f3ff21632001c890044090c2040f090600 &&& M = 0x2605f3ff21632001c890044090c2040f090600) (e')
    (h : Off M s0 s) : Off M s0 (State.disarm s e') := by
  unfold State.disarm
  with_reducible repeat' first
    | assumption | exact foot_has (by decide) | exact foot_bit hM (by decide) | exact foot_sub hM (by decide)
    | apply Off.put hM | apply Off.raiseAbort | apply Off.endAll | apply Off.ite | split | apply Off.upd_epochCtl

theorem Off.doCancelEpoch (hM : 0x2605f3ff21632001c890044090c2040f090600 &&& M = 0x2605f3ff21632001c890044090c2040f090600) (e')
    (h : Off M s0 s) : Off M s0 (State.doCancelEpoch s e').1 := by
  unfold State.doCancelEpoch
  with_reducible repeat' first
    | assumption | exact foot_bit hM (by decide) | exact foot_sub hM (by decide) | apply Off.disarm
    | apply Off.upd_epochCtl

theorem Off.doCancelEpoch_eq (hM : 0x2605f3ff21632001c890044090c2040f090600 &&& M = 0x2605f3ff21632001c890044090c2040f090600) {e'} {x t}
    (h : Off M s0 s) (e : State.doCancelEpoch s e' = (t, x)) : Off M s0 t := by
  have k := Off.doCancelEpoch hM e' h
  rwa [e] at k

theorem Off.grantLock (hM : 0x4000000000000000000200000000000000000 &&& M = 0x4000000000000000000200000000000000000) (src job)
    (h : Off M s0 s) : Off M s0 (State.grantLock s src job) := by
  unfold State.grantLock
  with_reducible repeat' first
    | assumption | exact foot_has (by decide) | exact foot_sub hM (by decide) | apply Off.modAlorn
    | apply Off.setWord0 hM | apply Off.ite | split

theorem Off.doClaim (hM : 0x4000000000000000000200000000000000000 &&& M = 0x4000000000000000000200000000000000000) (ask job)
    (h : Off M s0 s) : Off M s0 (State.doClaim s ask job).1 := by
  unfold State.doClaim
  with_reducible repeat' first
    | assumption | exact foot_sub hM (by decide) | apply Off.modAlorn | apply Off.grantLock | apply Off.ite_fst
    | split

theorem Off.doClaim_eq (hM : 0x4000000000000000000200000000000000000 &&& M = 0x4000000000000000000200000000000000000) {ask} {job} {x t}
    (h : Off M s0 s) (e : State.doClaim s ask job = (t, x)) : Off M s0 t := by
  have k := Off.doClaim hM ask job h
  rwa [e] at k

theorem Off.doRelease (hM : 0x24000000000000000080200000000000000000 &&& M = 0x24000000000000000080200000000000000000) (ask)
    (h : Off M s0 s) : Off M s0 (State.doRelease s ask).1 := by
  unfold State.doRelease
  with_reducible repeat' first
    | assumption | exact foot_has (by decide) | exact foot_sub hM (by decide) | apply Off.put hM | apply Off.event
    | apply Off.dropStaging | apply Off.ite_fst | split

theorem Off.doRelease_eq (hM : 0x24000000000000000080200000000000000000 &&& M = 0x24000000000000000080200000000000000000) {ask} {x t}
    (h : Off M s0 s) (e : State.doRelease s ask = (t, x)) : Off M s0 t := by
  have k := Off.doRelease hM ask h
  rwa [e] at k

theorem execLockLeaseExpiry_off {t} (e : execLockLeaseExpiry s = .next t) :
    Off 0x24000000000000000080200000000000000000 s t := by
  have hM : 0x24000000000000000080200000000000000000 &&& 0x24000000000000000080200000000000000000 = 0x24000000000000000080200000000000000000 := Nat.and_self _
  refine live_off (fun s h => ?_) (Off.refl _ s) e
  with_reducible repeat' first
    | assumption | exact foot_sub hM (by decide) | apply Off.breakLock | apply Off.ite | split

theorem Off.doGetVersion (hM : 0x30000000000000000880000000000000000000 &&& M = 0x30000000000000000880000000000000000000)
    (h : Off M s0 s) : Off M s0 (State.doGetVersion s).1 := by
  unfold State.doGetVersion
  with_reducible repeat' first
    | assumption | exact foot_sub hM (by decide) | apply Off.useSlot

theorem Off.doGetVersion_eq (hM : 0x30000000000000000880000000000000000000 &&& M = 0x30000000000000000880000000000000000000)  {x t}
    (h : Off M s0 s) (e : State.doGetVersion s = (t, x)) : Off M s0 t := by
  have k := Off.doGetVersion hM  h
  rwa [e] at k

theorem Off.doGetCensus (hM : 0x0 &&& M = 0x0)
    (h : Off M s0 s) : Off M s0 (State.doGetCensus s).1 := by
  unfold State.doGetCensus
  with_reducible repeat' first
    | assumption

theorem Off.doGetCensus_eq (hM : 0x0 &&& M = 0x0)  {x t}
    (h : Off M s0 s) (e : State.doGetCensus s = (t, x)) : Off M s0 t := by
  have k := Off.doGetCensus hM  h
  rwa [e] at k

theorem Off.doSelfTest (hM : 0x4000000000000000000000000000000000000 &&& M = 0x4000000000000000000000000000000000000) (ask tests)
    (h : Off M s0 s) : Off M s0 (State.doSelfTest s ask tests).1 := by
  unfold State.doSelfTest
  with_reducible repeat' first
    | assumption | exact foot_sub hM (by decide) | refine Off.startBackground_eq ?_ ?_ (by assumption)
    | apply Off.startBackground | apply Off.ite_fst | split

theorem Off.doSelfTest_eq (hM : 0x4000000000000000000000000000000000000 &&& M = 0x4000000000000000000000000000000000000) {ask} {tests} {x t}
    (h : Off M s0 s) (e : State.doSelfTest s ask tests = (t, x)) : Off M s0 t := by
  have k := Off.doSelfTest hM ask tests h
  rwa [e] at k

theorem Off.emptyFabric (hM : 0x180001c20000000000000000000000000 &&& M = 0x180001c20000000000000000000000000)
    (h : Off M s0 s) : Off M s0 (State.emptyFabric s) := by
  unfold State.emptyFabric
  with_reducible repeat' first
    | assumption | exact foot_bit hM (by decide) | apply Off.upd_fifos_links_grants_waits_copies_plumbOut

theorem execSelfTestDone_off {t} (failed first) (e : execSelfTestDone failed first s = .next t) :
    Off 0x4000181017f2001c00000000000c407090400 s t := by
  have hM : 0x4000181017f2001c00000000000c407090400 &&& 0x4000181017f2001c00000000000c407090400 = 0x4000181017f2001c00000000000c407090400 := Nat.and_self _
  refine live_off (fun s h => ?_) (Off.refl _ s) e
  with_reducible repeat' first
    | assumption | exact foot_sub hM (by decide) | apply Off.flow | apply Off.endBackground | apply Off.emptyFabric
    | apply Off.ite | split

theorem Off.doReadCounters (hM : 0x9ffffffffffffffffffff &&& M = 0x9ffffffffffffffffffff) (window count stride offset clear)
    (h : Off M s0 s) : Off M s0 (State.doReadCounters s window count stride offset clear).1 := by
  unfold State.doReadCounters
  with_reducible repeat' first
    | assumption | exact foot_sub hM (by decide) | apply Off.drawn | apply Off.clearReg | apply Off.foldl
    | intro _ _ _ | apply Off.ite_fst | split

theorem Off.doReadCounters_eq (hM : 0x9ffffffffffffffffffff &&& M = 0x9ffffffffffffffffffff) {window} {count} {stride} {offset} {clear} {x t}
    (h : Off M s0 s) (e : State.doReadCounters s window count stride offset clear = (t, x)) : Off M s0 t := by
  have k := Off.doReadCounters hM window count stride offset clear h
  rwa [e] at k

theorem Off.readUpTo (hM : 0x80000000000000000000000000000000000000 &&& M = 0x80000000000000000000000000000000000000) (n)
    (h : Off M s0 s) : Off M s0 (State.readUpTo s n) := by
  unfold State.readUpTo
  with_reducible repeat' first
    | assumption | exact foot_bit hM (by decide) | apply Off.upd_readNext

theorem Off.doReadEvents (hM : 0x80000000000000000000000000000000000000 &&& M = 0x80000000000000000000000000000000000000) (first most)
    (h : Off M s0 s) : Off M s0 (State.doReadEvents s first most).1 := by
  unfold State.doReadEvents
  with_reducible repeat' first
    | assumption | exact foot_sub hM (by decide) | apply Off.readUpTo | apply Off.ite_fst | split

theorem Off.doReadEvents_eq (hM : 0x80000000000000000000000000000000000000 &&& M = 0x80000000000000000000000000000000000000) {first} {most} {x t}
    (h : Off M s0 s) (e : State.doReadEvents s first most = (t, x)) : Off M s0 t := by
  have k := Off.doReadEvents hM first most h
  rwa [e] at k

theorem Off.wipeStore (hM : 0x38000000000000000080000000000000000000 &&& M = 0x38000000000000000080000000000000000000) (cause)
    (h : Off M s0 s) : Off M s0 (State.wipeStore s cause) := by
  unfold State.wipeStore
  with_reducible repeat' first
    | assumption | exact foot_bit hM (by decide) | exact foot_sub hM (by decide) | apply Off.event
    | apply Off.upd_wiped_sealStore

theorem execTamperInput_off {t} (e : execTamperInput s = .next t) :
    Off 0x38000000000000000080000000000000000000 s t := by
  have hM : 0x38000000000000000080000000000000000000 &&& 0x38000000000000000080000000000000000000 = 0x38000000000000000080000000000000000000 := Nat.and_self _
  refine live_off (fun s h => ?_) (Off.refl _ s) e
  with_reducible repeat' first
    | assumption | exact foot_sub hM (by decide) | apply Off.wipeStore

theorem execGlitchDetectorTrip_off {t} (e : execGlitchDetectorTrip s = .next t) :
    Off 0x38000000000000000080000000000000000000 s t := by
  have hM : 0x38000000000000000080000000000000000000 &&& 0x38000000000000000080000000000000000000 = 0x38000000000000000080000000000000000000 := Nat.and_self _
  refine live_off (fun s h => ?_) (Off.refl _ s) e
  with_reducible repeat' first
    | assumption | exact foot_sub hM (by decide) | apply Off.wipeStore

theorem Off.doZeroize (hM : 0x38000000000000000080000000000000000000 &&& M = 0x38000000000000000080000000000000000000)
    (h : Off M s0 s) : Off M s0 (State.doZeroize s).1 := by
  unfold State.doZeroize
  with_reducible repeat' first
    | assumption | exact foot_sub hM (by decide) | apply Off.wipeStore

theorem Off.doZeroize_eq (hM : 0x38000000000000000080000000000000000000 &&& M = 0x38000000000000000080000000000000000000)  {x t}
    (h : Off M s0 s) (e : State.doZeroize s = (t, x)) : Off M s0 t := by
  have k := Off.doZeroize hM  h
  rwa [e] at k

theorem Off.nextNonce (hM : 0x100000000000000000 &&& M = 0x100000000000000000)
    (h : Off M s0 s) : Off M s0 (State.nextNonce s) := by
  unfold State.nextNonce
  with_reducible repeat' first
    | assumption | exact foot_has (by decide) | exact foot_sub hM (by decide) | apply Off.wrap hM

theorem Off.doSealKey (hM : 0x30000000000000000880100000000000000000 &&& M = 0x30000000000000000880100000000000000000) (slot erase ws)
    (h : Off M s0 s) : Off M s0 (State.doSealKey s slot erase ws).1 := by
  unfold State.doSealKey
  with_reducible repeat' first
    | assumption | exact foot_bit hM (by decide) | exact foot_sub hM (by decide) | apply Off.useSlot
    | apply Off.nextNonce | apply Off.ite_fst | split | apply Off.upd_sealStore

theorem Off.doSealKey_eq (hM : 0x30000000000000000880100000000000000000 &&& M = 0x30000000000000000880100000000000000000) {slot} {erase} {ws} {x t}
    (h : Off M s0 s) (e : State.doSealKey s slot erase ws = (t, x)) : Off M s0 t := by
  have k := Off.doSealKey hM slot erase ws h
  rwa [e] at k

theorem Off.newIdentity (hM : 0x10000000000000000800000000000000000000 &&& M = 0x10000000000000000800000000000000000000)
    (h : Off M s0 s) : Off M s0 (State.newIdentity s) := by
  unfold State.newIdentity
  with_reducible repeat' first
    | assumption | exact foot_bit hM (by decide) | exact foot_sub hM (by decide) | apply Off.drawn | apply Off.foldl
    | intro _ _ _ | apply Off.upd_sealStore

theorem Off.reseal (hM : 0x18000000000000000800000000000000000000 &&& M = 0x18000000000000000800000000000000000000) (target key)
    (h : Off M s0 s) : Off M s0 (State.reseal s target key) := by
  unfold State.reseal
  with_reducible repeat' first
    | assumption | exact foot_bit hM (by decide) | exact foot_sub hM (by decide) | apply Off.newIdentity
    | apply Off.ite | split | apply Off.upd_wiped_sealStore | apply Off.upd_sealStore

theorem Off.decommission (hM : 0x367df3fff7fb2001c8952d5f9ffec44f1bf706 &&& M = 0x367df3fff7fb2001c8952d5f9ffec44f1bf706)
    (h : Off M s0 s) : Off M s0 (State.decommission s) := by
  unfold State.decommission
  with_reducible repeat' first
    | assumption | exact foot_sub hM (by decide) | apply Off.fencePart | apply Off.showLight | apply Off.movePort
    | apply Off.foldl | intro _ _ _

theorem Off.moveLife (hM : 0x3e7df3fff7fb2001e8952d5f9ffec44f1bf706 &&& M = 0x3e7df3fff7fb2001e8952d5f9ffec44f1bf706) (target key)
    (h : Off M s0 s) : Off M s0 (State.moveLife s target key).1 := by
  unfold State.moveLife
  with_reducible repeat' first
    | assumption | exact foot_bit hM (by decide) | exact foot_sub hM (by decide) | apply Off.reseal
    | apply Off.decommission | apply Off.ite_fst | split | apply Off.upd_fuse

theorem Off.moveLife_eq (hM : 0x3e7df3fff7fb2001e8952d5f9ffec44f1bf706 &&& M = 0x3e7df3fff7fb2001e8952d5f9ffec44f1bf706) {target} {key} {x t}
    (h : Off M s0 s) (e : State.moveLife s target key = (t, x)) : Off M s0 t := by
  have k := Off.moveLife hM target key h
  rwa [e] at k

theorem Off.doLifecycle (hM : 0x3e7df3fff7fb2001e9ffffffffffffffffffff &&& M = 0x3e7df3fff7fb2001e9ffffffffffffffffffff) (target ws) (h : Off M s0 s) : Off M s0 (State.doLifecycle s target ws).1 := by
  unfold State.doLifecycle
  split
  · exact h
  · refine Off.ite_fst h (Off.ite_fst h (Off.ite_fst h ?_))
    extract_lets s1 s2
    have h1 : Off M s0 s1 := Off.ite (Off.useSlot (foot_sub hM (by decide)) _ h) h
    have h2 : Off M s0 s2 := Off.ite h1 (Off.nextNonce (foot_sub hM (by decide)) h1)
    refine Off.ite_fst h1 (Off.ite_fst ?_ ?_)
    · exact Off.guarded (foot_sub hM (by decide)) _ _ _ (fun s hs => Off.moveLife (foot_sub hM (by decide)) _ _ hs) h2
    · exact Off.moveLife (foot_sub hM (by decide)) _ _ h2

theorem Off.doLifecycle_eq (hM : 0x3e7df3fff7fb2001e9ffffffffffffffffffff &&& M = 0x3e7df3fff7fb2001e9ffffffffffffffffffff) {target ws x t} (h : Off M s0 s) (e : State.doLifecycle s target ws = (t, x)) :
    Off M s0 t := by
  have k := Off.doLifecycle hM target ws h
  rwa [e] at k


theorem Off.doLoadStencil (hM : 0x34000000000000000880080000000000000000 &&& M = 0x34000000000000000880080000000000000000) (ask ws) (h : Off M s0 s) : Off M s0 (State.doLoadStencil s ask ws).1 := by
  unfold State.doLoadStencil
  dsimp only
  split
  · exact Off.doLoadBegin (foot_sub hM (by decide)) _ _ h
  · exact Off.doLoadData (foot_sub hM (by decide)) _ _ _ _ h
  · exact Off.doLoadCommit (foot_sub hM (by decide)) _ h
  · exact Off.doLoadDiscard (foot_sub hM (by decide)) h

theorem Off.doLoadStencil_eq (hM : 0x34000000000000000880080000000000000000 &&& M = 0x34000000000000000880080000000000000000) {ask ws x t} (h : Off M s0 s) (e : State.doLoadStencil s ask ws = (t, x)) :
    Off M s0 t := by
  have k := Off.doLoadStencil hM ask ws h
  rwa [e] at k


theorem Off.doApply (hM : 0x2605f3ff21632001c890044090c2040f090600 &&& M = 0x2605f3ff21632001c890044090c2040f090600) (ask w)
    (h : Off M s0 s) : Off M s0 (State.doApply s ask w).1 := by
  unfold State.doApply
  with_reducible repeat' first
    | assumption | exact foot_sub hM (by decide) | refine Off.doCancelEpoch_eq ?_ ?_ (by assumption)
    | apply Off.doCancelEpoch | refine Off.doApplyEpoch_eq ?_ ?_ (by assumption) | apply Off.doApplyEpoch
    | apply Off.ite_fst | split

theorem Off.doApply_eq (hM : 0x2605f3ff21632001c890044090c2040f090600 &&& M = 0x2605f3ff21632001c890044090c2040f090600) {ask} {w} {x t}
    (h : Off M s0 s) (e : State.doApply s ask w = (t, x)) : Off M s0 t := by
  have k := Off.doApply hM ask w h
  rwa [e] at k

theorem Off.someIf {c : Prop} [Decidable c] {a : State × Option Final} {b : Option (State × Option Final)} {t x}
    (ha : Off M s0 a.1) (hb : b = some (t, x) → Off M s0 t) (e : (if c then some a else b) = some (t, x)) : Off M s0 t := by
  split at e
  · rw [Option.some.inj e] at ha; exact ha
  · exact hb e

theorem Off.runMachine (hM : 0xb605f3ff27e32001c9ffffffffffffffffffff &&& M = 0xb605f3ff27e32001c9ffffffffffffffffffff) {ask cmd ws t} {x : Option Final} (h : Off M s0 s)
    (e : State.runMachine s ask cmd ws = some (t, x)) : Off M s0 t := by
  revert e
  unfold State.runMachine
  refine Off.someIf (Off.doGetVersion (foot_sub hM (by decide)) h) ?_
  refine Off.someIf (Off.doGetCensus (foot_sub hM (by decide)) h) ?_
  refine Off.someIf (Off.doSelfTest (foot_sub hM (by decide)) _ _ h) ?_
  refine Off.someIf (Off.doClaim (foot_sub hM (by decide)) _ _ h) ?_
  refine Off.someIf (Off.doRelease (foot_sub hM (by decide)) _ h) ?_
  refine Off.someIf (Off.doLoadStencil (foot_sub hM (by decide)) _ _ h) ?_
  refine Off.someIf (Off.doApply (foot_sub hM (by decide)) _ _ h) ?_
  refine Off.someIf (Off.doQuiesce (foot_sub hM (by decide)) _ _ h) ?_
  refine Off.someIf (Off.doResume (foot_sub hM (by decide)) _ h) ?_
  refine Off.someIf (Off.doFence (foot_sub hM (by decide)) _ h) ?_
  refine Off.someIf (Off.doReadCounters (foot_sub hM (by decide)) _ _ _ _ _ h) ?_
  refine Off.someIf (Off.doReadEvents (foot_sub hM (by decide)) _ _ h) ?_
  intro e; contradiction


theorem Off.runDevice (hM : 0x3ffff3fff7fb2081e9ffffffffffffffffffff &&& M = 0x3ffff3fff7fb2081e9ffffffffffffffffffff) (ask cmd ws)
    (h : Off M s0 s) : Off M s0 (State.runDevice s ask cmd ws).1 := by
  unfold State.runDevice
  with_reducible repeat' first
    | assumption | exact foot_sub hM (by decide) | refine Off.doPortAdmit_eq ?_ ?_ (by assumption)
    | apply Off.doPortAdmit | refine Off.doPortQuarantine_eq ?_ ?_ (by assumption) | apply Off.doPortQuarantine
    | refine Off.doPortRemap_eq ?_ ?_ (by assumption) | apply Off.doPortRemap
    | refine Off.doLaneSpare_eq ?_ ?_ (by assumption) | apply Off.doLaneSpare
    | refine Off.doLaserPrepare_eq ?_ ?_ (by assumption) | apply Off.doLaserPrepare
    | refine Off.doLaserRestore_eq ?_ ?_ (by assumption) | apply Off.doLaserRestore
    | refine Off.doSetCoords_eq ?_ ?_ (by assumption) | apply Off.doSetCoords
    | refine Off.doSetTimebase_eq ?_ ?_ (by assumption) | apply Off.doSetTimebase
    | refine Off.doBankHandover_eq ?_ ?_ (by assumption) | apply Off.doBankHandover
    | refine Off.doSealKey_eq ?_ ?_ (by assumption) | apply Off.doSealKey
    | refine Off.doZeroize_eq ?_ ?_ (by assumption) | apply Off.doZeroize
    | refine Off.doLifecycle_eq ?_ ?_ (by assumption) | apply Off.doLifecycle | apply Off.ite_fst | split

theorem Off.runDevice_eq (hM : 0x3ffff3fff7fb2081e9ffffffffffffffffffff &&& M = 0x3ffff3fff7fb2081e9ffffffffffffffffffff) {ask} {cmd} {ws} {x t}
    (h : Off M s0 s) (e : State.runDevice s ask cmd ws = (t, x)) : Off M s0 t := by
  have k := Off.runDevice hM ask cmd ws h
  rwa [e] at k

theorem Off.runRequest (hM : 0xbffff3fff7fb2081e9ffffffffffffffffffff &&& M = 0xbffff3fff7fb2081e9ffffffffffffffffffff) (ask ws len) (h : Off M s0 s) : Off M s0 (State.runRequest s ask ws len).1 := by
  unfold State.runRequest
  dsimp only
  iterate 7 with_reducible refine Off.ite_fst h ?_
  cases hc : s.runMachine ask (rqCmd ws) ws with
  | none => exact Off.runDevice (foot_sub hM (by decide)) _ _ _ h
  | some y => exact Off.runMachine (foot_sub hM (by decide)) h hc

theorem Off.runRequest_eq (hM : 0xbffff3fff7fb2081e9ffffffffffffffffffff &&& M = 0xbffff3fff7fb2081e9ffffffffffffffffffff) {ask ws len x t} (h : Off M s0 s) (e : State.runRequest s ask ws len = (t, x)) :
    Off M s0 t := by
  have k := Off.runRequest hM ask ws len h
  rwa [e] at k


theorem Off.relayRequest (hM : 0x4000001000320000015004000020008010400 &&& M = 0x4000001000320000015004000020008010400) (ask ws l)
    (h : Off M s0 s) : Off M s0 (State.relayRequest s ask ws l) := by
  unfold State.relayRequest
  with_reducible repeat' first
    | assumption | exact foot_sub hM (by decide) | apply Off.sendMgmt | apply Off.modAlorn | apply Off.deliver
    | apply Off.ite | split

theorem Off.endRelay (hM : 0x4000001000320000015004000020008010400 &&& M = 0x4000001000320000015004000020008010400) (r ws)
    (h : Off M s0 s) : Off M s0 (State.endRelay s r ws) := by
  unfold State.endRelay
  with_reducible repeat' first
    | assumption | exact foot_sub hM (by decide) | apply Off.deliver | apply Off.modAlorn

theorem Off.relayAnswer (hM : 0x4000001000320000015004000020008010400 &&& M = 0x4000001000320000015004000020008010400) (l hdr ws)
    (h : Off M s0 s) : Off M s0 (State.relayAnswer s l hdr ws) := by
  unfold State.relayAnswer
  with_reducible repeat' first
    | assumption | exact foot_sub hM (by decide) | apply Off.endRelay | apply Off.ite | split

theorem execRelayResponse_off {t} (p a) (e : execRelayResponse p a s = .next t) :
    Off 0x400000101632001c01500400002c40f090400 s t := by
  have hM : 0x400000101632001c01500400002c40f090400 &&& 0x400000101632001c01500400002c40f090400 = 0x400000101632001c01500400002c40f090400 := Nat.and_self _
  refine live_off (fun s h => ?_) (Off.refl _ s) e
  with_reducible repeat' first
    | assumption | exact foot_sub hM (by decide) | apply Off.flow | apply Off.relayAnswer | apply Off.ite | split

theorem execRelayTimeout_off {t} (p hdr) (e : execRelayTimeout p hdr s = .next t) :
    Off 0x400000101632001c01500400002c40f090400 s t := by
  have hM : 0x400000101632001c01500400002c40f090400 &&& 0x400000101632001c01500400002c40f090400 = 0x400000101632001c01500400002c40f090400 := Nat.and_self _
  refine live_off (fun s h => ?_) (Off.refl _ s) e
  with_reducible repeat' first
    | assumption | exact foot_sub hM (by decide) | apply Off.flow | apply Off.endRelay | apply Off.ite | split

theorem Off.addCache (hM : 0x4000000000000000000000000000000000000 &&& M = 0x4000000000000000000000000000000000000) (e')
    (h : Off M s0 s) : Off M s0 (State.addCache s e') := by
  unfold State.addCache
  with_reducible repeat' first
    | assumption | exact foot_sub hM (by decide) | apply Off.modAlorn | apply Off.ite | split

theorem Off.concludeRequest (hM : 0x4000001000320000015004000020008010400 &&& M = 0x4000001000320000015004000020008010400) (ask cmd f')
    (h : Off M s0 s) : Off M s0 (State.concludeRequest s ask cmd f') := by
  unfold State.concludeRequest
  with_reducible repeat' first
    | assumption | exact foot_sub hM (by decide) | apply Off.deliver | apply Off.cacheAnswer | apply Off.finalAnswer
    | apply Off.ite | split

theorem Off.enterIntake (hM : 0x4000000000000000000400000000000000000 &&& M = 0x4000000000000000000400000000000000000) (r hold)
    (h : Off M s0 s) : Off M s0 (State.enterIntake s r hold) := by
  unfold State.enterIntake
  with_reducible repeat' first
    | assumption | exact foot_has (by decide) | exact foot_sub hM (by decide) | apply Off.sat hM | apply Off.modAlorn
    | apply Off.ite | split | dsimp only

theorem Off.takeRequest (hM : 0xbffff3fff7fb2081e9ffffffffffffffffffff &&& M = 0xbffff3fff7fb2081e9ffffffffffffffffffff) (r : Req) (h : Off M s0 s) : Off M s0 (State.takeRequest s r) := by
  unfold State.takeRequest
  extract_lets ask crc s1
  have h1 : Off M s0 s1 := Off.ite (Off.modAlorn (foot_sub hM (by decide)) _ h) h
  split
  · exact Off.ite (Off.deliver (foot_sub hM (by decide)) _ _ h1) (Off.deliver (foot_sub hM (by decide)) _ _ h1)
  · refine Off.ite (Off.relayRequest (foot_sub hM (by decide)) _ _ _ h1) ?_
    split
    next t x e => exact Off.concludeRequest (foot_sub hM (by decide)) _ _ _ (Off.runRequest_eq (foot_sub hM (by decide)) (Off.addCache (foot_sub hM (by decide)) _ h1) e)


theorem execRequestTaken_off {t} (e : execRequestTaken s = .next t) :
    Off 0xbffff3fff7fb2081e9ffffffffffffffffffff s t := by
  have hM : 0xbffff3fff7fb2081e9ffffffffffffffffffff &&& 0xbffff3fff7fb2081e9ffffffffffffffffffff = 0xbffff3fff7fb2081e9ffffffffffffffffffff := Nat.and_self _
  refine live_off (fun s h => ?_) (Off.refl _ s) e
  with_reducible repeat' first
    | assumption | exact foot_sub hM (by decide) | apply Off.flow | apply Off.takeRequest | apply Off.modAlorn
    | apply Off.ite | split | dsimp only

theorem Off.requestNow (hM : 0xbffff3fff7fb2081e9ffffffffffffffffffff &&& M = 0xbffff3fff7fb2081e9ffffffffffffffffffff) (src cmd tag args)
    (h : Off M s0 s) : Off M s0 (State.requestNow s src cmd tag args) := by
  unfold State.requestNow
  with_reducible repeat' first
    | assumption | exact foot_has (by decide) | exact foot_sub hM (by decide) | apply Off.put hM | apply Off.flow
    | apply Off.takeRequest | apply Off.enterIntake | apply Off.ite | split

theorem execGetVersion_off {t} (src tag) (e : execGetVersion src tag s = .next t) :
    Off 0xbffff3fff7fb2081e9ffffffffffffffffffff s t := by
  have hM : 0xbffff3fff7fb2081e9ffffffffffffffffffff &&& 0xbffff3fff7fb2081e9ffffffffffffffffffff = 0xbffff3fff7fb2081e9ffffffffffffffffffff := Nat.and_self _
  refine live_off (fun s h => ?_) (Off.refl _ s) e
  with_reducible repeat' first
    | assumption | exact foot_sub hM (by decide) | apply Off.requestNow

theorem execGetCensus_off {t} (src tag) (e : execGetCensus src tag s = .next t) :
    Off 0xbffff3fff7fb2081e9ffffffffffffffffffff s t := by
  have hM : 0xbffff3fff7fb2081e9ffffffffffffffffffff &&& 0xbffff3fff7fb2081e9ffffffffffffffffffff = 0xbffff3fff7fb2081e9ffffffffffffffffffff := Nat.and_self _
  refine live_off (fun s h => ?_) (Off.refl _ s) e
  with_reducible repeat' first
    | assumption | exact foot_sub hM (by decide) | apply Off.requestNow

theorem execSelfTest_off {t} (src tag arg) (e : execSelfTest src tag arg s = .next t) :
    Off 0xbffff3fff7fb2081e9ffffffffffffffffffff s t := by
  have hM : 0xbffff3fff7fb2081e9ffffffffffffffffffff &&& 0xbffff3fff7fb2081e9ffffffffffffffffffff = 0xbffff3fff7fb2081e9ffffffffffffffffffff := Nat.and_self _
  refine live_off (fun s h => ?_) (Off.refl _ s) e
  with_reducible repeat' first
    | assumption | exact foot_sub hM (by decide) | apply Off.requestNow

theorem execClaim_off {t} (src tag arg) (e : execClaim src tag arg s = .next t) :
    Off 0xbffff3fff7fb2081e9ffffffffffffffffffff s t := by
  have hM : 0xbffff3fff7fb2081e9ffffffffffffffffffff &&& 0xbffff3fff7fb2081e9ffffffffffffffffffff = 0xbffff3fff7fb2081e9ffffffffffffffffffff := Nat.and_self _
  refine live_off (fun s h => ?_) (Off.refl _ s) e
  with_reducible repeat' first
    | assumption | exact foot_sub hM (by decide) | apply Off.requestNow

theorem execRelease_off {t} (src tag) (e : execRelease src tag s = .next t) :
    Off 0xbffff3fff7fb2081e9ffffffffffffffffffff s t := by
  have hM : 0xbffff3fff7fb2081e9ffffffffffffffffffff &&& 0xbffff3fff7fb2081e9ffffffffffffffffffff = 0xbffff3fff7fb2081e9ffffffffffffffffffff := Nat.and_self _
  refine live_off (fun s h => ?_) (Off.refl _ s) e
  with_reducible repeat' first
    | assumption | exact foot_sub hM (by decide) | apply Off.requestNow

theorem execLoadStencilBegin_off {t} (src tag arg) (e : execLoadStencilBegin src tag arg s = .next t) :
    Off 0xbffff3fff7fb2081e9ffffffffffffffffffff s t := by
  have hM : 0xbffff3fff7fb2081e9ffffffffffffffffffff &&& 0xbffff3fff7fb2081e9ffffffffffffffffffff = 0xbffff3fff7fb2081e9ffffffffffffffffffff := Nat.and_self _
  refine live_off (fun s h => ?_) (Off.refl _ s) e
  with_reducible repeat' first
    | assumption | exact foot_sub hM (by decide) | apply Off.requestNow

theorem execLoadStencilData_off {t} (src tag arg data) (e : execLoadStencilData src tag arg data s = .next t) :
    Off 0xbffff3fff7fb2081e9ffffffffffffffffffff s t := by
  have hM : 0xbffff3fff7fb2081e9ffffffffffffffffffff &&& 0xbffff3fff7fb2081e9ffffffffffffffffffff = 0xbffff3fff7fb2081e9ffffffffffffffffffff := Nat.and_self _
  refine live_off (fun s h => ?_) (Off.refl _ s) e
  with_reducible repeat' first
    | assumption | exact foot_sub hM (by decide) | apply Off.requestNow

theorem execLoadStencilCommit_off {t} (src tag arg) (e : execLoadStencilCommit src tag arg s = .next t) :
    Off 0xbffff3fff7fb2081e9ffffffffffffffffffff s t := by
  have hM : 0xbffff3fff7fb2081e9ffffffffffffffffffff &&& 0xbffff3fff7fb2081e9ffffffffffffffffffff = 0xbffff3fff7fb2081e9ffffffffffffffffffff := Nat.and_self _
  refine live_off (fun s h => ?_) (Off.refl _ s) e
  with_reducible repeat' first
    | assumption | exact foot_sub hM (by decide) | apply Off.requestNow

theorem execLoadStencilDiscard_off {t} (src tag arg) (e : execLoadStencilDiscard src tag arg s = .next t) :
    Off 0xbffff3fff7fb2081e9ffffffffffffffffffff s t := by
  have hM : 0xbffff3fff7fb2081e9ffffffffffffffffffff &&& 0xbffff3fff7fb2081e9ffffffffffffffffffff = 0xbffff3fff7fb2081e9ffffffffffffffffffff := Nat.and_self _
  refine live_off (fun s h => ?_) (Off.refl _ s) e
  with_reducible repeat' first
    | assumption | exact foot_sub hM (by decide) | apply Off.requestNow

theorem execApplyEpoch_off {t} (src tag arg) (e : execApplyEpoch src tag arg s = .next t) :
    Off 0xbffff3fff7fb2081e9ffffffffffffffffffff s t := by
  have hM : 0xbffff3fff7fb2081e9ffffffffffffffffffff &&& 0xbffff3fff7fb2081e9ffffffffffffffffffff = 0xbffff3fff7fb2081e9ffffffffffffffffffff := Nat.and_self _
  refine live_off (fun s h => ?_) (Off.refl _ s) e
  with_reducible repeat' first
    | assumption | exact foot_sub hM (by decide) | apply Off.requestNow

theorem execApplyEpochCancel_off {t} (src tag arg) (e : execApplyEpochCancel src tag arg s = .next t) :
    Off 0xbffff3fff7fb2081e9ffffffffffffffffffff s t := by
  have hM : 0xbffff3fff7fb2081e9ffffffffffffffffffff &&& 0xbffff3fff7fb2081e9ffffffffffffffffffff = 0xbffff3fff7fb2081e9ffffffffffffffffffff := Nat.and_self _
  refine live_off (fun s h => ?_) (Off.refl _ s) e
  with_reducible repeat' first
    | assumption | exact foot_sub hM (by decide) | apply Off.requestNow

theorem execQuiesce_off {t} (src tag arg) (e : execQuiesce src tag arg s = .next t) :
    Off 0xbffff3fff7fb2081e9ffffffffffffffffffff s t := by
  have hM : 0xbffff3fff7fb2081e9ffffffffffffffffffff &&& 0xbffff3fff7fb2081e9ffffffffffffffffffff = 0xbffff3fff7fb2081e9ffffffffffffffffffff := Nat.and_self _
  refine live_off (fun s h => ?_) (Off.refl _ s) e
  with_reducible repeat' first
    | assumption | exact foot_sub hM (by decide) | apply Off.requestNow

theorem execResume_off {t} (src tag arg) (e : execResume src tag arg s = .next t) :
    Off 0xbffff3fff7fb2081e9ffffffffffffffffffff s t := by
  have hM : 0xbffff3fff7fb2081e9ffffffffffffffffffff &&& 0xbffff3fff7fb2081e9ffffffffffffffffffff = 0xbffff3fff7fb2081e9ffffffffffffffffffff := Nat.and_self _
  refine live_off (fun s h => ?_) (Off.refl _ s) e
  with_reducible repeat' first
    | assumption | exact foot_sub hM (by decide) | apply Off.requestNow

theorem execFence_off {t} (src tag arg) (e : execFence src tag arg s = .next t) :
    Off 0xbffff3fff7fb2081e9ffffffffffffffffffff s t := by
  have hM : 0xbffff3fff7fb2081e9ffffffffffffffffffff &&& 0xbffff3fff7fb2081e9ffffffffffffffffffff = 0xbffff3fff7fb2081e9ffffffffffffffffffff := Nat.and_self _
  refine live_off (fun s h => ?_) (Off.refl _ s) e
  with_reducible repeat' first
    | assumption | exact foot_sub hM (by decide) | apply Off.requestNow

theorem execPortAdmit_off {t} (src tag arg) (e : execPortAdmit src tag arg s = .next t) :
    Off 0xbffff3fff7fb2081e9ffffffffffffffffffff s t := by
  have hM : 0xbffff3fff7fb2081e9ffffffffffffffffffff &&& 0xbffff3fff7fb2081e9ffffffffffffffffffff = 0xbffff3fff7fb2081e9ffffffffffffffffffff := Nat.and_self _
  refine live_off (fun s h => ?_) (Off.refl _ s) e
  with_reducible repeat' first
    | assumption | exact foot_sub hM (by decide) | apply Off.requestNow

theorem execPortQuarantine_off {t} (src tag arg) (e : execPortQuarantine src tag arg s = .next t) :
    Off 0xbffff3fff7fb2081e9ffffffffffffffffffff s t := by
  have hM : 0xbffff3fff7fb2081e9ffffffffffffffffffff &&& 0xbffff3fff7fb2081e9ffffffffffffffffffff = 0xbffff3fff7fb2081e9ffffffffffffffffffff := Nat.and_self _
  refine live_off (fun s h => ?_) (Off.refl _ s) e
  with_reducible repeat' first
    | assumption | exact foot_sub hM (by decide) | apply Off.requestNow

theorem execPortRemap_off {t} (src tag arg) (e : execPortRemap src tag arg s = .next t) :
    Off 0xbffff3fff7fb2081e9ffffffffffffffffffff s t := by
  have hM : 0xbffff3fff7fb2081e9ffffffffffffffffffff &&& 0xbffff3fff7fb2081e9ffffffffffffffffffff = 0xbffff3fff7fb2081e9ffffffffffffffffffff := Nat.and_self _
  refine live_off (fun s h => ?_) (Off.refl _ s) e
  with_reducible repeat' first
    | assumption | exact foot_sub hM (by decide) | apply Off.requestNow

theorem execLaneSpare_off {t} (src tag arg) (e : execLaneSpare src tag arg s = .next t) :
    Off 0xbffff3fff7fb2081e9ffffffffffffffffffff s t := by
  have hM : 0xbffff3fff7fb2081e9ffffffffffffffffffff &&& 0xbffff3fff7fb2081e9ffffffffffffffffffff = 0xbffff3fff7fb2081e9ffffffffffffffffffff := Nat.and_self _
  refine live_off (fun s h => ?_) (Off.refl _ s) e
  with_reducible repeat' first
    | assumption | exact foot_sub hM (by decide) | apply Off.requestNow

theorem execLaserPrepare_off {t} (src tag arg) (e : execLaserPrepare src tag arg s = .next t) :
    Off 0xbffff3fff7fb2081e9ffffffffffffffffffff s t := by
  have hM : 0xbffff3fff7fb2081e9ffffffffffffffffffff &&& 0xbffff3fff7fb2081e9ffffffffffffffffffff = 0xbffff3fff7fb2081e9ffffffffffffffffffff := Nat.and_self _
  refine live_off (fun s h => ?_) (Off.refl _ s) e
  with_reducible repeat' first
    | assumption | exact foot_sub hM (by decide) | apply Off.requestNow

theorem execLaserRestore_off {t} (src tag arg) (e : execLaserRestore src tag arg s = .next t) :
    Off 0xbffff3fff7fb2081e9ffffffffffffffffffff s t := by
  have hM : 0xbffff3fff7fb2081e9ffffffffffffffffffff &&& 0xbffff3fff7fb2081e9ffffffffffffffffffff = 0xbffff3fff7fb2081e9ffffffffffffffffffff := Nat.and_self _
  refine live_off (fun s h => ?_) (Off.refl _ s) e
  with_reducible repeat' first
    | assumption | exact foot_sub hM (by decide) | apply Off.requestNow

theorem execSetCoords_off {t} (src tag arg) (e : execSetCoords src tag arg s = .next t) :
    Off 0xbffff3fff7fb2081e9ffffffffffffffffffff s t := by
  have hM : 0xbffff3fff7fb2081e9ffffffffffffffffffff &&& 0xbffff3fff7fb2081e9ffffffffffffffffffff = 0xbffff3fff7fb2081e9ffffffffffffffffffff := Nat.and_self _
  refine live_off (fun s h => ?_) (Off.refl _ s) e
  with_reducible repeat' first
    | assumption | exact foot_sub hM (by decide) | apply Off.requestNow

theorem execSetTimebase_off {t} (src tag arg value) (e : execSetTimebase src tag arg value s = .next t) :
    Off 0xbffff3fff7fb2081e9ffffffffffffffffffff s t := by
  have hM : 0xbffff3fff7fb2081e9ffffffffffffffffffff &&& 0xbffff3fff7fb2081e9ffffffffffffffffffff = 0xbffff3fff7fb2081e9ffffffffffffffffffff := Nat.and_self _
  refine live_off (fun s h => ?_) (Off.refl _ s) e
  with_reducible repeat' first
    | assumption | exact foot_sub hM (by decide) | apply Off.requestNow

theorem execBankHandover_off {t} (src tag arg) (e : execBankHandover src tag arg s = .next t) :
    Off 0xbffff3fff7fb2081e9ffffffffffffffffffff s t := by
  have hM : 0xbffff3fff7fb2081e9ffffffffffffffffffff &&& 0xbffff3fff7fb2081e9ffffffffffffffffffff = 0xbffff3fff7fb2081e9ffffffffffffffffffff := Nat.and_self _
  refine live_off (fun s h => ?_) (Off.refl _ s) e
  with_reducible repeat' first
    | assumption | exact foot_sub hM (by decide) | apply Off.requestNow

theorem execReadCounters_off {t} (src tag arg offset) (e : execReadCounters src tag arg offset s = .next t) :
    Off 0xbffff3fff7fb2081e9ffffffffffffffffffff s t := by
  have hM : 0xbffff3fff7fb2081e9ffffffffffffffffffff &&& 0xbffff3fff7fb2081e9ffffffffffffffffffff = 0xbffff3fff7fb2081e9ffffffffffffffffffff := Nat.and_self _
  refine live_off (fun s h => ?_) (Off.refl _ s) e
  with_reducible repeat' first
    | assumption | exact foot_sub hM (by decide) | apply Off.requestNow

theorem execReadEvents_off {t} (src tag arg) (e : execReadEvents src tag arg s = .next t) :
    Off 0xbffff3fff7fb2081e9ffffffffffffffffffff s t := by
  have hM : 0xbffff3fff7fb2081e9ffffffffffffffffffff &&& 0xbffff3fff7fb2081e9ffffffffffffffffffff = 0xbffff3fff7fb2081e9ffffffffffffffffffff := Nat.and_self _
  refine live_off (fun s h => ?_) (Off.refl _ s) e
  with_reducible repeat' first
    | assumption | exact foot_sub hM (by decide) | apply Off.requestNow

theorem execSealKey_off {t} (src tag arg key sig) (e : execSealKey src tag arg key sig s = .next t) :
    Off 0xbffff3fff7fb2081e9ffffffffffffffffffff s t := by
  have hM : 0xbffff3fff7fb2081e9ffffffffffffffffffff &&& 0xbffff3fff7fb2081e9ffffffffffffffffffff = 0xbffff3fff7fb2081e9ffffffffffffffffffff := Nat.and_self _
  refine live_off (fun s h => ?_) (Off.refl _ s) e
  with_reducible repeat' first
    | assumption | exact foot_sub hM (by decide) | apply Off.requestNow

theorem execZeroize_off {t} (src tag) (e : execZeroize src tag s = .next t) :
    Off 0xbffff3fff7fb2081e9ffffffffffffffffffff s t := by
  have hM : 0xbffff3fff7fb2081e9ffffffffffffffffffff &&& 0xbffff3fff7fb2081e9ffffffffffffffffffff = 0xbffff3fff7fb2081e9ffffffffffffffffffff := Nat.and_self _
  refine live_off (fun s h => ?_) (Off.refl _ s) e
  with_reducible repeat' first
    | assumption | exact foot_sub hM (by decide) | apply Off.requestNow

theorem execLifecycle_off {t} (src tag arg key sig) (e : execLifecycle src tag arg key sig s = .next t) :
    Off 0xbffff3fff7fb2081e9ffffffffffffffffffff s t := by
  have hM : 0xbffff3fff7fb2081e9ffffffffffffffffffff &&& 0xbffff3fff7fb2081e9ffffffffffffffffffff = 0xbffff3fff7fb2081e9ffffffffffffffffffff := Nat.and_self _
  refine live_off (fun s h => ?_) (Off.refl _ s) e
  with_reducible repeat' first
    | assumption | exact foot_sub hM (by decide) | apply Off.requestNow

theorem Off.ring (hM : 0x4000000000000000001400000000000000000 &&& M = 0x4000000000000000001400000000000000000) (busy)
    (h : Off M s0 s) : Off M s0 (State.ring s busy) := by
  unfold State.ring
  with_reducible repeat' first
    | assumption | exact foot_has (by decide) | exact foot_sub hM (by decide) | apply Off.put hM
    | apply Off.enterIntake | apply Off.ite | split

theorem Off.takeResponse (hM : 0x1000000000000000000 &&& M = 0x1000000000000000000)
    (h : Off M s0 s) : Off M s0 (State.takeResponse s) := by
  unfold State.takeResponse
  with_reducible repeat' first
    | assumption | exact foot_has (by decide) | exact foot_sub hM (by decide) | apply Off.put hM

theorem execDoorbell_off {t} (e : execDoorbell s = .next t) :
    Off 0x4000000000000000001400000000000000000 s t := by
  have hM : 0x4000000000000000001400000000000000000 &&& 0x4000000000000000001400000000000000000 = 0x4000000000000000001400000000000000000 := Nat.and_self _
  refine live_off (fun s h => ?_) (Off.refl _ s) e
  with_reducible repeat' first
    | assumption | exact foot_sub hM (by decide) | apply Off.ring | apply Off.ite | split

theorem execRspTaken_off {t} (e : execRspTaken s = .next t) :
    Off 0x1000000000000000000 s t := by
  have hM : 0x1000000000000000000 &&& 0x1000000000000000000 = 0x1000000000000000000 := Nat.and_self _
  refine live_off (fun s h => ?_) (Off.refl _ s) e
  with_reducible repeat' first
    | assumption | exact foot_sub hM (by decide) | apply Off.takeResponse | apply Off.ite | split

theorem Off.writeMbctl (hM : 0x4000000000000000001400000000000000000 &&& M = 0x4000000000000000001400000000000000000) (v)
    (h : Off M s0 s) : Off M s0 (State.writeMbctl s v) := by
  unfold State.writeMbctl
  with_reducible repeat' first
    | assumption | exact foot_has (by decide) | exact foot_sub hM (by decide) | apply Off.setWord0 hM
    | apply Off.takeResponse | apply Off.ring | apply Off.ite | split

theorem Off.hostWrite (hM : 0x4000000000000000003400000000000000000 &&& M = 0x4000000000000000003400000000000000000) (addr v)
    (h : Off M s0 s) : Off M s0 (State.hostWrite s addr v) := by
  unfold State.hostWrite
  with_reducible repeat' first
    | assumption | exact foot_has (by decide) | exact foot_sub hM (by decide) | apply Off.writeMbctl
    | apply Off.put hM | apply Off.setWord0 hM | apply Off.ite | split

theorem execRegisterWrite_off {t} (path addr bytes v) (e : execRegisterWrite path addr bytes v s = .next t) :
    Off 0x2580000101e32001c9ffffffffffffffffffff s t := by
  have hM : 0x2580000101e32001c9ffffffffffffffffffff &&& 0x2580000101e32001c9ffffffffffffffffffff = 0x2580000101e32001c9ffffffffffffffffffff := Nat.and_self _
  refine live_off (fun s h => ?_) (Off.refl _ s) e
  with_reducible repeat' first
    | assumption | exact foot_sub hM (by decide) | apply Off.flow | apply Off.loadHandovers | apply Off.coreWrite
    | apply Off.hostWrite | apply Off.ite | split

theorem execMctpMessage_off {t} (eid msgTag ic bytes) (e : execMctpMessage eid msgTag ic bytes s = .next t) :
    Off 0x4000000000000000000400000000000000000 s t := by
  have hM : 0x4000000000000000000400000000000000000 &&& 0x4000000000000000000400000000000000000 = 0x4000000000000000000400000000000000000 := Nat.and_self _
  refine live_off (fun s h => ?_) (Off.refl _ s) e
  with_reducible repeat' first
    | assumption | exact foot_has (by decide) | exact foot_sub hM (by decide) | apply Off.sat hM
    | apply Off.enterIntake | apply Off.ite | split

theorem Off.i3cReply (hM : 0x4000000000000000000000000000000000000 &&& M = 0x4000000000000000000000000000000000000) (bs)
    (h : Off M s0 s) : Off M s0 (State.i3cReply s bs) := by
  unfold State.i3cReply
  with_reducible repeat' first
    | assumption | exact foot_sub hM (by decide) | apply Off.modAlorn

theorem Off.resetMctp (hM : 0x24000000000000000080200000000000000000 &&& M = 0x24000000000000000080200000000000000000)
    (h : Off M s0 s) : Off M s0 (State.resetMctp s) := by
  unfold State.resetMctp
  with_reducible repeat' first
    | assumption | exact foot_sub hM (by decide) | apply Off.breakLock | apply Off.ite | split

theorem Off.takeControl (hM : 0x24000000000000000080200000000000000000 &&& M = 0x24000000000000000080200000000000000000) (x')
    (h : Off M s0 s) : Off M s0 (State.takeControl s x') := by
  unfold State.takeControl
  with_reducible repeat' first
    | assumption | exact foot_sub hM (by decide) | apply Off.i3cReply | apply Off.modAlorn | apply Off.resetMctp
    | apply Off.ite | split

theorem Off.i3cControl (hM : 0x24000000000000000080200000000000000000 &&& M = 0x24000000000000000080200000000000000000) (k eid)
    (h : Off M s0 s) : Off M s0 (State.i3cControl s k eid) := by
  unfold State.i3cControl
  with_reducible repeat' first
    | assumption | exact foot_sub hM (by decide) | apply Off.takeControl | apply Off.modAlorn | apply Off.ite | split

theorem Off.takeHeldControl (hM : 0x24000000000000000080200000000000000000 &&& M = 0x24000000000000000080200000000000000000)
    (h : Off M s0 s) : Off M s0 (State.takeHeldControl s) := by
  unfold State.takeHeldControl
  with_reducible repeat' first
    | assumption | exact foot_sub hM (by decide) | apply Off.takeControl | apply Off.modAlorn | apply Off.foldl
    | intro _ _ _

theorem execSetEndpointId_off {t} (eid) (e : execSetEndpointId eid s = .next t) :
    Off 0x24000000000000000080200000000000000000 s t := by
  have hM : 0x24000000000000000080200000000000000000 &&& 0x24000000000000000080200000000000000000 = 0x24000000000000000080200000000000000000 := Nat.and_self _
  refine live_off (fun s h => ?_) (Off.refl _ s) e
  with_reducible repeat' first
    | assumption | exact foot_sub hM (by decide) | apply Off.i3cControl

theorem execGetEndpointId_off {t} (e : execGetEndpointId s = .next t) :
    Off 0x24000000000000000080200000000000000000 s t := by
  have hM : 0x24000000000000000080200000000000000000 &&& 0x24000000000000000080200000000000000000 = 0x24000000000000000080200000000000000000 := Nat.and_self _
  refine live_off (fun s h => ?_) (Off.refl _ s) e
  with_reducible repeat' first
    | assumption | exact foot_sub hM (by decide) | apply Off.i3cControl

theorem execGetMctpVersionSupport_off {t} (e : execGetMctpVersionSupport s = .next t) :
    Off 0x24000000000000000080200000000000000000 s t := by
  have hM : 0x24000000000000000080200000000000000000 &&& 0x24000000000000000080200000000000000000 = 0x24000000000000000080200000000000000000 := Nat.and_self _
  refine live_off (fun s h => ?_) (Off.refl _ s) e
  with_reducible repeat' first
    | assumption | exact foot_sub hM (by decide) | apply Off.i3cControl

theorem execGetMessageTypeSupport_off {t} (e : execGetMessageTypeSupport s = .next t) :
    Off 0x24000000000000000080200000000000000000 s t := by
  have hM : 0x24000000000000000080200000000000000000 &&& 0x24000000000000000080200000000000000000 = 0x24000000000000000080200000000000000000 := Nat.and_self _
  refine live_off (fun s h => ?_) (Off.refl _ s) e
  with_reducible repeat' first
    | assumption | exact foot_sub hM (by decide) | apply Off.i3cControl

theorem execGetVendorDefinedMsgSupport_off {t} (e : execGetVendorDefinedMsgSupport s = .next t) :
    Off 0x24000000000000000080200000000000000000 s t := by
  have hM : 0x24000000000000000080200000000000000000 &&& 0x24000000000000000080200000000000000000 = 0x24000000000000000080200000000000000000 := Nat.and_self _
  refine live_off (fun s h => ?_) (Off.refl _ s) e
  with_reducible repeat' first
    | assumption | exact foot_sub hM (by decide) | apply Off.i3cControl

theorem execGetstatus_off {t} (e : execGetstatus s = .next t) :
    Off 0x4000000000000000000000000000000000000 s t := by
  have hM : 0x4000000000000000000000000000000000000 &&& 0x4000000000000000000000000000000000000 = 0x4000000000000000000000000000000000000 := Nat.and_self _
  refine live_off (fun s h => ?_) (Off.refl _ s) e
  with_reducible repeat' first
    | assumption | exact foot_sub hM (by decide) | apply Off.i3cReply | apply Off.ite | split

theorem execI3cTargetReset_off {t} (e : execI3cTargetReset s = .next t) :
    Off 0x24000000000000000080200000000000000000 s t := by
  have hM : 0x24000000000000000080200000000000000000 &&& 0x24000000000000000080200000000000000000 = 0x24000000000000000080200000000000000000 := Nat.and_self _
  refine live_off (fun s h => ?_) (Off.refl _ s) e
  with_reducible repeat' first
    | assumption | exact foot_sub hM (by decide) | apply Off.resetMctp

theorem Off.takeMgmt (hM : 0x2400000100032000089540400002000c010400 &&& M = 0x2400000100032000089540400002000c010400) (l p)
    (h : Off M s0 s) : Off M s0 (State.takeMgmt s l p) := by
  unfold State.takeMgmt
  with_reducible repeat' first
    | assumption | exact foot_sub hM (by decide) | apply Off.stray | apply Off.nack | apply Off.relayAnswer
    | apply Off.enterIntake | apply Off.ite | split

theorem execMgmtArrival_off {t} (port pkt) (e : execMgmtArrival port pkt s = .next t) :
    Off 0x32400000101ef6001c89540400002c44f190600 s t := by
  have hM : 0x32400000101ef6001c89540400002c44f190600 &&& 0x32400000101ef6001c89540400002c44f190600 = 0x32400000101ef6001c89540400002c44f190600 := Nat.and_self _
  refine live_off (fun s h => ?_) (Off.refl _ s) e
  with_reducible repeat' first
    | assumption | exact foot_sub hM (by decide) | apply Off.flow | apply Off.reply | apply Off.request
    | apply Off.takeIn | apply Off.discardHead | apply Off.takeMgmt | intro _ _ | apply Off.ite | split

theorem Off.abortCache (hM : 0x4000000000000000000000000000000000000 &&& M = 0x4000000000000000000000000000000000000)
    (h : Off M s0 s) : Off M s0 (State.abortCache s) := by
  unfold State.abortCache
  with_reducible repeat' first
    | assumption | exact foot_sub hM (by decide) | apply Off.modAlorn | apply Off.ite | split

theorem Off.loseWork (hM : 0x258100010223200009ffffffffffffffffffff &&& M = 0x258100010223200009ffffffffffffffffffff) (halt)
    (h : Off M s0 s) : Off M s0 (State.loseWork s halt) := by
  unfold State.loseWork
  with_reducible repeat' first
    | assumption | exact foot_sub hM (by decide) | apply Off.breakAll | apply Off.cutLoad | apply Off.freeStaging
    | apply Off.abortCache | apply Off.modAlorn | apply Off.modPort | apply Off.deliver | apply Off.foldl
    | intro _ _ _ | apply Off.ite | split

theorem Off.dropIntake (hM : 0x4000000000000000000400000000000000000 &&& M = 0x4000000000000000000400000000000000000)
    (h : Off M s0 s) : Off M s0 (State.dropIntake s) := by
  unfold State.dropIntake
  with_reducible repeat' first
    | assumption | exact foot_has (by decide) | exact foot_sub hM (by decide) | apply Off.sat hM | apply Off.modAlorn

theorem Off.restart (hM : 0x258100010223200009ffffffffffffffffffff &&& M = 0x258100010223200009ffffffffffffffffffff) (cause rom)
    (h : Off M s0 s) : Off M s0 (State.restart s cause rom) := by
  unfold State.restart
  with_reducible repeat' first
    | assumption | exact foot_has (by decide) | exact foot_sub hM (by decide) | apply Off.sat hM | apply Off.modAlorn
    | apply Off.loseWork | apply Off.event | apply Off.dropIntake | apply Off.put hM | apply Off.ite | split

theorem execWatchdogExpiry_off {t} (romAddr) (e : execWatchdogExpiry romAddr s = .next t) :
    Off 0x2581000103632001c9ffffffffffffffffffff s t := by
  have hM : 0x2581000103632001c9ffffffffffffffffffff &&& 0x2581000103632001c9ffffffffffffffffffff = 0x2581000103632001c9ffffffffffffffffffff := Nat.and_self _
  refine live_off (fun s h => ?_) (Off.refl _ s) e
  with_reducible repeat' first
    | assumption | exact foot_sub hM (by decide) | apply Off.flow | apply Off.restart

theorem Off.eccRestart (hM : 0x258100010223200009ffffffffffffffffffff &&& M = 0x258100010223200009ffffffffffffffffffff) (mem addr)
    (h : Off M s0 s) : Off M s0 (State.eccRestart s mem addr) := by
  unfold State.eccRestart
  with_reducible repeat' first
    | assumption | exact foot_sub hM (by decide) | apply Off.restart | apply Off.drawn | apply Off.event
    | apply Off.ite | split

theorem execAlornEcc_off {t} (mem corrected addr) (e : execAlornEcc mem corrected addr s = .next t) :
    Off 0x2581000103632001c9ffffffffffffffffffff s t := by
  have hM : 0x2581000103632001c9ffffffffffffffffffff &&& 0x2581000103632001c9ffffffffffffffffffff = 0x2581000103632001c9ffffffffffffffffffff := Nat.and_self _
  refine live_off (fun s h => ?_) (Off.refl _ s) e
  with_reducible repeat' first
    | assumption | exact foot_has (by decide) | exact foot_sub hM (by decide) | apply Off.sat hM | apply Off.flow
    | apply Off.eccRestart | apply Off.modAlorn | apply Off.breakLock | apply Off.emptyStaging | apply Off.ite | split
    | dsimp only

theorem Off.checkSlot (hM : 0x30000000000000000080000000000000000000 &&& M = 0x30000000000000000080000000000000000000) (corrupt k)
    (h : Off M s0 s) : Off M s0 (State.checkSlot s corrupt k) := by
  unfold State.checkSlot
  with_reducible repeat' first
    | assumption | exact foot_sub hM (by decide) | apply Off.corruptSlot | apply Off.ite | split

theorem execAlornRunning_off {t} (corrupt) (e : execAlornRunning corrupt s = .next t) :
    Off 0x35800000000000000080f00000013800000000 s t := by
  have hM : 0x35800000000000000080f00000013800000000 &&& 0x35800000000000000080f00000013800000000 = 0x35800000000000000080f00000013800000000 := Nat.and_self _
  refine live_off (fun s h => ?_) (Off.refl _ s) e
  with_reducible repeat' first
    | assumption | exact foot_has (by decide) | exact foot_sub hM (by decide) | apply Off.loadHandovers
    | apply Off.takeHeldControl | apply Off.put hM | apply Off.checkSlot | apply Off.foldl | intro _ _ _
    | apply Off.ite | split

theorem Off.discardFifo (hM : 0x20000000000000000000000200 &&& M = 0x20000000000000000000000200) (n)
    (h : Off M s0 s) : Off M s0 (State.discardFifo s n) := by
  unfold State.discardFifo
  with_reducible repeat' first
    | assumption | exact foot_has (by decide) | exact foot_sub hM (by decide) | apply Off.sat hM | apply Off.setFifo

theorem Off.cutFifo (hM : 0x120000000000000000000000200 &&& M = 0x120000000000000000000000200) (n)
    (h : Off M s0 s) : Off M s0 (State.cutFifo s n) := by
  unfold State.cutFifo
  with_reducible repeat' first
    | assumption | exact foot_has (by decide) | exact foot_bit hM (by decide) | exact foot_sub hM (by decide)
    | apply Off.sat hM | apply Off.setFifo | apply Off.upd_outWait

theorem Off.resetReg (i) (r : Reg) (hr : M.testBit r.num = true) (h : Off M s0 s) : Off M s0 (State.resetReg s i r) :=
  h.foldl (fun _ _ hs => hs.setWord _ _ _ _ (by decide) hr)


theorem Off.dropCore (hM : 0x80000005e200000000000000000000000000 &&& M = 0x80000005e200000000000000000000000000) (i)
    (h : Off M s0 s) : Off M s0 (State.dropCore s i) := by
  unfold State.dropCore
  with_reducible repeat' first
    | assumption | exact foot_bit hM (by decide) | apply Off.upd_turns_cmds_stale_rings_holds_fenceDue_hoPending

theorem Off.resetCore (hM : 0x2785f3ff25e32301c890044090c33c6fa90600 &&& M = 0x2785f3ff25e32301c890044090c33c6fa90600) (i) (h : Off M s0 s) : Off M s0 (State.resetCore s i) := by
  unfold State.resetCore
  extract_lets s1 s2 s3 s4 s5 s6 s7
  have h1 : Off M s0 s1 := Off.dropCore (foot_sub hM (by decide)) _ (Off.breakAll (foot_sub hM (by decide)) _ (Off.resetColls (foot_sub hM (by decide)) _ h))
  have h2 : Off M s0 s2 :=
    Off.foldlMem h1 (fun s r hr hs => Off.resetReg _ r (foot_list hM (by decide) hr) hs)
  have h3 : Off M s0 s3 := Off.clearBusy (foot_sub hM (by decide)) _ h2
  have h4 : Off M s0 s4 := Off.foldl h3 (fun _ _ hs => Off.discardFifo (foot_sub hM (by decide)) _ hs)
  have h5 : Off M s0 s5 := Off.foldl h4 (fun _ _ hs => Off.cutFifo (foot_sub hM (by decide)) _ hs)
  have h6 : Off M s0 s6 := Off.sat hM _ _ _ (by decide) h5
  have h7 : Off M s0 s7 := Off.unholdPlumb (foot_sub hM (by decide)) _ (Off.upd_plumbOut (foot_bit hM (by decide)) h6)
  exact Off.upd_coreRst_idleHeld (foot_bit hM (by decide)) (foot_bit hM (by decide)) h7



theorem execCoreReset_off {t} (i) (e : execCoreReset i s = .next t) :
    Off 0x2785f3ff25e32301c890044090c3fc6fa90600 s t := by
  have hM : 0x2785f3ff25e32301c890044090c3fc6fa90600 &&& 0x2785f3ff25e32301c890044090c3fc6fa90600 = 0x2785f3ff25e32301c890044090c3fc6fa90600 := Nat.and_self _
  refine live_off (fun s h => ?_) (Off.refl _ s) e
  with_reducible repeat' first
    | assumption | exact foot_sub hM (by decide) | apply Off.flow | apply Off.resetCore | apply Off.ite | split

theorem execCoreResetRelease_off {t} (i) (e : execCoreResetRelease i s = .next t) :
    Off 0x101632101c00000000000c407090400 s t := by
  have hM : 0x101632101c00000000000c407090400 &&& 0x101632101c00000000000c407090400 = 0x101632101c00000000000c407090400 := Nat.and_self _
  refine live_off (fun s h => ?_) (Off.refl _ s) e
  with_reducible repeat' first
    | assumption | exact foot_bit hM (by decide) | exact foot_sub hM (by decide) | apply Off.setFifo | apply Off.flow
    | apply Off.foldl | intro _ _ _ | apply Off.ite | split | apply Off.upd_coreRst

theorem Off.resetAll (r : Reg) (hr : M.testBit r.num = true) (h : Off M s0 s) : Off M s0 (State.resetAll s r) :=
  h.foldl (fun _ _ hs => hs.setWord _ _ _ _ (by decide) hr)


theorem execHostBridgeReset_off {t} (e : execHostBridgeReset s = .next t) :
    Off 0x3240000010163a001c08720000000c407090600 s t := by
  have hM : 0x3240000010163a001c08720000000c407090600 &&& 0x3240000010163a001c08720000000c407090600 = 0x3240000010163a001c08720000000c407090600 := Nat.and_self _
  refine live_off (fun s h => ?_) (Off.refl _ s) e
  with_reducible repeat' first
    | (refine foot_list hM ?_ (by assumption); decide)
    | assumption | exact foot_bit hM (by decide) | exact foot_sub hM (by decide) | apply Off.breakLock
    | apply Off.resetAll | apply Off.modAlorn | apply Off.discardFifo | apply Off.cutFifo | apply Off.flow
    | apply Off.foldlMem | intro _ _ _ _ | apply Off.ite | split | apply Off.upd_hostWait_hostRx_hostTags






theorem execChipResetRelease_off {t} (e : execChipResetRelease s = .next t) : Off 0x10000000000001000010000000000000000 s t := by
  have hM : 0x10000000000001000010000000000000000 &&& 0x10000000000001000010000000000000000 = 0x10000000000001000010000000000000000 := Nat.and_self _
  cases e
  exact Off.ite (Off.foldl (Off.upd_chipReset (foot_bit hM (by decide)) (Off.refl _ s)) (fun _ _ hs => Off.showLight (foot_sub hM (by decide)) _ hs))
    (Off.refl _ s)


theorem Off.loseEdges (hM : 0x1000020c0800000000000000000000 &&& M = 0x1000020c0800000000000000000000) (d)
    (h : Off M s0 s) : Off M s0 (State.loseEdges s d) := by
  unfold State.loseEdges
  with_reducible repeat' first
    | assumption | exact foot_bit hM (by decide) | exact foot_sub hM (by decide) | apply Off.pulsesStop
    | apply Off.foldl | intro _ _ _ | apply Off.ite | split | apply Off.upd_mgLost | apply Off.upd_lkLost_idleHeld

theorem execClockStop_off {t} (d) (e : execClockStop d s = .next t) :
    Off 0x367df3fff17b221dc8952d5f9ffec40f0bf706 s t := by
  have hM : 0x367df3fff17b221dc8952d5f9ffec40f0bf706 &&& 0x367df3fff17b221dc8952d5f9ffec40f0bf706 = 0x367df3fff17b221dc8952d5f9ffec40f0bf706 := Nat.and_self _
  refine live_off (fun s h => ?_) (Off.refl _ s) e
  with_reducible repeat' first
    | assumption | exact foot_has (by decide) | exact foot_bit hM (by decide) | exact foot_sub hM (by decide)
    | apply Off.loseEdges | apply Off.sat hM | apply Off.event | apply Off.flow | apply Off.allDown | apply Off.ite
    | split | apply Off.upd_clkStopped

theorem Off.wakeCluster (hM : 0x2605f3ff25e32001c890044090c2c44f190600 &&& M = 0x2605f3ff25e32001c890044090c2c44f190600) (c)
    (h : Off M s0 s) : Off M s0 (State.wakeCluster s c) := by
  unfold State.wakeCluster
  with_reducible repeat' first
    | assumption | exact foot_bit hM (by decide) | exact foot_sub hM (by decide) | apply Off.fenceCores
    | apply Off.quiesceColls | apply Off.stallPlumb | apply Off.stallSlots | apply Off.feed | apply Off.drainPlumb
    | apply Off.foldl | intro _ _ _ | apply Off.upd_fenceDue

theorem Off.wakePorts (hM : 0x200127c001612001c880000080000407080600 &&& M = 0x200127c001612001c880000080000407080600)
    (h : Off M s0 s) : Off M s0 (State.wakePorts s) := by
  unfold State.wakePorts
  with_reducible repeat' first
    | assumption | exact foot_sub hM (by decide) | apply Off.portReads | apply Off.foldl | intro _ _ _

theorem Off.regainEdges (hM : 0x1000023c0000000000000000000000 &&& M = 0x1000023c0000000000000000000000) (d)
    (h : Off M s0 s) : Off M s0 (State.regainEdges s d) := by
  unfold State.regainEdges
  with_reducible repeat' first
    | assumption | exact foot_bit hM (by decide) | exact foot_sub hM (by decide) | apply Off.pulsesStart
    | apply Off.ite | split | apply Off.upd_mgLost_lkLost_clkStopped_clkSince_idleHeld

theorem execClockStart_off {t} (d) (e : execClockStart d s = .next t) :
    Off 0x2605f7ff35e3223dc890044090c2c44f190600 s t := by
  have hM : 0x2605f7ff35e3223dc890044090c2c44f190600 &&& 0x2605f7ff35e3223dc890044090c2c44f190600 = 0x2605f7ff35e3223dc890044090c2c44f190600 := Nat.and_self _
  refine live_off (fun s h => ?_) (Off.refl _ s) e
  with_reducible repeat' first
    | assumption | exact foot_sub hM (by decide) | apply Off.regainEdges | apply Off.event | apply Off.drawn
    | apply Off.flow | apply Off.wakeCluster | apply Off.wakePorts | apply Off.ite | split

theorem execMultiOvr_off {t} (d) (e : execMultiOvr d s = .next t) :
    Off 0x400000000000000000000100 s t := by
  have hM : 0x400000000000000000000100 &&& 0x400000000000000000000100 = 0x400000000000000000000100 := Nat.and_self _
  refine live_off (fun s h => ?_) (Off.refl _ s) e
  with_reducible repeat' first
    | assumption | exact foot_has (by decide) | exact foot_bit hM (by decide) | exact foot_sub hM (by decide)
    | apply Off.put hM | apply Off.ite | split | apply Off.upd_sampled

theorem Off.setTime (hM : 0x20000000000000000180000000000000000000 &&& M = 0x20000000000000000180000000000000000000) (x')
    (h : Off M s0 s) : Off M s0 (State.setTime s x') := by
  unfold State.setTime
  with_reducible repeat' first
    | assumption | exact foot_has (by decide) | exact foot_sub hM (by decide) | apply Off.setWord0 hM
    | apply Off.event | apply Off.ite | split

theorem Off.tick (hM : 0x20000000000000c00580000000000000000000 &&& M = 0x20000000000000c00580000000000000000000)
    (h : Off M s0 s) : Off M s0 (State.tick s) := by
  unfold State.tick
  with_reducible repeat' first
    | assumption | exact foot_has (by decide) | exact foot_bit hM (by decide) | exact foot_sub hM (by decide)
    | apply Off.setWord0 hM | apply Off.setTime | apply Off.foldl | intro _ _ _ | apply Off.ite | split
    | apply Off.upd_now_sampled_timeSets

end Sys2Proof.Machine
end

