-- ==== Sys2Proof/Laws/Memory.lean ====
section
/-! SUPPORT. Laws of the byte memory: read after write, and its canonical form. -/

namespace Sys2Proof.Machine

theorem Memory.mem_write {m : List Host.Cell} {a : Nat} {b : Byte} {e : Host.Cell} (h : e ∈ Memory.write m a b) :
    e = (a, b) ∨ e ∈ m := by
  induction m with
  | nil =>
    unfold Memory.write at h
    split at h
    · simp at h
    · simpa using h
  | cons x t ih =>
    unfold Memory.write at h
    repeat' split at h
    · exact .inr h
    · rcases List.mem_cons.1 h with h | h
      · exact .inl h
      · exact .inr h
    · exact .inr (List.mem_cons_of_mem _ h)
    · rcases List.mem_cons.1 h with h | h
      · exact .inl h
      · exact .inr (List.mem_cons_of_mem _ h)
    · rcases List.mem_cons.1 h with h | h
      · exact .inr (by simp [h])
      · rcases ih h with h | h
        · exact .inl h
        · exact .inr (List.mem_cons_of_mem _ h)

theorem Memory.wf_cons {a : Nat} {b : Byte} {t : List Host.Cell} :
    Memory.wf ((a, b) :: t) = true ↔ b ≠ Memory.default ∧ (∀ e ∈ t, a < e.1) ∧ Memory.wf t = true := by
  simp [Memory.wf, and_assoc]

/-- Writing a byte keeps the canonical form. -/
theorem Memory.wf_write {m : List Host.Cell} (a : Nat) (b : Byte) (h : Memory.wf m = true) :
    Memory.wf (Memory.write m a b) = true := by
  induction m with
  | nil =>
    unfold Memory.write
    split
    · rfl
    · next hb => exact Memory.wf_cons.2 ⟨hb, by simp, rfl⟩
  | cons x t ih =>
    obtain ⟨a', b'⟩ := x
    have hc := Memory.wf_cons.1 h
    unfold Memory.write
    split
    · next hlt =>
      split
      · exact h
      · next hb =>
        refine Memory.wf_cons.2 ⟨hb, ?_, h⟩
        intro e he
        rcases List.mem_cons.1 he with rfl | he
        · exact hlt
        · exact Nat.lt_trans hlt (hc.2.1 e he)
    · next hlt =>
      split
      · next he =>
        subst he
        split
        · exact hc.2.2
        · next hb => exact Memory.wf_cons.2 ⟨hb, hc.2.1, hc.2.2⟩
      · next hne =>
        refine Memory.wf_cons.2 ⟨hc.1, ?_, ih hc.2.2⟩
        intro e he
        rcases Memory.mem_write he with rfl | he
        · exact Nat.lt_of_le_of_ne (Nat.le_of_not_lt hlt) (fun q => hne q.symm)
        · exact hc.2.1 e he

/-- Writing bytes keeps the canonical form. -/
theorem Memory.wf_writeList {m : List Host.Cell} (a : Nat) (bs : List Byte) (h : Memory.wf m = true) :
    Memory.wf (Memory.writeList m a bs) = true := by
  induction bs generalizing m a with
  | nil => exact h
  | cons b t ih => exact ih _ (Memory.wf_write a b h)

/-- A byte outside those of a canonical memory reads as the default. -/
theorem Memory.read_of_lt {m : List Host.Cell} {a : Nat} (h : ∀ e ∈ m, a < e.1) : Memory.read m a = Memory.default := by
  induction m with
  | nil => rfl
  | cons x t ih =>
    have h1 : x.1 ≠ a := Nat.ne_of_gt (h x (by simp))
    simp only [Memory.read, if_neg h1]
    exact ih (fun e he => h e (List.mem_cons_of_mem _ he))

/-- A read of the byte just written gives it. -/
theorem Memory.read_write_self {m : List Host.Cell} (a : Nat) (b : Byte) (h : Memory.wf m = true) :
    Memory.read (Memory.write m a b) a = b := by
  induction m with
  | nil =>
    unfold Memory.write
    split
    · next hb => simp [Memory.read, hb]
    · simp [Memory.read]
  | cons x t ih =>
    obtain ⟨a', b'⟩ := x
    have hc := Memory.wf_cons.1 h
    unfold Memory.write
    split
    · next hlt =>
      split
      · next hb =>
        rw [hb]
        exact Memory.read_of_lt (by
          intro e he
          rcases List.mem_cons.1 he with rfl | he
          · exact hlt
          · exact Nat.lt_trans hlt (hc.2.1 e he))
      · simp [Memory.read]
    · split
      · next he =>
        subst he
        split
        · next hb => rw [hb]; exact Memory.read_of_lt hc.2.1
        · simp [Memory.read]
      · next hne =>
        simp only [Memory.read, if_neg (fun q : a' = a => hne q.symm)]
        exact ih hc.2.2

/-- A write leaves every other byte alone. -/
theorem Memory.read_write_ne {m : List Host.Cell} (a c : Nat) (b : Byte) (h : c ≠ a) :
    Memory.read (Memory.write m a b) c = Memory.read m c := by
  induction m with
  | nil =>
    unfold Memory.write
    split
    · rfl
    · simp [Memory.read, h.symm]
  | cons x t ih =>
    obtain ⟨a', b'⟩ := x
    unfold Memory.write
    split
    · split
      · rfl
      · simp [Memory.read, h.symm]
    · split
      · next he =>
        subst he
        split
        · simp [Memory.read, h.symm]
        · simp [Memory.read, h.symm]
      · simp only [Memory.read]
        split
        · rfl
        · exact ih

/-- A read of a byte outside those written gives what it gave before. -/
theorem Memory.read_writeList_out (m : List Host.Cell) (a c : Nat) (bs : List Byte) (h : c < a ∨ a + bs.length ≤ c) :
    Memory.read (Memory.writeList m a bs) c = Memory.read m c := by
  induction bs generalizing m a with
  | nil => rfl
  | cons b t ih =>
    simp only [List.length_cons] at h
    simp only [Memory.writeList]
    rw [ih _ _ (by omega), Memory.read_write_ne _ _ _ (by omega)]

/-- A read of a byte among those written gives it. -/
theorem Memory.read_writeList_in (m : List Host.Cell) (a k : Nat) (bs : List Byte) (h : Memory.wf m = true)
    (hk : k < bs.length) : Memory.read (Memory.writeList m a bs) (a + k) = bs[k] := by
  induction bs generalizing m a k with
  | nil => simp at hk
  | cons b t ih =>
    simp only [Memory.writeList]
    cases k with
    | zero =>
      rw [Memory.read_writeList_out _ _ _ _ (by omega)]
      exact Memory.read_write_self a b h
    | succ k =>
      have := ih (Memory.write m a b) (a + 1) k (Memory.wf_write a b h) (by simpa using hk)
      rw [show a + 1 + k = a + (k + 1) by omega] at this
      simpa using this

end Sys2Proof.Machine
end

