-- ==== Sys2Proof/Laws/State.lean ====
section
/-! SUPPORT. What each update of the state leaves as it is: one lemma per field per update. -/

namespace Sys2Proof.Machine

variable (s : State)

/-- An event enters the intake, or counts as dropped: nothing else changes. -/
theorem State.event_eq (e : Event) (w u a b : Nat) (m : Option (Nat × Nat)) : s.event e w u a b m =
    { s with regs := (s.event e w u a b m).regs, logIntake := (s.event e w u a b m).logIntake } := by
  unfold State.event
  split
  · rfl
  · split <;> rfl

section
variable (r : Reg) (n : Nat) (v : Word) (b : Nat)
@[simp] theorem State.setWord_pending : (s.setWord r n v b).pending = s.pending := rfl
@[simp] theorem State.setWord_now : (s.setWord r n v b).now = s.now := rfl
@[simp] theorem State.setWord_freeCtr : (s.setWord r n v b).freeCtr = s.freeCtr := rfl
@[simp] theorem State.setWord_chipReset : (s.setWord r n v b).chipReset = s.chipReset := rfl
@[simp] theorem State.setWord_fuse : (s.setWord r n v b).fuse = s.fuse := rfl
@[simp] theorem State.setWord_mem : (s.setWord r n v b).mem = s.mem := rfl
@[simp] theorem State.setWord_badWords : (s.setWord r n v b).badWords = s.badWords := rfl
@[simp] theorem State.setWord_softWords : (s.setWord r n v b).softWords = s.softWords := rfl
@[simp] theorem State.setWord_refLostAt : (s.setWord r n v b).refLostAt = s.refLostAt := rfl
@[simp] theorem State.setWord_mgLost : (s.setWord r n v b).mgLost = s.mgLost := rfl
@[simp] theorem State.setWord_lkLost : (s.setWord r n v b).lkLost = s.lkLost := rfl
@[simp] theorem State.setWord_clkStopped : (s.setWord r n v b).clkStopped = s.clkStopped := rfl
@[simp] theorem State.setWord_clkSince : (s.setWord r n v b).clkSince = s.clkSince := rfl
@[simp] theorem State.setWord_sampled : (s.setWord r n v b).sampled = s.sampled := rfl
@[simp] theorem State.setWord_timeSets : (s.setWord r n v b).timeSets = s.timeSets := rfl
@[simp] theorem State.setWord_coreRst : (s.setWord r n v b).coreRst = s.coreRst := rfl
@[simp] theorem State.setWord_idleHeld : (s.setWord r n v b).idleHeld = s.idleHeld := rfl
@[simp] theorem State.setWord_fabLow : (s.setWord r n v b).fabLow = s.fabLow := rfl
@[simp] theorem State.setWord_tapState : (s.setWord r n v b).tapState = s.tapState := rfl
@[simp] theorem State.setWord_tapIr : (s.setWord r n v b).tapIr = s.tapIr := rfl
@[simp] theorem State.setWord_fifos : (s.setWord r n v b).fifos = s.fifos := rfl
@[simp] theorem State.setWord_stackVia : (s.setWord r n v b).stackVia = s.stackVia := rfl
@[simp] theorem State.setWord_hostWait : (s.setWord r n v b).hostWait = s.hostWait := rfl
@[simp] theorem State.setWord_outWait : (s.setWord r n v b).outWait = s.outWait := rfl
@[simp] theorem State.setWord_turns : (s.setWord r n v b).turns = s.turns := rfl
@[simp] theorem State.setWord_links : (s.setWord r n v b).links = s.links := rfl
@[simp] theorem State.setWord_grants : (s.setWord r n v b).grants = s.grants := rfl
@[simp] theorem State.setWord_waits : (s.setWord r n v b).waits = s.waits := rfl
@[simp] theorem State.setWord_cmds : (s.setWord r n v b).cmds = s.cmds := rfl
@[simp] theorem State.setWord_stale : (s.setWord r n v b).stale = s.stale := rfl
@[simp] theorem State.setWord_rings : (s.setWord r n v b).rings = s.rings := rfl
@[simp] theorem State.setWord_holds : (s.setWord r n v b).holds = s.holds := rfl
@[simp] theorem State.setWord_parts : (s.setWord r n v b).parts = s.parts := rfl
@[simp] theorem State.setWord_fenceDue : (s.setWord r n v b).fenceDue = s.fenceDue := rfl
@[simp] theorem State.setWord_tableCorr : (s.setWord r n v b).tableCorr = s.tableCorr := rfl
@[simp] theorem State.setWord_pulses : (s.setWord r n v b).pulses = s.pulses := rfl
@[simp] theorem State.setWord_slots : (s.setWord r n v b).slots = s.slots := rfl
@[simp] theorem State.setWord_mcBufs : (s.setWord r n v b).mcBufs = s.mcBufs := rfl
@[simp] theorem State.setWord_merges : (s.setWord r n v b).merges = s.merges := rfl
@[simp] theorem State.setWord_rooms : (s.setWord r n v b).rooms = s.rooms := rfl
@[simp] theorem State.setWord_flushGen : (s.setWord r n v b).flushGen = s.flushGen := rfl
@[simp] theorem State.setWord_nodes : (s.setWord r n v b).nodes = s.nodes := rfl
@[simp] theorem State.setWord_awaitMarker : (s.setWord r n v b).awaitMarker = s.awaitMarker := rfl
@[simp] theorem State.setWord_markers : (s.setWord r n v b).markers = s.markers := rfl
@[simp] theorem State.setWord_fibreHold : (s.setWord r n v b).fibreHold = s.fibreHold := rfl
@[simp] theorem State.setWord_plumb : (s.setWord r n v b).plumb = s.plumb := rfl
@[simp] theorem State.setWord_copies : (s.setWord r n v b).copies = s.copies := rfl
@[simp] theorem State.setWord_plumbOut : (s.setWord r n v b).plumbOut = s.plumbOut := rfl
@[simp] theorem State.setWord_plumbHeld : (s.setWord r n v b).plumbHeld = s.plumbHeld := rfl
@[simp] theorem State.setWord_hubMiss : (s.setWord r n v b).hubMiss = s.hubMiss := rfl
@[simp] theorem State.setWord_hubDown : (s.setWord r n v b).hubDown = s.hubDown := rfl
@[simp] theorem State.setWord_arrivals : (s.setWord r n v b).arrivals = s.arrivals := rfl
@[simp] theorem State.setWord_lastColls : (s.setWord r n v b).lastColls = s.lastColls := rfl
@[simp] theorem State.setWord_sinkRuns : (s.setWord r n v b).sinkRuns = s.sinkRuns := rfl
@[simp] theorem State.setWord_raised : (s.setWord r n v b).raised = s.raised := rfl
@[simp] theorem State.setWord_ports : (s.setWord r n v b).ports = s.ports := rfl
@[simp] theorem State.setWord_ramps : (s.setWord r n v b).ramps = s.ramps := rfl
@[simp] theorem State.setWord_released : (s.setWord r n v b).released = s.released := rfl
@[simp] theorem State.setWord_tune : (s.setWord r n v b).tune = s.tune := rfl
@[simp] theorem State.setWord_planKeys : (s.setWord r n v b).planKeys = s.planKeys := rfl
@[simp] theorem State.setWord_guard : (s.setWord r n v b).guard = s.guard := rfl
@[simp] theorem State.setWord_transitOff : (s.setWord r n v b).transitOff = s.transitOff := rfl
@[simp] theorem State.setWord_hoPending : (s.setWord r n v b).hoPending = s.hoPending := rfl
@[simp] theorem State.setWord_hoSince : (s.setWord r n v b).hoSince = s.hoSince := rfl
@[simp] theorem State.setWord_epochCtl : (s.setWord r n v b).epochCtl = s.epochCtl := rfl
@[simp] theorem State.setWord_alorn : (s.setWord r n v b).alorn = s.alorn := rfl
@[simp] theorem State.setWord_wiped : (s.setWord r n v b).wiped = s.wiped := rfl
@[simp] theorem State.setWord_sealStore : (s.setWord r n v b).sealStore = s.sealStore := rfl
@[simp] theorem State.setWord_logIntake : (s.setWord r n v b).logIntake = s.logIntake := rfl
@[simp] theorem State.setWord_log : (s.setWord r n v b).log = s.log := rfl
@[simp] theorem State.setWord_readNext : (s.setWord r n v b).readNext = s.readNext := rfl
@[simp] theorem State.setWord_hostRx : (s.setWord r n v b).hostRx = s.hostRx := rfl
@[simp] theorem State.setWord_hostTags : (s.setWord r n v b).hostTags = s.hostTags := rfl
end

section
variable (f : Fld) (n v : Nat)
@[simp] theorem State.put_pending : (s.put f n v).pending = s.pending := rfl
@[simp] theorem State.put_now : (s.put f n v).now = s.now := rfl
@[simp] theorem State.put_freeCtr : (s.put f n v).freeCtr = s.freeCtr := rfl
@[simp] theorem State.put_chipReset : (s.put f n v).chipReset = s.chipReset := rfl
@[simp] theorem State.put_fuse : (s.put f n v).fuse = s.fuse := rfl
@[simp] theorem State.put_mem : (s.put f n v).mem = s.mem := rfl
@[simp] theorem State.put_badWords : (s.put f n v).badWords = s.badWords := rfl
@[simp] theorem State.put_softWords : (s.put f n v).softWords = s.softWords := rfl
@[simp] theorem State.put_refLostAt : (s.put f n v).refLostAt = s.refLostAt := rfl
@[simp] theorem State.put_mgLost : (s.put f n v).mgLost = s.mgLost := rfl
@[simp] theorem State.put_lkLost : (s.put f n v).lkLost = s.lkLost := rfl
@[simp] theorem State.put_clkStopped : (s.put f n v).clkStopped = s.clkStopped := rfl
@[simp] theorem State.put_clkSince : (s.put f n v).clkSince = s.clkSince := rfl
@[simp] theorem State.put_sampled : (s.put f n v).sampled = s.sampled := rfl
@[simp] theorem State.put_timeSets : (s.put f n v).timeSets = s.timeSets := rfl
@[simp] theorem State.put_coreRst : (s.put f n v).coreRst = s.coreRst := rfl
@[simp] theorem State.put_idleHeld : (s.put f n v).idleHeld = s.idleHeld := rfl
@[simp] theorem State.put_fabLow : (s.put f n v).fabLow = s.fabLow := rfl
@[simp] theorem State.put_tapState : (s.put f n v).tapState = s.tapState := rfl
@[simp] theorem State.put_tapIr : (s.put f n v).tapIr = s.tapIr := rfl
@[simp] theorem State.put_fifos : (s.put f n v).fifos = s.fifos := rfl
@[simp] theorem State.put_stackVia : (s.put f n v).stackVia = s.stackVia := rfl
@[simp] theorem State.put_hostWait : (s.put f n v).hostWait = s.hostWait := rfl
@[simp] theorem State.put_outWait : (s.put f n v).outWait = s.outWait := rfl
@[simp] theorem State.put_turns : (s.put f n v).turns = s.turns := rfl
@[simp] theorem State.put_links : (s.put f n v).links = s.links := rfl
@[simp] theorem State.put_grants : (s.put f n v).grants = s.grants := rfl
@[simp] theorem State.put_waits : (s.put f n v).waits = s.waits := rfl
@[simp] theorem State.put_cmds : (s.put f n v).cmds = s.cmds := rfl
@[simp] theorem State.put_stale : (s.put f n v).stale = s.stale := rfl
@[simp] theorem State.put_rings : (s.put f n v).rings = s.rings := rfl
@[simp] theorem State.put_holds : (s.put f n v).holds = s.holds := rfl
@[simp] theorem State.put_parts : (s.put f n v).parts = s.parts := rfl
@[simp] theorem State.put_fenceDue : (s.put f n v).fenceDue = s.fenceDue := rfl
@[simp] theorem State.put_tableCorr : (s.put f n v).tableCorr = s.tableCorr := rfl
@[simp] theorem State.put_pulses : (s.put f n v).pulses = s.pulses := rfl
@[simp] theorem State.put_slots : (s.put f n v).slots = s.slots := rfl
@[simp] theorem State.put_mcBufs : (s.put f n v).mcBufs = s.mcBufs := rfl
@[simp] theorem State.put_merges : (s.put f n v).merges = s.merges := rfl
@[simp] theorem State.put_rooms : (s.put f n v).rooms = s.rooms := rfl
@[simp] theorem State.put_flushGen : (s.put f n v).flushGen = s.flushGen := rfl
@[simp] theorem State.put_nodes : (s.put f n v).nodes = s.nodes := rfl
@[simp] theorem State.put_awaitMarker : (s.put f n v).awaitMarker = s.awaitMarker := rfl
@[simp] theorem State.put_markers : (s.put f n v).markers = s.markers := rfl
@[simp] theorem State.put_fibreHold : (s.put f n v).fibreHold = s.fibreHold := rfl
@[simp] theorem State.put_plumb : (s.put f n v).plumb = s.plumb := rfl
@[simp] theorem State.put_copies : (s.put f n v).copies = s.copies := rfl
@[simp] theorem State.put_plumbOut : (s.put f n v).plumbOut = s.plumbOut := rfl
@[simp] theorem State.put_plumbHeld : (s.put f n v).plumbHeld = s.plumbHeld := rfl
@[simp] theorem State.put_hubMiss : (s.put f n v).hubMiss = s.hubMiss := rfl
@[simp] theorem State.put_hubDown : (s.put f n v).hubDown = s.hubDown := rfl
@[simp] theorem State.put_arrivals : (s.put f n v).arrivals = s.arrivals := rfl
@[simp] theorem State.put_lastColls : (s.put f n v).lastColls = s.lastColls := rfl
@[simp] theorem State.put_sinkRuns : (s.put f n v).sinkRuns = s.sinkRuns := rfl
@[simp] theorem State.put_raised : (s.put f n v).raised = s.raised := rfl
@[simp] theorem State.put_ports : (s.put f n v).ports = s.ports := rfl
@[simp] theorem State.put_ramps : (s.put f n v).ramps = s.ramps := rfl
@[simp] theorem State.put_released : (s.put f n v).released = s.released := rfl
@[simp] theorem State.put_tune : (s.put f n v).tune = s.tune := rfl
@[simp] theorem State.put_planKeys : (s.put f n v).planKeys = s.planKeys := rfl
@[simp] theorem State.put_guard : (s.put f n v).guard = s.guard := rfl
@[simp] theorem State.put_transitOff : (s.put f n v).transitOff = s.transitOff := rfl
@[simp] theorem State.put_hoPending : (s.put f n v).hoPending = s.hoPending := rfl
@[simp] theorem State.put_hoSince : (s.put f n v).hoSince = s.hoSince := rfl
@[simp] theorem State.put_epochCtl : (s.put f n v).epochCtl = s.epochCtl := rfl
@[simp] theorem State.put_alorn : (s.put f n v).alorn = s.alorn := rfl
@[simp] theorem State.put_wiped : (s.put f n v).wiped = s.wiped := rfl
@[simp] theorem State.put_sealStore : (s.put f n v).sealStore = s.sealStore := rfl
@[simp] theorem State.put_logIntake : (s.put f n v).logIntake = s.logIntake := rfl
@[simp] theorem State.put_log : (s.put f n v).log = s.log := rfl
@[simp] theorem State.put_readNext : (s.put f n v).readNext = s.readNext := rfl
@[simp] theorem State.put_hostRx : (s.put f n v).hostRx = s.hostRx := rfl
@[simp] theorem State.put_hostTags : (s.put f n v).hostTags = s.hostTags := rfl
end

section
variable (f : Fld) (n k : Nat)
@[simp] theorem State.sat_pending : (s.sat f n k).pending = s.pending := rfl
@[simp] theorem State.sat_now : (s.sat f n k).now = s.now := rfl
@[simp] theorem State.sat_freeCtr : (s.sat f n k).freeCtr = s.freeCtr := rfl
@[simp] theorem State.sat_chipReset : (s.sat f n k).chipReset = s.chipReset := rfl
@[simp] theorem State.sat_fuse : (s.sat f n k).fuse = s.fuse := rfl
@[simp] theorem State.sat_mem : (s.sat f n k).mem = s.mem := rfl
@[simp] theorem State.sat_badWords : (s.sat f n k).badWords = s.badWords := rfl
@[simp] theorem State.sat_softWords : (s.sat f n k).softWords = s.softWords := rfl
@[simp] theorem State.sat_refLostAt : (s.sat f n k).refLostAt = s.refLostAt := rfl
@[simp] theorem State.sat_mgLost : (s.sat f n k).mgLost = s.mgLost := rfl
@[simp] theorem State.sat_lkLost : (s.sat f n k).lkLost = s.lkLost := rfl
@[simp] theorem State.sat_clkStopped : (s.sat f n k).clkStopped = s.clkStopped := rfl
@[simp] theorem State.sat_clkSince : (s.sat f n k).clkSince = s.clkSince := rfl
@[simp] theorem State.sat_sampled : (s.sat f n k).sampled = s.sampled := rfl
@[simp] theorem State.sat_timeSets : (s.sat f n k).timeSets = s.timeSets := rfl
@[simp] theorem State.sat_coreRst : (s.sat f n k).coreRst = s.coreRst := rfl
@[simp] theorem State.sat_idleHeld : (s.sat f n k).idleHeld = s.idleHeld := rfl
@[simp] theorem State.sat_fabLow : (s.sat f n k).fabLow = s.fabLow := rfl
@[simp] theorem State.sat_tapState : (s.sat f n k).tapState = s.tapState := rfl
@[simp] theorem State.sat_tapIr : (s.sat f n k).tapIr = s.tapIr := rfl
@[simp] theorem State.sat_fifos : (s.sat f n k).fifos = s.fifos := rfl
@[simp] theorem State.sat_stackVia : (s.sat f n k).stackVia = s.stackVia := rfl
@[simp] theorem State.sat_hostWait : (s.sat f n k).hostWait = s.hostWait := rfl
@[simp] theorem State.sat_outWait : (s.sat f n k).outWait = s.outWait := rfl
@[simp] theorem State.sat_turns : (s.sat f n k).turns = s.turns := rfl
@[simp] theorem State.sat_links : (s.sat f n k).links = s.links := rfl
@[simp] theorem State.sat_grants : (s.sat f n k).grants = s.grants := rfl
@[simp] theorem State.sat_waits : (s.sat f n k).waits = s.waits := rfl
@[simp] theorem State.sat_cmds : (s.sat f n k).cmds = s.cmds := rfl
@[simp] theorem State.sat_stale : (s.sat f n k).stale = s.stale := rfl
@[simp] theorem State.sat_rings : (s.sat f n k).rings = s.rings := rfl
@[simp] theorem State.sat_holds : (s.sat f n k).holds = s.holds := rfl
@[simp] theorem State.sat_parts : (s.sat f n k).parts = s.parts := rfl
@[simp] theorem State.sat_fenceDue : (s.sat f n k).fenceDue = s.fenceDue := rfl
@[simp] theorem State.sat_tableCorr : (s.sat f n k).tableCorr = s.tableCorr := rfl
@[simp] theorem State.sat_pulses : (s.sat f n k).pulses = s.pulses := rfl
@[simp] theorem State.sat_slots : (s.sat f n k).slots = s.slots := rfl
@[simp] theorem State.sat_mcBufs : (s.sat f n k).mcBufs = s.mcBufs := rfl
@[simp] theorem State.sat_merges : (s.sat f n k).merges = s.merges := rfl
@[simp] theorem State.sat_rooms : (s.sat f n k).rooms = s.rooms := rfl
@[simp] theorem State.sat_flushGen : (s.sat f n k).flushGen = s.flushGen := rfl
@[simp] theorem State.sat_nodes : (s.sat f n k).nodes = s.nodes := rfl
@[simp] theorem State.sat_awaitMarker : (s.sat f n k).awaitMarker = s.awaitMarker := rfl
@[simp] theorem State.sat_markers : (s.sat f n k).markers = s.markers := rfl
@[simp] theorem State.sat_fibreHold : (s.sat f n k).fibreHold = s.fibreHold := rfl
@[simp] theorem State.sat_plumb : (s.sat f n k).plumb = s.plumb := rfl
@[simp] theorem State.sat_copies : (s.sat f n k).copies = s.copies := rfl
@[simp] theorem State.sat_plumbOut : (s.sat f n k).plumbOut = s.plumbOut := rfl
@[simp] theorem State.sat_plumbHeld : (s.sat f n k).plumbHeld = s.plumbHeld := rfl
@[simp] theorem State.sat_hubMiss : (s.sat f n k).hubMiss = s.hubMiss := rfl
@[simp] theorem State.sat_hubDown : (s.sat f n k).hubDown = s.hubDown := rfl
@[simp] theorem State.sat_arrivals : (s.sat f n k).arrivals = s.arrivals := rfl
@[simp] theorem State.sat_lastColls : (s.sat f n k).lastColls = s.lastColls := rfl
@[simp] theorem State.sat_sinkRuns : (s.sat f n k).sinkRuns = s.sinkRuns := rfl
@[simp] theorem State.sat_raised : (s.sat f n k).raised = s.raised := rfl
@[simp] theorem State.sat_ports : (s.sat f n k).ports = s.ports := rfl
@[simp] theorem State.sat_ramps : (s.sat f n k).ramps = s.ramps := rfl
@[simp] theorem State.sat_released : (s.sat f n k).released = s.released := rfl
@[simp] theorem State.sat_tune : (s.sat f n k).tune = s.tune := rfl
@[simp] theorem State.sat_planKeys : (s.sat f n k).planKeys = s.planKeys := rfl
@[simp] theorem State.sat_guard : (s.sat f n k).guard = s.guard := rfl
@[simp] theorem State.sat_transitOff : (s.sat f n k).transitOff = s.transitOff := rfl
@[simp] theorem State.sat_hoPending : (s.sat f n k).hoPending = s.hoPending := rfl
@[simp] theorem State.sat_hoSince : (s.sat f n k).hoSince = s.hoSince := rfl
@[simp] theorem State.sat_epochCtl : (s.sat f n k).epochCtl = s.epochCtl := rfl
@[simp] theorem State.sat_alorn : (s.sat f n k).alorn = s.alorn := rfl
@[simp] theorem State.sat_wiped : (s.sat f n k).wiped = s.wiped := rfl
@[simp] theorem State.sat_sealStore : (s.sat f n k).sealStore = s.sealStore := rfl
@[simp] theorem State.sat_logIntake : (s.sat f n k).logIntake = s.logIntake := rfl
@[simp] theorem State.sat_log : (s.sat f n k).log = s.log := rfl
@[simp] theorem State.sat_readNext : (s.sat f n k).readNext = s.readNext := rfl
@[simp] theorem State.sat_hostRx : (s.sat f n k).hostRx = s.hostRx := rfl
@[simp] theorem State.sat_hostTags : (s.sat f n k).hostTags = s.hostTags := rfl
end

section
variable (f : Fld) (n k : Nat)
@[simp] theorem State.wrap_pending : (s.wrap f n k).pending = s.pending := rfl
@[simp] theorem State.wrap_now : (s.wrap f n k).now = s.now := rfl
@[simp] theorem State.wrap_freeCtr : (s.wrap f n k).freeCtr = s.freeCtr := rfl
@[simp] theorem State.wrap_chipReset : (s.wrap f n k).chipReset = s.chipReset := rfl
@[simp] theorem State.wrap_fuse : (s.wrap f n k).fuse = s.fuse := rfl
@[simp] theorem State.wrap_mem : (s.wrap f n k).mem = s.mem := rfl
@[simp] theorem State.wrap_badWords : (s.wrap f n k).badWords = s.badWords := rfl
@[simp] theorem State.wrap_softWords : (s.wrap f n k).softWords = s.softWords := rfl
@[simp] theorem State.wrap_refLostAt : (s.wrap f n k).refLostAt = s.refLostAt := rfl
@[simp] theorem State.wrap_mgLost : (s.wrap f n k).mgLost = s.mgLost := rfl
@[simp] theorem State.wrap_lkLost : (s.wrap f n k).lkLost = s.lkLost := rfl
@[simp] theorem State.wrap_clkStopped : (s.wrap f n k).clkStopped = s.clkStopped := rfl
@[simp] theorem State.wrap_clkSince : (s.wrap f n k).clkSince = s.clkSince := rfl
@[simp] theorem State.wrap_sampled : (s.wrap f n k).sampled = s.sampled := rfl
@[simp] theorem State.wrap_timeSets : (s.wrap f n k).timeSets = s.timeSets := rfl
@[simp] theorem State.wrap_coreRst : (s.wrap f n k).coreRst = s.coreRst := rfl
@[simp] theorem State.wrap_idleHeld : (s.wrap f n k).idleHeld = s.idleHeld := rfl
@[simp] theorem State.wrap_fabLow : (s.wrap f n k).fabLow = s.fabLow := rfl
@[simp] theorem State.wrap_tapState : (s.wrap f n k).tapState = s.tapState := rfl
@[simp] theorem State.wrap_tapIr : (s.wrap f n k).tapIr = s.tapIr := rfl
@[simp] theorem State.wrap_fifos : (s.wrap f n k).fifos = s.fifos := rfl
@[simp] theorem State.wrap_stackVia : (s.wrap f n k).stackVia = s.stackVia := rfl
@[simp] theorem State.wrap_hostWait : (s.wrap f n k).hostWait = s.hostWait := rfl
@[simp] theorem State.wrap_outWait : (s.wrap f n k).outWait = s.outWait := rfl
@[simp] theorem State.wrap_turns : (s.wrap f n k).turns = s.turns := rfl
@[simp] theorem State.wrap_links : (s.wrap f n k).links = s.links := rfl
@[simp] theorem State.wrap_grants : (s.wrap f n k).grants = s.grants := rfl
@[simp] theorem State.wrap_waits : (s.wrap f n k).waits = s.waits := rfl
@[simp] theorem State.wrap_cmds : (s.wrap f n k).cmds = s.cmds := rfl
@[simp] theorem State.wrap_stale : (s.wrap f n k).stale = s.stale := rfl
@[simp] theorem State.wrap_rings : (s.wrap f n k).rings = s.rings := rfl
@[simp] theorem State.wrap_holds : (s.wrap f n k).holds = s.holds := rfl
@[simp] theorem State.wrap_parts : (s.wrap f n k).parts = s.parts := rfl
@[simp] theorem State.wrap_fenceDue : (s.wrap f n k).fenceDue = s.fenceDue := rfl
@[simp] theorem State.wrap_tableCorr : (s.wrap f n k).tableCorr = s.tableCorr := rfl
@[simp] theorem State.wrap_pulses : (s.wrap f n k).pulses = s.pulses := rfl
@[simp] theorem State.wrap_slots : (s.wrap f n k).slots = s.slots := rfl
@[simp] theorem State.wrap_mcBufs : (s.wrap f n k).mcBufs = s.mcBufs := rfl
@[simp] theorem State.wrap_merges : (s.wrap f n k).merges = s.merges := rfl
@[simp] theorem State.wrap_rooms : (s.wrap f n k).rooms = s.rooms := rfl
@[simp] theorem State.wrap_flushGen : (s.wrap f n k).flushGen = s.flushGen := rfl
@[simp] theorem State.wrap_nodes : (s.wrap f n k).nodes = s.nodes := rfl
@[simp] theorem State.wrap_awaitMarker : (s.wrap f n k).awaitMarker = s.awaitMarker := rfl
@[simp] theorem State.wrap_markers : (s.wrap f n k).markers = s.markers := rfl
@[simp] theorem State.wrap_fibreHold : (s.wrap f n k).fibreHold = s.fibreHold := rfl
@[simp] theorem State.wrap_plumb : (s.wrap f n k).plumb = s.plumb := rfl
@[simp] theorem State.wrap_copies : (s.wrap f n k).copies = s.copies := rfl
@[simp] theorem State.wrap_plumbOut : (s.wrap f n k).plumbOut = s.plumbOut := rfl
@[simp] theorem State.wrap_plumbHeld : (s.wrap f n k).plumbHeld = s.plumbHeld := rfl
@[simp] theorem State.wrap_hubMiss : (s.wrap f n k).hubMiss = s.hubMiss := rfl
@[simp] theorem State.wrap_hubDown : (s.wrap f n k).hubDown = s.hubDown := rfl
@[simp] theorem State.wrap_arrivals : (s.wrap f n k).arrivals = s.arrivals := rfl
@[simp] theorem State.wrap_lastColls : (s.wrap f n k).lastColls = s.lastColls := rfl
@[simp] theorem State.wrap_sinkRuns : (s.wrap f n k).sinkRuns = s.sinkRuns := rfl
@[simp] theorem State.wrap_raised : (s.wrap f n k).raised = s.raised := rfl
@[simp] theorem State.wrap_ports : (s.wrap f n k).ports = s.ports := rfl
@[simp] theorem State.wrap_ramps : (s.wrap f n k).ramps = s.ramps := rfl
@[simp] theorem State.wrap_released : (s.wrap f n k).released = s.released := rfl
@[simp] theorem State.wrap_tune : (s.wrap f n k).tune = s.tune := rfl
@[simp] theorem State.wrap_planKeys : (s.wrap f n k).planKeys = s.planKeys := rfl
@[simp] theorem State.wrap_guard : (s.wrap f n k).guard = s.guard := rfl
@[simp] theorem State.wrap_transitOff : (s.wrap f n k).transitOff = s.transitOff := rfl
@[simp] theorem State.wrap_hoPending : (s.wrap f n k).hoPending = s.hoPending := rfl
@[simp] theorem State.wrap_hoSince : (s.wrap f n k).hoSince = s.hoSince := rfl
@[simp] theorem State.wrap_epochCtl : (s.wrap f n k).epochCtl = s.epochCtl := rfl
@[simp] theorem State.wrap_alorn : (s.wrap f n k).alorn = s.alorn := rfl
@[simp] theorem State.wrap_wiped : (s.wrap f n k).wiped = s.wiped := rfl
@[simp] theorem State.wrap_sealStore : (s.wrap f n k).sealStore = s.sealStore := rfl
@[simp] theorem State.wrap_logIntake : (s.wrap f n k).logIntake = s.logIntake := rfl
@[simp] theorem State.wrap_log : (s.wrap f n k).log = s.log := rfl
@[simp] theorem State.wrap_readNext : (s.wrap f n k).readNext = s.readNext := rfl
@[simp] theorem State.wrap_hostRx : (s.wrap f n k).hostRx = s.hostRx := rfl
@[simp] theorem State.wrap_hostTags : (s.wrap f n k).hostTags = s.hostTags := rfl
end

section
variable (f : Fld) (n v : Nat)
@[simp] theorem State.raiseTo_pending : (s.raiseTo f n v).pending = s.pending := rfl
@[simp] theorem State.raiseTo_now : (s.raiseTo f n v).now = s.now := rfl
@[simp] theorem State.raiseTo_freeCtr : (s.raiseTo f n v).freeCtr = s.freeCtr := rfl
@[simp] theorem State.raiseTo_chipReset : (s.raiseTo f n v).chipReset = s.chipReset := rfl
@[simp] theorem State.raiseTo_fuse : (s.raiseTo f n v).fuse = s.fuse := rfl
@[simp] theorem State.raiseTo_mem : (s.raiseTo f n v).mem = s.mem := rfl
@[simp] theorem State.raiseTo_badWords : (s.raiseTo f n v).badWords = s.badWords := rfl
@[simp] theorem State.raiseTo_softWords : (s.raiseTo f n v).softWords = s.softWords := rfl
@[simp] theorem State.raiseTo_refLostAt : (s.raiseTo f n v).refLostAt = s.refLostAt := rfl
@[simp] theorem State.raiseTo_mgLost : (s.raiseTo f n v).mgLost = s.mgLost := rfl
@[simp] theorem State.raiseTo_lkLost : (s.raiseTo f n v).lkLost = s.lkLost := rfl
@[simp] theorem State.raiseTo_clkStopped : (s.raiseTo f n v).clkStopped = s.clkStopped := rfl
@[simp] theorem State.raiseTo_clkSince : (s.raiseTo f n v).clkSince = s.clkSince := rfl
@[simp] theorem State.raiseTo_sampled : (s.raiseTo f n v).sampled = s.sampled := rfl
@[simp] theorem State.raiseTo_timeSets : (s.raiseTo f n v).timeSets = s.timeSets := rfl
@[simp] theorem State.raiseTo_coreRst : (s.raiseTo f n v).coreRst = s.coreRst := rfl
@[simp] theorem State.raiseTo_idleHeld : (s.raiseTo f n v).idleHeld = s.idleHeld := rfl
@[simp] theorem State.raiseTo_fabLow : (s.raiseTo f n v).fabLow = s.fabLow := rfl
@[simp] theorem State.raiseTo_tapState : (s.raiseTo f n v).tapState = s.tapState := rfl
@[simp] theorem State.raiseTo_tapIr : (s.raiseTo f n v).tapIr = s.tapIr := rfl
@[simp] theorem State.raiseTo_fifos : (s.raiseTo f n v).fifos = s.fifos := rfl
@[simp] theorem State.raiseTo_stackVia : (s.raiseTo f n v).stackVia = s.stackVia := rfl
@[simp] theorem State.raiseTo_hostWait : (s.raiseTo f n v).hostWait = s.hostWait := rfl
@[simp] theorem State.raiseTo_outWait : (s.raiseTo f n v).outWait = s.outWait := rfl
@[simp] theorem State.raiseTo_turns : (s.raiseTo f n v).turns = s.turns := rfl
@[simp] theorem State.raiseTo_links : (s.raiseTo f n v).links = s.links := rfl
@[simp] theorem State.raiseTo_grants : (s.raiseTo f n v).grants = s.grants := rfl
@[simp] theorem State.raiseTo_waits : (s.raiseTo f n v).waits = s.waits := rfl
@[simp] theorem State.raiseTo_cmds : (s.raiseTo f n v).cmds = s.cmds := rfl
@[simp] theorem State.raiseTo_stale : (s.raiseTo f n v).stale = s.stale := rfl
@[simp] theorem State.raiseTo_rings : (s.raiseTo f n v).rings = s.rings := rfl
@[simp] theorem State.raiseTo_holds : (s.raiseTo f n v).holds = s.holds := rfl
@[simp] theorem State.raiseTo_parts : (s.raiseTo f n v).parts = s.parts := rfl
@[simp] theorem State.raiseTo_fenceDue : (s.raiseTo f n v).fenceDue = s.fenceDue := rfl
@[simp] theorem State.raiseTo_tableCorr : (s.raiseTo f n v).tableCorr = s.tableCorr := rfl
@[simp] theorem State.raiseTo_pulses : (s.raiseTo f n v).pulses = s.pulses := rfl
@[simp] theorem State.raiseTo_slots : (s.raiseTo f n v).slots = s.slots := rfl
@[simp] theorem State.raiseTo_mcBufs : (s.raiseTo f n v).mcBufs = s.mcBufs := rfl
@[simp] theorem State.raiseTo_merges : (s.raiseTo f n v).merges = s.merges := rfl
@[simp] theorem State.raiseTo_rooms : (s.raiseTo f n v).rooms = s.rooms := rfl
@[simp] theorem State.raiseTo_flushGen : (s.raiseTo f n v).flushGen = s.flushGen := rfl
@[simp] theorem State.raiseTo_nodes : (s.raiseTo f n v).nodes = s.nodes := rfl
@[simp] theorem State.raiseTo_awaitMarker : (s.raiseTo f n v).awaitMarker = s.awaitMarker := rfl
@[simp] theorem State.raiseTo_markers : (s.raiseTo f n v).markers = s.markers := rfl
@[simp] theorem State.raiseTo_fibreHold : (s.raiseTo f n v).fibreHold = s.fibreHold := rfl
@[simp] theorem State.raiseTo_plumb : (s.raiseTo f n v).plumb = s.plumb := rfl
@[simp] theorem State.raiseTo_copies : (s.raiseTo f n v).copies = s.copies := rfl
@[simp] theorem State.raiseTo_plumbOut : (s.raiseTo f n v).plumbOut = s.plumbOut := rfl
@[simp] theorem State.raiseTo_plumbHeld : (s.raiseTo f n v).plumbHeld = s.plumbHeld := rfl
@[simp] theorem State.raiseTo_hubMiss : (s.raiseTo f n v).hubMiss = s.hubMiss := rfl
@[simp] theorem State.raiseTo_hubDown : (s.raiseTo f n v).hubDown = s.hubDown := rfl
@[simp] theorem State.raiseTo_arrivals : (s.raiseTo f n v).arrivals = s.arrivals := rfl
@[simp] theorem State.raiseTo_lastColls : (s.raiseTo f n v).lastColls = s.lastColls := rfl
@[simp] theorem State.raiseTo_sinkRuns : (s.raiseTo f n v).sinkRuns = s.sinkRuns := rfl
@[simp] theorem State.raiseTo_raised : (s.raiseTo f n v).raised = s.raised := rfl
@[simp] theorem State.raiseTo_ports : (s.raiseTo f n v).ports = s.ports := rfl
@[simp] theorem State.raiseTo_ramps : (s.raiseTo f n v).ramps = s.ramps := rfl
@[simp] theorem State.raiseTo_released : (s.raiseTo f n v).released = s.released := rfl
@[simp] theorem State.raiseTo_tune : (s.raiseTo f n v).tune = s.tune := rfl
@[simp] theorem State.raiseTo_planKeys : (s.raiseTo f n v).planKeys = s.planKeys := rfl
@[simp] theorem State.raiseTo_guard : (s.raiseTo f n v).guard = s.guard := rfl
@[simp] theorem State.raiseTo_transitOff : (s.raiseTo f n v).transitOff = s.transitOff := rfl
@[simp] theorem State.raiseTo_hoPending : (s.raiseTo f n v).hoPending = s.hoPending := rfl
@[simp] theorem State.raiseTo_hoSince : (s.raiseTo f n v).hoSince = s.hoSince := rfl
@[simp] theorem State.raiseTo_epochCtl : (s.raiseTo f n v).epochCtl = s.epochCtl := rfl
@[simp] theorem State.raiseTo_alorn : (s.raiseTo f n v).alorn = s.alorn := rfl
@[simp] theorem State.raiseTo_wiped : (s.raiseTo f n v).wiped = s.wiped := rfl
@[simp] theorem State.raiseTo_sealStore : (s.raiseTo f n v).sealStore = s.sealStore := rfl
@[simp] theorem State.raiseTo_logIntake : (s.raiseTo f n v).logIntake = s.logIntake := rfl
@[simp] theorem State.raiseTo_log : (s.raiseTo f n v).log = s.log := rfl
@[simp] theorem State.raiseTo_readNext : (s.raiseTo f n v).readNext = s.readNext := rfl
@[simp] theorem State.raiseTo_hostRx : (s.raiseTo f n v).hostRx = s.hostRx := rfl
@[simp] theorem State.raiseTo_hostTags : (s.raiseTo f n v).hostTags = s.hostTags := rfl
end

section
variable (ep a : Nat) (bs : List Byte)
@[simp] theorem State.writeBytes_pending : (s.writeBytes ep a bs).pending = s.pending := rfl
@[simp] theorem State.writeBytes_now : (s.writeBytes ep a bs).now = s.now := rfl
@[simp] theorem State.writeBytes_freeCtr : (s.writeBytes ep a bs).freeCtr = s.freeCtr := rfl
@[simp] theorem State.writeBytes_chipReset : (s.writeBytes ep a bs).chipReset = s.chipReset := rfl
@[simp] theorem State.writeBytes_fuse : (s.writeBytes ep a bs).fuse = s.fuse := rfl
@[simp] theorem State.writeBytes_regs : (s.writeBytes ep a bs).regs = s.regs := rfl
@[simp] theorem State.writeBytes_refLostAt : (s.writeBytes ep a bs).refLostAt = s.refLostAt := rfl
@[simp] theorem State.writeBytes_mgLost : (s.writeBytes ep a bs).mgLost = s.mgLost := rfl
@[simp] theorem State.writeBytes_lkLost : (s.writeBytes ep a bs).lkLost = s.lkLost := rfl
@[simp] theorem State.writeBytes_clkStopped : (s.writeBytes ep a bs).clkStopped = s.clkStopped := rfl
@[simp] theorem State.writeBytes_clkSince : (s.writeBytes ep a bs).clkSince = s.clkSince := rfl
@[simp] theorem State.writeBytes_sampled : (s.writeBytes ep a bs).sampled = s.sampled := rfl
@[simp] theorem State.writeBytes_timeSets : (s.writeBytes ep a bs).timeSets = s.timeSets := rfl
@[simp] theorem State.writeBytes_coreRst : (s.writeBytes ep a bs).coreRst = s.coreRst := rfl
@[simp] theorem State.writeBytes_idleHeld : (s.writeBytes ep a bs).idleHeld = s.idleHeld := rfl
@[simp] theorem State.writeBytes_fabLow : (s.writeBytes ep a bs).fabLow = s.fabLow := rfl
@[simp] theorem State.writeBytes_tapState : (s.writeBytes ep a bs).tapState = s.tapState := rfl
@[simp] theorem State.writeBytes_tapIr : (s.writeBytes ep a bs).tapIr = s.tapIr := rfl
@[simp] theorem State.writeBytes_fifos : (s.writeBytes ep a bs).fifos = s.fifos := rfl
@[simp] theorem State.writeBytes_stackVia : (s.writeBytes ep a bs).stackVia = s.stackVia := rfl
@[simp] theorem State.writeBytes_hostWait : (s.writeBytes ep a bs).hostWait = s.hostWait := rfl
@[simp] theorem State.writeBytes_outWait : (s.writeBytes ep a bs).outWait = s.outWait := rfl
@[simp] theorem State.writeBytes_turns : (s.writeBytes ep a bs).turns = s.turns := rfl
@[simp] theorem State.writeBytes_links : (s.writeBytes ep a bs).links = s.links := rfl
@[simp] theorem State.writeBytes_grants : (s.writeBytes ep a bs).grants = s.grants := rfl
@[simp] theorem State.writeBytes_waits : (s.writeBytes ep a bs).waits = s.waits := rfl
@[simp] theorem State.writeBytes_cmds : (s.writeBytes ep a bs).cmds = s.cmds := rfl
@[simp] theorem State.writeBytes_stale : (s.writeBytes ep a bs).stale = s.stale := rfl
@[simp] theorem State.writeBytes_rings : (s.writeBytes ep a bs).rings = s.rings := rfl
@[simp] theorem State.writeBytes_holds : (s.writeBytes ep a bs).holds = s.holds := rfl
@[simp] theorem State.writeBytes_parts : (s.writeBytes ep a bs).parts = s.parts := rfl
@[simp] theorem State.writeBytes_fenceDue : (s.writeBytes ep a bs).fenceDue = s.fenceDue := rfl
@[simp] theorem State.writeBytes_tableCorr : (s.writeBytes ep a bs).tableCorr = s.tableCorr := rfl
@[simp] theorem State.writeBytes_pulses : (s.writeBytes ep a bs).pulses = s.pulses := rfl
@[simp] theorem State.writeBytes_slots : (s.writeBytes ep a bs).slots = s.slots := rfl
@[simp] theorem State.writeBytes_mcBufs : (s.writeBytes ep a bs).mcBufs = s.mcBufs := rfl
@[simp] theorem State.writeBytes_merges : (s.writeBytes ep a bs).merges = s.merges := rfl
@[simp] theorem State.writeBytes_rooms : (s.writeBytes ep a bs).rooms = s.rooms := rfl
@[simp] theorem State.writeBytes_flushGen : (s.writeBytes ep a bs).flushGen = s.flushGen := rfl
@[simp] theorem State.writeBytes_nodes : (s.writeBytes ep a bs).nodes = s.nodes := rfl
@[simp] theorem State.writeBytes_awaitMarker : (s.writeBytes ep a bs).awaitMarker = s.awaitMarker := rfl
@[simp] theorem State.writeBytes_markers : (s.writeBytes ep a bs).markers = s.markers := rfl
@[simp] theorem State.writeBytes_fibreHold : (s.writeBytes ep a bs).fibreHold = s.fibreHold := rfl
@[simp] theorem State.writeBytes_plumb : (s.writeBytes ep a bs).plumb = s.plumb := rfl
@[simp] theorem State.writeBytes_copies : (s.writeBytes ep a bs).copies = s.copies := rfl
@[simp] theorem State.writeBytes_plumbOut : (s.writeBytes ep a bs).plumbOut = s.plumbOut := rfl
@[simp] theorem State.writeBytes_plumbHeld : (s.writeBytes ep a bs).plumbHeld = s.plumbHeld := rfl
@[simp] theorem State.writeBytes_hubMiss : (s.writeBytes ep a bs).hubMiss = s.hubMiss := rfl
@[simp] theorem State.writeBytes_hubDown : (s.writeBytes ep a bs).hubDown = s.hubDown := rfl
@[simp] theorem State.writeBytes_arrivals : (s.writeBytes ep a bs).arrivals = s.arrivals := rfl
@[simp] theorem State.writeBytes_lastColls : (s.writeBytes ep a bs).lastColls = s.lastColls := rfl
@[simp] theorem State.writeBytes_sinkRuns : (s.writeBytes ep a bs).sinkRuns = s.sinkRuns := rfl
@[simp] theorem State.writeBytes_raised : (s.writeBytes ep a bs).raised = s.raised := rfl
@[simp] theorem State.writeBytes_ports : (s.writeBytes ep a bs).ports = s.ports := rfl
@[simp] theorem State.writeBytes_ramps : (s.writeBytes ep a bs).ramps = s.ramps := rfl
@[simp] theorem State.writeBytes_released : (s.writeBytes ep a bs).released = s.released := rfl
@[simp] theorem State.writeBytes_tune : (s.writeBytes ep a bs).tune = s.tune := rfl
@[simp] theorem State.writeBytes_planKeys : (s.writeBytes ep a bs).planKeys = s.planKeys := rfl
@[simp] theorem State.writeBytes_guard : (s.writeBytes ep a bs).guard = s.guard := rfl
@[simp] theorem State.writeBytes_transitOff : (s.writeBytes ep a bs).transitOff = s.transitOff := rfl
@[simp] theorem State.writeBytes_hoPending : (s.writeBytes ep a bs).hoPending = s.hoPending := rfl
@[simp] theorem State.writeBytes_hoSince : (s.writeBytes ep a bs).hoSince = s.hoSince := rfl
@[simp] theorem State.writeBytes_epochCtl : (s.writeBytes ep a bs).epochCtl = s.epochCtl := rfl
@[simp] theorem State.writeBytes_alorn : (s.writeBytes ep a bs).alorn = s.alorn := rfl
@[simp] theorem State.writeBytes_wiped : (s.writeBytes ep a bs).wiped = s.wiped := rfl
@[simp] theorem State.writeBytes_sealStore : (s.writeBytes ep a bs).sealStore = s.sealStore := rfl
@[simp] theorem State.writeBytes_logIntake : (s.writeBytes ep a bs).logIntake = s.logIntake := rfl
@[simp] theorem State.writeBytes_log : (s.writeBytes ep a bs).log = s.log := rfl
@[simp] theorem State.writeBytes_readNext : (s.writeBytes ep a bs).readNext = s.readNext := rfl
@[simp] theorem State.writeBytes_hostRx : (s.writeBytes ep a bs).hostRx = s.hostRx := rfl
@[simp] theorem State.writeBytes_hostTags : (s.writeBytes ep a bs).hostTags = s.hostTags := rfl
end

section
variable (n : Nat) (x : Fifo)
@[simp] theorem State.setFifo_pending : (s.setFifo n x).pending = s.pending := rfl
@[simp] theorem State.setFifo_now : (s.setFifo n x).now = s.now := rfl
@[simp] theorem State.setFifo_freeCtr : (s.setFifo n x).freeCtr = s.freeCtr := rfl
@[simp] theorem State.setFifo_chipReset : (s.setFifo n x).chipReset = s.chipReset := rfl
@[simp] theorem State.setFifo_fuse : (s.setFifo n x).fuse = s.fuse := rfl
@[simp] theorem State.setFifo_regs : (s.setFifo n x).regs = s.regs := rfl
@[simp] theorem State.setFifo_mem : (s.setFifo n x).mem = s.mem := rfl
@[simp] theorem State.setFifo_badWords : (s.setFifo n x).badWords = s.badWords := rfl
@[simp] theorem State.setFifo_softWords : (s.setFifo n x).softWords = s.softWords := rfl
@[simp] theorem State.setFifo_refLostAt : (s.setFifo n x).refLostAt = s.refLostAt := rfl
@[simp] theorem State.setFifo_mgLost : (s.setFifo n x).mgLost = s.mgLost := rfl
@[simp] theorem State.setFifo_lkLost : (s.setFifo n x).lkLost = s.lkLost := rfl
@[simp] theorem State.setFifo_clkStopped : (s.setFifo n x).clkStopped = s.clkStopped := rfl
@[simp] theorem State.setFifo_clkSince : (s.setFifo n x).clkSince = s.clkSince := rfl
@[simp] theorem State.setFifo_sampled : (s.setFifo n x).sampled = s.sampled := rfl
@[simp] theorem State.setFifo_timeSets : (s.setFifo n x).timeSets = s.timeSets := rfl
@[simp] theorem State.setFifo_coreRst : (s.setFifo n x).coreRst = s.coreRst := rfl
@[simp] theorem State.setFifo_idleHeld : (s.setFifo n x).idleHeld = s.idleHeld := rfl
@[simp] theorem State.setFifo_fabLow : (s.setFifo n x).fabLow = s.fabLow := rfl
@[simp] theorem State.setFifo_tapState : (s.setFifo n x).tapState = s.tapState := rfl
@[simp] theorem State.setFifo_tapIr : (s.setFifo n x).tapIr = s.tapIr := rfl
@[simp] theorem State.setFifo_stackVia : (s.setFifo n x).stackVia = s.stackVia := rfl
@[simp] theorem State.setFifo_hostWait : (s.setFifo n x).hostWait = s.hostWait := rfl
@[simp] theorem State.setFifo_outWait : (s.setFifo n x).outWait = s.outWait := rfl
@[simp] theorem State.setFifo_turns : (s.setFifo n x).turns = s.turns := rfl
@[simp] theorem State.setFifo_links : (s.setFifo n x).links = s.links := rfl
@[simp] theorem State.setFifo_grants : (s.setFifo n x).grants = s.grants := rfl
@[simp] theorem State.setFifo_waits : (s.setFifo n x).waits = s.waits := rfl
@[simp] theorem State.setFifo_cmds : (s.setFifo n x).cmds = s.cmds := rfl
@[simp] theorem State.setFifo_stale : (s.setFifo n x).stale = s.stale := rfl
@[simp] theorem State.setFifo_rings : (s.setFifo n x).rings = s.rings := rfl
@[simp] theorem State.setFifo_holds : (s.setFifo n x).holds = s.holds := rfl
@[simp] theorem State.setFifo_parts : (s.setFifo n x).parts = s.parts := rfl
@[simp] theorem State.setFifo_fenceDue : (s.setFifo n x).fenceDue = s.fenceDue := rfl
@[simp] theorem State.setFifo_tableCorr : (s.setFifo n x).tableCorr = s.tableCorr := rfl
@[simp] theorem State.setFifo_pulses : (s.setFifo n x).pulses = s.pulses := rfl
@[simp] theorem State.setFifo_slots : (s.setFifo n x).slots = s.slots := rfl
@[simp] theorem State.setFifo_mcBufs : (s.setFifo n x).mcBufs = s.mcBufs := rfl
@[simp] theorem State.setFifo_merges : (s.setFifo n x).merges = s.merges := rfl
@[simp] theorem State.setFifo_rooms : (s.setFifo n x).rooms = s.rooms := rfl
@[simp] theorem State.setFifo_flushGen : (s.setFifo n x).flushGen = s.flushGen := rfl
@[simp] theorem State.setFifo_nodes : (s.setFifo n x).nodes = s.nodes := rfl
@[simp] theorem State.setFifo_awaitMarker : (s.setFifo n x).awaitMarker = s.awaitMarker := rfl
@[simp] theorem State.setFifo_markers : (s.setFifo n x).markers = s.markers := rfl
@[simp] theorem State.setFifo_fibreHold : (s.setFifo n x).fibreHold = s.fibreHold := rfl
@[simp] theorem State.setFifo_plumb : (s.setFifo n x).plumb = s.plumb := rfl
@[simp] theorem State.setFifo_copies : (s.setFifo n x).copies = s.copies := rfl
@[simp] theorem State.setFifo_plumbOut : (s.setFifo n x).plumbOut = s.plumbOut := rfl
@[simp] theorem State.setFifo_plumbHeld : (s.setFifo n x).plumbHeld = s.plumbHeld := rfl
@[simp] theorem State.setFifo_hubMiss : (s.setFifo n x).hubMiss = s.hubMiss := rfl
@[simp] theorem State.setFifo_hubDown : (s.setFifo n x).hubDown = s.hubDown := rfl
@[simp] theorem State.setFifo_arrivals : (s.setFifo n x).arrivals = s.arrivals := rfl
@[simp] theorem State.setFifo_lastColls : (s.setFifo n x).lastColls = s.lastColls := rfl
@[simp] theorem State.setFifo_sinkRuns : (s.setFifo n x).sinkRuns = s.sinkRuns := rfl
@[simp] theorem State.setFifo_raised : (s.setFifo n x).raised = s.raised := rfl
@[simp] theorem State.setFifo_ports : (s.setFifo n x).ports = s.ports := rfl
@[simp] theorem State.setFifo_ramps : (s.setFifo n x).ramps = s.ramps := rfl
@[simp] theorem State.setFifo_released : (s.setFifo n x).released = s.released := rfl
@[simp] theorem State.setFifo_tune : (s.setFifo n x).tune = s.tune := rfl
@[simp] theorem State.setFifo_planKeys : (s.setFifo n x).planKeys = s.planKeys := rfl
@[simp] theorem State.setFifo_guard : (s.setFifo n x).guard = s.guard := rfl
@[simp] theorem State.setFifo_transitOff : (s.setFifo n x).transitOff = s.transitOff := rfl
@[simp] theorem State.setFifo_hoPending : (s.setFifo n x).hoPending = s.hoPending := rfl
@[simp] theorem State.setFifo_hoSince : (s.setFifo n x).hoSince = s.hoSince := rfl
@[simp] theorem State.setFifo_epochCtl : (s.setFifo n x).epochCtl = s.epochCtl := rfl
@[simp] theorem State.setFifo_alorn : (s.setFifo n x).alorn = s.alorn := rfl
@[simp] theorem State.setFifo_wiped : (s.setFifo n x).wiped = s.wiped := rfl
@[simp] theorem State.setFifo_sealStore : (s.setFifo n x).sealStore = s.sealStore := rfl
@[simp] theorem State.setFifo_logIntake : (s.setFifo n x).logIntake = s.logIntake := rfl
@[simp] theorem State.setFifo_log : (s.setFifo n x).log = s.log := rfl
@[simp] theorem State.setFifo_readNext : (s.setFifo n x).readNext = s.readNext := rfl
@[simp] theorem State.setFifo_hostRx : (s.setFifo n x).hostRx = s.hostRx := rfl
@[simp] theorem State.setFifo_hostTags : (s.setFifo n x).hostTags = s.hostTags := rfl
end

section
variable (p : Nat) (g : Port → Port)
@[simp] theorem State.modPort_pending : (s.modPort p g).pending = s.pending := rfl
@[simp] theorem State.modPort_now : (s.modPort p g).now = s.now := rfl
@[simp] theorem State.modPort_freeCtr : (s.modPort p g).freeCtr = s.freeCtr := rfl
@[simp] theorem State.modPort_chipReset : (s.modPort p g).chipReset = s.chipReset := rfl
@[simp] theorem State.modPort_fuse : (s.modPort p g).fuse = s.fuse := rfl
@[simp] theorem State.modPort_regs : (s.modPort p g).regs = s.regs := rfl
@[simp] theorem State.modPort_mem : (s.modPort p g).mem = s.mem := rfl
@[simp] theorem State.modPort_badWords : (s.modPort p g).badWords = s.badWords := rfl
@[simp] theorem State.modPort_softWords : (s.modPort p g).softWords = s.softWords := rfl
@[simp] theorem State.modPort_refLostAt : (s.modPort p g).refLostAt = s.refLostAt := rfl
@[simp] theorem State.modPort_mgLost : (s.modPort p g).mgLost = s.mgLost := rfl
@[simp] theorem State.modPort_lkLost : (s.modPort p g).lkLost = s.lkLost := rfl
@[simp] theorem State.modPort_clkStopped : (s.modPort p g).clkStopped = s.clkStopped := rfl
@[simp] theorem State.modPort_clkSince : (s.modPort p g).clkSince = s.clkSince := rfl
@[simp] theorem State.modPort_sampled : (s.modPort p g).sampled = s.sampled := rfl
@[simp] theorem State.modPort_timeSets : (s.modPort p g).timeSets = s.timeSets := rfl
@[simp] theorem State.modPort_coreRst : (s.modPort p g).coreRst = s.coreRst := rfl
@[simp] theorem State.modPort_idleHeld : (s.modPort p g).idleHeld = s.idleHeld := rfl
@[simp] theorem State.modPort_fabLow : (s.modPort p g).fabLow = s.fabLow := rfl
@[simp] theorem State.modPort_tapState : (s.modPort p g).tapState = s.tapState := rfl
@[simp] theorem State.modPort_tapIr : (s.modPort p g).tapIr = s.tapIr := rfl
@[simp] theorem State.modPort_fifos : (s.modPort p g).fifos = s.fifos := rfl
@[simp] theorem State.modPort_stackVia : (s.modPort p g).stackVia = s.stackVia := rfl
@[simp] theorem State.modPort_hostWait : (s.modPort p g).hostWait = s.hostWait := rfl
@[simp] theorem State.modPort_outWait : (s.modPort p g).outWait = s.outWait := rfl
@[simp] theorem State.modPort_turns : (s.modPort p g).turns = s.turns := rfl
@[simp] theorem State.modPort_links : (s.modPort p g).links = s.links := rfl
@[simp] theorem State.modPort_grants : (s.modPort p g).grants = s.grants := rfl
@[simp] theorem State.modPort_waits : (s.modPort p g).waits = s.waits := rfl
@[simp] theorem State.modPort_cmds : (s.modPort p g).cmds = s.cmds := rfl
@[simp] theorem State.modPort_stale : (s.modPort p g).stale = s.stale := rfl
@[simp] theorem State.modPort_rings : (s.modPort p g).rings = s.rings := rfl
@[simp] theorem State.modPort_holds : (s.modPort p g).holds = s.holds := rfl
@[simp] theorem State.modPort_parts : (s.modPort p g).parts = s.parts := rfl
@[simp] theorem State.modPort_fenceDue : (s.modPort p g).fenceDue = s.fenceDue := rfl
@[simp] theorem State.modPort_tableCorr : (s.modPort p g).tableCorr = s.tableCorr := rfl
@[simp] theorem State.modPort_pulses : (s.modPort p g).pulses = s.pulses := rfl
@[simp] theorem State.modPort_slots : (s.modPort p g).slots = s.slots := rfl
@[simp] theorem State.modPort_mcBufs : (s.modPort p g).mcBufs = s.mcBufs := rfl
@[simp] theorem State.modPort_merges : (s.modPort p g).merges = s.merges := rfl
@[simp] theorem State.modPort_rooms : (s.modPort p g).rooms = s.rooms := rfl
@[simp] theorem State.modPort_flushGen : (s.modPort p g).flushGen = s.flushGen := rfl
@[simp] theorem State.modPort_nodes : (s.modPort p g).nodes = s.nodes := rfl
@[simp] theorem State.modPort_awaitMarker : (s.modPort p g).awaitMarker = s.awaitMarker := rfl
@[simp] theorem State.modPort_markers : (s.modPort p g).markers = s.markers := rfl
@[simp] theorem State.modPort_fibreHold : (s.modPort p g).fibreHold = s.fibreHold := rfl
@[simp] theorem State.modPort_plumb : (s.modPort p g).plumb = s.plumb := rfl
@[simp] theorem State.modPort_copies : (s.modPort p g).copies = s.copies := rfl
@[simp] theorem State.modPort_plumbOut : (s.modPort p g).plumbOut = s.plumbOut := rfl
@[simp] theorem State.modPort_plumbHeld : (s.modPort p g).plumbHeld = s.plumbHeld := rfl
@[simp] theorem State.modPort_hubMiss : (s.modPort p g).hubMiss = s.hubMiss := rfl
@[simp] theorem State.modPort_hubDown : (s.modPort p g).hubDown = s.hubDown := rfl
@[simp] theorem State.modPort_arrivals : (s.modPort p g).arrivals = s.arrivals := rfl
@[simp] theorem State.modPort_lastColls : (s.modPort p g).lastColls = s.lastColls := rfl
@[simp] theorem State.modPort_sinkRuns : (s.modPort p g).sinkRuns = s.sinkRuns := rfl
@[simp] theorem State.modPort_raised : (s.modPort p g).raised = s.raised := rfl
@[simp] theorem State.modPort_ramps : (s.modPort p g).ramps = s.ramps := rfl
@[simp] theorem State.modPort_released : (s.modPort p g).released = s.released := rfl
@[simp] theorem State.modPort_tune : (s.modPort p g).tune = s.tune := rfl
@[simp] theorem State.modPort_planKeys : (s.modPort p g).planKeys = s.planKeys := rfl
@[simp] theorem State.modPort_guard : (s.modPort p g).guard = s.guard := rfl
@[simp] theorem State.modPort_transitOff : (s.modPort p g).transitOff = s.transitOff := rfl
@[simp] theorem State.modPort_hoPending : (s.modPort p g).hoPending = s.hoPending := rfl
@[simp] theorem State.modPort_hoSince : (s.modPort p g).hoSince = s.hoSince := rfl
@[simp] theorem State.modPort_epochCtl : (s.modPort p g).epochCtl = s.epochCtl := rfl
@[simp] theorem State.modPort_alorn : (s.modPort p g).alorn = s.alorn := rfl
@[simp] theorem State.modPort_wiped : (s.modPort p g).wiped = s.wiped := rfl
@[simp] theorem State.modPort_sealStore : (s.modPort p g).sealStore = s.sealStore := rfl
@[simp] theorem State.modPort_logIntake : (s.modPort p g).logIntake = s.logIntake := rfl
@[simp] theorem State.modPort_log : (s.modPort p g).log = s.log := rfl
@[simp] theorem State.modPort_readNext : (s.modPort p g).readNext = s.readNext := rfl
@[simp] theorem State.modPort_hostRx : (s.modPort p g).hostRx = s.hostRx := rfl
@[simp] theorem State.modPort_hostTags : (s.modPort p g).hostTags = s.hostTags := rfl
end

section
variable (p : Nat) (x : Part)
@[simp] theorem State.setPart_pending : (s.setPart p x).pending = s.pending := rfl
@[simp] theorem State.setPart_now : (s.setPart p x).now = s.now := rfl
@[simp] theorem State.setPart_freeCtr : (s.setPart p x).freeCtr = s.freeCtr := rfl
@[simp] theorem State.setPart_chipReset : (s.setPart p x).chipReset = s.chipReset := rfl
@[simp] theorem State.setPart_fuse : (s.setPart p x).fuse = s.fuse := rfl
@[simp] theorem State.setPart_regs : (s.setPart p x).regs = s.regs := rfl
@[simp] theorem State.setPart_mem : (s.setPart p x).mem = s.mem := rfl
@[simp] theorem State.setPart_badWords : (s.setPart p x).badWords = s.badWords := rfl
@[simp] theorem State.setPart_softWords : (s.setPart p x).softWords = s.softWords := rfl
@[simp] theorem State.setPart_refLostAt : (s.setPart p x).refLostAt = s.refLostAt := rfl
@[simp] theorem State.setPart_mgLost : (s.setPart p x).mgLost = s.mgLost := rfl
@[simp] theorem State.setPart_lkLost : (s.setPart p x).lkLost = s.lkLost := rfl
@[simp] theorem State.setPart_clkStopped : (s.setPart p x).clkStopped = s.clkStopped := rfl
@[simp] theorem State.setPart_clkSince : (s.setPart p x).clkSince = s.clkSince := rfl
@[simp] theorem State.setPart_sampled : (s.setPart p x).sampled = s.sampled := rfl
@[simp] theorem State.setPart_timeSets : (s.setPart p x).timeSets = s.timeSets := rfl
@[simp] theorem State.setPart_coreRst : (s.setPart p x).coreRst = s.coreRst := rfl
@[simp] theorem State.setPart_idleHeld : (s.setPart p x).idleHeld = s.idleHeld := rfl
@[simp] theorem State.setPart_fabLow : (s.setPart p x).fabLow = s.fabLow := rfl
@[simp] theorem State.setPart_tapState : (s.setPart p x).tapState = s.tapState := rfl
@[simp] theorem State.setPart_tapIr : (s.setPart p x).tapIr = s.tapIr := rfl
@[simp] theorem State.setPart_fifos : (s.setPart p x).fifos = s.fifos := rfl
@[simp] theorem State.setPart_stackVia : (s.setPart p x).stackVia = s.stackVia := rfl
@[simp] theorem State.setPart_hostWait : (s.setPart p x).hostWait = s.hostWait := rfl
@[simp] theorem State.setPart_outWait : (s.setPart p x).outWait = s.outWait := rfl
@[simp] theorem State.setPart_turns : (s.setPart p x).turns = s.turns := rfl
@[simp] theorem State.setPart_links : (s.setPart p x).links = s.links := rfl
@[simp] theorem State.setPart_grants : (s.setPart p x).grants = s.grants := rfl
@[simp] theorem State.setPart_waits : (s.setPart p x).waits = s.waits := rfl
@[simp] theorem State.setPart_cmds : (s.setPart p x).cmds = s.cmds := rfl
@[simp] theorem State.setPart_stale : (s.setPart p x).stale = s.stale := rfl
@[simp] theorem State.setPart_rings : (s.setPart p x).rings = s.rings := rfl
@[simp] theorem State.setPart_holds : (s.setPart p x).holds = s.holds := rfl
@[simp] theorem State.setPart_fenceDue : (s.setPart p x).fenceDue = s.fenceDue := rfl
@[simp] theorem State.setPart_tableCorr : (s.setPart p x).tableCorr = s.tableCorr := rfl
@[simp] theorem State.setPart_pulses : (s.setPart p x).pulses = s.pulses := rfl
@[simp] theorem State.setPart_slots : (s.setPart p x).slots = s.slots := rfl
@[simp] theorem State.setPart_mcBufs : (s.setPart p x).mcBufs = s.mcBufs := rfl
@[simp] theorem State.setPart_merges : (s.setPart p x).merges = s.merges := rfl
@[simp] theorem State.setPart_rooms : (s.setPart p x).rooms = s.rooms := rfl
@[simp] theorem State.setPart_flushGen : (s.setPart p x).flushGen = s.flushGen := rfl
@[simp] theorem State.setPart_nodes : (s.setPart p x).nodes = s.nodes := rfl
@[simp] theorem State.setPart_awaitMarker : (s.setPart p x).awaitMarker = s.awaitMarker := rfl
@[simp] theorem State.setPart_markers : (s.setPart p x).markers = s.markers := rfl
@[simp] theorem State.setPart_fibreHold : (s.setPart p x).fibreHold = s.fibreHold := rfl
@[simp] theorem State.setPart_plumb : (s.setPart p x).plumb = s.plumb := rfl
@[simp] theorem State.setPart_copies : (s.setPart p x).copies = s.copies := rfl
@[simp] theorem State.setPart_plumbOut : (s.setPart p x).plumbOut = s.plumbOut := rfl
@[simp] theorem State.setPart_plumbHeld : (s.setPart p x).plumbHeld = s.plumbHeld := rfl
@[simp] theorem State.setPart_hubMiss : (s.setPart p x).hubMiss = s.hubMiss := rfl
@[simp] theorem State.setPart_hubDown : (s.setPart p x).hubDown = s.hubDown := rfl
@[simp] theorem State.setPart_arrivals : (s.setPart p x).arrivals = s.arrivals := rfl
@[simp] theorem State.setPart_lastColls : (s.setPart p x).lastColls = s.lastColls := rfl
@[simp] theorem State.setPart_sinkRuns : (s.setPart p x).sinkRuns = s.sinkRuns := rfl
@[simp] theorem State.setPart_raised : (s.setPart p x).raised = s.raised := rfl
@[simp] theorem State.setPart_ports : (s.setPart p x).ports = s.ports := rfl
@[simp] theorem State.setPart_ramps : (s.setPart p x).ramps = s.ramps := rfl
@[simp] theorem State.setPart_released : (s.setPart p x).released = s.released := rfl
@[simp] theorem State.setPart_tune : (s.setPart p x).tune = s.tune := rfl
@[simp] theorem State.setPart_planKeys : (s.setPart p x).planKeys = s.planKeys := rfl
@[simp] theorem State.setPart_guard : (s.setPart p x).guard = s.guard := rfl
@[simp] theorem State.setPart_transitOff : (s.setPart p x).transitOff = s.transitOff := rfl
@[simp] theorem State.setPart_hoPending : (s.setPart p x).hoPending = s.hoPending := rfl
@[simp] theorem State.setPart_hoSince : (s.setPart p x).hoSince = s.hoSince := rfl
@[simp] theorem State.setPart_epochCtl : (s.setPart p x).epochCtl = s.epochCtl := rfl
@[simp] theorem State.setPart_alorn : (s.setPart p x).alorn = s.alorn := rfl
@[simp] theorem State.setPart_wiped : (s.setPart p x).wiped = s.wiped := rfl
@[simp] theorem State.setPart_sealStore : (s.setPart p x).sealStore = s.sealStore := rfl
@[simp] theorem State.setPart_logIntake : (s.setPart p x).logIntake = s.logIntake := rfl
@[simp] theorem State.setPart_log : (s.setPart p x).log = s.log := rfl
@[simp] theorem State.setPart_readNext : (s.setPart p x).readNext = s.readNext := rfl
@[simp] theorem State.setPart_hostRx : (s.setPart p x).hostRx = s.hostRx := rfl
@[simp] theorem State.setPart_hostTags : (s.setPart p x).hostTags = s.hostTags := rfl
end

section
variable (g : Alorn → Alorn)
@[simp] theorem State.modAlorn_pending : (s.modAlorn g).pending = s.pending := rfl
@[simp] theorem State.modAlorn_now : (s.modAlorn g).now = s.now := rfl
@[simp] theorem State.modAlorn_freeCtr : (s.modAlorn g).freeCtr = s.freeCtr := rfl
@[simp] theorem State.modAlorn_chipReset : (s.modAlorn g).chipReset = s.chipReset := rfl
@[simp] theorem State.modAlorn_fuse : (s.modAlorn g).fuse = s.fuse := rfl
@[simp] theorem State.modAlorn_regs : (s.modAlorn g).regs = s.regs := rfl
@[simp] theorem State.modAlorn_mem : (s.modAlorn g).mem = s.mem := rfl
@[simp] theorem State.modAlorn_badWords : (s.modAlorn g).badWords = s.badWords := rfl
@[simp] theorem State.modAlorn_softWords : (s.modAlorn g).softWords = s.softWords := rfl
@[simp] theorem State.modAlorn_refLostAt : (s.modAlorn g).refLostAt = s.refLostAt := rfl
@[simp] theorem State.modAlorn_mgLost : (s.modAlorn g).mgLost = s.mgLost := rfl
@[simp] theorem State.modAlorn_lkLost : (s.modAlorn g).lkLost = s.lkLost := rfl
@[simp] theorem State.modAlorn_clkStopped : (s.modAlorn g).clkStopped = s.clkStopped := rfl
@[simp] theorem State.modAlorn_clkSince : (s.modAlorn g).clkSince = s.clkSince := rfl
@[simp] theorem State.modAlorn_sampled : (s.modAlorn g).sampled = s.sampled := rfl
@[simp] theorem State.modAlorn_timeSets : (s.modAlorn g).timeSets = s.timeSets := rfl
@[simp] theorem State.modAlorn_coreRst : (s.modAlorn g).coreRst = s.coreRst := rfl
@[simp] theorem State.modAlorn_idleHeld : (s.modAlorn g).idleHeld = s.idleHeld := rfl
@[simp] theorem State.modAlorn_fabLow : (s.modAlorn g).fabLow = s.fabLow := rfl
@[simp] theorem State.modAlorn_tapState : (s.modAlorn g).tapState = s.tapState := rfl
@[simp] theorem State.modAlorn_tapIr : (s.modAlorn g).tapIr = s.tapIr := rfl
@[simp] theorem State.modAlorn_fifos : (s.modAlorn g).fifos = s.fifos := rfl
@[simp] theorem State.modAlorn_stackVia : (s.modAlorn g).stackVia = s.stackVia := rfl
@[simp] theorem State.modAlorn_hostWait : (s.modAlorn g).hostWait = s.hostWait := rfl
@[simp] theorem State.modAlorn_outWait : (s.modAlorn g).outWait = s.outWait := rfl
@[simp] theorem State.modAlorn_turns : (s.modAlorn g).turns = s.turns := rfl
@[simp] theorem State.modAlorn_links : (s.modAlorn g).links = s.links := rfl
@[simp] theorem State.modAlorn_grants : (s.modAlorn g).grants = s.grants := rfl
@[simp] theorem State.modAlorn_waits : (s.modAlorn g).waits = s.waits := rfl
@[simp] theorem State.modAlorn_cmds : (s.modAlorn g).cmds = s.cmds := rfl
@[simp] theorem State.modAlorn_stale : (s.modAlorn g).stale = s.stale := rfl
@[simp] theorem State.modAlorn_rings : (s.modAlorn g).rings = s.rings := rfl
@[simp] theorem State.modAlorn_holds : (s.modAlorn g).holds = s.holds := rfl
@[simp] theorem State.modAlorn_parts : (s.modAlorn g).parts = s.parts := rfl
@[simp] theorem State.modAlorn_fenceDue : (s.modAlorn g).fenceDue = s.fenceDue := rfl
@[simp] theorem State.modAlorn_tableCorr : (s.modAlorn g).tableCorr = s.tableCorr := rfl
@[simp] theorem State.modAlorn_pulses : (s.modAlorn g).pulses = s.pulses := rfl
@[simp] theorem State.modAlorn_slots : (s.modAlorn g).slots = s.slots := rfl
@[simp] theorem State.modAlorn_mcBufs : (s.modAlorn g).mcBufs = s.mcBufs := rfl
@[simp] theorem State.modAlorn_merges : (s.modAlorn g).merges = s.merges := rfl
@[simp] theorem State.modAlorn_rooms : (s.modAlorn g).rooms = s.rooms := rfl
@[simp] theorem State.modAlorn_flushGen : (s.modAlorn g).flushGen = s.flushGen := rfl
@[simp] theorem State.modAlorn_nodes : (s.modAlorn g).nodes = s.nodes := rfl
@[simp] theorem State.modAlorn_awaitMarker : (s.modAlorn g).awaitMarker = s.awaitMarker := rfl
@[simp] theorem State.modAlorn_markers : (s.modAlorn g).markers = s.markers := rfl
@[simp] theorem State.modAlorn_fibreHold : (s.modAlorn g).fibreHold = s.fibreHold := rfl
@[simp] theorem State.modAlorn_plumb : (s.modAlorn g).plumb = s.plumb := rfl
@[simp] theorem State.modAlorn_copies : (s.modAlorn g).copies = s.copies := rfl
@[simp] theorem State.modAlorn_plumbOut : (s.modAlorn g).plumbOut = s.plumbOut := rfl
@[simp] theorem State.modAlorn_plumbHeld : (s.modAlorn g).plumbHeld = s.plumbHeld := rfl
@[simp] theorem State.modAlorn_hubMiss : (s.modAlorn g).hubMiss = s.hubMiss := rfl
@[simp] theorem State.modAlorn_hubDown : (s.modAlorn g).hubDown = s.hubDown := rfl
@[simp] theorem State.modAlorn_arrivals : (s.modAlorn g).arrivals = s.arrivals := rfl
@[simp] theorem State.modAlorn_lastColls : (s.modAlorn g).lastColls = s.lastColls := rfl
@[simp] theorem State.modAlorn_sinkRuns : (s.modAlorn g).sinkRuns = s.sinkRuns := rfl
@[simp] theorem State.modAlorn_raised : (s.modAlorn g).raised = s.raised := rfl
@[simp] theorem State.modAlorn_ports : (s.modAlorn g).ports = s.ports := rfl
@[simp] theorem State.modAlorn_ramps : (s.modAlorn g).ramps = s.ramps := rfl
@[simp] theorem State.modAlorn_released : (s.modAlorn g).released = s.released := rfl
@[simp] theorem State.modAlorn_tune : (s.modAlorn g).tune = s.tune := rfl
@[simp] theorem State.modAlorn_planKeys : (s.modAlorn g).planKeys = s.planKeys := rfl
@[simp] theorem State.modAlorn_guard : (s.modAlorn g).guard = s.guard := rfl
@[simp] theorem State.modAlorn_transitOff : (s.modAlorn g).transitOff = s.transitOff := rfl
@[simp] theorem State.modAlorn_hoPending : (s.modAlorn g).hoPending = s.hoPending := rfl
@[simp] theorem State.modAlorn_hoSince : (s.modAlorn g).hoSince = s.hoSince := rfl
@[simp] theorem State.modAlorn_epochCtl : (s.modAlorn g).epochCtl = s.epochCtl := rfl
@[simp] theorem State.modAlorn_wiped : (s.modAlorn g).wiped = s.wiped := rfl
@[simp] theorem State.modAlorn_sealStore : (s.modAlorn g).sealStore = s.sealStore := rfl
@[simp] theorem State.modAlorn_logIntake : (s.modAlorn g).logIntake = s.logIntake := rfl
@[simp] theorem State.modAlorn_log : (s.modAlorn g).log = s.log := rfl
@[simp] theorem State.modAlorn_readNext : (s.modAlorn g).readNext = s.readNext := rfl
@[simp] theorem State.modAlorn_hostRx : (s.modAlorn g).hostRx = s.hostRx := rfl
@[simp] theorem State.modAlorn_hostTags : (s.modAlorn g).hostTags = s.hostTags := rfl
end

section
variable (k : Nat)
@[simp] theorem State.drawn_pending : (s.drawn k).pending = s.pending := rfl
@[simp] theorem State.drawn_now : (s.drawn k).now = s.now := rfl
@[simp] theorem State.drawn_chipReset : (s.drawn k).chipReset = s.chipReset := rfl
@[simp] theorem State.drawn_fuse : (s.drawn k).fuse = s.fuse := rfl
@[simp] theorem State.drawn_regs : (s.drawn k).regs = s.regs := rfl
@[simp] theorem State.drawn_mem : (s.drawn k).mem = s.mem := rfl
@[simp] theorem State.drawn_badWords : (s.drawn k).badWords = s.badWords := rfl
@[simp] theorem State.drawn_softWords : (s.drawn k).softWords = s.softWords := rfl
@[simp] theorem State.drawn_refLostAt : (s.drawn k).refLostAt = s.refLostAt := rfl
@[simp] theorem State.drawn_mgLost : (s.drawn k).mgLost = s.mgLost := rfl
@[simp] theorem State.drawn_lkLost : (s.drawn k).lkLost = s.lkLost := rfl
@[simp] theorem State.drawn_clkStopped : (s.drawn k).clkStopped = s.clkStopped := rfl
@[simp] theorem State.drawn_clkSince : (s.drawn k).clkSince = s.clkSince := rfl
@[simp] theorem State.drawn_sampled : (s.drawn k).sampled = s.sampled := rfl
@[simp] theorem State.drawn_timeSets : (s.drawn k).timeSets = s.timeSets := rfl
@[simp] theorem State.drawn_coreRst : (s.drawn k).coreRst = s.coreRst := rfl
@[simp] theorem State.drawn_idleHeld : (s.drawn k).idleHeld = s.idleHeld := rfl
@[simp] theorem State.drawn_fabLow : (s.drawn k).fabLow = s.fabLow := rfl
@[simp] theorem State.drawn_tapState : (s.drawn k).tapState = s.tapState := rfl
@[simp] theorem State.drawn_tapIr : (s.drawn k).tapIr = s.tapIr := rfl
@[simp] theorem State.drawn_fifos : (s.drawn k).fifos = s.fifos := rfl
@[simp] theorem State.drawn_stackVia : (s.drawn k).stackVia = s.stackVia := rfl
@[simp] theorem State.drawn_hostWait : (s.drawn k).hostWait = s.hostWait := rfl
@[simp] theorem State.drawn_outWait : (s.drawn k).outWait = s.outWait := rfl
@[simp] theorem State.drawn_turns : (s.drawn k).turns = s.turns := rfl
@[simp] theorem State.drawn_links : (s.drawn k).links = s.links := rfl
@[simp] theorem State.drawn_grants : (s.drawn k).grants = s.grants := rfl
@[simp] theorem State.drawn_waits : (s.drawn k).waits = s.waits := rfl
@[simp] theorem State.drawn_cmds : (s.drawn k).cmds = s.cmds := rfl
@[simp] theorem State.drawn_stale : (s.drawn k).stale = s.stale := rfl
@[simp] theorem State.drawn_rings : (s.drawn k).rings = s.rings := rfl
@[simp] theorem State.drawn_holds : (s.drawn k).holds = s.holds := rfl
@[simp] theorem State.drawn_parts : (s.drawn k).parts = s.parts := rfl
@[simp] theorem State.drawn_fenceDue : (s.drawn k).fenceDue = s.fenceDue := rfl
@[simp] theorem State.drawn_tableCorr : (s.drawn k).tableCorr = s.tableCorr := rfl
@[simp] theorem State.drawn_pulses : (s.drawn k).pulses = s.pulses := rfl
@[simp] theorem State.drawn_slots : (s.drawn k).slots = s.slots := rfl
@[simp] theorem State.drawn_mcBufs : (s.drawn k).mcBufs = s.mcBufs := rfl
@[simp] theorem State.drawn_merges : (s.drawn k).merges = s.merges := rfl
@[simp] theorem State.drawn_rooms : (s.drawn k).rooms = s.rooms := rfl
@[simp] theorem State.drawn_flushGen : (s.drawn k).flushGen = s.flushGen := rfl
@[simp] theorem State.drawn_nodes : (s.drawn k).nodes = s.nodes := rfl
@[simp] theorem State.drawn_awaitMarker : (s.drawn k).awaitMarker = s.awaitMarker := rfl
@[simp] theorem State.drawn_markers : (s.drawn k).markers = s.markers := rfl
@[simp] theorem State.drawn_fibreHold : (s.drawn k).fibreHold = s.fibreHold := rfl
@[simp] theorem State.drawn_plumb : (s.drawn k).plumb = s.plumb := rfl
@[simp] theorem State.drawn_copies : (s.drawn k).copies = s.copies := rfl
@[simp] theorem State.drawn_plumbOut : (s.drawn k).plumbOut = s.plumbOut := rfl
@[simp] theorem State.drawn_plumbHeld : (s.drawn k).plumbHeld = s.plumbHeld := rfl
@[simp] theorem State.drawn_hubMiss : (s.drawn k).hubMiss = s.hubMiss := rfl
@[simp] theorem State.drawn_hubDown : (s.drawn k).hubDown = s.hubDown := rfl
@[simp] theorem State.drawn_arrivals : (s.drawn k).arrivals = s.arrivals := rfl
@[simp] theorem State.drawn_lastColls : (s.drawn k).lastColls = s.lastColls := rfl
@[simp] theorem State.drawn_sinkRuns : (s.drawn k).sinkRuns = s.sinkRuns := rfl
@[simp] theorem State.drawn_raised : (s.drawn k).raised = s.raised := rfl
@[simp] theorem State.drawn_ports : (s.drawn k).ports = s.ports := rfl
@[simp] theorem State.drawn_ramps : (s.drawn k).ramps = s.ramps := rfl
@[simp] theorem State.drawn_released : (s.drawn k).released = s.released := rfl
@[simp] theorem State.drawn_tune : (s.drawn k).tune = s.tune := rfl
@[simp] theorem State.drawn_planKeys : (s.drawn k).planKeys = s.planKeys := rfl
@[simp] theorem State.drawn_guard : (s.drawn k).guard = s.guard := rfl
@[simp] theorem State.drawn_transitOff : (s.drawn k).transitOff = s.transitOff := rfl
@[simp] theorem State.drawn_hoPending : (s.drawn k).hoPending = s.hoPending := rfl
@[simp] theorem State.drawn_hoSince : (s.drawn k).hoSince = s.hoSince := rfl
@[simp] theorem State.drawn_epochCtl : (s.drawn k).epochCtl = s.epochCtl := rfl
@[simp] theorem State.drawn_alorn : (s.drawn k).alorn = s.alorn := rfl
@[simp] theorem State.drawn_wiped : (s.drawn k).wiped = s.wiped := rfl
@[simp] theorem State.drawn_sealStore : (s.drawn k).sealStore = s.sealStore := rfl
@[simp] theorem State.drawn_logIntake : (s.drawn k).logIntake = s.logIntake := rfl
@[simp] theorem State.drawn_log : (s.drawn k).log = s.log := rfl
@[simp] theorem State.drawn_readNext : (s.drawn k).readNext = s.readNext := rfl
@[simp] theorem State.drawn_hostRx : (s.drawn k).hostRx = s.hostRx := rfl
@[simp] theorem State.drawn_hostTags : (s.drawn k).hostTags = s.hostTags := rfl
end

section
variable (e : Event) (w u a b : Nat) (m : Option (Nat × Nat))
@[simp] theorem State.event_pending : (s.event e w u a b m).pending = s.pending := by rw [State.event_eq]
@[simp] theorem State.event_now : (s.event e w u a b m).now = s.now := by rw [State.event_eq]
@[simp] theorem State.event_freeCtr : (s.event e w u a b m).freeCtr = s.freeCtr := by rw [State.event_eq]
@[simp] theorem State.event_chipReset : (s.event e w u a b m).chipReset = s.chipReset := by rw [State.event_eq]
@[simp] theorem State.event_fuse : (s.event e w u a b m).fuse = s.fuse := by rw [State.event_eq]
@[simp] theorem State.event_mem : (s.event e w u a b m).mem = s.mem := by rw [State.event_eq]
@[simp] theorem State.event_badWords : (s.event e w u a b m).badWords = s.badWords := by rw [State.event_eq]
@[simp] theorem State.event_softWords : (s.event e w u a b m).softWords = s.softWords := by rw [State.event_eq]
@[simp] theorem State.event_refLostAt : (s.event e w u a b m).refLostAt = s.refLostAt := by rw [State.event_eq]
@[simp] theorem State.event_mgLost : (s.event e w u a b m).mgLost = s.mgLost := by rw [State.event_eq]
@[simp] theorem State.event_lkLost : (s.event e w u a b m).lkLost = s.lkLost := by rw [State.event_eq]
@[simp] theorem State.event_clkStopped : (s.event e w u a b m).clkStopped = s.clkStopped := by rw [State.event_eq]
@[simp] theorem State.event_clkSince : (s.event e w u a b m).clkSince = s.clkSince := by rw [State.event_eq]
@[simp] theorem State.event_sampled : (s.event e w u a b m).sampled = s.sampled := by rw [State.event_eq]
@[simp] theorem State.event_timeSets : (s.event e w u a b m).timeSets = s.timeSets := by rw [State.event_eq]
@[simp] theorem State.event_coreRst : (s.event e w u a b m).coreRst = s.coreRst := by rw [State.event_eq]
@[simp] theorem State.event_idleHeld : (s.event e w u a b m).idleHeld = s.idleHeld := by rw [State.event_eq]
@[simp] theorem State.event_fabLow : (s.event e w u a b m).fabLow = s.fabLow := by rw [State.event_eq]
@[simp] theorem State.event_tapState : (s.event e w u a b m).tapState = s.tapState := by rw [State.event_eq]
@[simp] theorem State.event_tapIr : (s.event e w u a b m).tapIr = s.tapIr := by rw [State.event_eq]
@[simp] theorem State.event_fifos : (s.event e w u a b m).fifos = s.fifos := by rw [State.event_eq]
@[simp] theorem State.event_stackVia : (s.event e w u a b m).stackVia = s.stackVia := by rw [State.event_eq]
@[simp] theorem State.event_hostWait : (s.event e w u a b m).hostWait = s.hostWait := by rw [State.event_eq]
@[simp] theorem State.event_outWait : (s.event e w u a b m).outWait = s.outWait := by rw [State.event_eq]
@[simp] theorem State.event_turns : (s.event e w u a b m).turns = s.turns := by rw [State.event_eq]
@[simp] theorem State.event_links : (s.event e w u a b m).links = s.links := by rw [State.event_eq]
@[simp] theorem State.event_grants : (s.event e w u a b m).grants = s.grants := by rw [State.event_eq]
@[simp] theorem State.event_waits : (s.event e w u a b m).waits = s.waits := by rw [State.event_eq]
@[simp] theorem State.event_cmds : (s.event e w u a b m).cmds = s.cmds := by rw [State.event_eq]
@[simp] theorem State.event_stale : (s.event e w u a b m).stale = s.stale := by rw [State.event_eq]
@[simp] theorem State.event_rings : (s.event e w u a b m).rings = s.rings := by rw [State.event_eq]
@[simp] theorem State.event_holds : (s.event e w u a b m).holds = s.holds := by rw [State.event_eq]
@[simp] theorem State.event_parts : (s.event e w u a b m).parts = s.parts := by rw [State.event_eq]
@[simp] theorem State.event_fenceDue : (s.event e w u a b m).fenceDue = s.fenceDue := by rw [State.event_eq]
@[simp] theorem State.event_tableCorr : (s.event e w u a b m).tableCorr = s.tableCorr := by rw [State.event_eq]
@[simp] theorem State.event_pulses : (s.event e w u a b m).pulses = s.pulses := by rw [State.event_eq]
@[simp] theorem State.event_slots : (s.event e w u a b m).slots = s.slots := by rw [State.event_eq]
@[simp] theorem State.event_mcBufs : (s.event e w u a b m).mcBufs = s.mcBufs := by rw [State.event_eq]
@[simp] theorem State.event_merges : (s.event e w u a b m).merges = s.merges := by rw [State.event_eq]
@[simp] theorem State.event_rooms : (s.event e w u a b m).rooms = s.rooms := by rw [State.event_eq]
@[simp] theorem State.event_flushGen : (s.event e w u a b m).flushGen = s.flushGen := by rw [State.event_eq]
@[simp] theorem State.event_nodes : (s.event e w u a b m).nodes = s.nodes := by rw [State.event_eq]
@[simp] theorem State.event_awaitMarker : (s.event e w u a b m).awaitMarker = s.awaitMarker := by rw [State.event_eq]
@[simp] theorem State.event_markers : (s.event e w u a b m).markers = s.markers := by rw [State.event_eq]
@[simp] theorem State.event_fibreHold : (s.event e w u a b m).fibreHold = s.fibreHold := by rw [State.event_eq]
@[simp] theorem State.event_plumb : (s.event e w u a b m).plumb = s.plumb := by rw [State.event_eq]
@[simp] theorem State.event_copies : (s.event e w u a b m).copies = s.copies := by rw [State.event_eq]
@[simp] theorem State.event_plumbOut : (s.event e w u a b m).plumbOut = s.plumbOut := by rw [State.event_eq]
@[simp] theorem State.event_plumbHeld : (s.event e w u a b m).plumbHeld = s.plumbHeld := by rw [State.event_eq]
@[simp] theorem State.event_hubMiss : (s.event e w u a b m).hubMiss = s.hubMiss := by rw [State.event_eq]
@[simp] theorem State.event_hubDown : (s.event e w u a b m).hubDown = s.hubDown := by rw [State.event_eq]
@[simp] theorem State.event_arrivals : (s.event e w u a b m).arrivals = s.arrivals := by rw [State.event_eq]
@[simp] theorem State.event_lastColls : (s.event e w u a b m).lastColls = s.lastColls := by rw [State.event_eq]
@[simp] theorem State.event_sinkRuns : (s.event e w u a b m).sinkRuns = s.sinkRuns := by rw [State.event_eq]
@[simp] theorem State.event_raised : (s.event e w u a b m).raised = s.raised := by rw [State.event_eq]
@[simp] theorem State.event_ports : (s.event e w u a b m).ports = s.ports := by rw [State.event_eq]
@[simp] theorem State.event_ramps : (s.event e w u a b m).ramps = s.ramps := by rw [State.event_eq]
@[simp] theorem State.event_released : (s.event e w u a b m).released = s.released := by rw [State.event_eq]
@[simp] theorem State.event_tune : (s.event e w u a b m).tune = s.tune := by rw [State.event_eq]
@[simp] theorem State.event_planKeys : (s.event e w u a b m).planKeys = s.planKeys := by rw [State.event_eq]
@[simp] theorem State.event_guard : (s.event e w u a b m).guard = s.guard := by rw [State.event_eq]
@[simp] theorem State.event_transitOff : (s.event e w u a b m).transitOff = s.transitOff := by rw [State.event_eq]
@[simp] theorem State.event_hoPending : (s.event e w u a b m).hoPending = s.hoPending := by rw [State.event_eq]
@[simp] theorem State.event_hoSince : (s.event e w u a b m).hoSince = s.hoSince := by rw [State.event_eq]
@[simp] theorem State.event_epochCtl : (s.event e w u a b m).epochCtl = s.epochCtl := by rw [State.event_eq]
@[simp] theorem State.event_alorn : (s.event e w u a b m).alorn = s.alorn := by rw [State.event_eq]
@[simp] theorem State.event_wiped : (s.event e w u a b m).wiped = s.wiped := by rw [State.event_eq]
@[simp] theorem State.event_sealStore : (s.event e w u a b m).sealStore = s.sealStore := by rw [State.event_eq]
@[simp] theorem State.event_log : (s.event e w u a b m).log = s.log := by rw [State.event_eq]
@[simp] theorem State.event_readNext : (s.event e w u a b m).readNext = s.readNext := by rw [State.event_eq]
@[simp] theorem State.event_hostRx : (s.event e w u a b m).hostRx = s.hostRx := by rw [State.event_eq]
@[simp] theorem State.event_hostTags : (s.event e w u a b m).hostTags = s.hostTags := by rw [State.event_eq]
end

end Sys2Proof.Machine
end

