-- ==== Sys2Proof/Laws/Effects.lean ====
section
/-! SUPPORT. Laws of the words the statements use: what a command's effect gives, fields after updates, events, frames. -/

namespace Sys2Proof.Machine

open Safety

variable {s t u : State}

/-- While no chip reset is asserted a command has its effect. -/
theorem live_running {g : State → State} (h : s.chipReset = false) : live s g = .next (g s) := by
  unfold live
  rw [h]
  rfl

/-- While no chip reset is asserted, the next state of a command is that of its effect. -/
theorem runs {c : Instr} {g : State → State} (h : s.chipReset = false) (e : exec c s = live s g) : exec c s = .next (g s) :=
  e.trans (live_running h)

theorem live_held {g : State → State} (h : s.chipReset = true) : live s g = .next s := by
  unfold live
  rw [h]
  rfl

/-! ### Fields -/

theorem State.get_sat_self (s : State) (f : Fld) (n k : Nat) (hp : apart f F.RK_EPOCH_PARITY = true) (hw : f.lo + f.width ≤ 64) :
    (s.sat f n k).get f n = Nat.min (2 ^ f.width - 1) (s.get f n + k) := by
  have h : 0 < 2 ^ f.width := Nat.two_pow_pos _
  rw [State.sat, State.get_put_self s f n _ hp hw, Nat.mod_eq_of_lt]
  exact Nat.lt_of_le_of_lt (Nat.min_le_left _ _) (by omega)

theorem State.get_sat_ne (s : State) (f g : Fld) {n m : Nat} (k : Nat) (hp : apart f F.RK_EPOCH_PARITY = true)
    (h : apart f g = true ∨ m ≠ n) : (s.sat f n k).get g m = s.get g m := State.get_put_ne s f g _ hp h

theorem State.get_wrap_self (s : State) (f : Fld) (n k : Nat) (hp : apart f F.RK_EPOCH_PARITY = true) (hw : f.lo + f.width ≤ 64) :
    (s.wrap f n k).get f n = (s.get f n + k) % 2 ^ f.width := by
  rw [State.wrap, State.get_put_self s f n _ hp hw, Nat.mod_mod]

theorem State.get_wrap_ne (s : State) (f g : Fld) {n m : Nat} (k : Nat) (hp : apart f F.RK_EPOCH_PARITY = true)
    (h : apart f g = true ∨ m ≠ n) : (s.wrap f n k).get g m = s.get g m := State.get_put_ne s f g _ hp h

/-- A register file that is the same reads the same. -/
theorem State.word_same (e : u.regs = t.regs) (r : Reg) (n b : Nat) : u.word r n b = t.word r n b := by
  unfold State.word
  rw [e]

theorem State.getE_same (e : u.regs = t.regs) (k : Nat) (g : Fld) (n : Nat) : u.getE k g n = t.getE k g n := by
  unfold State.getE
  rw [State.word_same e]

theorem State.get_same (e : u.regs = t.regs) (g : Fld) (n : Nat) : u.get g n = t.get g n := by
  unfold State.get State.parity
  rw [State.word_same e, State.getE_same e]

theorem State.flag_same (e : u.regs = t.regs) (g : Fld) (n : Nat) : u.flag g n = t.flag g n := by
  unfold State.flag
  rw [State.get_same e]

/-- Equal words give equal fields. -/
theorem State.getE_congr {e : Nat} {g : Fld} {n : Nat} (h : t.word g.reg n (g.bank e) = s.word g.reg n (g.bank e)) :
    t.getE e g n = s.getE e g n := by
  unfold State.getE
  rw [h]

theorem Off.getE {M : Nat} (h : Off M s t) (g : Fld) (n e : Nat) (he : e < 2) (hb : M.testBit g.reg.num = false) :
    t.getE e g n = s.getE e g n := State.getE_congr (h.words g.reg n _ (g.bank_lt he) hb)

/-- What does not touch RK_EPOCH leaves the parity in effect. -/
theorem Off.parity {M : Nat} (h : Off M s t) (hb : M.testBit Reg.RK_EPOCH.num = false) : t.parity = s.parity := by
  unfold State.parity
  rw [h.words .RK_EPOCH 0 0 (by decide) hb]

theorem Off.get {M : Nat} (h : Off M s t) (g : Fld) (n : Nat) (hp : M.testBit Reg.RK_EPOCH.num = false)
    (hb : M.testBit g.reg.num = false) : t.get g n = s.get g n := by
  unfold State.get
  rw [h.parity hp]
  exact h.getE g n _ s.parity_lt hb

/-! ### From footprints to frames -/

/-- Every store, in the order of its bit. -/
def everyStore : List Safety.Store := [
  .pending, .now, .freeCtr, .chipReset, .fuse, .mem, .badWords, .softWords, .refLostAt, .mgLost, .lkLost,
  .clkStopped, .clkSince, .sampled, .timeSets, .coreRst, .idleHeld, .fabLow, .tapState, .tapIr, .fifos, .stackVia,
  .hostWait, .outWait, .turns, .links, .grants, .waits, .cmds, .stale, .rings, .holds, .parts, .fenceDue, .tableCorr,
  .pulses, .slots, .mcBufs, .merges, .rooms, .flushGen, .nodes, .awaitMarker, .markers, .fibreHold, .plumb, .copies,
  .plumbOut, .plumbHeld, .hubMiss, .hubDown, .arrivals, .lastColls, .sinkRuns, .raised, .ports, .ramps, .released,
  .tune, .planKeys, .guard, .transitOff, .hoPending, .hoSince, .epochCtl, .alorn, .wiped, .sealStore, .logIntake,
  .log, .readNext, .hostRx, .hostTags]

theorem mem_everyStore (x : Safety.Store) : x ∈ everyStore := by cases x <;> decide

theorem Reg.mem_all (r : Reg) : r ∈ Reg.all := by cases r <;> decide

/-- A footprint whose bits are all bits of named registers and stores is a frame. -/
theorem Off.within {M : Nat} {f : Safety.Frame} (h : Off M s t)
    (hr : (Reg.all.all fun r => !M.testBit r.num || f.regs.contains r) = true)
    (hs : (everyStore.all fun x => !M.testBit (storeBit x) || f.stores.contains x) = true) : Safety.Within f s t where
  words r hn n b hb := by
    have k := List.all_eq_true.1 hr r (Reg.mem_all r)
    rw [Bool.or_eq_true, List.contains_iff_mem] at k
    exact h.words r n b hb (by rcases k with k | k; exact (Bool.not_eq_true' _).mp k; exact absurd k hn)
  stores x hn := by
    have k := List.all_eq_true.1 hs x (mem_everyStore x)
    rw [Bool.or_eq_true, List.contains_iff_mem] at k
    exact h.stores x (by rcases k with k | k; exact (Bool.not_eq_true' _).mp k; exact absurd k hn)

/-- What has no bit in a footprint is left as it was. -/
theorem Off.leaves {M : Nat} {rs : List Reg} {xs : List Safety.Store} (h : Off M s t)
    (hr : (rs.all fun r => !M.testBit r.num) = true) (hs : (xs.all fun x => !M.testBit (storeBit x)) = true) :
    (∀ r ∈ rs, ∀ n b, b < 2 → t.word r n b = s.word r n b) ∧ ∀ x ∈ xs, x.same s t :=
  ⟨fun r k n b hb => h.words r n b hb ((Bool.not_eq_true' _).mp (List.all_eq_true.1 hr r k)),
    fun x k => h.stores x ((Bool.not_eq_true' _).mp (List.all_eq_true.1 hs x k))⟩

/-! ### Fields left alone -/

end Sys2Proof.Machine

namespace Sys2Proof.Safety

open Machine

variable {s t u : State}

theorem FieldsBut.refl (fs : List (Fld × Nat)) (s : State) : FieldsBut fs s s := fun _ _ _ _ _ _ => rfl

theorem FieldsBut.put {fs : List (Fld × Nat)} (h : FieldsBut fs s t) (f : Fld) (n v : Nat) (hf : (f, n) ∈ fs) :
    FieldsBut fs s (t.put f n v) := by
  intro g hg m e he hx
  rw [State.getE_put_ne t f g v he (hx (f, n) hf)]
  exact h g hg m e he hx

theorem FieldsBut.sat {fs : List (Fld × Nat)} (h : FieldsBut fs s t) (f : Fld) (n k : Nat) (hf : (f, n) ∈ fs) :
    FieldsBut fs s (t.sat f n k) := h.put f n _ hf
theorem FieldsBut.wrap {fs : List (Fld × Nat)} (h : FieldsBut fs s t) (f : Fld) (n k : Nat) (hf : (f, n) ∈ fs) :
    FieldsBut fs s (t.wrap f n k) := h.put f n _ hf

/-- A field that holds no bit of its word. -/
theorem fieldGet_empty (w : Word) (lo n : Nat) (h : 64 ≤ lo ∨ n = 0) : fieldGet w lo n = 0 := by
  unfold fieldGet
  rw [BitVec.toNat_and, BitVec.toNat_ushiftRight, BitVec.toNat_ushiftRight, BitVec.toNat_allOnes]
  rcases h with h | h
  · rw [Nat.shiftRight_eq_div_pow, Nat.div_eq_of_lt (Nat.lt_of_lt_of_le w.isLt (Nat.pow_le_pow_right (by decide) h)), Nat.zero_and]
  · rw [h, show (2 ^ 64 - 1) >>> (64 - 0) = 0 by decide, Nat.and_zero]

/-- Setting a whole word of a register. -/
theorem FieldsBut.setWord {fs : List (Fld × Nat)} (h : FieldsBut fs s t) (r : Reg) (n : Nat) (v : Word) (b : Nat) (hb : b < 2)
    (hf : (⟨r, 0, 64⟩, n) ∈ fs) : FieldsBut fs s (t.setWord r n v b) := by
  intro g hg m e he hx
  rw [← h g hg m e he hx]
  have ha := hx _ hf
  by_cases hr : g.reg = r ∧ m = n
  · obtain ⟨hr, rfl⟩ := hr
    rcases ha with ha | ha
    · simp only [Safety.apart, hr, bne_self_eq_false, Bool.false_or, Bool.and_eq_true, Bool.or_eq_true, decide_eq_true_eq] at ha
      unfold State.getE
      rw [fieldGet_empty _ _ _ (by omega), fieldGet_empty _ _ _ (by omega)]
    · exact absurd rfl ha
  · refine State.getE_congr ?_
    refine State.word_setWord_ne t v hb (g.bank_lt he) ?_
    by_cases h1 : g.reg = r
    · exact .inr (.inl (fun e => hr ⟨h1, e⟩))
    · exact .inl h1

/-- A state with the same register file. -/
theorem FieldsBut.same {fs : List (Fld × Nat)} (h : FieldsBut fs s t) (e : u.regs = t.regs) : FieldsBut fs s u := by
  intro g hg m k hk hx
  rw [← h g hg m k hk hx]
  unfold State.getE State.word
  rw [e]

theorem FieldsBut.event {fs : List (Fld × Nat)} (h : FieldsBut fs s t) (e : Event) (w k a b : Nat) (m : Option (Nat × Nat))
    (hf : (F.TM_LOGSTAT_DROPPED, 0) ∈ fs) : FieldsBut fs s (t.event e w k a b m) := by
  unfold State.event
  split
  · exact h
  · split
    · exact h.same rfl
    · exact h.sat _ _ _ hf

theorem FieldsBut.ite {fs : List (Fld × Nat)} {c : Prop} [Decidable c] {a b : State} (ha : FieldsBut fs s a) (hb : FieldsBut fs s b) :
    FieldsBut fs s (if c then a else b) := by
  split
  · exact ha
  · exact hb

/-- Logged of a state that differs in stores and registers an event does not read. -/
theorem Logged.congr {e : Event} {w k a b : Nat} (h : Logged s t e w k a b) (h1 : u.mgLost = s.mgLost)
    (h2 : u.logIntake = s.logIntake) (h3 : u.word .TM_TIMESTAMP 0 = s.word .TM_TIMESTAMP 0)
    (h4 : u.get F.TM_LOGSTAT_DROPPED 0 = s.get F.TM_LOGSTAT_DROPPED 0) : Logged u t e w k a b := by
  unfold Logged at h ⊢
  rw [h1, h2, h3, h4]
  exact h

/-- Logged of a state that differs in other stores. -/
theorem Logged.same {e : Event} {w k a b : Nat} (h : Logged s t e w k a b) (h0 : u.regs = s.regs) (h1 : u.mgLost = s.mgLost)
    (h2 : u.logIntake = s.logIntake) : Logged u t e w k a b :=
  h.congr h1 h2 (State.word_same h0 _ _ _) (State.get_same h0 _ _)

end Sys2Proof.Safety

namespace Sys2Proof.Machine

open Safety

variable {s t u : State}

/-! ### Events -/

/-- An event is logged as the statements say. -/
theorem State.event_logged (s : State) (e : Event) (w k a b : Nat) : Logged s (s.event e w k a b) e w k a b := by
  unfold Logged State.event
  split
  · exact ⟨rfl, rfl⟩
  · split
    · exact ⟨rfl, rfl⟩
    · exact ⟨rfl, State.get_sat_self s _ _ _ (by decide) (by decide)⟩

/-- An event raised after other stores have changed. -/
theorem Logged.event (v : State) (e : Event) (w k a b : Nat) (h0 : s.regs = v.regs) (h1 : s.mgLost = v.mgLost)
    (h2 : s.logIntake = v.logIntake) : Logged s (v.event e w k a b) e w k a b :=
  Safety.Logged.same (State.event_logged v e w k a b) h0 h1 h2

/-- Fields other than DROPPED after an event. -/
theorem State.get_event_ne (s : State) (g : Fld) (n : Nat) (e : Event) (w k a b : Nat) (m : Option (Nat × Nat))
    (h : apart F.TM_LOGSTAT_DROPPED g = true ∨ n ≠ 0) : (s.event e w k a b m).get g n = s.get g n := by
  unfold State.event
  split
  · rfl
  · split
    · rfl
    · exact State.get_sat_ne s _ _ _ (by decide) h

theorem State.word_event_ne (s : State) {r : Reg} (n bk : Nat) (hb : bk < 2) (e : Event) (w k a b : Nat) (m : Option (Nat × Nat))
    (h : r ≠ .TM_LOGSTAT) : (s.event e w k a b m).word r n bk = s.word r n bk := by
  unfold State.event
  split
  · rfl
  · split
    · rfl
    · exact State.word_put_ne s _ _ hb (.inl h)

end Sys2Proof.Machine
end

