-- ==== Sys2Proof/Laws/Kept.lean ====
section
/-! SUPPORT. What every operation keeps: the stores stay sound, the commands that wait stay as they are, and the fuses
change only as LIFECYCLE changes them. -/

namespace Sys2Proof.Machine

/-- `t` is sound, holds the queue `q`, and has fuses that came from `f`. -/
structure Kept (f : Fuse) (q : List Instr) (t : State) : Prop where
  sound : Safety.Sound t
  pending : t.pending = q
  fuse : Safety.Later f t.fuse

variable {f : Fuse} {q : List Instr}

/-! ### Shapes -/

theorem Kept.ite {c : Prop} [Decidable c] {a b : State} (ha : Kept f q a) (hb : Kept f q b) : Kept f q (if c then a else b) := by
  split
  · exact ha
  · exact hb

theorem Kept.ite_fst {α : Type} {c : Prop} [Decidable c] {a b : State × α} (ha : Kept f q a.1) (hb : Kept f q b.1) :
    Kept f q (if c then a else b).1 := by
  split
  · exact ha
  · exact hb

theorem Kept.ite_snd {α : Type} {c : Prop} [Decidable c] {a b : α × State} (ha : Kept f q a.2) (hb : Kept f q b.2) :
    Kept f q (if c then a else b).2 := by
  split
  · exact ha
  · exact hb

theorem Kept.foldl {α : Type} {g : State → α → State} {l : List α} {s : State} (h : Kept f q s)
    (hg : ∀ s a, Kept f q s → Kept f q (g s a)) : Kept f q (l.foldl g s) := by
  induction l generalizing s with
  | nil => exact h
  | cons a l ih => exact ih (hg s a h)

/-- A state that differs from a kept one in other stores only. -/
theorem Kept.same {s t : State} (h : Kept f q s) (e : (t.mem, t.regs, t.logIntake, t.log, t.alorn.intake, t.alorn.cache, t.fifos,
    t.pending, t.fuse) = (s.mem, s.regs, s.logIntake, s.log, s.alorn.intake, s.alorn.cache, s.fifos, s.pending, s.fuse)) :
    Kept f q t := by
  simp only [Prod.mk.injEq] at e
  obtain ⟨e1, e2, e3, e4, e5, e6, e7, e8, e9⟩ := e
  obtain ⟨⟨h1, h2, h3, h4, h5, h6, h7⟩, h8, h9⟩ := h
  exact ⟨⟨e1 ▸ h1, e2 ▸ h2, e3 ▸ h3, e4 ▸ h4, e5 ▸ h5, e6 ▸ h6, e7 ▸ h7⟩, e8 ▸ h8, e9 ▸ h9⟩

/-- A command keeps what its effect keeps. -/
theorem live_kept {s : State} {g : State → State} (h : Kept f q s) (hg : ∀ s, Kept f q s → Kept f q (g s)) :
    ∃ t, live s g = .next t ∧ Kept f q t :=
  ⟨_, rfl, Kept.ite h (hg s h)⟩

/-! ### Registers, memory, log -/

variable {s : State}

/-- A record update of other stores. -/
theorem Kept.upd (h : Kept f q s)
    {now : Nat} {freeCtr : Nat} {chipReset : Bool} {badWords : List Nat} {softWords : List Nat} {refLostAt : Option
    Nat} {mgLost : Bool} {lkLost : Bool} {clkStopped : Tbl Nat} {clkSince : Tbl Nat} {sampled : Tbl Word} {timeSets :
    List (Bool × Word)} {coreRst : List Nat} {idleHeld : List Nat} {fabLow : Bool} {tapState : Nat} {tapIr : Nat}
    {stackVia : Tbl Nat} {hostWait : Tbl (BitVec 512)} {outWait : List OutWait} {turns : Tbl Nat} {links : Tbl Link}
    {grants : Tbl Grant} {waits : List Waiting} {cmds : List Cmd} {stale : List (Nat × Nat × Nat)} {rings : Tbl Ring}
    {holds : List Held} {parts : Tbl Part} {fenceDue : List Nat} {tableCorr : Nat} {pulses : Tbl Nat} {slots : Tbl
    Slot} {mcBufs : Tbl McBuf} {merges : Tbl Merge} {rooms : Tbl Room} {flushGen : List Nat} {nodes : Tbl NodeRun}
    {awaitMarker : List (Nat × Nat × Nat)} {markers : List (Nat × Nat × Nat)} {fibreHold : List (Nat × Packet)}
    {plumb : Tbl PlumbRun} {copies : List (Nat × Hub × PlumbMsg)} {plumbOut : List PlumbSent} {plumbHeld : Tbl Nat}
    {hubMiss : Tbl Nat} {hubDown : List Nat} {arrivals : Tbl Arrivals} {lastColls : Tbl Cmd} {sinkRuns : Tbl (Nat ×
    Nat)} {raised : List (Nat × Nat × Nat)} {ports : Tbl Port} {ramps : Tbl Nat} {released : Tbl Nat} {tune : Tbl
    Nat} {planKeys : Tbl (BitVec 384)} {guard : Tbl Word} {transitOff : Bool} {hoPending : List (Nat × Nat × Nat)}
    {hoSince : Tbl Nat} {epochCtl : EpochCtl} {wiped : Bool} {sealStore : Tbl SealSlot} {readNext : Nat} {hostRx :
    List Packet} {hostTags : List Nat} :
    Kept f q ⟨s.pending, now, freeCtr, chipReset, s.fuse, s.regs, s.mem, badWords, softWords, refLostAt, mgLost,
      lkLost, clkStopped, clkSince, sampled, timeSets, coreRst, idleHeld, fabLow, tapState, tapIr, s.fifos, stackVia,
      hostWait, outWait, turns, links, grants, waits, cmds, stale, rings, holds, parts, fenceDue, tableCorr, pulses,
      slots, mcBufs, merges, rooms, flushGen, nodes, awaitMarker, markers, fibreHold, plumb, copies, plumbOut,
      plumbHeld, hubMiss, hubDown, arrivals, lastColls, sinkRuns, raised, ports, ramps, released, tune, planKeys,
      guard, transitOff, hoPending, hoSince, epochCtl, s.alorn, wiped, sealStore, s.logIntake, s.log, readNext,
      hostRx, hostTags⟩ :=
  h.same rfl

theorem Kept.setWord (h : Kept f q s) (r : Reg) (n : Nat) (v : Word) (b : Nat) : Kept f q (s.setWord r n v b) :=
  ⟨⟨h.sound.memory, rising_assign _ _ _ h.sound.regs, h.sound.events, h.sound.log, h.sound.requests, h.sound.cache,
    h.sound.fifos⟩, h.pending, h.fuse⟩

theorem Kept.put (h : Kept f q s) (x : Fld) (n v : Nat) : Kept f q (s.put x n v) := h.setWord _ _ _ _
theorem Kept.sat (h : Kept f q s) (x : Fld) (n by' : Nat) : Kept f q (s.sat x n by') := h.put _ _ _
theorem Kept.wrap (h : Kept f q s) (x : Fld) (n by' : Nat) : Kept f q (s.wrap x n by') := h.put _ _ _
theorem Kept.raiseTo (h : Kept f q s) (x : Fld) (n v : Nat) : Kept f q (s.raiseTo x n v) := h.put _ _ _

theorem Kept.withMem (h : Kept f q s) (a : Nat) (bs : List Byte) (w v : List Nat) (k : Nat) :
    Kept f q { s with mem := Memory.writeList s.mem a bs, badWords := w, softWords := v, freeCtr := k } :=
  ⟨⟨Memory.wf_writeList _ _ h.sound.memory, h.sound.regs, h.sound.events, h.sound.log, h.sound.requests, h.sound.cache,
    h.sound.fifos⟩, h.pending, h.fuse⟩

theorem Kept.writeBytes (h : Kept f q s) (ep a : Nat) (bs : List Byte) : Kept f q (s.writeBytes ep a bs) :=
  h.withMem _ _ _ _ _
theorem Kept.poisonBytes (h : Kept f q s) (ep a n : Nat) : Kept f q (s.poisonBytes ep a n) := h.withMem _ _ _ _ _

theorem Kept.withIntake (h : Kept f q s) (l : List LogEntry) (hl : l.length ≤ 64) : Kept f q { s with logIntake := l } :=
  ⟨⟨h.sound.memory, h.sound.regs, hl, h.sound.log, h.sound.requests, h.sound.cache, h.sound.fifos⟩, h.pending, h.fuse⟩

theorem Kept.withLog (h : Kept f q s) (l : List LogRec) (hl : l.length ≤ 4096) : Kept f q { s with log := l } :=
  ⟨⟨h.sound.memory, h.sound.regs, h.sound.events, hl, h.sound.requests, h.sound.cache, h.sound.fifos⟩, h.pending, h.fuse⟩

theorem Kept.event (h : Kept f q s) (e : Event) (w u a b : Nat) (m : Option (Nat × Nat)) : Kept f q (s.event e w u a b m) := by
  unfold State.event
  refine Kept.ite h ?_
  split
  · exact h.withIntake _ (by simp; omega)
  · exact h.sat _ _ _

theorem Kept.setAlorn (h : Kept f q s) (a : Alorn) (hi : a.intake.length ≤ 64) (hc : a.cache.length ≤ 64) :
    Kept f q { s with alorn := a } :=
  ⟨⟨h.sound.memory, h.sound.regs, h.sound.events, h.sound.log, hi, hc, h.sound.fifos⟩, h.pending, h.fuse⟩

theorem Kept.modAlorn (h : Kept f q s) (g : Alorn → Alorn)
    (hg : ∀ a, (g a).intake.length ≤ a.intake.length ∧ (g a).cache.length ≤ a.cache.length) : Kept f q (s.modAlorn g) :=
  ⟨⟨h.sound.memory, h.sound.regs, h.sound.events, h.sound.log, Nat.le_trans (hg _).1 h.sound.requests,
    Nat.le_trans (hg _).2 h.sound.cache, h.sound.fifos⟩, h.pending, h.fuse⟩

/-! ### Crossing FIFOs -/

theorem stagesOf_length (p : Packet) : (stagesOf p).length = (flitsOf p).length := by
  unfold stagesOf flitsOf
  cases hb : p.body with
  | nil => rfl
  | cons x t =>
    have hl : (x :: t).getLast? = some ((x :: t).getLast (by simp)) := List.getLast?_eq_some_getLast (by simp)
    simp [hl]

theorem fifo_bound (h : Kept f q s) (n : Nat) (hn : n < 4608) : (s.fifo n).stages.length ≤ fifoDepth n := by
  unfold State.fifo
  have hl : ∀ (t : Tbl Fifo), (∀ e ∈ t, e.1 < 4608 → e.2.stages.length ≤ fifoDepth e.1) →
      ((lookup t n).getD Fifo.initial).stages.length ≤ fifoDepth n := by
    intro t ht
    induction t with
    | nil => exact Nat.zero_le _
    | cons e t ih =>
      obtain ⟨k, v⟩ := e
      simp only [lookup]
      split
      · next hk => subst hk; exact ht (k, v) (by simp) hn
      · exact ih (fun e he => ht e (List.mem_cons_of_mem _ he))
  exact hl _ h.sound.fifos

theorem Kept.setFifo (h : Kept f q s) (n : Nat) (v : Fifo) (hv : n < 4608 → v.stages.length ≤ fifoDepth n) :
    Kept f q (s.setFifo n v) := by
  refine ⟨⟨h.sound.memory, h.sound.regs, h.sound.events, h.sound.log, h.sound.requests, h.sound.cache, ?_⟩, h.pending,
    h.fuse⟩
  intro e he hlt
  rcases mem_assign he with rfl | he
  · exact hv hlt
  · exact h.sound.fifos e he hlt

/-- Fewer stages than a FIFO holds always fit it. -/
theorem Kept.setFifo_le (h : Kept f q s) (n : Nat) (v : Fifo) (hv : v.stages.length ≤ (s.fifo n).stages.length) :
    Kept f q (s.setFifo n v) :=
  h.setFifo n v (fun hn => Nat.le_trans hv (fifo_bound h n hn))

theorem Kept.pushFifo (h : Kept f q s) (n : Nat) (p : Packet) (hr : (flitsOf p).length ≤ s.room n) : Kept f q (s.pushFifo n p) := by
  unfold State.pushFifo
  have h1 : Kept f q (s.setFifo n { s.fifo n with stages := (s.fifo n).stages ++ stagesOf p }) := by
    refine h.setFifo n _ (fun hn => ?_)
    have hb := fifo_bound h n hn
    have hp : 0 < (flitsOf p).length := by simp [flitsOf]
    simp only [List.length_append, stagesOf_length]
    simp only [State.room, if_pos hn] at hr
    omega
  exact Kept.ite (h1.wrap _ _ _) h1

theorem splitTail_length {l a b : List Stage} (h : splitTail l = some (a, b)) : b.length ≤ l.length := by
  induction l generalizing a b with
  | nil => simp [splitTail] at h
  | cons w t ih =>
    unfold splitTail at h
    split at h
    · simp only [Option.some.injEq, Prod.mk.injEq] at h
      simp [← h.2]
    · cases hs : splitTail t with
      | none => simp [hs] at h
      | some r =>
        simp only [hs, Option.map_some, Option.some.injEq, Prod.mk.injEq] at h
        have := ih (a := r.1) (b := r.2) hs
        simp only [List.length_cons, ← h.2]
        omega

theorem Kept.popFifo (h : Kept f q s) (n : Nat) : Kept f q (s.popFifo n) := by
  unfold State.popFifo
  split
  · exact h
  · next hs =>
    have h1 := h.setFifo_le n { s.fifo n with stages := _ } (splitTail_length hs)
    exact Kept.ite (h1.sat _ _ _) h1

theorem Kept.consume (h : Kept f q s) (n : Nat) (p : Packet) : Kept f q (s.consume n p) := Kept.ite (h.popFifo n) h

theorem Kept.launch (h : Kept f q s) (n : Nat) (g : Gate) (p : Packet) (hr : (flitsOf p).length ≤ s.room n) :
    Kept f q (s.launch n g p) := by
  have h1 := h.pushFifo n p hr
  unfold State.launch
  cases g with
  | free => exact h1
  | window w => exact h1.put _ _ _
  | room k => exact h1.same rfl

theorem streamHeads_mem {l seen : List OutWait} {e : OutWait} (h : e ∈ streamHeads seen l) : e ∈ l := by
  induction l generalizing seen with
  | nil => simp [streamHeads] at h
  | cons x t ih =>
    unfold streamHeads at h
    split at h
    · exact List.mem_cons_of_mem _ (ih h)
    · rcases List.mem_cons.mp h with rfl | h
      · exact List.mem_cons_self
      · exact List.mem_cons_of_mem _ (ih h)

/-- What leaves for a FIFO next waits for that FIFO. -/
theorem nextOut_fifo {n : Nat} {e : OutWait} (h : s.nextOut n = some e) : e.fifo = n := by
  have key : ∀ l : List OutWait, ∀ x : OutWait, x ∈ (streamHeads [] (s.outWait.filter (fun e => e.fifo == n))).filter (fun e =>
      s.maySend e && (16 ≤ e.queue || s.coreRuns (fifoCore n))) → x.fifo = n := by
    intro _ x hx
    have := (List.mem_filter.mp (streamHeads_mem (List.mem_filter.mp hx).1)).2
    simpa using this
  unfold State.nextOut at h
  split at h
  · contradiction
  · split at h
    · contradiction
    · next e0 t hl =>
      have hm : ∀ x ∈ e0 :: t, x.fifo = n := fun x hx => key [] x (hl ▸ hx)
      split at h
      · cases h; exact hm _ List.mem_cons_self
      · dsimp only at h
        rw [Option.or_eq_some_iff] at h
        rcases h with h | ⟨_, h⟩
        · obtain ⟨q', _, hq⟩ := List.exists_of_findSome?_eq_some h
          exact hm _ (List.mem_of_find?_eq_some hq)
        · cases h; exact hm _ List.mem_cons_self

theorem Kept.noteTurn (h : Kept f q s) (n k : Nat) : Kept f q (s.noteTurn n k) := Kept.ite (h.same rfl) h

theorem Kept.countReads (h : Kept f q s) (ep a n : Nat) : Kept f q (s.countReads ep a n) :=
  Kept.ite ((h.sat _ _ _).sat _ _ _) ((h.sat _ _ _).sat _ _ _)

theorem Kept.emit (h : Kept f q s) (n : Nat) (g : Gate) (p : Packet) (k : Nat) : Kept f q (s.emit n g p k) := by
  unfold State.emit
  dsimp only
  split
  · next hc =>
    simp only [Bool.and_eq_true, decide_eq_true_eq] at hc
    exact (h.launch n g p hc.1.2).noteTurn _ _
  · have h1 : ∀ b, Kept f q { s with outWait := s.outWait ++ [⟨n, k, g, none, b, p⟩] } := fun _ => h.same rfl
    split
    · exact Kept.ite ((h1 _).wrap _ _ _) (h1 _)
    · exact h1 _

theorem Kept.leave (h : Kept f q s) (e b : OutWait) (hr : (flitsOf b.pkt).length ≤ s.room e.fifo) :
    Kept f q (s.leave e b) := by
  have h1 : Kept f q ({ s with outWait := s.outWait.erase e } : State) := h.same rfl
  unfold State.leave
  dsimp only
  split
  · next x _ =>
    refine Kept.noteTurn ?_ _ _
    refine Kept.launch (h1.countReads _ _ _) _ _ _ ?_
    unfold State.countReads
    dsimp only
    split <;> exact hr
  · exact (h1.launch _ _ _ hr).noteTurn _ _

theorem Kept.pumpFifo (h : Kept f q s) (n fuel : Nat) : Kept f q (s.pumpFifo n fuel) := by
  induction fuel generalizing s with
  | zero => exact h
  | succ k ih =>
    unfold State.pumpFifo
    split
    · exact h
    · next e he =>
      have hn : e.fifo = n := nextOut_fifo he
      split
      · exact ih (h.same rfl)
      · split
        · next b _ hr => exact ih (h.leave e b (by rw [hn]; exact hr))
        · exact h

theorem Kept.noteWaits (h : Kept f q s) : Kept f q s.noteWaits := by
  refine h.foldl (fun t e ht => ?_)
  split
  · exact ht
  · split
    · split
      · exact ht
      · refine Kept.wrap ?_ _ _ _
        exact ht.same rfl
    · exact ht

theorem Kept.pump (h : Kept f q s) : Kept f q s.pump := (h.foldl (fun _ _ hs => hs.pumpFifo _ _)).noteWaits

end Sys2Proof.Machine
end

