-- ==== Sys2Proof/Laws/KeptOps.lean ====
section
/-! SUPPORT. What every operation keeps, one lemma per operation: answers, banks, completion, rings, the mesh and arrivals. -/

namespace Sys2Proof.Machine

variable {f : Fuse} {q : List Instr} {s : State}

theorem Kept.drawn (h : Kept f q s) (n) :
    Kept f q (State.drawn s n) := by
  unfold State.drawn
  with_reducible repeat' first | assumption | apply Kept.upd

theorem Kept.noteOld (h : Kept f q s) (e') :
    Kept f q (State.noteOld s e') := by
  unfold State.noteOld
  with_reducible repeat' first | assumption | apply Kept.put | apply Kept.ite | split

theorem Kept.pulse (h : Kept f q s) (k) :
    Kept f q (State.pulse s k) := by
  unfold State.pulse
  with_reducible repeat' first
    | assumption | apply Kept.put | apply Kept.drawn | apply Kept.ite | split | apply Kept.upd

theorem Kept.pulsesStop (h : Kept f q s) :
    Kept f q (State.pulsesStop s) := by
  unfold State.pulsesStop
  with_reducible repeat' first | assumption | apply Kept.drawn | apply Kept.upd

theorem Kept.pulsesStart (h : Kept f q s) :
    Kept f q (State.pulsesStart s) := by
  unfold State.pulsesStart
  with_reducible repeat' first | assumption | apply Kept.upd

theorem Kept.setPart (h : Kept f q s) (p v) :
    Kept f q (State.setPart s p v) := by
  unfold State.setPart
  with_reducible repeat' first | assumption | apply Kept.upd

theorem Kept.setRoom (h : Kept f q s) (k r) :
    Kept f q (State.setRoom s k r) := by
  unfold State.setRoom
  with_reducible repeat' first | assumption | apply Kept.upd

theorem Kept.startMove (h : Kept f q s) (k) :
    Kept f q (State.startMove s k) := by
  unfold State.startMove
  with_reducible repeat' first | assumption | apply Kept.setRoom

theorem Kept.countHeader (h : Kept f q s) (ep) :
    Kept f q (State.countHeader s ep) := by
  unfold State.countHeader
  with_reducible repeat' first | assumption | apply Kept.sat | apply Kept.ite

theorem Kept.countRoute (h : Kept f q s) (ep) :
    Kept f q (State.countRoute s ep) := by
  unfold State.countRoute
  with_reducible repeat' first | assumption | apply Kept.sat | apply Kept.ite

theorem Kept.headEvent (h : Kept f q s) (e' window unit p) :
    Kept f q (State.headEvent s e' window unit p) := by
  unfold State.headEvent
  with_reducible repeat' first | assumption | apply Kept.event

theorem Kept.discardHead (h : Kept f q s) (e' ep p) :
    Kept f q (State.discardHead s e' ep p) := by
  unfold State.discardHead
  with_reducible repeat' first | assumption | apply Kept.headEvent | apply Kept.countHeader

theorem Kept.stray (h : Kept f q s) (ep p) :
    Kept f q (State.stray s ep p) := by
  unfold State.stray
  with_reducible repeat' first | assumption | apply Kept.sat | apply Kept.event | apply Kept.ite

theorem Kept.setBank (h : Kept f q s) (ep b l) :
    Kept f q (State.setBank s ep b l) := by
  unfold State.setBank
  with_reducible repeat' first | assumption | apply Kept.setWord

theorem Kept.countNoOwner (h : Kept f q s) (ep) :
    Kept f q (State.countNoOwner s ep) := by
  unfold State.countNoOwner
  with_reducible repeat' first | assumption | apply Kept.sat | apply Kept.ite

theorem Kept.dropForm (h : Kept f q s) (w st) :
    Kept f q (State.dropForm s w st) := by
  unfold State.dropForm
  with_reducible repeat' first | assumption | apply Kept.ite | split | apply Kept.upd

theorem Kept.enqueue (h : Kept f q s) (n q' g f' p) :
    Kept f q (State.enqueue s n q' g f' p) := by
  unfold State.enqueue
  with_reducible repeat' first | assumption | apply Kept.upd

theorem Kept.sendReply (h : Kept f q s) (ep p) :
    Kept f q (State.sendReply s ep p) := by
  unfold State.sendReply
  with_reducible repeat' first | assumption | apply Kept.emit | apply Kept.countRoute | apply Kept.ite | split

theorem Kept.answer (h : Kept f q s) (ep req opcode status bytes poison extra) :
    Kept f q (State.answer s ep req opcode status bytes poison extra) := by
  unfold State.answer
  with_reducible repeat' first | assumption | apply Kept.sendReply | apply Kept.drawn

theorem Kept.nack (h : Kept f q s) (ep req status) :
    Kept f q (State.nack s ep req status) := by
  unfold State.nack
  with_reducible repeat' first | assumption | apply Kept.answer

theorem Kept.cacheAnswer (h : Kept f q s) (src tag resp busy) :
    Kept f q (State.cacheAnswer s src tag resp busy) :=
  h.modAlorn _ (fun _ => ⟨Nat.le_refl _, by simp⟩)


theorem Kept.endBackground (h : Kept f q s) (b st detail data) :
    Kept f q (State.endBackground s b st detail data) := by
  unfold State.endBackground
  with_reducible repeat' first
    | assumption | apply Kept.cacheAnswer | apply Kept.modAlorn | exact fun _ => ⟨Nat.le_refl _, Nat.le_refl _⟩

theorem Kept.endAll (h : Kept f q s) (cmd keep st detail data) :
    Kept f q (State.endAll s cmd keep st detail data) := by
  unfold State.endAll
  with_reducible repeat' first | assumption | apply Kept.endBackground | apply Kept.foldl | intro _ _ _

theorem Kept.sendMgmt (h : Kept f q s) (l response tag ws) :
    Kept f q (State.sendMgmt s l response tag ws) := by
  unfold State.sendMgmt
  with_reducible repeat' first | assumption | apply Kept.countRoute | apply Kept.emit | apply Kept.ite

theorem Kept.deliver (h : Kept f q s) (a ws) :
    Kept f q (State.deliver s a ws) := by
  unfold State.deliver
  with_reducible repeat' first
    | assumption | apply Kept.setWord | apply Kept.put | apply Kept.modAlorn | apply Kept.sendMgmt
    | exact fun _ => ⟨Nat.le_refl _, Nat.le_refl _⟩ | apply Kept.foldl | intro _ _ _ | apply Kept.ite | split

theorem Kept.finalAnswer (h : Kept f q s) (a ws) :
    Kept f q (State.finalAnswer s a ws) := by
  unfold State.finalAnswer
  with_reducible repeat' first | assumption | apply Kept.deliver | apply Kept.cacheAnswer

theorem Kept.emptyStaging (h : Kept f q s) :
    Kept f q (State.emptyStaging s) := by
  unfold State.emptyStaging
  with_reducible repeat' first | assumption | apply Kept.modAlorn | exact fun _ => ⟨Nat.le_refl _, Nat.le_refl _⟩

theorem Kept.freeStaging (h : Kept f q s) :
    Kept f q (State.freeStaging s) := by
  unfold State.freeStaging
  with_reducible repeat' first | assumption | apply Kept.modAlorn | exact fun _ => ⟨Nat.le_refl _, Nat.le_refl _⟩

theorem Kept.dropStaging (h : Kept f q s) :
    Kept f q (State.dropStaging s) := by
  unfold State.dropStaging
  with_reducible repeat' first | assumption | apply Kept.emptyStaging | apply Kept.ite | split

theorem Kept.breakLock (h : Kept f q s) (cause) :
    Kept f q (State.breakLock s cause) := by
  unfold State.breakLock
  with_reducible repeat' first
    | assumption | apply Kept.setWord | apply Kept.event | apply Kept.dropStaging | apply Kept.modAlorn
    | apply Kept.put | exact fun _ => ⟨Nat.le_refl _, Nat.le_refl _⟩ | apply Kept.ite

theorem Kept.writePayload (h : Kept f q s) (ep a bs poison) :
    Kept f q (State.writePayload s ep a bs poison) := by
  unfold State.writePayload
  with_reducible repeat' first
    | assumption | apply Kept.poisonBytes | apply Kept.writeBytes | apply Kept.foldl | intro _ _ _ | apply Kept.ite

theorem Kept.memEvent (h : Kept f q s) (e' ep arg0 arg1) :
    Kept f q (State.memEvent s e' ep arg0 arg1) := by
  unfold State.memEvent
  with_reducible repeat' first | assumption | apply Kept.event

theorem Kept.showPending (h : Kept f q s) (i) :
    Kept f q (State.showPending s i) := by
  unfold State.showPending
  with_reducible repeat' first | assumption | apply Kept.put

theorem Kept.endRequests (h : Kept f q s) (mem b free) :
    Kept f q (State.endRequests s mem b free) := by
  unfold State.endRequests
  with_reducible repeat' first
    | assumption | apply Kept.showPending | apply Kept.setWord | apply Kept.foldl | intro _ _ _ | apply Kept.ite
    | split | apply Kept.upd

theorem Kept.startHandover (h : Kept f q s) (holder job k h') :
    Kept f q (State.startHandover s holder job k h') := by
  unfold State.startHandover
  with_reducible repeat' first
    | assumption | apply Kept.setBank | apply Kept.setWord | apply Kept.foldl | intro _ _ _ | apply Kept.upd

theorem Kept.giveBank (h : Kept f q s) (h') :
    Kept f q (State.giveBank s h') := by
  unfold State.giveBank
  with_reducible repeat' first | assumption | apply Kept.setBank | apply Kept.endAll | apply Kept.memEvent

theorem Kept.coreHandover (h : Kept f q s) (i h') :
    Kept f q (State.coreHandover s i h').2 := by
  unfold State.coreHandover
  with_reducible repeat' first
    | assumption | apply Kept.giveBank | apply Kept.endRequests | apply Kept.startHandover | apply Kept.showPending
    | apply Kept.ite_snd | split | apply Kept.upd

theorem Kept.coreHandover_eq {i} {h'} {x t} (h : Kept f q s) (e : State.coreHandover s i h' = (x, t)) :
    Kept f q t := by
  have k := h.coreHandover i h'
  rwa [e] at k

theorem Kept.alornHandover (h : Kept f q s) (h') :
    Kept f q (State.alornHandover s h').2 := by
  unfold State.alornHandover
  with_reducible repeat' first
    | assumption | apply Kept.giveBank | apply Kept.endRequests | apply Kept.startHandover | apply Kept.ite_snd | split

theorem Kept.alornHandover_eq {h'} {x t} (h : Kept f q s) (e : State.alornHandover s h' = (x, t)) :
    Kept f q t := by
  have k := h.alornHandover h'
  rwa [e] at k

theorem Kept.finishHandover (h : Kept f q s) (ep b) :
    Kept f q (State.finishHandover s ep b) := by
  unfold State.finishHandover
  with_reducible repeat' first | assumption | apply Kept.giveBank | apply Kept.endRequests | apply Kept.ite

theorem Kept.breakHandover (h : Kept f q s) (ep b cause) :
    Kept f q (State.breakHandover s ep b cause) := by
  unfold State.breakHandover
  with_reducible repeat' first
    | assumption | apply Kept.setBank | apply Kept.memEvent | apply Kept.endRequests | apply Kept.ite | split
    | apply Kept.upd

theorem Kept.breakAll (h : Kept f q s) (holder) :
    Kept f q (State.breakAll s holder) := by
  unfold State.breakAll
  with_reducible repeat' first
    | assumption | apply Kept.breakHandover | apply Kept.foldl | intro _ _ _ | apply Kept.ite

theorem Kept.signalCtr (h : Kept f q s) (i k n) :
    Kept f q (State.signalCtr s i k n) := by
  unfold State.signalCtr
  with_reducible repeat' first | assumption | apply Kept.wrap

theorem Kept.setCmd (h : Kept f q s) (c) :
    Kept f q (State.setCmd s c) := by
  unfold State.setCmd
  with_reducible repeat' first | assumption | apply Kept.ite | split | apply Kept.upd

theorem Kept.retire (h : Kept f q s) (i q' n2) :
    Kept f q (State.retire s i q' n2) := by
  induction n2 generalizing i q' s with
  | zero => exact h
  | succ k ih =>
    unfold State.retire
    with_reducible repeat' first | assumption | apply Kept.put | apply ih | apply Kept.ite | split | apply Kept.upd

theorem Kept.releaseAm (h : Kept f q s) (c) :
    Kept f q (State.releaseAm s c) := by
  unfold State.releaseAm
  with_reducible repeat' first | assumption | apply Kept.put | apply Kept.ite

theorem Kept.endFlow (h : Kept f q s) (fl) :
    Kept f q (State.endFlow s fl) := by
  unfold State.endFlow
  with_reducible repeat' first | assumption | apply Kept.put | apply Kept.ite | split

theorem Kept.showRing (h : Kept f q s) (i k) :
    Kept f q (State.showRing s i k) := by
  unfold State.showRing
  with_reducible repeat' first | assumption | apply Kept.writeBytes | apply Kept.ite | split

theorem Kept.dropReplies (h : Kept f q s) (c) :
    Kept f q (State.dropReplies s c) := by
  unfold State.dropReplies
  with_reducible repeat' first | assumption | apply Kept.showRing | apply Kept.foldl | intro _ _ _ | apply Kept.upd

theorem Kept.complete (h : Kept f q s) (c status) :
    Kept f q (State.complete s c status) := by
  unfold State.complete
  with_reducible repeat' first
    | assumption | apply Kept.writeBytes | apply Kept.sat | apply Kept.signalCtr | apply Kept.releaseAm
    | apply Kept.endFlow | apply Kept.dropReplies | apply Kept.setCmd | apply Kept.retire | apply Kept.foldl
    | intro _ _ _ | apply Kept.ite | split | apply Kept.upd

theorem Kept.takeSerial (h : Kept f q s) (i q') :
    Kept f q (State.takeSerial s i q').2 := by
  unfold State.takeSerial
  with_reducible repeat' first | assumption | apply Kept.put | apply Kept.upd

theorem Kept.takeSerial_eq {i} {q'} {x t} (h : Kept f q s) (e : State.takeSerial s i q' = (x, t)) :
    Kept f q t := by
  have k := h.takeSerial i q'
  rwa [e] at k

theorem Kept.settle (h : Kept f q s) :
    Kept f q (State.settle s) := by
  unfold State.settle
  with_reducible repeat' first | assumption | apply Kept.complete | apply Kept.foldl | intro _ _ _

theorem Kept.flow (h : Kept f q s) :
    Kept f q (State.flow s) := by
  unfold State.flow
  with_reducible repeat' first | assumption | apply Kept.settle | apply Kept.pump

theorem Kept.afterAnswer (h : Kept f q s) (c) :
    Kept f q (State.afterAnswer s c) := by
  unfold State.afterAnswer
  with_reducible repeat' first | assumption | apply Kept.complete | apply Kept.setCmd | apply Kept.ite

theorem Kept.dropWait (h : Kept f q s) (w) :
    Kept f q (State.dropWait s w) := by
  unfold State.dropWait
  with_reducible repeat' first
    | assumption | apply Kept.dropForm | apply Kept.countRoute | apply Kept.ite | split | apply Kept.upd

theorem Kept.shutPort (h : Kept f q s) (l) :
    Kept f q (State.shutPort s l) := by
  unfold State.shutPort
  with_reducible repeat' first | assumption | apply Kept.settle | apply Kept.dropWait | apply Kept.foldl | intro _ _ _

theorem Kept.putRecord (h : Kept f q s) (i a p reply) :
    Kept f q (State.putRecord s i a p reply) := by
  unfold State.putRecord
  with_reducible repeat' first
    | assumption | apply Kept.writeBytes | apply Kept.drawn | apply Kept.poisonBytes | apply Kept.foldl | intro _ _ _
    | apply Kept.ite

theorem Kept.putPad (h : Kept f q s) (i a bytes) :
    Kept f q (State.putPad s i a bytes) := by
  unfold State.putPad
  with_reducible repeat' first | assumption | apply Kept.drawn | apply Kept.writeBytes

theorem Kept.placeAt (h : Kept f q s) (i k r skip p reply) :
    Kept f q (State.placeAt s i k r skip p reply).2 := by
  unfold State.placeAt
  with_reducible repeat' first
    | assumption | apply Kept.putRecord | apply Kept.showRing | apply Kept.signalCtr | apply Kept.ite_snd | split
    | apply Kept.upd

theorem Kept.placeAt_eq {i} {k} {r} {skip} {p} {reply} {x t} (h : Kept f q s) (e : State.placeAt s i k r skip p reply = (x, t)) :
    Kept f q t := by
  have k := h.placeAt i k r skip p reply
  rwa [e] at k

theorem Kept.place {i k p reply x t} (h : Kept f q s) (e : State.place s i k p reply = some (x, t)) : Kept f q t := by
  unfold State.place at e
  split at e
  · contradiction
  · next r _ =>
    dsimp only at e
    split at e
    · have k1 := h.placeAt i k r 0 p reply
      rw [Option.some.inj e] at k1
      exact k1
    · split at e
      · have k1 := (h.putPad i (r.base + r.writePos % r.size) (r.size - r.writePos % r.size)).placeAt i k r
          (r.size - r.writePos % r.size) p reply
        rw [Option.some.inj e] at k1
        exact k1
      · contradiction


theorem Kept.tryPlace {i k p reply x t} (h : Kept f q s) (e : State.tryPlace s i k p reply = some (x, t)) : Kept f q t := by
  unfold State.tryPlace at e
  split at e
  · contradiction
  · exact h.place e


theorem Kept.replyWritten (h : Kept f q s) (c p pos) :
    Kept f q (State.replyWritten s c p pos) := by
  unfold State.replyWritten
  with_reducible repeat' first | assumption | apply Kept.complete

theorem Kept.dropReply (h : Kept f q s) (c) :
    Kept f q (State.dropReply s c) := by
  unfold State.dropReply
  with_reducible repeat' first | assumption | apply Kept.complete | apply Kept.sat

theorem Kept.takeAmReply (h : Kept f q s) (i p) :
    Kept f q (State.takeAmReply s i p) := by
  unfold State.takeAmReply
  with_reducible repeat' first
    | assumption | apply Kept.stray | apply Kept.dropReply | refine Kept.tryPlace ?_ (by assumption)
    | apply Kept.replyWritten | apply Kept.setCmd | apply Kept.releaseAm | apply Kept.showRing | apply Kept.ite
    | split | apply Kept.upd

theorem Kept.takeAnswer (h : Kept f q s) (i op p) :
    Kept f q (State.takeAnswer s i op p) := by
  unfold State.takeAnswer
  with_reducible repeat' first
    | assumption | apply Kept.stray | apply Kept.writePayload | apply Kept.releaseAm | apply Kept.setCmd
    | apply Kept.complete | apply Kept.afterAnswer | apply Kept.ite | split

theorem Kept.takeReply (h : Kept f q s) (i p) :
    Kept f q (State.takeReply s i p) := by
  unfold State.takeReply
  with_reducible repeat' first | assumption | apply Kept.takeAmReply | apply Kept.takeAnswer | apply Kept.ite

theorem Kept.respond (h : Kept f q s) (ep req opcode status bytes poison extra) :
    Kept f q (State.respond s ep req opcode status bytes poison extra) := by
  unfold State.respond
  with_reducible repeat' first
    | assumption | apply Kept.takeReply | apply Kept.drawn | apply Kept.answer | apply Kept.ite

theorem Kept.cacheReply (h : Kept f q s) (req opcode status value) :
    Kept f q (State.cacheReply s req opcode status value) := by
  unfold State.cacheReply
  with_reducible repeat' first | assumption | apply Kept.put | apply Kept.ite

theorem Kept.ackAm (h : Kept f q s) (i p) :
    Kept f q (State.ackAm s i p) := by
  unfold State.ackAm
  with_reducible repeat' first | assumption | apply Kept.cacheReply | apply Kept.respond | apply Kept.ite

theorem Kept.freeHold (h : Kept f q s) (h') :
    Kept f q (State.freeHold s h') := by
  unfold State.freeHold
  with_reducible repeat' first | assumption | apply Kept.put | apply Kept.ite | split | apply Kept.upd

theorem Kept.drainRing (h : Kept f q s) (i k n2) :
    Kept f q (State.drainRing s i k n2) := by
  induction n2 generalizing i k s with
  | zero => exact h
  | succ k ih =>
    unfold State.drainRing
    with_reducible repeat' first
      | assumption | refine Kept.place ?_ (by assumption) | apply Kept.freeHold | apply Kept.replyWritten
      | apply Kept.ackAm | apply ih | apply Kept.ite | split

theorem Kept.noteHostTag (h : Kept f q s) (n) :
    Kept f q (State.noteHostTag s n) := by
  unfold State.noteHostTag
  with_reducible repeat' first | assumption | apply Kept.ite | split | apply Kept.upd

theorem noteOld_fifos (s : State) (e : Nat) : (s.noteOld e).fifos = s.fifos := by
  unfold State.noteOld
  split <;> rfl

theorem Kept.writeStage (h : Kept f q s) (n d w) : Kept f q (State.writeStage s n d w) := by
  unfold State.writeStage
  extract_lets g s1 s2 w' s3 w2 s4
  split
  · exact ((((h.setFifo_le n { s.fifo n with lost := true } (Nat.le_refl _)).put _ _ _).put _ _ _).sat _ _ _).event _ _ _ _ _ _
  · next hlt =>
    have h3 : Kept f q s3 := Kept.ite (h.noteOld _) h
    have hk : ∀ (l : Bool) (w : Stage), Kept f q (s3.setFifo n { g with stages := g.stages ++ [w], lost := l }) :=
      fun l w => h3.setFifo n _ (fun _ => by simp; omega)
    exact Kept.ite (((hk _ _).wrap _ _ _).noteHostTag _) (hk _ _)


theorem Kept.hostRefuse (h : Kept f q s) (p st) :
    Kept f q (State.hostRefuse s p st) := by
  unfold State.hostRefuse
  with_reducible repeat' first
    | assumption | apply Kept.drawn | apply Kept.countRoute | apply Kept.ite | split | apply Kept.upd

theorem Kept.hostHead (h : Kept f q s) (n d w) :
    Kept f q (State.hostHead s n d w) := by
  unfold State.hostHead
  with_reducible repeat' first
    | assumption | apply Kept.writeStage | apply Kept.hostRefuse | apply Kept.put | apply Kept.wrap | apply Kept.ite
    | split | apply Kept.upd

theorem Kept.readStage (h : Kept f q s) (n d) : Kept f q (State.readStage s n d) := by
  unfold State.readStage
  dsimp only
  split
  · next w t _ hs _ => exact (h.setFifo_le n _ (by simp [hs])).sat _ _ _
  · exact h.setFifo_le n _ (Nat.le_refl _)


theorem execFifoWrite_kept (h : Kept f q s) (f' w) :
    ∃ t, execFifoWrite f' w s = .next t ∧ Kept f q t := by
  refine live_kept h (fun s h => ?_)
  with_reducible repeat' first | assumption | apply Kept.hostHead | apply Kept.writeStage | apply Kept.ite

theorem execFifoRead_kept (h : Kept f q s) (f') :
    ∃ t, execFifoRead f' s = .next t ∧ Kept f q t := by
  refine live_kept h (fun s h => ?_)
  with_reducible repeat' first | assumption | apply Kept.readStage | apply Kept.ite

theorem Kept.countLink (h : Kept f q s) (l parity viol) :
    Kept f q (State.countLink s l parity viol) := by
  unfold State.countLink
  with_reducible repeat' first | assumption | apply Kept.sat | apply Kept.put | apply Kept.ite | split

theorem Kept.passTail (h : Kept f q s) (m n r out) : Kept f q (State.passTail s m n r out) := by
  induction n generalizing r out s with
  | zero => exact h
  | succ k ih =>
    unfold State.passTail
    dsimp only
    split
    · exact h
    · refine Kept.ite h ?_
      split
      · apply ih; exact Kept.upd h
      · exact Kept.upd h

theorem passTail_fifos (s : State) (m n r out) : (State.passTail s m n r out).fifos = s.fifos := by
  induction n generalizing r out s with
  | zero => rfl
  | succ k ih =>
    unfold State.passTail
    dsimp only
    split
    · rfl
    · split
      · rfl
      · split
        · rw [ih]
        · rfl


theorem Kept.takeReady (h : Kept f q s) (key) :
    Kept f q (State.takeReady s key) := by
  unfold State.takeReady
  with_reducible repeat' first | assumption | apply Kept.ite | split | apply Kept.upd

theorem Kept.takeFlits (h : Kept f q s) (l levels head tail fs) :
    Kept f q (State.takeFlits s l levels head tail fs) := by
  unfold State.takeFlits
  with_reducible repeat' first | assumption | apply Kept.ite | split | apply Kept.upd

theorem Kept.popNeighbour (h : Kept f q s) (l) :
    Kept f q (State.popNeighbour s l) := by
  unfold State.popNeighbour
  with_reducible repeat' first
    | assumption | apply Kept.flow | apply Kept.wrap | apply Kept.popFifo | apply Kept.ite | split | apply Kept.upd

theorem Kept.meshHandshake (h : Kept f q s) (l levels change) :
    Kept f q (State.meshHandshake s l levels change) := by
  unfold State.meshHandshake
  with_reducible repeat' first | assumption | apply Kept.drawn | apply Kept.countLink | apply Kept.takeFlits

theorem Kept.neighbourHandshake (h : Kept f q s) (l levels change) :
    Kept f q (State.neighbourHandshake s l levels change) := by
  unfold State.neighbourHandshake
  with_reducible repeat' first
    | assumption | apply Kept.takeFlits | apply Kept.drawn | apply Kept.countLink | apply Kept.popNeighbour

theorem Kept.handshake (h : Kept f q s) (l levels) :
    Kept f q (State.handshake s l levels) := by
  unfold State.handshake
  with_reducible repeat' first
    | assumption | apply Kept.neighbourHandshake | apply Kept.meshHandshake | apply Kept.ite | split

theorem execLinkHandshake_kept (h : Kept f q s) (l levels) :
    ∃ t, execLinkHandshake l levels s = .next t ∧ Kept f q t := by
  refine live_kept h (fun s h => ?_)
  with_reducible repeat' first | assumption | apply Kept.handshake

theorem Kept.depart (h : Kept f q s) (n0) :
    Kept f q (State.depart s n0) := by
  unfold State.depart
  with_reducible repeat' first | assumption | apply Kept.passTail | apply Kept.takeReady | apply Kept.ite | split

theorem fifoCopy_lt (x : FifoId) : fifoCopy x < 4608 := by
  cases x <;> simp only [fifoCopy, fifoDomain, fifoIndex] <;> omega

theorem depart_fifos (s : State) (w) : (State.depart s w).fifos = s.fifos := by
  unfold State.depart
  split
  · exact passTail_fifos ..
  · unfold State.takeReady
    dsimp only
    split <;> rfl

theorem Kept.admitHeader (h : Kept f q s) (f' w p) : Kept f q (State.admitHeader s f' w p) := by
  unfold State.admitHeader
  extract_lets n need inReset
  have h0 := (h.depart w).put F.XB_FIFO_HELD n 0
  refine Kept.ite (h0.sat _ _ _) ?_
  split
  · exact h.put _ _ _
  · next hlt =>
    have hn : n < 4608 := fifoCopy_lt f'
    have hr : (flitsOf p).length ≤ ((s.depart w).put F.XB_FIFO_HELD n 0).room n := by
      have : (flitsOf p).length ≤ need := Nat.le_max_left _ _
      have e : ((s.depart w).put F.XB_FIFO_HELD n 0).room n = s.room n := by
        have : ((s.depart w).put F.XB_FIFO_HELD n 0).fifos = s.fifos := depart_fifos s w
        simp only [State.room, State.fifo, this]
      rw [e]
      rw [State.room, if_pos hn]
      omega
    have h1 := h0.pushFifo n p hr
    split
    · exact h1.wrap _ _ _
    · exact h1


theorem Kept.takeIn (h : Kept f q s) (ep p) :
    Kept f q (State.takeIn s ep p) := by
  unfold State.takeIn
  with_reducible repeat' first
    | assumption | apply Kept.takeReady | apply Kept.passTail | apply Kept.popFifo | apply Kept.ite | split
    | apply Kept.upd

theorem Kept.leaveFifo (h : Kept f q s) (m r inp p) :
    Kept f q (State.leaveFifo s m r inp p) := by
  unfold State.leaveFifo
  with_reducible repeat' first
    | assumption | apply Kept.popFifo | apply Kept.flow | apply Kept.wrap | apply Kept.ite | split

theorem Kept.requestOutput (h : Kept f q s) (m r inp out p) :
    Kept f q (State.requestOutput s m r inp out p) := by
  unfold State.requestOutput
  with_reducible repeat' first | assumption | apply Kept.ite | split | apply Kept.upd

theorem execRouterHeaderArrival_kept (h : Kept f q s) (m r inp pkt) :
    ∃ t, execRouterHeaderArrival m r inp pkt s = .next t ∧ Kept f q t := by
  refine live_kept h (fun s h => ?_)
  with_reducible repeat' first
    | assumption | apply Kept.requestOutput | apply Kept.leaveFifo | apply Kept.takeReady | apply Kept.ite | split

theorem Kept.countWait (h : Kept f q s) (m n t') :
    Kept f q (State.countWait s m n t') := by
  unfold State.countWait
  with_reducible repeat' first | assumption | apply Kept.sat | apply Kept.raiseTo | apply Kept.ite | split

theorem Kept.freeOutput (h : Kept f q s) (m r out) :
    Kept f q (State.freeOutput s m r out) := by
  unfold State.freeOutput
  with_reducible repeat' first | assumption | apply Kept.countWait | apply Kept.ite | split | apply Kept.upd

theorem Kept.setPort (h : Kept f q s) (p v) :
    Kept f q (State.setPort s p v) := by
  unfold State.setPort
  with_reducible repeat' first | assumption | apply Kept.upd

theorem Kept.modPort (h : Kept f q s) (p f') :
    Kept f q (State.modPort s p f') := by
  unfold State.modPort
  with_reducible repeat' first | assumption | apply Kept.setPort

theorem Kept.stage (h : Kept f q s) (p src vl pkt) :
    Kept f q (State.stage s p src vl pkt) := by
  unfold State.stage
  with_reducible repeat' first | assumption | apply Kept.modPort

theorem Kept.releaseFor (h : Kept f q s) (p src pkt) :
    Kept f q (State.releaseFor s p src pkt) := by
  unfold State.releaseFor
  with_reducible repeat' first | assumption | apply Kept.ite | split | apply Kept.upd

theorem Kept.portRefuse (h : Kept f q s) (p src st pkt) :
    Kept f q (State.portRefuse s p src st pkt) := by
  unfold State.portRefuse
  with_reducible repeat' first
    | assumption | apply Kept.sat | apply Kept.releaseFor | apply Kept.nack | apply Kept.ite

theorem Kept.loopRefuse (h : Kept f q s) (p src pkt) :
    Kept f q (State.loopRefuse s p src pkt) := by
  unfold State.loopRefuse
  with_reducible repeat' first
    | assumption | apply Kept.sat | apply Kept.releaseFor | apply Kept.headEvent | apply Kept.nack | apply Kept.ite
    | split

theorem Kept.egress (h : Kept f q s) (p src sameRing pkt) :
    Kept f q (State.egress s p src sameRing pkt) := by
  unfold State.egress
  with_reducible repeat' first
    | assumption | apply Kept.portRefuse | apply Kept.loopRefuse | apply Kept.stage | apply Kept.ite | split

theorem execPortEgress_kept (h : Kept f q s) (p src pkt) :
    ∃ t, execPortEgress p src pkt s = .next t ∧ Kept f q t := by
  refine live_kept h (fun s h => ?_)
  with_reducible repeat' first
    | assumption | apply Kept.takeIn | apply Kept.flow | apply Kept.discardHead | apply Kept.releaseFor
    | apply Kept.egress | apply Kept.ite

theorem execMgmtRelayAtPort_kept (h : Kept f q s) (p pkt) :
    ∃ t, execMgmtRelayAtPort p pkt s = .next t ∧ Kept f q t := by
  refine live_kept h (fun s h => ?_)
  with_reducible repeat' first
    | assumption | apply Kept.takeIn | apply Kept.stage | apply Kept.flow | apply Kept.sat | apply Kept.releaseFor
    | apply Kept.ite

theorem execWindowRelease_kept (h : Kept f q s) (p k src) :
    ∃ t, execWindowRelease p k src s = .next t ∧ Kept f q t := by
  refine live_kept h (fun s h => ?_)
  with_reducible repeat' first | assumption | apply Kept.flow | apply Kept.put | apply Kept.upd

theorem Kept.treeToFibre (h : Kept f q s) (l pkt) :
    Kept f q (State.treeToFibre s l pkt) := by
  unfold State.treeToFibre
  with_reducible repeat' first | assumption | apply Kept.egress | apply Kept.ite

theorem Kept.plumbToFibre (h : Kept f q s) (l m bad) :
    Kept f q (State.plumbToFibre s l m bad) := by
  unfold State.plumbToFibre
  with_reducible repeat' first | assumption | apply Kept.stage | apply Kept.ite

theorem Kept.setLane (h : Kept f q s) (p d l v) :
    Kept f q (State.setLane s p d l v) := by
  unfold State.setLane
  with_reducible repeat' first | assumption | apply Kept.put

theorem Kept.formBlocks (h : Kept f q s) (p) :
    Kept f q (State.formBlocks s p) := by
  unfold State.formBlocks
  with_reducible repeat' first | assumption | apply Kept.modPort | apply Kept.ite | split

theorem Kept.sendWord (h : Kept f q s) (p message) :
    Kept f q (State.sendWord s p message) := by
  unfold State.sendWord
  with_reducible repeat' first | assumption | apply Kept.modPort | apply Kept.ite | split

theorem Kept.stripe (h : Kept f q s) (p) :
    Kept f q (State.stripe s p) := by
  unfold State.stripe
  with_reducible repeat' first
    | assumption | apply Kept.sendWord | apply Kept.modPort | apply Kept.formBlocks | apply Kept.ite | split

theorem Kept.countWord (h : Kept f q s) (p d) :
    Kept f q (State.countWord s p d) := by
  unfold State.countWord
  with_reducible repeat' first
    | assumption | apply Kept.sat | apply Kept.modPort | apply Kept.foldl | intro _ _ _ | apply Kept.ite | split

theorem Kept.receive (h : Kept f q s) (p n a b) :
    Kept f q (State.receive s p n a b).1 := by
  unfold State.receive
  with_reducible repeat' first | assumption | apply Kept.countWord | apply Kept.ite_fst | split

theorem Kept.receive_eq {p} {n} {a} {b} {x t} (h : Kept f q s) (e : State.receive s p n a b = (t, x)) :
    Kept f q t := by
  have k := h.receive p n a b
  rwa [e] at k

theorem Kept.answerRepeat (h : Kept f q s) (ep p stale) :
    Kept f q (State.answerRepeat s ep p stale) := by
  unfold State.answerRepeat
  with_reducible repeat' first | assumption | apply Kept.sat | apply Kept.respond | apply Kept.ite

theorem Kept.takeSeq (h : Kept f q s) (p) :
    Kept f q (State.takeSeq s p) := by
  unfold State.takeSeq
  with_reducible repeat' first | assumption | apply Kept.put | apply Kept.ite

theorem Kept.conclude (h : Kept f q s) (ep p op st bytes poison extra) :
    Kept f q (State.conclude s ep p op st bytes poison extra) := by
  unfold State.conclude
  with_reducible repeat' first | assumption | apply Kept.respond | apply Kept.cacheReply | apply Kept.takeSeq

theorem Kept.signalFlag (h : Kept f q s) (ep p) :
    Kept f q (State.signalFlag s ep p) := by
  unfold State.signalFlag
  with_reducible repeat' first | assumption | apply Kept.signalCtr | apply Kept.ite

theorem Kept.acknowledge (h : Kept f q s) (ep p poisoned) :
    Kept f q (State.acknowledge s ep p poisoned) := by
  unfold State.acknowledge
  with_reducible repeat' first
    | assumption | apply Kept.conclude | apply Kept.cacheReply | apply Kept.takeSeq | apply Kept.ite

theorem Kept.toHost (h : Kept f q s) (p) :
    Kept f q (State.toHost s p) := by
  unfold State.toHost
  with_reducible repeat' first | assumption | apply Kept.upd

theorem Kept.doPut (h : Kept f q s) (ep p) :
    Kept f q (State.doPut s ep p) := by
  unfold State.doPut
  with_reducible repeat' first
    | assumption | apply Kept.acknowledge | apply Kept.toHost | apply Kept.writePayload | apply Kept.signalFlag
    | apply Kept.ite | split

theorem Kept.doGet (h : Kept f q s) (ep p) :
    Kept f q (State.doGet s ep p) := by
  unfold State.doGet
  with_reducible repeat' first
    | assumption | apply Kept.respond | apply Kept.drawn | apply Kept.toHost | apply Kept.signalFlag
    | apply Kept.countReads | apply Kept.ite | split

theorem Kept.atomicAt (h : Kept f q s) (add fmt ep a len operand) :
    Kept f q (State.atomicAt s add fmt ep a len operand).2.2 := by
  unfold State.atomicAt
  dsimp only
  split
  · exact h.countReads ep a len
  · exact (h.countReads ep a len).writeBytes _ _ _

theorem Kept.doAtomic (h : Kept f q s) (add ep p) :
    Kept f q (State.doAtomic s add ep p) := by
  unfold State.doAtomic
  dsimp only
  split
  · exact (h.countReads _ _ _).conclude _ _ _ _ _ _ _
  · exact (h.atomicAt _ _ _ _ _ _).conclude _ _ _ _ _ _ _


theorem Kept.doSignal (h : Kept f q s) (ep p) :
    Kept f q (State.doSignal s ep p) := by
  unfold State.doSignal
  with_reducible repeat' first | assumption | apply Kept.acknowledge | apply Kept.signalCtr

theorem Kept.doAm (h : Kept f q s) (i p) :
    Kept f q (State.doAm s i p) := by
  unfold State.doAm
  with_reducible repeat' first
    | assumption | refine Kept.tryPlace ?_ (by assumption) | apply Kept.ackAm | apply Kept.takeSeq | apply Kept.put
    | apply Kept.cacheReply | apply Kept.showRing | apply Kept.wrap | apply Kept.event | apply Kept.respond
    | apply Kept.ite | split | apply Kept.upd

theorem Kept.portEndpoint (h : Kept f q s) (ep p) :
    Kept f q (State.portEndpoint s ep p) := by
  unfold State.portEndpoint
  with_reducible repeat' first | assumption | apply Kept.headEvent | apply Kept.sat | apply Kept.nack | apply Kept.ite

theorem Kept.resetDiscard (h : Kept f q s) (ep p) :
    Kept f q (State.resetDiscard s ep p) := by
  unfold State.resetDiscard
  with_reducible repeat' first | assumption | apply Kept.sat

theorem Kept.judge (h : Kept f q s) (ep p act) (ha : ∀ s, Kept f q s → Kept f q (act s)) :
    Kept f q (State.judge s ep p act) := by
  unfold State.judge
  with_reducible repeat' first
    | assumption | apply ha | apply Kept.discardHead | apply Kept.portEndpoint | apply Kept.respond | apply Kept.answerRepeat
    | apply Kept.conclude | apply Kept.countNoOwner | apply Kept.ite | split


theorem Kept.request (h : Kept f q s) (op ep p act) (ha : ∀ s, Kept f q s → Kept f q (act s)) :
    Kept f q (State.request s op ep p act) := by
  unfold State.request
  have hc := h.takeIn ep p
  exact Kept.ite h (Kept.ite h (Kept.ite (hc.resetDiscard _ _) (hc.judge _ _ _ ha)))


theorem Kept.hostReply (h : Kept f q s) (p) :
    Kept f q (State.hostReply s p) := by
  unfold State.hostReply
  with_reducible repeat' first | assumption | apply Kept.stray | apply Kept.ite | split | apply Kept.upd

theorem Kept.reply (h : Kept f q s) (op ep p) :
    Kept f q (State.reply s op ep p) := by
  unfold State.reply
  with_reducible repeat' first
    | assumption | apply Kept.takeIn | apply Kept.resetDiscard | apply Kept.discardHead | apply Kept.portEndpoint
    | apply Kept.hostReply | apply Kept.stray | apply Kept.takeReply | apply Kept.ite | split

theorem execPutArrival_kept (h : Kept f q s) (ep pkt) :
    ∃ t, execPutArrival ep pkt s = .next t ∧ Kept f q t := by
  refine live_kept h (fun s h => ?_)
  with_reducible repeat' first | assumption | apply Kept.flow | apply Kept.request | apply Kept.doPut | intro _ _

theorem execGetReqArrival_kept (h : Kept f q s) (ep pkt) :
    ∃ t, execGetReqArrival ep pkt s = .next t ∧ Kept f q t := by
  refine live_kept h (fun s h => ?_)
  with_reducible repeat' first | assumption | apply Kept.flow | apply Kept.request | apply Kept.doGet | intro _ _

theorem execAtomAddArrival_kept (h : Kept f q s) (ep pkt) :
    ∃ t, execAtomAddArrival ep pkt s = .next t ∧ Kept f q t := by
  refine live_kept h (fun s h => ?_)
  with_reducible repeat' first | assumption | apply Kept.flow | apply Kept.request | apply Kept.doAtomic | intro _ _

theorem execAtomSwapArrival_kept (h : Kept f q s) (ep pkt) :
    ∃ t, execAtomSwapArrival ep pkt s = .next t ∧ Kept f q t := by
  refine live_kept h (fun s h => ?_)
  with_reducible repeat' first | assumption | apply Kept.flow | apply Kept.request | apply Kept.doAtomic | intro _ _

theorem execSignalArrival_kept (h : Kept f q s) (ep pkt) :
    ∃ t, execSignalArrival ep pkt s = .next t ∧ Kept f q t := by
  refine live_kept h (fun s h => ?_)
  with_reducible repeat' first | assumption | apply Kept.flow | apply Kept.request | apply Kept.doSignal | intro _ _

theorem execAmArrival_kept (h : Kept f q s) (ep pkt) :
    ∃ t, execAmArrival ep pkt s = .next t ∧ Kept f q t := by
  refine live_kept h (fun s h => ?_)
  with_reducible repeat' first | assumption | apply Kept.flow | apply Kept.request | apply Kept.doAm | intro _ _

theorem execGetRspArrival_kept (h : Kept f q s) (ep pkt) :
    ∃ t, execGetRspArrival ep pkt s = .next t ∧ Kept f q t := by
  refine live_kept h (fun s h => ?_)
  with_reducible repeat' first | assumption | apply Kept.flow | apply Kept.reply

theorem execAtomRspArrival_kept (h : Kept f q s) (ep pkt) :
    ∃ t, execAtomRspArrival ep pkt s = .next t ∧ Kept f q t := by
  refine live_kept h (fun s h => ?_)
  with_reducible repeat' first | assumption | apply Kept.flow | apply Kept.reply

theorem execAckArrival_kept (h : Kept f q s) (ep pkt) :
    ∃ t, execAckArrival ep pkt s = .next t ∧ Kept f q t := by
  refine live_kept h (fun s h => ?_)
  with_reducible repeat' first | assumption | apply Kept.flow | apply Kept.reply

theorem execNackArrival_kept (h : Kept f q s) (ep pkt) :
    ∃ t, execNackArrival ep pkt s = .next t ∧ Kept f q t := by
  refine live_kept h (fun s h => ?_)
  with_reducible repeat' first | assumption | apply Kept.flow | apply Kept.reply

theorem execAmReplyArrival_kept (h : Kept f q s) (ep pkt) :
    ∃ t, execAmReplyArrival ep pkt s = .next t ∧ Kept f q t := by
  refine live_kept h (fun s h => ?_)
  with_reducible repeat' first | assumption | apply Kept.flow | apply Kept.reply

theorem execHostDrainExpiry_kept (h : Kept f q s) :
    ∃ t, execHostDrainExpiry s = .next t ∧ Kept f q t := by
  refine live_kept h (fun s h => ?_)
  with_reducible repeat' first
    | assumption | apply Kept.popFifo | apply Kept.flow | apply Kept.discardHead | apply Kept.sat | apply Kept.nack
    | apply Kept.ite | split

end Sys2Proof.Machine
end

