-- ==== Sys2Proof/Laws/KeptTrees.lean ====
section
/-! SUPPORT. What every operation keeps, one lemma per operation: the trees and collectives. -/

namespace Sys2Proof.Machine

variable {f : Fuse} {q : List Instr} {s : State}

theorem Kept.cornerEvent (h : Kept f q s) (e') :
    Kept f q (State.cornerEvent s e') := by
  unfold State.cornerEvent
  with_reducible repeat' first | assumption | apply Kept.event

theorem execThrottleAssert_kept (h : Kept f q s) :
    ∃ t, execThrottleAssert s = .next t ∧ Kept f q t := by
  refine live_kept h (fun s h => ?_)
  with_reducible repeat' first | assumption | apply Kept.cornerEvent | apply Kept.put | apply Kept.ite

theorem execThrottleRelease_kept (h : Kept f q s) :
    ∃ t, execThrottleRelease s = .next t ∧ Kept f q t := by
  refine live_kept h (fun s h => ?_)
  with_reducible repeat' first | assumption | apply Kept.cornerEvent | apply Kept.put | apply Kept.ite

theorem Kept.judgeSupply (h : Kept f q s) (vdd) :
    Kept f q (State.judgeSupply s vdd) := by
  unfold State.judgeSupply
  with_reducible repeat' first | assumption | apply Kept.cornerEvent | apply Kept.put | apply Kept.ite

theorem execFabricMeasurement_kept (h : Kept f q s) (vdd temp speed) :
    ∃ t, execFabricMeasurement vdd temp speed s = .next t ∧ Kept f q t := by
  refine live_kept h (fun s h => ?_)
  with_reducible repeat' first
    | assumption | apply Kept.put | apply Kept.judgeSupply | apply Kept.cornerEvent | apply Kept.ite | split
    | apply Kept.upd

theorem execRefLost_kept (h : Kept f q s) :
    ∃ t, execRefLost s = .next t ∧ Kept f q t := by
  refine live_kept h (fun s h => ?_)
  with_reducible repeat' first | assumption | apply Kept.event | apply Kept.ite | split | apply Kept.upd

theorem execRefBack_kept (h : Kept f q s) :
    ∃ t, execRefBack s = .next t ∧ Kept f q t := by
  refine live_kept h (fun s h => ?_)
  with_reducible repeat' first | assumption | apply Kept.event | apply Kept.ite | split | apply Kept.upd

theorem execTestLogicReset_kept (h : Kept f q s) :
    ∃ t, execTestLogicReset s = .next t ∧ Kept f q t := by
  refine live_kept h (fun s h => ?_)
  with_reducible repeat' first | assumption | apply Kept.upd

theorem execClkMgLost_kept (h : Kept f q s) :
    ∃ t, execClkMgLost s = .next t ∧ Kept f q t := by
  refine live_kept h (fun s h => ?_)
  with_reducible repeat' first | assumption | apply Kept.pulsesStop | apply Kept.ite | split | apply Kept.upd

theorem Kept.setRun (h : Kept f q s) (n r) :
    Kept f q (State.setRun s n r) := by
  unfold State.setRun
  with_reducible repeat' first | assumption | apply Kept.upd

theorem Kept.countMove (h : Kept f q s) (k) :
    Kept f q (State.countMove s k) := by
  unfold State.countMove
  with_reducible repeat' first | assumption | apply Kept.setRoom

theorem Kept.portSend (h : Kept f q s) (l p) :
    Kept f q (State.portSend s l p) := by
  unfold State.portSend
  with_reducible repeat' first | assumption | apply Kept.treeToFibre | apply Kept.ite | split | apply Kept.upd

theorem Kept.sendTree (h : Kept f q s) (u edge p) :
    Kept f q (State.sendTree s u edge p) := by
  unfold State.sendTree
  with_reducible repeat' first
    | assumption | apply Kept.requestOutput | apply Kept.portSend | apply Kept.emit | apply Kept.ite

theorem Kept.noEntry (h : Kept f q s) (u p) :
    Kept f q (State.noEntry s u p) := by
  unfold State.noEntry
  with_reducible repeat' first | assumption | apply Kept.event | apply Kept.sat

theorem Kept.finishMerge (h : Kept f q s) (u k m) :
    Kept f q (State.finishMerge s u k m) := by
  unfold State.finishMerge
  with_reducible repeat' first
    | assumption | apply Kept.sendTree | apply Kept.drawn | apply Kept.ite | split | apply Kept.upd

theorem Kept.mergeAnswer (h : Kept f q s) (u k out m failed rank ep st) :
    Kept f q (State.mergeAnswer s u k out m failed rank ep st) := by
  unfold State.mergeAnswer
  with_reducible repeat' first | assumption | apply Kept.finishMerge | apply Kept.ite | split | apply Kept.upd

theorem Kept.takeAnswerAt (h : Kept f q s) (u out p) :
    Kept f q (State.takeAnswerAt s u out p) := by
  unfold State.takeAnswerAt
  with_reducible repeat' first | assumption | apply Kept.sat | apply Kept.mergeAnswer | apply Kept.ite | split

theorem Kept.answerBeyond (h : Kept f q s) (l k m) :
    Kept f q (State.answerBeyond s l k m) := by
  unfold State.answerBeyond
  with_reducible repeat' first | assumption | apply Kept.mergeAnswer | apply Kept.ite | split

theorem Kept.sendCopy (h : Kept f q s) (n out p) :
    Kept f q (State.sendCopy s n out p) := by
  unfold State.sendCopy
  with_reducible repeat' first | assumption | apply Kept.startMove | apply Kept.sendTree | apply Kept.ite

theorem Kept.sendBranches (h : Kept f q s) (n) :
    Kept f q (State.sendBranches s n) := by
  unfold State.sendBranches
  with_reducible repeat' first
    | assumption | apply Kept.sendCopy | apply Kept.foldl | intro _ _ _ | apply Kept.ite | split | apply Kept.upd

theorem Kept.copyOut (h : Kept f q s) (n k out) :
    Kept f q (State.copyOut s n k out) := by
  unfold State.copyOut
  with_reducible repeat' first
    | assumption | apply Kept.answerBeyond | apply Kept.sendCopy | apply Kept.ite | split | apply Kept.upd

theorem Kept.forkCopy (h : Kept f q s) (n k) :
    Kept f q (State.forkCopy s n k) := by
  unfold State.forkCopy
  with_reducible repeat' first
    | assumption | apply Kept.sendBranches | apply Kept.copyOut | apply Kept.foldl | intro _ _ _

theorem Kept.takeMulticast (h : Kept f q s) (n p) :
    Kept f q (State.takeMulticast s n p) := by
  unfold State.takeMulticast
  with_reducible repeat' first
    | assumption | apply Kept.countMove | apply Kept.finishMerge | apply Kept.foldl | intro _ _ _ | apply Kept.ite
    | split | apply Kept.upd

theorem Kept.setSlot (h : Kept f q s) (k v) :
    Kept f q (State.setSlot s k v) := by
  unfold State.setSlot
  with_reducible repeat' first | assumption | apply Kept.upd

theorem Kept.freeSlot (h : Kept f q s) (k) :
    Kept f q (State.freeSlot s k) := by
  unfold State.freeSlot
  with_reducible repeat' first | assumption | apply Kept.setWord | apply Kept.upd

theorem Kept.toResult (h : Kept f q s) (n k v) :
    Kept f q (State.toResult s n k v) := by
  unfold State.toResult
  with_reducible repeat' first | assumption | apply Kept.setSlot | apply Kept.put

theorem Kept.release (h : Kept f q s) (n v) :
    Kept f q (State.release s n v) := by
  unfold State.release
  with_reducible repeat' first | assumption | apply Kept.portSend | apply Kept.ite

theorem Kept.settleSlot (h : Kept f q s) (n k) :
    Kept f q (State.settleSlot s n k) := by
  unfold State.settleSlot
  with_reducible repeat' first | assumption | apply Kept.release | apply Kept.freeSlot | apply Kept.ite

theorem Kept.useInvite (h : Kept f q s) (u g q' k) :
    Kept f q (State.useInvite s u g q' k) := by
  unfold State.useInvite
  with_reducible repeat' first | assumption | apply Kept.ite | split | apply Kept.upd

theorem Kept.copyResult (h : Kept f q s) (n k out) :
    Kept f q (State.copyResult s n k out) := by
  unfold State.copyResult
  with_reducible repeat' first
    | assumption | apply Kept.startMove | apply Kept.useInvite | apply Kept.settleSlot | apply Kept.sendTree
    | apply Kept.setSlot | apply Kept.ite

theorem Kept.leftUnit (h : Kept f q s) (m r out p) :
    Kept f q (State.leftUnit s m r out p) := by
  unfold State.leftUnit
  with_reducible repeat' first
    | assumption | apply Kept.settleSlot | apply Kept.setSlot | apply Kept.foldl | intro _ _ _ | apply Kept.ite
    | split | apply Kept.upd

theorem execArbiterGrant_kept (h : Kept f q s) (m r out) :
    ∃ t, execArbiterGrant m r out s = .next t ∧ Kept f q t := by
  refine live_kept h (fun s h => ?_)
  with_reducible repeat' first | assumption | apply Kept.leftUnit | apply Kept.freeOutput | apply Kept.ite | split

theorem Kept.toggleGen (h : Kept f q s) (u g) :
    Kept f q (State.toggleGen s u g) := by
  unfold State.toggleGen
  with_reducible repeat' first | assumption | apply Kept.ite | split | apply Kept.upd

theorem Kept.flushPort (h : Kept f q s) (l g q') :
    Kept f q (State.flushPort s l g q') := by
  unfold State.flushPort
  with_reducible repeat' first
    | assumption | apply Kept.sat | apply Kept.treeToFibre | apply Kept.ite | split | apply Kept.upd

theorem Kept.takeMarker (h : Kept f q s) (l g q') :
    Kept f q (State.takeMarker s l g q') := by
  unfold State.takeMarker
  with_reducible repeat' first
    | assumption | apply Kept.treeToFibre | apply Kept.foldl | intro _ _ _ | apply Kept.ite | split | apply Kept.upd

theorem Kept.flushGroup (h : Kept f q s) (g q') :
    Kept f q (State.flushGroup s g q') := by
  unfold State.flushGroup
  with_reducible repeat' first
    | assumption | apply Kept.freeSlot | apply Kept.toggleGen | apply Kept.flushPort | apply Kept.foldl | intro _ _ _
    | apply Kept.ite | split | apply Kept.upd

theorem Kept.screedPortLost (h : Kept f q s) (l) :
    Kept f q (State.screedPortLost s l) := by
  unfold State.screedPortLost
  with_reducible repeat' first
    | assumption | apply Kept.freeSlot | apply Kept.answerBeyond | apply Kept.foldl | intro _ _ _ | apply Kept.ite
    | split | apply Kept.upd

theorem Kept.memberAnswer (h : Kept f q s) (ep p st) :
    Kept f q (State.memberAnswer s ep p st) := by
  unfold State.memberAnswer
  with_reducible repeat' first | assumption | apply Kept.emit | apply Kept.drawn

theorem Kept.doPutMc (h : Kept f q s) (ep p) :
    Kept f q (State.doPutMc s ep p) := by
  unfold State.doPutMc
  with_reducible repeat' first
    | assumption | apply Kept.writePayload | apply Kept.memberAnswer | apply Kept.signalFlag | apply Kept.ite

theorem Kept.judgeMember (h : Kept f q s) (e' p) :
    Kept f q (State.judgeMember s e' p) := by
  unfold State.judgeMember
  with_reducible repeat' first
    | assumption | apply Kept.discardHead | apply Kept.portEndpoint | apply Kept.respond | apply Kept.memberAnswer
    | apply Kept.countNoOwner | apply Kept.doPutMc | apply Kept.ite | split

theorem execPutMcArrival_kept (h : Kept f q s) (ep pkt) :
    ∃ t, execPutMcArrival ep pkt s = .next t ∧ Kept f q t := by
  refine live_kept h (fun s h => ?_)
  with_reducible repeat' first
    | assumption | apply Kept.takeIn | apply Kept.flow | apply Kept.resetDiscard | apply Kept.judgeMember
    | apply Kept.ite | split

theorem Kept.leaveBuffers (h : Kept f q s) (c r) :
    Kept f q (State.leaveBuffers s c r) := by
  unfold State.leaveBuffers
  with_reducible repeat' first
    | assumption | apply Kept.drawn | apply Kept.poisonBytes | apply Kept.foldl | intro _ _ _ | apply Kept.ite

theorem Kept.noteColl (h : Kept f q s) (c r) :
    Kept f q (State.noteColl s c r) := by
  unfold State.noteColl
  with_reducible repeat' first | assumption | apply Kept.ite | split | apply Kept.upd

theorem Kept.finishColl (h : Kept f q s) (c r st) :
    Kept f q (State.finishColl s c r st) := by
  unfold State.finishColl
  with_reducible repeat' first
    | assumption | apply Kept.leaveBuffers | apply Kept.noteColl | apply Kept.complete | apply Kept.drawn
    | apply Kept.ite

theorem Kept.leaveSink (h : Kept f q s) (st g n) :
    Kept f q (State.leaveSink s st g n) := by
  unfold State.leaveSink
  with_reducible repeat' first
    | assumption | apply Kept.drawn | apply Kept.poisonBytes | apply Kept.foldl | intro _ _ _ | apply Kept.ite | split

theorem Kept.noteSink (h : Kept f q s) (st g q' n) :
    Kept f q (State.noteSink s st g q' n) := by
  unfold State.noteSink
  with_reducible repeat' first | assumption | apply Kept.ite | split | apply Kept.upd

theorem Kept.leaveDone (h : Kept f q s) (g q') :
    Kept f q (State.leaveDone s g q') := by
  unfold State.leaveDone
  with_reducible repeat' first
    | assumption | apply Kept.leaveBuffers | apply Kept.leaveSink | apply Kept.foldl | intro _ _ _ | apply Kept.ite
    | split | apply Kept.upd

theorem Kept.endAt (h : Kept f q s) (i g q' st) :
    Kept f q (State.endAt s i g q' st) := by
  unfold State.endAt
  with_reducible repeat' first
    | assumption | apply Kept.finishColl | apply Kept.foldl | intro _ _ _ | apply Kept.ite | split

theorem Kept.noteInput (h : Kept f q s) (g q' key total) :
    Kept f q (State.noteInput s g q' key total) := by
  unfold State.noteInput
  with_reducible repeat' first
    | assumption | apply Kept.put | apply Kept.sat | apply Kept.ite | split | apply Kept.upd

theorem Kept.noteTreeInput (h : Kept f q s) (e' g q' key) :
    Kept f q (State.noteTreeInput s e' g q' key) := by
  unfold State.noteTreeInput
  with_reducible repeat' first | assumption | apply Kept.noteInput | apply Kept.ite

theorem Kept.recordAbort (h : Kept f q s) (g q') :
    Kept f q (State.recordAbort s g q') := by
  unfold State.recordAbort
  with_reducible repeat' first | assumption | apply Kept.put

theorem Kept.forgetAborts (h : Kept f q s) (g q') :
    Kept f q (State.forgetAborts s g q') := by
  unfold State.forgetAborts
  with_reducible repeat' first | assumption | apply Kept.upd

theorem Kept.clearPlumb (h : Kept f q s) (g q') :
    Kept f q (State.clearPlumb s g q') := by
  unfold State.clearPlumb
  with_reducible repeat' first | assumption | apply Kept.put | apply Kept.ite | split | apply Kept.upd

theorem Kept.armEnded (h : Kept f q s) (g q' st) :
    Kept f q (State.armEnded s g q' st) := by
  unfold State.armEnded
  with_reducible repeat' first
    | assumption | apply Kept.put | apply Kept.endAll | apply Kept.ite | split | apply Kept.upd

theorem Kept.plumbSend (h : Kept f q s) (src dst m) :
    Kept f q (State.plumbSend s src dst m) := by
  unfold State.plumbSend
  with_reducible repeat' first | assumption | apply Kept.upd

theorem Kept.plumbTake (h : Kept f q s) (src dst m) :
    Kept f q (State.plumbTake s src dst m) := by
  unfold State.plumbTake
  with_reducible repeat' first | assumption | apply Kept.upd

theorem Kept.plumbCopies (h : Kept f q s) (dst m) :
    Kept f q (State.plumbCopies s dst m) := by
  unfold State.plumbCopies
  with_reducible repeat' first | assumption | apply Kept.plumbSend | apply Kept.foldl | intro _ _ _

theorem Kept.toPort (h : Kept f q s) (l m) :
    Kept f q (State.toPort s l m) := by
  unfold State.toPort
  with_reducible repeat' first | assumption | apply Kept.plumbCopies | apply Kept.ite | split

theorem Kept.takeStage (h : Kept f q s) (n m) :
    Kept f q (State.takeStage s n m) := by
  unfold State.takeStage
  with_reducible repeat' first | assumption | apply Kept.popFifo | apply Kept.ite | split

theorem Kept.memberTakes (h : Kept f q s) (i m) :
    Kept f q (State.memberTakes s i m) := by
  unfold State.memberTakes
  with_reducible repeat' first
    | assumption | apply Kept.endAt | apply Kept.finishColl | apply Kept.writeBytes | apply Kept.ite | split
    | dsimp only

theorem Kept.drainPlumb (h : Kept f q s) (i n1) :
    Kept f q (State.drainPlumb s i n1) := by
  induction n1 generalizing i s with
  | zero => exact h
  | succ k ih =>
    unfold State.drainPlumb
    with_reducible repeat' first
      | assumption | apply Kept.memberTakes | apply Kept.popFifo | apply ih | apply Kept.ite | split

theorem Kept.holdPlumb (h : Kept f q s) (n) :
    Kept f q (State.holdPlumb s n) := by
  unfold State.holdPlumb
  with_reducible repeat' first | assumption | apply Kept.put | apply Kept.upd

theorem Kept.unholdPlumb (h : Kept f q s) (n) :
    Kept f q (State.unholdPlumb s n) := by
  unfold State.unholdPlumb
  with_reducible repeat' first | assumption | apply Kept.put | apply Kept.upd

theorem room_of_fifos {s t : State} (e : t.fifos = s.fifos) (n : Nat) : t.room n = s.room n := by
  simp only [State.room, State.fifo, e]

/-- A Plumb message of one stage fits a FIFO that has room. -/
theorem Kept.pushOne (h : Kept f q s) (n m b) (hr : s.room n ≠ 0) : Kept f q (s.pushFifo n (plumbStage m b)) :=
  h.pushFifo _ _ (by
    have : (flitsOf (plumbStage m b)).length = 1 := rfl
    omega)

theorem Kept.admitMember (h : Kept f q s) (i m) (hr : s.coreRst.contains i = false → s.room (coreFifo i 5) ≠ 0) :
    Kept f q (State.admitMember s i m) := by
  unfold State.admitMember
  split
  · exact h.sat _ _ _
  · next hc => exact (h.pushOne _ _ _ (hr (by simpa using hc))).drainPlumb _ _


theorem Kept.toMember (h : Kept f q s) (i m) : Kept f q (State.toMember s i m) := by
  unfold State.toMember
  extract_lets n
  split
  · exact (h.holdPlumb _).plumbSend _ _ _
  · next hr =>
    refine h.admitMember _ _ (fun hc hz => hr ?_)
    have hz : s.room n = 0 := hz
    have hc : s.coreRst.contains i = false := hc
    rw [hz, hc]
    rfl


theorem Kept.toAlorn (h : Kept f q s) (m) : Kept f q (State.toAlorn s m) := by
  unfold State.toAlorn
  split
  · exact (h.holdPlumb _).plumbSend _ _ _
  · next hr => exact h.pushOne _ _ _ (fun hz => hr (by simp [hz]))


theorem Kept.fromAlorn (h : Kept f q s) (m) : Kept f q (State.fromAlorn s m) := by
  unfold State.fromAlorn
  split
  · exact h.plumbSend _ _ _
  · next hr => exact h.pushOne _ _ _ hr


theorem Kept.spreadOne (h : Kept f q s) (g q' st src) :
    Kept f q (State.spreadOne s g q' st src) := by
  unfold State.spreadOne
  with_reducible repeat' first
    | assumption | apply Kept.recordAbort | apply Kept.put | apply Kept.clearPlumb | apply Kept.toPort
    | apply Kept.flushGroup | apply Kept.leaveDone | apply Kept.armEnded | apply Kept.toMember | apply Kept.foldl
    | intro _ _ _ | apply Kept.ite | split | apply Kept.upd

theorem Kept.spreadAbort (h : Kept f q s) (g q' st src) :
    Kept f q (State.spreadAbort s g q' st src) := by
  unfold State.spreadAbort
  with_reducible repeat' first
    | assumption | apply Kept.spreadOne | apply Kept.foldl | intro _ _ _ | apply Kept.ite | split

theorem Kept.raiseAbort (h : Kept f q s) (agent g q' st cause) :
    Kept f q (State.raiseAbort s agent g q' st cause) := by
  unfold State.raiseAbort
  with_reducible repeat' first
    | assumption | apply Kept.event | apply Kept.sat | apply Kept.spreadAbort | apply Kept.ite | split
    | apply Kept.upd

theorem Kept.abortColl (h : Kept f q s) (c st cause) :
    Kept f q (State.abortColl s c st cause) := by
  unfold State.abortColl
  with_reducible repeat' first | assumption | apply Kept.raiseAbort | apply Kept.finishColl | apply Kept.ite | split

theorem Kept.takeInput (h : Kept f q s) (src m) :
    Kept f q (State.takeInput s src m) := by
  unfold State.takeInput
  with_reducible repeat' first | assumption | apply Kept.plumbTake | apply Kept.takeStage | apply Kept.ite | split

theorem execAbort_kept (h : Kept f q s) (src m) :
    ∃ t, execAbort src m s = .next t ∧ Kept f q t := by
  refine live_kept h (fun s h => ?_)
  with_reducible repeat' first
    | assumption | apply Kept.takeInput | apply Kept.flow | apply Kept.spreadAbort | apply Kept.ite | split

theorem Kept.sendChunks (h : Kept f q s) (c r n2) :
    Kept f q (State.sendChunks s c r n2) := by
  induction n2 generalizing c r s with
  | zero => exact h
  | succ k ih =>
    unfold State.sendChunks
    with_reducible repeat' first
      | assumption | apply Kept.enqueue | apply Kept.setCmd | apply ih | apply Kept.ite | split

theorem Kept.feedRoom (h : Kept f q s) (i k n2) :
    Kept f q (State.feedRoom s i k n2) := by
  induction n2 generalizing i k s with
  | zero => exact h
  | succ k ih =>
    unfold State.feedRoom
    with_reducible repeat' first | assumption | apply Kept.sendChunks | apply ih | apply Kept.ite | split

theorem Kept.feed (h : Kept f q s) (i) :
    Kept f q (State.feed s i) := by
  unfold State.feed
  with_reducible repeat' first | assumption | apply Kept.feedRoom | apply Kept.foldl | intro _ _ _ | apply Kept.ite

end Sys2Proof.Machine
end

