-- ==== Sys2Proof/Laws/KeptPorts.lean ====
section
/-! SUPPORT. What every operation keeps, one lemma per operation: keying, epochs, pools, Screed, Plumb and the optical ports. -/

namespace Sys2Proof.Machine

variable {f : Fuse} {q : List Instr} {s : State}

theorem Kept.countFreed (h : Kept f q s) (p k n) :
    Kept f q (State.countFreed s p k n) := by
  unfold State.countFreed
  with_reducible repeat' first | assumption | apply Kept.modPort | apply Kept.ite

theorem Kept.freeParcels (h : Kept f q s) (p vl res shared account entry) :
    Kept f q (State.freeParcels s p vl res shared account entry) := by
  unfold State.freeParcels
  with_reducible repeat' first | assumption | apply Kept.countFreed | apply Kept.put | apply Kept.ite | split

theorem Kept.freePooled (h : Kept f q s) (p e') :
    Kept f q (State.freePooled s p e') := by
  unfold State.freePooled
  with_reducible repeat' first | assumption | apply Kept.freeParcels

theorem Kept.dropTree (h : Kept f q s) (u inp pkt) :
    Kept f q (State.dropTree s u inp pkt) := by
  unfold State.dropTree
  with_reducible repeat' first
    | assumption | apply Kept.passTail | apply Kept.popFifo | apply Kept.freePooled | apply Kept.modPort
    | apply Kept.ite | split | dsimp only

theorem Kept.screedHead (h : Kept f q s) (e' u pkt) :
    Kept f q (State.screedHead s e' u pkt) := by
  unfold State.screedHead
  with_reducible repeat' first | assumption | apply Kept.headEvent | apply Kept.sat

theorem Kept.markSlot (h : Kept f q s) (n key q' k state input) :
    Kept f q (State.markSlot s n key q' k state input) := by
  unfold State.markSlot
  with_reducible repeat' first | assumption | apply Kept.put

theorem Kept.takeDown {n p t} (h : Kept f q s) (e : State.takeDown s n p = some t) : Kept f q t := by
  unfold State.takeDown at e
  dsimp only at e
  split at e
  · contradiction
  · split at e
    · rw [← Option.some.inj e]
      exact ((h.put _ _ _).toResult _ _ _).settleSlot _ _
    · split at e
      · rw [← Option.some.inj e]
        refine Kept.settleSlot (Kept.toResult (Kept.markSlot (Kept.countMove (Kept.setRun (h.put _ _ _) _ _) _) _ _ _ _ _ _) _ _ _) _ _
      · contradiction


theorem Kept.takeRelease {n p t} (h : Kept f q s) (e : State.takeRelease s n p = some t) : Kept f q t := by
  unfold State.takeRelease at e
  split at e
  · contradiction
  · split at e
    · rw [← Option.some.inj e]
      exact h.freeSlot _
    · contradiction


theorem Kept.enterNode {n inp p t} (h : Kept f q s) (e : State.enterNode s n inp p = some t) : Kept f q t := by
  unfold State.enterNode at e
  dsimp only at e
  split at e
  · split at e
    · contradiction
    · split at e
      · rw [← Option.some.inj e]
        exact Kept.ite ((h.takeMulticast _ _).forkCopy _ _) (h.takeMulticast _ _)
      · contradiction
  · split at e
    · split at e
      · exact h.takeDown e
      · contradiction
    · split at e
      · exact h.takeRelease e
      · contradiction


theorem Kept.treeArrive {u inp p t} (h : Kept f q s) (e : State.treeArrive s u inp p = some t) : Kept f q t := by
  have hd := h.dropTree u inp p
  unfold State.treeArrive at e
  dsimp only at e
  split at e
  · contradiction
  split at e
  · rw [← Option.some.inj e]; exact hd.screedHead _ _ _
  split at e
  · rw [← Option.some.inj e]; exact hd.screedHead _ _ _
  split at e
  · contradiction
  split at e
  · rw [← Option.some.inj e]; exact hd.noEntry _ _
  split at e
  · rw [← Option.some.inj e]; exact hd.takeMarker _ _ _
  split at e
  · rw [← Option.some.inj e]; exact hd.sat _ _ _
  split at e
  · rw [← Option.some.inj e]; exact hd.raiseAbort _ _ _ _ _
  split at e
  · contradiction
  · exact hd.enterNode e


theorem Kept.noteEntry (h : Kept f q s) (u inp p) :
    Kept f q (State.noteEntry s u inp p) := by
  unfold State.noteEntry
  with_reducible repeat' first | assumption | apply Kept.noteTreeInput | apply Kept.ite | split | dsimp only

theorem execTreePacketArrival_kept (h : Kept f q s) (u inp pkt) :
    ∃ t, execTreePacketArrival u inp pkt s = .next t ∧ Kept f q t := by
  refine live_kept h (fun s h => ?_)
  with_reducible repeat' first
    | assumption | refine Kept.treeArrive ?_ (by assumption) | apply Kept.flow | apply Kept.noteEntry | apply Kept.ite
    | split

theorem Kept.orderFault (h : Kept f q s) (n key k pos field p) :
    Kept f q (State.orderFault s n key k pos field p) := by
  unfold State.orderFault
  with_reducible repeat' first
    | assumption | apply Kept.event | apply Kept.sat | apply Kept.put | apply Kept.setRun | apply Kept.raiseAbort

theorem Kept.residueOne (h : Kept f q s) (n q' k fmt count bad r) :
    Kept f q (State.residueOne s n q' k fmt count bad r).2 := by
  unfold State.residueOne
  with_reducible repeat' first | assumption | apply Kept.sat | apply Kept.event | apply Kept.ite_snd | split

theorem Kept.residueOne_eq {n} {q'} {k} {fmt} {count} {bad} {r} {x t} (h : Kept f q s) (e : State.residueOne s n q' k fmt count bad r = (x, t)) :
    Kept f q t := by
  have k := h.residueOne n q' k fmt count bad r
  rwa [e] at k

theorem Kept.residue (h : Kept f q s) (n q' k fmt count bad l) :
    Kept f q (State.residue s n q' k fmt count bad l).2 := by
  unfold State.residue
  induction l generalizing s bad with
  | nil => exact h
  | cons r l ih => exact ih (h.residueOne n q' k fmt count bad r) _


theorem Kept.foldInput (h : Kept f q s) (n key k pos p r) :
    Kept f q (State.foldInput s n key k pos p r) := by
  unfold State.foldInput
  with_reducible repeat' first
    | assumption | apply Kept.setSlot | refine Kept.residue_eq ?_ (by assumption) | apply Kept.residue
    | apply Kept.put | apply Kept.ite

theorem Kept.sendSum (h : Kept f q s) (n key) :
    Kept f q (State.sendSum s n key) := by
  unfold State.sendSum
  with_reducible repeat' first
    | assumption | apply Kept.startMove | apply Kept.sendTree | apply Kept.put | apply Kept.ite

theorem Kept.sendSums (h : Kept f q s) (n) :
    Kept f q (State.sendSums s n) := by
  unfold State.sendSums
  with_reducible repeat' first | assumption | apply Kept.sendSum | apply Kept.foldl | intro _ _ _

theorem Kept.rootResult (h : Kept f q s) (n key) :
    Kept f q (State.rootResult s n key) := by
  unfold State.rootResult
  with_reducible repeat' first | assumption | apply Kept.settleSlot | apply Kept.toResult

theorem Kept.advanceNode (h : Kept f q s) (n k pos p) :
    Kept f q (State.advanceNode s n k pos p) := by
  unfold State.advanceNode
  with_reducible repeat' first | assumption | apply Kept.setRun | apply Kept.ite

theorem Kept.acceptInput (h : Kept f q s) (n key k pos inp p r) :
    Kept f q (State.acceptInput s n key k pos inp p r) := by
  unfold State.acceptInput
  with_reducible repeat' first
    | assumption | apply Kept.countMove | apply Kept.put | apply Kept.noteTreeInput | apply Kept.markSlot
    | apply Kept.foldInput | apply Kept.advanceNode | apply Kept.rootResult | apply Kept.sendSums | apply Kept.ite

theorem Kept.stallSlot (h : Kept f q s) (key) :
    Kept f q (State.stallSlot s key) := by
  unfold State.stallSlot
  with_reducible repeat' first | assumption | apply Kept.raiseAbort | apply Kept.ite | split

theorem Kept.stallSlots (h : Kept f q s) :
    Kept f q (State.stallSlots s) := by
  unfold State.stallSlots
  with_reducible repeat' first | assumption | apply Kept.stallSlot | apply Kept.foldl | intro _ _ _

theorem Kept.contribute (h : Kept f q s) (u inp p r) :
    Kept f q (State.contribute s u inp p r) := by
  unfold State.contribute
  with_reducible repeat' first
    | assumption | apply Kept.dropTree | apply Kept.orderFault | apply Kept.stallSlot | apply Kept.acceptInput
    | apply Kept.ite | split | dsimp only

theorem execContributionTaken_kept (h : Kept f q s) (u inp pkt res) :
    ∃ t, execContributionTaken u inp pkt res s = .next t ∧ Kept f q t := by
  refine live_kept h (fun s h => ?_)
  with_reducible repeat' first | assumption | apply Kept.flow | apply Kept.contribute | apply Kept.ite

theorem Kept.roomArrive (h : Kept f q s) (u edge g k e' count gen) :
    Kept f q (State.roomArrive s u edge g k e' count gen) := by
  unfold State.roomArrive
  with_reducible repeat' first
    | assumption | apply Kept.setRoom | apply Kept.sendSums | apply Kept.forkCopy | apply Kept.foldl | intro _ _ _
    | apply Kept.ite | split

theorem execRoomCountArrival_kept (h : Kept f q s) (u edge group kind epoch count gen) :
    ∃ t, execRoomCountArrival u edge group kind epoch count gen s = .next t ∧ Kept f q t := by
  refine live_kept h (fun s h => ?_)
  with_reducible repeat' first
    | assumption | apply Kept.roomArrive | apply Kept.flow | apply Kept.feed | apply Kept.ite

theorem execForkCopy_kept (h : Kept f q s) (u buf) :
    ∃ t, execForkCopy u buf s = .next t ∧ Kept f q t := by
  refine live_kept h (fun s h => ?_)
  with_reducible repeat' first
    | assumption | apply Kept.flow | apply Kept.forkCopy | apply Kept.ite | split | dsimp only

theorem execMergeAnswerArrival_kept (h : Kept f q s) (u out pkt) :
    ∃ t, execMergeAnswerArrival u out pkt s = .next t ∧ Kept f q t := by
  refine live_kept h (fun s h => ?_)
  with_reducible repeat' first
    | assumption | apply Kept.flow | apply Kept.takeAnswerAt | apply Kept.dropTree | apply Kept.ite

theorem execMergeTimeout_kept (h : Kept f q s) (u entry) :
    ∃ t, execMergeTimeout u entry s = .next t ∧ Kept f q t := by
  refine live_kept h (fun s h => ?_)
  with_reducible repeat' first
    | assumption | apply Kept.event | apply Kept.sat | apply Kept.ite | split | apply Kept.upd

theorem execResultCopy_kept (h : Kept f q s) (u slot out) :
    ∃ t, execResultCopy u slot out s = .next t ∧ Kept f q t := by
  refine live_kept h (fun s h => ?_)
  with_reducible repeat' first | assumption | apply Kept.flow | apply Kept.copyResult | apply Kept.ite | split

theorem Kept.control (h : Kept f q s) (p m) :
    Kept f q (State.control s p m) := by
  unfold State.control
  with_reducible repeat' first | assumption | apply Kept.modPort

theorem Kept.corruptSlot (h : Kept f q s) (k) :
    Kept f q (State.corruptSlot s k) := by
  unfold State.corruptSlot
  with_reducible repeat' first | assumption | apply Kept.event | apply Kept.ite | split | apply Kept.upd

theorem Kept.useSlot (h : Kept f q s) (k) :
    Kept f q (State.useSlot s k) := by
  unfold State.useSlot
  with_reducible repeat' first | assumption | apply Kept.drawn | apply Kept.corruptSlot | apply Kept.ite | split

theorem Kept.showAdmit (h : Kept f q s) (p) :
    Kept f q (State.showAdmit s p) := by
  unfold State.showAdmit
  with_reducible repeat' first | assumption | apply Kept.put

theorem Kept.judgeOffer (h : Kept f q s) (p o) :
    Kept f q (State.judgeOffer s p o) := by
  unfold State.judgeOffer
  with_reducible repeat' first
    | assumption | apply Kept.put | apply Kept.showAdmit | apply Kept.event | apply Kept.ite

theorem Kept.sendProbes (h : Kept f q s) (p) :
    Kept f q (State.sendProbes s p) := by
  unfold State.sendProbes
  with_reducible repeat' first | assumption | apply Kept.control | apply Kept.modPort | apply Kept.foldl | intro _ _ _

theorem Kept.sendOffer (h : Kept f q s) (p) :
    Kept f q (State.sendOffer s p) := by
  unfold State.sendOffer
  with_reducible repeat' first
    | assumption | apply Kept.useSlot | apply Kept.drawn | apply Kept.control | apply Kept.modPort

theorem Kept.startKeying (h : Kept f q s) (p rerun) :
    Kept f q (State.startKeying s p rerun) := by
  unfold State.startKeying
  with_reducible repeat' first
    | assumption | apply Kept.modPort | apply Kept.sendProbes | apply Kept.sendOffer | apply Kept.judgeOffer
    | apply Kept.put | apply Kept.ite | split | dsimp only

theorem Kept.deriveKeys (h : Kept f q s) (p) :
    Kept f q (State.deriveKeys s p) := by
  unfold State.deriveKeys
  with_reducible repeat' first | assumption | apply Kept.modPort | apply Kept.ite | split | dsimp only

theorem Kept.startSeq (h : Kept f q s) (p o) :
    Kept f q (State.startSeq s p o) := by
  unfold State.startSeq
  with_reducible repeat' first
    | assumption | apply Kept.modPort | apply Kept.setWord | apply Kept.put | apply Kept.foldl | intro _ _ _
    | apply Kept.ite

theorem Kept.cableSwap (h : Kept f q s) (p) :
    Kept f q (State.cableSwap s p) := by
  unfold State.cableSwap
  with_reducible repeat' first
    | assumption | apply Kept.modPort | apply Kept.event | apply Kept.ite | split | dsimp only

theorem Kept.repeatKeying (h : Kept f q s) :
    Kept f q (State.repeatKeying s) := by
  unfold State.repeatKeying
  with_reducible repeat' first | assumption | apply Kept.startKeying | apply Kept.foldl | intro _ _ _ | apply Kept.ite

theorem Kept.copyRegs (h : Kept f q s) (src dst : Nat) : Kept f q (State.copyRegs s src dst) := by
  unfold State.copyRegs
  refine h.foldl (fun s k hs => ?_)
  exact ⟨⟨hs.sound.memory, rising_assign _ _ _ hs.sound.regs, hs.sound.events, hs.sound.log, hs.sound.requests,
    hs.sound.cache, hs.sound.fifos⟩, hs.pending, hs.fuse⟩


theorem Kept.cleanShadow (h : Kept f q s) :
    Kept f q (State.cleanShadow s) := by
  unfold State.cleanShadow
  with_reducible repeat' first | assumption | apply Kept.copyRegs | apply Kept.put | apply Kept.upd

theorem Kept.retireBank (h : Kept f q s) :
    Kept f q (State.retireBank s) := by
  unfold State.retireBank
  with_reducible repeat' first
    | assumption | apply Kept.cleanShadow | apply Kept.event | apply Kept.endAll | apply Kept.upd

theorem Kept.sendRound (h : Kept f q s) :
    Kept f q (State.sendRound s) := by
  unfold State.sendRound
  with_reducible repeat' first
    | assumption | apply Kept.retireBank | apply Kept.sat | apply Kept.put | apply Kept.fromAlorn | apply Kept.ite
    | split | apply Kept.upd

theorem execRetirementRoundResult_kept (h : Kept f q s) (m) :
    ∃ t, execRetirementRoundResult m s = .next t ∧ Kept f q t := by
  refine live_kept h (fun s h => ?_)
  with_reducible repeat' first
    | assumption | apply Kept.takeStage | apply Kept.retireBank | apply Kept.ite | split | apply Kept.upd

theorem execEpochPollExpiry_kept (h : Kept f q s) :
    ∃ t, execEpochPollExpiry s = .next t ∧ Kept f q t := by
  refine live_kept h (fun s h => ?_)
  with_reducible repeat' first | assumption | apply Kept.sendRound | apply Kept.ite

theorem execEpochSettleExpiry_kept (h : Kept f q s) :
    ∃ t, execEpochSettleExpiry s = .next t ∧ Kept f q t := by
  refine live_kept h (fun s h => ?_)
  with_reducible repeat' first | assumption | apply Kept.upd

theorem Kept.clearStandby (h : Kept f q s) :
    Kept f q (State.clearStandby s) := by
  unfold State.clearStandby
  with_reducible repeat' first | assumption | apply Kept.put | apply Kept.foldl | intro _ _ _

theorem Kept.switchEpoch (h : Kept f q s) (e' arrival) :
    Kept f q (State.switchEpoch s e' arrival) := by
  unfold State.switchEpoch
  with_reducible repeat' first
    | assumption | apply Kept.put | apply Kept.clearStandby | apply Kept.pulse | apply Kept.event | apply Kept.endAll
    | apply Kept.repeatKeying | apply Kept.startKeying | apply Kept.sendRound | apply Kept.foldl | intro _ _ _
    | apply Kept.ite | split | apply Kept.upd

theorem Kept.clearArm (h : Kept f q s) (g e') :
    Kept f q (State.clearArm s g e') := by
  unfold State.clearArm
  with_reducible repeat' first | assumption | apply Kept.put | apply Kept.ite | split | apply Kept.upd

theorem Kept.takeToken (h : Kept f q s) (port m) :
    Kept f q (State.takeToken s port m) := by
  unfold State.takeToken
  with_reducible repeat' first
    | assumption | apply Kept.clearArm | apply Kept.event | apply Kept.toPort | apply Kept.switchEpoch
    | apply Kept.foldl | intro _ _ _ | apply Kept.ite

theorem execEpoch_kept (h : Kept f q s) (port m) :
    ∃ t, execEpoch port m s = .next t ∧ Kept f q t := by
  refine live_kept h (fun s h => ?_)
  with_reducible repeat' first
    | assumption | apply Kept.takeInput | apply Kept.flow | apply Kept.takeToken | apply Kept.ite | split

theorem Kept.plumbOrder (h : Kept f q s) (n g held got) :
    Kept f q (State.plumbOrder s n g held got) := by
  unfold State.plumbOrder
  with_reducible repeat' first | assumption | apply Kept.event | apply Kept.sat | apply Kept.raiseAbort

theorem Kept.plumbDown (h : Kept f q s) (g e' m) :
    Kept f q (State.plumbDown s g e' m) := by
  unfold State.plumbDown
  with_reducible repeat' first
    | assumption | apply Kept.toPort | apply Kept.put | apply Kept.toAlorn | apply Kept.plumbCopies | apply Kept.foldl
    | intro _ _ _ | apply Kept.ite | split | apply Kept.upd

theorem Kept.settlePlumb (h : Kept f q s) (n g) :
    Kept f q (State.settlePlumb s n g) := by
  unfold State.settlePlumb
  with_reducible repeat' first
    | assumption | apply Kept.plumbSend | apply Kept.toPort | apply Kept.plumbDown | apply Kept.takeToken
    | apply Kept.ite | split | apply Kept.upd

theorem Kept.plumbArrive (h : Kept f q s) (node src m scalar bad) :
    Kept f q (State.plumbArrive s node src m scalar bad) := by
  unfold State.plumbArrive
  with_reducible repeat' first
    | assumption | apply Kept.put | apply Kept.plumbOrder | apply Kept.settlePlumb | apply Kept.ite | split
    | apply Kept.upd

theorem Kept.timeInput (h : Kept f q s) (e' g q' key) :
    Kept f q (State.timeInput s e' g q' key) := by
  unfold State.timeInput
  with_reducible repeat' first | assumption | apply Kept.noteInput | apply Kept.ite

theorem Kept.timeMember (h : Kept f q s) (src m) :
    Kept f q (State.timeMember s src m) := by
  unfold State.timeMember
  with_reducible repeat' first | assumption | apply Kept.timeInput | apply Kept.ite | split

theorem Kept.plumbInput (h : Kept f q s) (n src m scalar) :
    Kept f q (State.plumbInput s n src m scalar) := by
  unfold State.plumbInput
  with_reducible repeat' first | assumption | apply Kept.plumbArrive | apply Kept.timeMember | apply Kept.takeInput

theorem Kept.stallRun (h : Kept f q s) (n g r) :
    Kept f q (State.stallRun s n g r) := by
  unfold State.stallRun
  with_reducible repeat' first | assumption | apply Kept.raiseAbort | apply Kept.ite

theorem Kept.stallPlumb (h : Kept f q s) :
    Kept f q (State.stallPlumb s) := by
  unfold State.stallPlumb
  with_reducible repeat' first
    | assumption | apply Kept.stallRun | apply Kept.foldl | intro _ _ _ | apply Kept.ite | split

theorem execBarArrive_kept (h : Kept f q s) (n src m) :
    ∃ t, execBarArrive n src m s = .next t ∧ Kept f q t := by
  refine live_kept h (fun s h => ?_)
  with_reducible repeat' first
    | assumption | apply Kept.flow | apply Kept.stallPlumb | apply Kept.plumbInput | apply Kept.ite

theorem execSredUp_kept (h : Kept f q s) (n src m) :
    ∃ t, execSredUp n src m s = .next t ∧ Kept f q t := by
  refine live_kept h (fun s h => ?_)
  with_reducible repeat' first
    | assumption | apply Kept.flow | apply Kept.stallPlumb | apply Kept.plumbInput | apply Kept.ite

theorem Kept.clusterDown (h : Kept f q s) (c m) :
    Kept f q (State.clusterDown s c m) := by
  unfold State.clusterDown
  with_reducible repeat' first | assumption | apply Kept.toMember | apply Kept.foldl | intro _ _ _ | apply Kept.upd

theorem Kept.plumbStray (h : Kept f q s) (n m) :
    Kept f q (State.plumbStray s n m) := by
  unfold State.plumbStray
  with_reducible repeat' first | assumption | apply Kept.event | apply Kept.sat | apply Kept.ite

theorem Kept.copyTake (h : Kept f q s) (n h' m) :
    Kept f q (State.copyTake s n h' m) := by
  unfold State.copyTake
  with_reducible repeat' first | assumption | apply Kept.plumbTake | apply Kept.ite | split | apply Kept.upd

theorem Kept.keepCopy (h : Kept f q s) (n h' m) :
    Kept f q (State.keepCopy s n h' m) := by
  unfold State.keepCopy
  with_reducible repeat' first | assumption | apply Kept.upd

theorem Kept.dropCopy (h : Kept f q s) (n h' m) :
    Kept f q (State.dropCopy s n h' m) := by
  unfold State.dropCopy
  with_reducible repeat' first | assumption | apply Kept.upd

theorem Kept.copyMismatch (h : Kept f q s) (w u a b) :
    Kept f q (State.copyMismatch s w u a b) := by
  unfold State.copyMismatch
  with_reducible repeat' first | assumption | apply Kept.event | apply Kept.sat

theorem Kept.copiesMatch (h : Kept f q s) :
    Kept f q (State.copiesMatch s) := by
  unfold State.copiesMatch
  with_reducible repeat' first | assumption | apply Kept.upd

theorem Kept.clusterAlone (h : Kept f q s) (c m) :
    Kept f q (State.clusterAlone s c m) := by
  unfold State.clusterAlone
  with_reducible repeat' first | assumption | apply Kept.clusterDown | apply Kept.plumbStray | apply Kept.ite | split

theorem Kept.clusterPair (h : Kept f q s) (c h' m first) :
    Kept f q (State.clusterPair s c h' m first) := by
  unfold State.clusterPair
  with_reducible repeat' first
    | assumption | apply Kept.clusterDown | apply Kept.copiesMatch | apply Kept.copyMismatch | apply Kept.ite | split

theorem Kept.copyDown (h : Kept f q s) (c h' m altered) :
    Kept f q (State.copyDown s c h' m altered) := by
  unfold State.copyDown
  with_reducible repeat' first
    | assumption | apply Kept.clusterPair | apply Kept.dropCopy | apply Kept.clusterAlone | apply Kept.keepCopy
    | apply Kept.plumbStray | apply Kept.clusterDown | apply Kept.ite | split | dsimp only

theorem Kept.restage (h : Kept f q s) (p old new) :
    Kept f q (State.restage s p old new) := by
  unfold State.restage
  with_reducible repeat' first | assumption | apply Kept.modPort | apply Kept.ite | split

theorem Kept.portSends (h : Kept f q s) (l m) :
    Kept f q (State.portSends s l m) := by
  unfold State.portSends
  with_reducible repeat' first | assumption | apply Kept.plumbToFibre

theorem Kept.portCopyIn (h : Kept f q s) (l h' m) :
    Kept f q (State.portCopyIn s l h' m) := by
  unfold State.portCopyIn
  with_reducible repeat' first
    | assumption | apply Kept.dropCopy | apply Kept.copiesMatch | apply Kept.restage | apply Kept.copyMismatch
    | apply Kept.portSends | apply Kept.keepCopy | apply Kept.ite | split | dsimp only

theorem Kept.copyFails (h : Kept f q s) (n h') :
    Kept f q (State.copyFails s n h') := by
  unfold State.copyFails
  with_reducible repeat' first
    | assumption | apply Kept.sat | apply Kept.keepCopy | apply Kept.dropCopy | apply Kept.clusterAlone
    | apply Kept.ite | split | dsimp only

theorem Kept.clusterTakes (h : Kept f q s) (c h' m sound) :
    Kept f q (State.clusterTakes s c h' m sound) := by
  unfold State.clusterTakes
  with_reducible repeat' first
    | assumption | apply Kept.copyTake | apply Kept.copyDown | apply Kept.copyFails | apply Kept.ite | split

theorem Kept.hubDownward (h : Kept f q s) (m) : Kept f q (State.hubDownward s m) := by
  have hu : ∀ l, Kept f q (match l with
      | 7 => s
      | l => s.takeStage (plumbOutOf (s.physOf l)) m) := by
    intro l
    split
    · exact h
    · exact h.takeStage _ _
  have hm := hu (s.parentPort (M.EPOCH m) (M.GROUP m))
  exact Kept.ite (hm.plumbDown _ _ _) (hm.plumbStray _ _)


theorem execBarRelease_kept (h : Kept f q s) (n hub m) :
    ∃ t, execBarRelease n hub m s = .next t ∧ Kept f q t := by
  refine live_kept h (fun s h => ?_)
  with_reducible repeat' first
    | assumption | apply Kept.flow | apply Kept.hubDownward | apply Kept.clusterTakes | apply Kept.ite | split

theorem execSredDown_kept (h : Kept f q s) (n hub m) :
    ∃ t, execSredDown n hub m s = .next t ∧ Kept f q t := by
  refine live_kept h (fun s h => ?_)
  with_reducible repeat' first
    | assumption | apply Kept.flow | apply Kept.hubDownward | apply Kept.clusterTakes | apply Kept.ite | split

theorem Kept.missCopy (h : Kept f q s) (w u late m) :
    Kept f q (State.missCopy s w u late m) := by
  unfold State.missCopy
  with_reducible repeat' first
    | assumption | apply Kept.event | apply Kept.sat | apply Kept.ite | split | apply Kept.upd

theorem execPlumbPairExpiry_kept (h : Kept f q s) (n m) :
    ∃ t, execPlumbPairExpiry n m s = .next t ∧ Kept f q t := by
  refine live_kept h (fun s h => ?_)
  with_reducible repeat' first
    | assumption | apply Kept.dropCopy | apply Kept.missCopy | apply Kept.flow | apply Kept.clusterAlone
    | apply Kept.keepCopy | apply Kept.ite | split | dsimp only

theorem Kept.portReads (h : Kept f q s) (p n1) :
    Kept f q (State.portReads s p n1) := by
  induction n1 generalizing p s with
  | zero => exact h
  | succ k ih =>
    unfold State.portReads
    with_reducible repeat' first
      | assumption | apply Kept.popFifo | apply Kept.copyFails | apply Kept.portCopyIn | apply ih | apply Kept.ite
      | split

theorem copyTake_fifos (s : State) (n h m) : (s.copyTake n h m).fifos = s.fifos := by
  unfold State.copyTake
  split
  · split <;> rfl
  · rfl

theorem Kept.admitCopy (h : Kept f q s) (p h' x) : Kept f q (State.admitCopy s p h' x) := by
  unfold State.admitCopy
  dsimp only
  refine Kept.ite h ?_
  split
  · exact h.holdPlumb _
  · next hr =>
    refine (Kept.portReads (Kept.pushFifo ((h.copyTake _ _ _).unholdPlumb _) _ _ ?_) _ _).flow
    have : (flitsOf (⟨⟨x.head.data ||| (if h' = .b then 1#512 <<< 128 else 0), x.head.poison⟩, []⟩ : Packet)).length = 1 := rfl
    rw [this, room_of_fifos (t := State.unholdPlumb _ _) (s := s) (copyTake_fifos ..)]
    omega


theorem unholdPlumb_fifos (s : State) (n) : (s.unholdPlumb n).fifos = s.fifos := rfl

theorem Kept.admitHeld (h : Kept f q s) (n src dst m enter) (ha : ∀ s, Kept f q s → s.room n ≠ 0 → Kept f q (enter s)) :
    Kept f q (State.admitHeld s n src dst m enter) := by
  unfold State.admitHeld
  dsimp only
  split
  · exact h
  · split
    · exact h.holdPlumb _
    · next hr =>
      refine Kept.flow (ha _ ?_ ?_)
      · exact Kept.ite ((h.plumbTake _ _ _).unholdPlumb _) (h.plumbTake _ _ _)
      · refine fun hz => hr (Eq.trans (room_of_fifos ?_ n).symm hz)
        split <;> rfl


theorem execInFifoAdmit_kept (h : Kept f q s) (f' pkt) :
    ∃ t, execInFifoAdmit f' pkt s = .next t ∧ Kept f q t := by
  refine live_kept h (fun s h => ?_)
  refine Kept.ite h ?_
  split
  · exact h.admitHeader _ _ _
  · dsimp only
    split
    · exact Kept.ite (h.admitHeld _ _ _ _ _ (fun s h hr => h.admitMember _ _ (fun _ => hr))) h
    · exact Kept.ite (h.admitHeld _ _ _ _ _ (fun s h hr => h.pushOne _ _ _ hr)) h
    · exact h.admitCopy _ _ _
    · exact h.admitCopy _ _ _
    · exact h


theorem Kept.recheckHubs (h : Kept f q s) :
    Kept f q (State.recheckHubs s) := by
  unfold State.recheckHubs
  with_reducible repeat' first | assumption | apply Kept.settlePlumb

theorem Kept.flushStaging (h : Kept f q s) (p keepMgmt) :
    Kept f q (State.flushStaging s p keepMgmt) := by
  unfold State.flushStaging
  with_reducible repeat' first
    | assumption | apply Kept.modPort | apply Kept.portRefuse | apply Kept.foldl | intro _ _ _ | apply Kept.ite

theorem Kept.leaveService (h : Kept f q s) (p) :
    Kept f q (State.leaveService s p) := by
  unfold State.leaveService
  with_reducible repeat' first
    | assumption | apply Kept.shutPort | apply Kept.screedPortLost | apply Kept.recheckHubs | apply Kept.raiseAbort
    | apply Kept.foldl | intro _ _ _

theorem Kept.startTraining (h : Kept f q s) (p) :
    Kept f q (State.startTraining s p) := by
  unfold State.startTraining
  with_reducible repeat' first | assumption | apply Kept.modPort | apply Kept.put | apply Kept.foldl | intro _ _ _

theorem Kept.showLight (h : Kept f q s) (p) :
    Kept f q (State.showLight s p) := by
  unfold State.showLight
  with_reducible repeat' first | assumption | apply Kept.formBlocks | apply Kept.put | apply Kept.foldl | intro _ _ _

theorem Kept.cutLink (h : Kept f q s) (p) :
    Kept f q (State.cutLink s p) := by
  unfold State.cutLink
  with_reducible repeat' first
    | assumption | apply Kept.freeParcels | apply Kept.freePooled | apply Kept.modPort | apply Kept.put
    | apply Kept.foldl | intro _ _ _

theorem Kept.movePort (h : Kept f q s) (p new cause) :
    Kept f q (State.movePort s p new cause) := by
  unfold State.movePort
  with_reducible repeat' first
    | assumption | apply Kept.put | apply Kept.event | apply Kept.leaveService | apply Kept.flushStaging
    | apply Kept.startTraining | apply Kept.cutLink | apply Kept.finalAnswer | apply Kept.breakLock | apply Kept.sat
    | apply Kept.showAdmit | apply Kept.modPort | apply Kept.startKeying | apply Kept.control | apply Kept.showLight
    | apply Kept.foldl | intro _ _ _ | apply Kept.ite

theorem Kept.tryOpen (h : Kept f q s) (p cause) :
    Kept f q (State.tryOpen s p cause) := by
  unfold State.tryOpen
  with_reducible repeat' first
    | assumption | apply Kept.modPort | apply Kept.control | apply Kept.movePort | apply Kept.ite

theorem Kept.endKeying (h : Kept f q s) (p) :
    Kept f q (State.endKeying s p) := by
  unfold State.endKeying
  with_reducible repeat' first
    | assumption | apply Kept.deriveKeys | apply Kept.startSeq | apply Kept.modPort | apply Kept.movePort
    | apply Kept.cableSwap | apply Kept.tryOpen | apply Kept.ite | split | dsimp only

theorem execKeyOffer_kept (h : Kept f q s) (p payload) :
    ∃ t, execKeyOffer p payload s = .next t ∧ Kept f q t := by
  refine live_kept h (fun s h => ?_)
  with_reducible repeat' first
    | assumption | apply Kept.modPort | apply Kept.judgeOffer | apply Kept.flow | apply Kept.endKeying
    | apply Kept.control | apply Kept.ite

theorem execKeyResult_kept (h : Kept f q s) (p payload) :
    ∃ t, execKeyResult p payload s = .next t ∧ Kept f q t := by
  refine live_kept h (fun s h => ?_)
  with_reducible repeat' first
    | assumption | apply Kept.put | apply Kept.modPort | apply Kept.control | apply Kept.flow | apply Kept.endKeying
    | apply Kept.ite

theorem execPortOpen_kept (h : Kept f q s) (p) :
    ∃ t, execPortOpen p s = .next t ∧ Kept f q t := by
  refine live_kept h (fun s h => ?_)
  with_reducible repeat' first
    | assumption | apply Kept.put | apply Kept.modPort | apply Kept.control | apply Kept.flow | apply Kept.tryOpen
    | apply Kept.ite

theorem execPortClose_kept (h : Kept f q s) (p) :
    ∃ t, execPortClose p s = .next t ∧ Kept f q t := by
  refine live_kept h (fun s h => ?_)
  with_reducible repeat' first
    | assumption | apply Kept.flow | apply Kept.modPort | apply Kept.movePort | apply Kept.control | apply Kept.ite

theorem execControlRepeatExpiry_kept (h : Kept f q s) (p msg) :
    ∃ t, execControlRepeatExpiry p msg s = .next t ∧ Kept f q t := by
  refine live_kept h (fun s h => ?_)
  with_reducible repeat' first
    | assumption | apply Kept.sendOffer | apply Kept.control | apply Kept.foldl | intro _ _ _ | apply Kept.ite | split

theorem execLightDetected_kept (h : Kept f q s) (p) :
    ∃ t, execLightDetected p s = .next t ∧ Kept f q t := by
  refine live_kept h (fun s h => ?_)
  with_reducible repeat' first | assumption | apply Kept.flow | apply Kept.movePort | apply Kept.ite

theorem Kept.allDark (h : Kept f q s) (p) :
    Kept f q (State.allDark s p) := by
  unfold State.allDark
  with_reducible repeat' first | assumption | apply Kept.put | apply Kept.foldl | intro _ _ _

theorem execLightLost_kept (h : Kept f q s) (p) :
    ∃ t, execLightLost p s = .next t ∧ Kept f q t := by
  refine live_kept h (fun s h => ?_)
  with_reducible repeat' first
    | assumption | apply Kept.allDark | apply Kept.flow | apply Kept.movePort | apply Kept.ite

theorem execLossOfSignal_kept (h : Kept f q s) (p lanes) :
    ∃ t, execLossOfSignal p lanes s = .next t ∧ Kept f q t := by
  refine live_kept h (fun s h => ?_)
  with_reducible repeat' first
    | assumption | apply Kept.put | apply Kept.flow | apply Kept.movePort | apply Kept.foldl | intro _ _ _
    | apply Kept.ite

theorem execRetrainExpiry_kept (h : Kept f q s) (p) :
    ∃ t, execRetrainExpiry p s = .next t ∧ Kept f q t := by
  refine live_kept h (fun s h => ?_)
  with_reducible repeat' first
    | assumption | apply Kept.sat | apply Kept.modPort | apply Kept.flow | apply Kept.movePort | apply Kept.ite

theorem execKeyTimeoutExpiry_kept (h : Kept f q s) (p) :
    ∃ t, execKeyTimeoutExpiry p s = .next t ∧ Kept f q t := by
  refine live_kept h (fun s h => ?_)
  with_reducible repeat' first | assumption | apply Kept.flow | apply Kept.movePort | apply Kept.ite

theorem execDrainComplete_kept (h : Kept f q s) (p) :
    ∃ t, execDrainComplete p s = .next t ∧ Kept f q t := by
  refine live_kept h (fun s h => ?_)
  with_reducible repeat' first | assumption | apply Kept.flow | apply Kept.movePort | apply Kept.ite

theorem execDrainLimitExpiry_kept (h : Kept f q s) (p) :
    ∃ t, execDrainLimitExpiry p s = .next t ∧ Kept f q t := by
  refine live_kept h (fun s h => ?_)
  with_reducible repeat' first | assumption | apply Kept.flow | apply Kept.movePort | apply Kept.ite

theorem execDownHoldExpiry_kept (h : Kept f q s) (p light) :
    ∃ t, execDownHoldExpiry p light s = .next t ∧ Kept f q t := by
  refine live_kept h (fun s h => ?_)
  with_reducible repeat' first | assumption | apply Kept.flow | apply Kept.movePort | apply Kept.ite

theorem execAckStall_kept (h : Kept f q s) (p) :
    ∃ t, execAckStall p s = .next t ∧ Kept f q t := by
  refine live_kept h (fun s h => ?_)
  with_reducible repeat' first | assumption | apply Kept.flow | apply Kept.movePort | apply Kept.ite

theorem Kept.allDown (h : Kept f q s) :
    Kept f q (State.allDown s) := by
  unfold State.allDown
  with_reducible repeat' first | assumption | apply Kept.movePort | apply Kept.foldl | intro _ _ _

theorem execClkLkLost_kept (h : Kept f q s) :
    ∃ t, execClkLkLost s = .next t ∧ Kept f q t := by
  refine live_kept h (fun s h => ?_)
  with_reducible repeat' first | assumption | apply Kept.flow | apply Kept.allDown | apply Kept.upd

theorem Kept.dropPooled (h : Kept f q s) (p e') :
    Kept f q (State.dropPooled s p e') := by
  unfold State.dropPooled
  with_reducible repeat' first | assumption | apply Kept.freePooled | apply Kept.modPort

theorem Kept.answerIngress (h : Kept f q s) (p st pkt) :
    Kept f q (State.answerIngress s p st pkt) := by
  unfold State.answerIngress
  with_reducible repeat' first | assumption | apply Kept.nack | apply Kept.ite

theorem Kept.refuseIngress (h : Kept f q s) (p st log pkt) :
    Kept f q (State.refuseIngress s p st log pkt) := by
  unfold State.refuseIngress
  with_reducible repeat' first
    | assumption | apply Kept.sat | apply Kept.headEvent | apply Kept.answerIngress | apply Kept.ite | split

theorem Kept.ingress (h : Kept f q s) (p e' pkt) :
    Kept f q (State.ingress s p e' pkt) := by
  unfold State.ingress
  with_reducible repeat' first
    | assumption | apply Kept.dropPooled | apply Kept.refuseIngress | apply Kept.headEvent | apply Kept.raiseAbort
    | apply Kept.modPort | apply Kept.put | apply Kept.wrap | apply Kept.ite | split

theorem Kept.poolEmptied (h : Kept f q s) (p) :
    Kept f q (State.poolEmptied s p) := by
  unfold State.poolEmptied
  with_reducible repeat' first | assumption | apply Kept.endKeying | apply Kept.ite

theorem execPortIngress_kept (h : Kept f q s) (p vl pkt) :
    ∃ t, execPortIngress p vl pkt s = .next t ∧ Kept f q t := by
  refine live_kept h (fun s h => ?_)
  with_reducible repeat' first
    | assumption | apply Kept.sat | apply Kept.dropPooled | apply Kept.poolEmptied | apply Kept.discardHead
    | apply Kept.flow | apply Kept.ingress | apply Kept.ite | split | dsimp only

theorem put_fifos (s : State) (x n v) : (s.put x n v).fifos = s.fifos := rfl
theorem sat_fifos (s : State) (x n) : (s.sat x n).fifos = s.fifos := rfl

theorem noteInput_fifos (s : State) (g q key n) : (s.noteInput g q key n).fifos = s.fifos := by
  unfold State.noteInput
  extract_lets a a' s1 lag b s2 s3 s4 k
  refine (apply_ite State.fifos _ _ _).trans (ite_eq_left_iff.mpr fun _ => ?_)
  refine (apply_ite State.fifos _ _ _).trans (ite_eq_left_iff.mpr fun _ => ?_)
  simp only [sat_fifos, s4, s3, put_fifos, s2, b]

theorem timeInput_fifos (s : State) (e g q key) : (s.timeInput e g q key).fifos = s.fifos := by
  unfold State.timeInput
  split
  · rfl
  · exact noteInput_fifos ..

theorem dropPooled_fifos (s : State) (p e) : (s.dropPooled p e).fifos = s.fifos := by
  have hc : ∀ (s : State) (p k n : Nat), (s.countFreed p k n).fifos = s.fifos := by
    intro s p k n
    unfold State.countFreed
    split <;> rfl
  have hm : ∀ (s : State) (p : Nat) (g : Port → Port), (s.modPort p g).fifos = s.fifos := fun _ _ _ => rfl
  unfold State.dropPooled State.freePooled State.freeParcels
  cases e.grant <;> cases e.account <;> simp only [hc, put_fifos, hm]

theorem Kept.plumbInward (h : Kept f q s) (p e pkt) : Kept f q (State.plumbInward s p e pkt) := by
  unfold State.plumbInward
  dsimp only
  split
  · exact h
  · next hr =>
    have hd := h.dropPooled p e
    refine Kept.poolEmptied (Kept.pushOne (Kept.ite (hd.timeInput _ _ _ _) hd) _ _ _ (fun hz => hr ?_)) _
    refine Eq.trans (room_of_fifos ?_ _).symm hz
    split
    · exact (timeInput_fifos ..).trans (dropPooled_fifos ..)
    · exact dropPooled_fifos ..


theorem execPlumbPortIngress_kept (h : Kept f q s) (p pkt) :
    ∃ t, execPlumbPortIngress p pkt s = .next t ∧ Kept f q t := by
  refine live_kept h (fun s h => ?_)
  with_reducible repeat' first
    | assumption | apply Kept.sat | apply Kept.dropPooled | apply Kept.poolEmptied | apply Kept.discardHead
    | apply Kept.plumbInward | apply Kept.ite | split | dsimp only

theorem Kept.forwardPooled (h : Kept f q s) (p e) : Kept f q (State.forwardPooled s p e) := by
  unfold State.forwardPooled
  dsimp only
  split
  · exact h
  · exact Kept.ite ((h.dropPooled _ _).emit _ _ _ _) h
  · exact Kept.ite ((h.dropPooled _ _).emit _ _ _ _) h
  · exact Kept.ite ((h.dropPooled _ _).refuseIngress _ _ _ _) (Kept.ite ((h.dropPooled _ _).emit _ _ _ _) h)
  · cases hc : s.treeArrive (256 + s.logical p) 1 e.pkt with
    | none => exact h
    | some t => exact h.treeArrive hc


theorem execPoolForward_kept (h : Kept f q s) (p k) :
    ∃ t, execPoolForward p k s = .next t ∧ Kept f q t := by
  refine live_kept h (fun s h => ?_)
  with_reducible repeat' first
    | assumption | apply Kept.flow | apply Kept.poolEmptied | apply Kept.forwardPooled | apply Kept.ite | split

theorem Kept.showCredit (h : Kept f q s) (p k) :
    Kept f q (State.showCredit s p k) := by
  unfold State.showCredit
  with_reducible repeat' first | assumption | apply Kept.put | apply Kept.foldl | intro _ _ _ | apply Kept.ite

theorem Kept.takeCredit (h : Kept f q s) (p k n) :
    Kept f q (State.takeCredit s p k n) := by
  unfold State.takeCredit
  with_reducible repeat' first | assumption | apply Kept.showCredit | apply Kept.modPort | apply Kept.ite

theorem Kept.startPacket (h : Kept f q s) (p t' r account) :
    Kept f q (State.startPacket s p t' r account) := by
  unfold State.startPacket
  with_reducible repeat' first
    | assumption | apply Kept.modPort | apply Kept.takeCredit | apply Kept.releaseFor | apply Kept.ite | split

theorem execStagingDeparture_kept (h : Kept f q s) (p vl) :
    ∃ t, execStagingDeparture p vl s = .next t ∧ Kept f q t := by
  refine live_kept h (fun s h => ?_)
  with_reducible repeat' first
    | assumption | apply Kept.startPacket | apply Kept.modPort | apply Kept.wrap | apply Kept.ite | split

theorem Kept.sendParcel (h : Kept f q s) (p x') :
    Kept f q (State.sendParcel s p x') := by
  unfold State.sendParcel
  with_reducible repeat' first | assumption | apply Kept.modPort | apply Kept.foldl | intro _ _ _ | apply Kept.ite

theorem Kept.sendControl (h : Kept f q s) (p m rest) :
    Kept f q (State.sendControl s p m rest) := by
  unfold State.sendControl
  with_reducible repeat' first | assumption | apply Kept.sendParcel | apply Kept.drawn | apply Kept.modPort

theorem Kept.sendNew (h : Kept f q s) (p t') :
    Kept f q (State.sendNew s p t') := by
  unfold State.sendNew
  with_reducible repeat' first | assumption | apply Kept.modPort | apply Kept.sendParcel | apply Kept.wrap

theorem Kept.sendFresh (h : Kept f q s) (p) :
    Kept f q (State.sendFresh s p) := by
  unfold State.sendFresh
  with_reducible repeat' first
    | assumption | apply Kept.sendNew | apply Kept.sendControl | apply Kept.sendParcel | apply Kept.ite | split

theorem Kept.sendNext (h : Kept f q s) (p) :
    Kept f q (State.sendNext s p) := by
  unfold State.sendNext
  with_reducible repeat' first
    | assumption | apply Kept.sendFresh | apply Kept.sendControl | apply Kept.sendParcel | apply Kept.modPort
    | apply Kept.ite | split | dsimp only

theorem execParcelSend_kept (h : Kept f q s) (p) :
    ∃ t, execParcelSend p s = .next t ∧ Kept f q t := by
  refine live_kept h (fun s h => ?_)
  with_reducible repeat' first | assumption | apply Kept.stripe | apply Kept.sendNext | apply Kept.ite | split

theorem Kept.startReplay (h : Kept f q s) (p ack) :
    Kept f q (State.startReplay s p ack) := by
  unfold State.startReplay
  with_reducible repeat' first | assumption | apply Kept.sat | apply Kept.modPort | apply Kept.ite

theorem Kept.takeReport (h : Kept f q s) (p x') :
    Kept f q (State.takeReport s p x') := by
  unfold State.takeReport
  with_reducible repeat' first
    | assumption | apply Kept.modPort | apply Kept.startReplay | apply Kept.showCredit | apply Kept.ite

theorem Kept.enterPool (h : Kept f q s) (p r pkt) :
    Kept f q (State.enterPool s p r pkt) := by
  unfold State.enterPool
  with_reducible repeat' first | assumption | apply Kept.noteOld | apply Kept.modPort

theorem Kept.dropOpen (h : Kept f q s) (p r) :
    Kept f q (State.dropOpen s p r) := by
  unfold State.dropOpen
  with_reducible repeat' first | assumption | apply Kept.freeParcels | apply Kept.modPort

theorem Kept.acceptData (h : Kept f q s) (p x') :
    Kept f q (State.acceptData s p x') := by
  unfold State.acceptData
  with_reducible repeat' first
    | assumption | apply Kept.sat | apply Kept.dropOpen | apply Kept.modPort | apply Kept.freeParcels
    | apply Kept.enterPool | apply Kept.noteOld | apply Kept.ite | split | dsimp only

theorem Kept.authFailure (h : Kept f q s) (p r) :
    Kept f q (State.authFailure s p r) := by
  unfold State.authFailure
  with_reducible repeat' first
    | assumption | apply Kept.sat | apply Kept.dropOpen | apply Kept.event | apply Kept.modPort | apply Kept.movePort
    | apply Kept.ite

theorem Kept.acceptTag (h : Kept f q s) (p x') :
    Kept f q (State.acceptTag s p x') := by
  unfold State.acceptTag
  with_reducible repeat' first
    | assumption | apply Kept.modPort | apply Kept.enterPool | apply Kept.authFailure | apply Kept.ite | split
    | dsimp only

theorem Kept.takeSequenced (h : Kept f q s) (p x') :
    Kept f q (State.takeSequenced s p x') := by
  unfold State.takeSequenced
  with_reducible repeat' first
    | assumption | apply Kept.modPort | apply Kept.wrap | apply Kept.acceptData | apply Kept.acceptTag
    | apply Kept.ite

theorem Kept.takeParcel (h : Kept f q s) (p x') :
    Kept f q (State.takeParcel s p x') := by
  unfold State.takeParcel
  with_reducible repeat' first
    | assumption | apply Kept.modPort | apply Kept.takeReport | apply Kept.flow | apply Kept.takeSequenced
    | apply Kept.ite | split

theorem execParcelReceive_kept (h : Kept f q s) (p n w) :
    ∃ t, execParcelReceive p n w s = .next t ∧ Kept f q t := by
  refine live_kept h (fun s h => ?_)
  with_reducible repeat' first
    | assumption | refine Kept.receive_eq ?_ (by assumption) | apply Kept.receive | apply Kept.takeParcel
    | apply Kept.ite

theorem execLinkRetryExpiry_kept (h : Kept f q s) (p) :
    ∃ t, execLinkRetryExpiry p s = .next t ∧ Kept f q t := by
  refine live_kept h (fun s h => ?_)
  with_reducible repeat' first | assumption | apply Kept.startReplay | apply Kept.ite

theorem execDelayProbe_kept (h : Kept f q s) (p payload) :
    ∃ t, execDelayProbe p payload s = .next t ∧ Kept f q t := by
  refine live_kept h (fun s h => ?_)
  with_reducible repeat' first | assumption | apply Kept.drawn | apply Kept.control | apply Kept.ite

theorem execDelayEcho_kept (h : Kept f q s) (p payload) :
    ∃ t, execDelayEcho p payload s = .next t ∧ Kept f q t := by
  refine live_kept h (fun s h => ?_)
  with_reducible repeat' first
    | assumption | apply Kept.drawn | apply Kept.modPort | apply Kept.put | apply Kept.ite | split

theorem execDelayPeriodExpiry_kept (h : Kept f q s) (p) :
    ∃ t, execDelayPeriodExpiry p s = .next t ∧ Kept f q t := by
  refine live_kept h (fun s h => ?_)
  with_reducible repeat' first | assumption | apply Kept.sendProbes | apply Kept.ite

theorem Kept.showSpares (h : Kept f q s) (p) :
    Kept f q (State.showSpares s p) := by
  unfold State.showSpares
  with_reducible repeat' first | assumption | apply Kept.put

theorem Kept.startPatch (h : Kept f q s) (p l) :
    Kept f q (State.startPatch s p l) := by
  unfold State.startPatch
  with_reducible repeat' first
    | assumption | apply Kept.movePort | apply Kept.control | apply Kept.modPort | apply Kept.ite | split

theorem Kept.switchLane (h : Kept f q s) (p x') :
    Kept f q (State.switchLane s p x') := by
  unfold State.switchLane
  with_reducible repeat' first
    | assumption | apply Kept.setLane | apply Kept.showSpares | apply Kept.event | apply Kept.sat | apply Kept.modPort
    | apply Kept.finalAnswer | apply Kept.foldl | intro _ _ _

theorem execPatchReq_kept (h : Kept f q s) (p payload) :
    ∃ t, execPatchReq p payload s = .next t ∧ Kept f q t := by
  refine live_kept h (fun s h => ?_)
  with_reducible repeat' first | assumption | apply Kept.modPort | apply Kept.ite

theorem Kept.applyPatch (h : Kept f q s) (p x') :
    Kept f q (State.applyPatch s p x') := by
  unfold State.applyPatch
  with_reducible repeat' first
    | assumption | apply Kept.setLane | apply Kept.event | apply Kept.sat | apply Kept.modPort | apply Kept.ite

theorem execPatchApply_kept (h : Kept f q s) (p) :
    ∃ t, execPatchApply p s = .next t ∧ Kept f q t := by
  refine live_kept h (fun s h => ?_)
  with_reducible repeat' first
    | assumption | apply Kept.formBlocks | apply Kept.applyPatch | apply Kept.modPort | apply Kept.foldl | intro _ _ _

theorem execPatchFail_kept (h : Kept f q s) (p) :
    ∃ t, execPatchFail p s = .next t ∧ Kept f q t := by
  refine live_kept h (fun s h => ?_)
  with_reducible repeat' first
    | assumption | apply Kept.flow | apply Kept.movePort | apply Kept.event | apply Kept.ite | split

theorem execLaneSignalLost_kept (h : Kept f q s) (p lane) :
    ∃ t, execLaneSignalLost p lane s = .next t ∧ Kept f q t := by
  refine live_kept h (fun s h => ?_)
  with_reducible repeat' first
    | assumption | apply Kept.showSpares | apply Kept.put | apply Kept.flow | apply Kept.startPatch

theorem execSerWindowExpiry_kept (h : Kept f q s) (p lane corrected) :
    ∃ t, execSerWindowExpiry p lane corrected s = .next t ∧ Kept f q t := by
  refine live_kept h (fun s h => ?_)
  with_reducible repeat' first
    | assumption | apply Kept.modPort | apply Kept.put | apply Kept.flow | apply Kept.startPatch | apply Kept.ite

theorem Kept.assignTx (h : Kept f q s) (p rxlock) :
    Kept f q (State.assignTx s p rxlock) := by
  unfold State.assignTx
  with_reducible repeat' first | assumption | apply Kept.setLane | apply Kept.foldl | intro _ _ _

theorem Kept.trainFrame (h : Kept f q s) (p b) :
    Kept f q (State.trainFrame s p b) := by
  unfold State.trainFrame
  with_reducible repeat' first
    | assumption | apply Kept.assignTx | apply Kept.formBlocks | apply Kept.modPort | apply Kept.ite

theorem Kept.mapLane (h : Kept f q s) (p l b) :
    Kept f q (State.mapLane s p l b) := by
  unfold State.mapLane
  with_reducible repeat' first
    | assumption | apply Kept.put | apply Kept.showSpares | apply Kept.setLane | apply Kept.ite | split

theorem Kept.trainBlock (h : Kept f q s) (p l b errors skew) :
    Kept f q (State.trainBlock s p l b errors skew) := by
  unfold State.trainBlock
  with_reducible repeat' first
    | assumption | apply Kept.mapLane | apply Kept.trainFrame | apply Kept.modPort | apply Kept.movePort
    | apply Kept.ite

theorem Kept.dataBlock (h : Kept f q s) (p l b errors) :
    Kept f q (State.dataBlock s p l b errors) := by
  unfold State.dataBlock
  with_reducible repeat' first
    | assumption | apply Kept.modPort | apply Kept.switchLane | apply Kept.movePort | apply Kept.ite | split

theorem execAlignmentBlockReceive_kept (h : Kept f q s) (p lane b) :
    ∃ t, execAlignmentBlockReceive p lane b s = .next t ∧ Kept f q t := by
  refine live_kept h (fun s h => ?_)
  with_reducible repeat' first
    | assumption | apply Kept.modPort | apply Kept.flow | apply Kept.startPatch | apply Kept.put
    | apply Kept.trainBlock | apply Kept.dataBlock | apply Kept.ite

theorem Kept.showPower (h : Kept f q s) (p) :
    Kept f q (State.showPower s p) := by
  unfold State.showPower
  with_reducible repeat' first | assumption | apply Kept.put | apply Kept.foldl | intro _ _ _ | apply Kept.ite | split

theorem Kept.setFeed (h : Kept f q s) (p feed v) :
    Kept f q (State.setFeed s p feed v) := by
  unfold State.setFeed
  with_reducible repeat' first | assumption | apply Kept.showPower | apply Kept.put | apply Kept.ite | split

theorem Kept.darken (h : Kept f q s) (p) :
    Kept f q (State.darken s p) := by
  unfold State.darken
  with_reducible repeat' first | assumption | apply Kept.movePort | apply Kept.ite | split

theorem Kept.relight (h : Kept f q s) (was) :
    Kept f q (State.relight was s) := by
  unfold State.relight
  with_reducible repeat' first
    | assumption | apply Kept.setFeed | apply Kept.flow | apply Kept.darken | apply Kept.foldl | intro _ _ _
    | apply Kept.ite | split

theorem Kept.raiseOthers (h : Kept f q s) (k) :
    Kept f q (State.raiseOthers s k) := by
  unfold State.raiseOthers
  with_reducible repeat' first | assumption | apply Kept.put | apply Kept.foldl | intro _ _ _ | apply Kept.ite

theorem Kept.endLaser (h : Kept f q s) (k) :
    Kept f q (State.endLaser s k) := by
  unfold State.endLaser
  with_reducible repeat' first | assumption | apply Kept.endAll

theorem execLaserSlotRemoved_kept (h : Kept f q s) (k) :
    ∃ t, execLaserSlotRemoved k s = .next t ∧ Kept f q t := by
  refine live_kept h (fun s h => ?_)
  with_reducible repeat' first
    | assumption | apply Kept.put | apply Kept.endLaser | apply Kept.relight | apply Kept.raiseOthers
    | apply Kept.event | apply Kept.sat | apply Kept.ite | split | apply Kept.upd

theorem execLaserSlotInserted_kept (h : Kept f q s) (k) :
    ∃ t, execLaserSlotInserted k s = .next t ∧ Kept f q t := by
  refine live_kept h (fun s h => ?_)
  with_reducible repeat' first | assumption | apply Kept.put | apply Kept.ite

theorem execLaserFault_kept (h : Kept f q s) (k output) :
    ∃ t, execLaserFault k output s = .next t ∧ Kept f q t := by
  refine live_kept h (fun s h => ?_)
  with_reducible repeat' first
    | assumption | apply Kept.put | apply Kept.endLaser | apply Kept.relight | apply Kept.raiseOthers
    | apply Kept.event | apply Kept.sat | apply Kept.ite | split | apply Kept.upd

theorem execLaserFeed_kept (h : Kept f q s) (p feed) :
    ∃ t, execLaserFeed p feed s = .next t ∧ Kept f q t := by
  refine live_kept h (fun s h => ?_)
  with_reducible repeat' first
    | assumption | apply Kept.flow | apply Kept.darken | apply Kept.event | apply Kept.setFeed | apply Kept.ite

theorem execLaserLow_kept (h : Kept f q s) (p lane power) :
    ∃ t, execLaserLow p lane power s = .next t ∧ Kept f q t := by
  refine live_kept h (fun s h => ?_)
  with_reducible repeat' first
    | assumption | apply Kept.event | apply Kept.put | apply Kept.flow | apply Kept.movePort | apply Kept.ite | split

theorem execLaserRampDone_kept (h : Kept f q s) (k) :
    ∃ t, execLaserRampDone k s = .next t ∧ Kept f q t := by
  refine live_kept h (fun s h => ?_)
  with_reducible repeat' first
    | assumption | apply Kept.relight | apply Kept.raiseOthers | apply Kept.put | apply Kept.endAll | apply Kept.foldl
    | intro _ _ _ | apply Kept.ite | split | apply Kept.upd

end Sys2Proof.Machine
end

