-- ==== Sys2Proof/Laws/KeptCmds.lean ====
section
/-! SUPPORT. What every operation keeps, one lemma per operation: queues, guards, writes and collective commands. -/

namespace Sys2Proof.Machine

variable {f : Fuse} {q : List Instr} {s : State}

theorem Kept.beginCmd (h : Kept f q s) (i q' pos ws) :
    Kept f q (State.beginCmd s i q' pos ws).2 := by
  unfold State.beginCmd
  with_reducible repeat' first | assumption | apply Kept.drawn

theorem Kept.beginCmd_eq {i} {q'} {pos} {ws} {x t} (h : Kept f q s) (e : State.beginCmd s i q' pos ws = (x, t)) :
    Kept f q t := by
  have k := h.beginCmd i q' pos ws
  rwa [e] at k

theorem Kept.fetchCmd (h : Kept f q s) (i q' pos) :
    Kept f q (State.fetchCmd s i q' pos).2 := by
  unfold State.fetchCmd
  with_reducible repeat' first
    | assumption | refine Kept.beginCmd_eq ?_ (by assumption) | apply Kept.beginCmd | apply Kept.countReads

theorem Kept.fetchCmd_eq {i} {q'} {pos} {x t} (h : Kept f q s) (e : State.fetchCmd s i q' pos = (x, t)) :
    Kept f q t := by
  have k := h.fetchCmd i q' pos
  rwa [e] at k

theorem Kept.carryOut (h : Kept f q s) (i p) :
    Kept f q (State.carryOut s i p) := by
  unfold State.carryOut
  with_reducible repeat' first
    | assumption | apply Kept.takeAmReply | apply Kept.judge | apply Kept.doPut | apply Kept.doGet
    | apply Kept.doAtomic | apply Kept.doSignal | apply Kept.doAm | intro _ _ | apply Kept.ite

theorem Kept.issueOne (h : Kept f q s) (c d f' p) :
    Kept f q (State.issueOne s c d f' p) := by
  unfold State.issueOne
  with_reducible repeat' first
    | assumption | apply Kept.carryOut | apply Kept.countReads | apply Kept.dropForm | apply Kept.enqueue
    | apply Kept.ite | split | dsimp only

theorem Kept.issue (h : Kept f q s) (c part d) :
    Kept f q (State.issue s c part d) := by
  unfold State.issue
  with_reducible repeat' first
    | assumption | refine Kept.takeSerial_eq ?_ (by assumption) | apply Kept.takeSerial | apply Kept.setCmd
    | apply Kept.issueOne | apply Kept.foldl | intro _ _ _ | apply Kept.ite

theorem Kept.takeFlow (h : Kept f q s) (c) :
    Kept f q (State.takeFlow s c).2 := by
  unfold State.takeFlow
  with_reducible repeat' first | assumption | apply Kept.wrap | apply Kept.put | apply Kept.ite_snd | split

theorem Kept.takeFlow_eq {c} {x t} (h : Kept f q s) (e : State.takeFlow s c = (x, t)) :
    Kept f q t := by
  have k := h.takeFlow c
  rwa [e] at k

theorem Kept.takeCredit' (h : Kept f q s) (c) :
    Kept f q (State.takeCredit' s c).2 := by
  unfold State.takeCredit'
  with_reducible repeat' first | assumption | apply Kept.put | apply Kept.ite_snd

theorem Kept.takeCredit'_eq {c} {x t} (h : Kept f q s) (e : State.takeCredit' s c = (x, t)) :
    Kept f q t := by
  have k := h.takeCredit' c
  rwa [e] at k

theorem Kept.send (h : Kept f q s) (c part) :
    Kept f q (State.send s c part) := by
  unfold State.send
  with_reducible repeat' first
    | assumption | apply Kept.complete | apply Kept.wrap | refine Kept.takeFlow_eq ?_ (by assumption)
    | apply Kept.takeFlow | refine Kept.takeCredit'_eq ?_ (by assumption) | apply Kept.takeCredit' | apply Kept.issue
    | apply Kept.ite | split

theorem Kept.startTransfer (h : Kept f q s) (c) :
    Kept f q (State.startTransfer s c) := by
  unfold State.startTransfer
  with_reducible repeat' first | assumption | apply Kept.complete | apply Kept.send | apply Kept.ite | split

theorem Kept.startHead (h : Kept f q s) (i q' takes run) (hr : ∀ s c, Kept f q s → Kept f q (run s c)) :
    Kept f q (State.startHead s i q' takes run) := by
  unfold State.startHead
  refine Kept.ite h (Kept.ite (h.put _ _ _) ?_)
  extract_lets pos ws
  refine Kept.ite h ?_
  dsimp only
  exact hr _ _ ((h.fetchCmd _ _ _).put _ _ _)


theorem Kept.transferRow (h : Kept f q s) (i q' cmd) : Kept f q (State.transferRow s i q' cmd) :=
  (h.startHead i q' _ _ (fun _ c hs => hs.startTransfer c)).flow


theorem execNop_kept (h : Kept f q s) (i q') : ∃ t, execNop i q' s = .next t ∧ Kept f q t :=
  live_kept h (fun _ h => (h.startHead _ _ _ _ (fun _ c hs => hs.startTransfer c)).flow)


theorem execPut_kept (h : Kept f q s) (i q') :
    ∃ t, execPut i q' s = .next t ∧ Kept f q t := by
  refine live_kept h (fun s h => ?_)
  with_reducible repeat' first | assumption | apply Kept.transferRow

theorem execGet_kept (h : Kept f q s) (i q') :
    ∃ t, execGet i q' s = .next t ∧ Kept f q t := by
  refine live_kept h (fun s h => ?_)
  with_reducible repeat' first | assumption | apply Kept.transferRow

theorem execPutMc_kept (h : Kept f q s) (i q') :
    ∃ t, execPutMc i q' s = .next t ∧ Kept f q t := by
  refine live_kept h (fun s h => ?_)
  with_reducible repeat' first | assumption | apply Kept.transferRow

theorem execAtomAdd_kept (h : Kept f q s) (i q') :
    ∃ t, execAtomAdd i q' s = .next t ∧ Kept f q t := by
  refine live_kept h (fun s h => ?_)
  with_reducible repeat' first | assumption | apply Kept.transferRow

theorem execAtomSwap_kept (h : Kept f q s) (i q') :
    ∃ t, execAtomSwap i q' s = .next t ∧ Kept f q t := by
  refine live_kept h (fun s h => ?_)
  with_reducible repeat' first | assumption | apply Kept.transferRow

theorem execSignal_kept (h : Kept f q s) (i q') :
    ∃ t, execSignal i q' s = .next t ∧ Kept f q t := by
  refine live_kept h (fun s h => ?_)
  with_reducible repeat' first | assumption | apply Kept.transferRow

theorem execAm_kept (h : Kept f q s) (i q') :
    ∃ t, execAm i q' s = .next t ∧ Kept f q t := by
  refine live_kept h (fun s h => ?_)
  with_reducible repeat' first | assumption | apply Kept.transferRow

theorem execAmReply_kept (h : Kept f q s) (i q') :
    ∃ t, execAmReply i q' s = .next t ∧ Kept f q t := by
  refine live_kept h (fun s h => ?_)
  with_reducible repeat' first | assumption | apply Kept.transferRow

theorem Kept.reissue (h : Kept f q s) (c) :
    Kept f q (State.reissue s c) := by
  unfold State.reissue
  with_reducible repeat' first
    | assumption | apply Kept.sat | apply Kept.complete | apply Kept.issue | apply Kept.ite | split | apply Kept.upd

theorem execRequestTimeout_kept (h : Kept f q s) (i q' pos) :
    ∃ t, execRequestTimeout i q' pos s = .next t ∧ Kept f q t := by
  refine live_kept h (fun s h => ?_)
  with_reducible repeat' first
    | assumption | apply Kept.flow | apply Kept.reissue | apply Kept.complete | apply Kept.showRing | apply Kept.ite
    | split

theorem Kept.noteGuard (h : Kept f q s) (r n cmd) :
    Kept f q (State.noteGuard s r n cmd) := by
  unfold State.noteGuard
  with_reducible repeat' first | assumption | apply Kept.sat | apply Kept.setWord | apply Kept.event

theorem Kept.doWrites (h : Kept f q s) (ws) :
    Kept f q (State.doWrites s ws) := by
  unfold State.doWrites
  with_reducible repeat' first | assumption | apply Kept.setWord | apply Kept.foldl | intro _ _ _

theorem Kept.ownBank (h : Kept f q s) (h') :
    Kept f q (State.ownBank s h') := by
  unfold State.ownBank
  with_reducible repeat' first | assumption | apply Kept.setWord | apply Kept.setBank | apply Kept.memEvent

theorem Kept.loadHandover {o t} (h : Kept f q s) (e : State.loadHandover s o = some t) : Kept f q t := by
  unfold State.loadHandover at e
  split at e
  · rw [← Option.some.inj e]; exact h
  split at e
  · rw [← Option.some.inj e]; exact h.noteGuard _ _ _
  split at e
  · rw [← Option.some.inj e]; exact h.ownBank _
  · have k := h.alornHandover o
    dsimp only at e
    split at e
    · contradiction
    · rw [← Option.some.inj e]; exact k


theorem Kept.loadHandovers (h : Kept f q s) : Kept f q (State.loadHandovers s) := by
  unfold State.loadHandovers
  have hf : ∀ (l : Tbl Word) (x : State × Tbl Word), Kept f q x.1 → Kept f q (l.foldl (fun (x : State × Tbl Word) e =>
      match x.1.loadHandover (recordOwner e.2 (e.1 / 256) (e.1 % 256)) with
      | some t => (t, x.2)
      | none => (x.1, e :: x.2)) x).1 := by
    intro l
    induction l with
    | nil => intro x hx; exact hx
    | cons e l ih =>
      intro x hx
      refine ih _ ?_
      dsimp only
      split
      · next t ht => exact hx.loadHandover ht
      · exact hx
  have k := hf s.alorn.banksToDo (s, []) h
  exact k.modAlorn _ (fun _ => ⟨Nat.le_refl _, Nat.le_refl _⟩)


theorem Kept.refuseWrite (h : Kept f q s) (i off) :
    Kept f q (State.refuseWrite s i off) := by
  unfold State.refuseWrite
  with_reducible repeat' first | assumption | apply Kept.put

theorem Kept.writeTail (h : Kept f q s) (i q' v) :
    Kept f q (State.writeTail s i q' v) := by
  unfold State.writeTail
  with_reducible repeat' first | assumption | apply Kept.put | apply Kept.ite

theorem Kept.skipHead (h : Kept f q s) (i q') :
    Kept f q (State.skipHead s i q') := by
  unfold State.skipHead
  with_reducible repeat' first
    | assumption | refine Kept.fetchCmd_eq ?_ (by assumption) | apply Kept.fetchCmd | apply Kept.complete
    | apply Kept.put | apply Kept.ite

theorem Kept.writeBase (h : Kept f q s) (i q' v) :
    Kept f q (State.writeBase s i q' v) := by
  unfold State.writeBase
  with_reducible repeat' first | assumption | apply Kept.put | apply Kept.ite

theorem Kept.writeQctl (h : Kept f q s) (i q' off v) :
    Kept f q (State.writeQctl s i q' off v) := by
  unfold State.writeQctl
  with_reducible repeat' first
    | assumption | apply Kept.refuseWrite | apply Kept.put | apply Kept.skipHead | apply Kept.ite

theorem execCpQtailWrite_kept (h : Kept f q s) (i q' v) :
    ∃ t, execCpQtailWrite i q' v s = .next t ∧ Kept f q t := by
  refine live_kept h (fun s h => ?_)
  with_reducible repeat' first | assumption | apply Kept.writeTail | apply Kept.ite

theorem execSkip_kept (h : Kept f q s) (i q') :
    ∃ t, execSkip i q' s = .next t ∧ Kept f q t := by
  refine live_kept h (fun s h => ?_)
  with_reducible repeat' first | assumption | apply Kept.flow | apply Kept.skipHead | apply Kept.ite

theorem execCpQbaseWrite_kept (h : Kept f q s) (i q' v) :
    ∃ t, execCpQbaseWrite i q' v s = .next t ∧ Kept f q t := by
  refine live_kept h (fun s h => ?_)
  with_reducible repeat' first | assumption | apply Kept.writeBase | apply Kept.ite

theorem execCpEvcntWrite_kept (h : Kept f q s) (i k v inc) :
    ∃ t, execCpEvcntWrite i k v inc s = .next t ∧ Kept f q t := by
  refine live_kept h (fun s h => ?_)
  with_reducible repeat' first | assumption | apply Kept.put | apply Kept.ite

theorem Kept.writeHandover (h : Kept f q s) (i v) :
    Kept f q (State.writeHandover s i v) := by
  unfold State.writeHandover
  with_reducible repeat' first
    | assumption | apply Kept.put | refine Kept.coreHandover_eq ?_ (by assumption) | apply Kept.coreHandover
    | apply Kept.foldl | intro _ _ _ | apply Kept.ite

theorem execCpHandoverWrite_kept (h : Kept f q s) (i v) :
    ∃ t, execCpHandoverWrite i v s = .next t ∧ Kept f q t := by
  refine live_kept h (fun s h => ?_)
  with_reducible repeat' first | assumption | apply Kept.loadHandovers | apply Kept.writeHandover | apply Kept.ite

theorem execHandoverDrainDone_kept (h : Kept f q s) (ep bank) :
    ∃ t, execHandoverDrainDone ep bank s = .next t ∧ Kept f q t := by
  refine live_kept h (fun s h => ?_)
  with_reducible repeat' first | assumption | apply Kept.loadHandovers | apply Kept.finishHandover | apply Kept.ite

theorem execHandoverLeaseExpiry_kept (h : Kept f q s) (ep bank) :
    ∃ t, execHandoverLeaseExpiry ep bank s = .next t ∧ Kept f q t := by
  refine live_kept h (fun s h => ?_)
  with_reducible repeat' first | assumption | apply Kept.breakHandover | apply Kept.ite

theorem Kept.writeRingtab (h : Kept f q s) (i v) :
    Kept f q (State.writeRingtab s i v) := by
  unfold State.writeRingtab
  with_reducible repeat' first | assumption | apply Kept.put | apply Kept.ite

theorem execCpRingtabWrite_kept (h : Kept f q s) (i v) :
    ∃ t, execCpRingtabWrite i v s = .next t ∧ Kept f q t := by
  refine live_kept h (fun s h => ?_)
  with_reducible repeat' first | assumption | apply Kept.writeRingtab | apply Kept.ite

theorem Kept.refuseRing (h : Kept f q s) (i k word) :
    Kept f q (State.refuseRing s i k word) := by
  unfold State.refuseRing
  with_reducible repeat' first | assumption | apply Kept.event | apply Kept.sat

theorem Kept.enableRing (h : Kept f q s) (i k) :
    Kept f q (State.enableRing s i k) := by
  unfold State.enableRing
  with_reducible repeat' first
    | assumption | apply Kept.refuseRing | apply Kept.drawn | apply Kept.countReads | apply Kept.writeBytes
    | apply Kept.showRing | apply Kept.ite | split | apply Kept.upd

theorem Kept.disableRing (h : Kept f q s) (i k) :
    Kept f q (State.disableRing s i k) := by
  unfold State.disableRing
  with_reducible repeat' first
    | assumption | apply Kept.freeHold | apply Kept.dropReply | apply Kept.respond | apply Kept.cacheReply
    | apply Kept.writeBytes | apply Kept.foldl | intro _ _ _ | apply Kept.ite | split | apply Kept.upd

theorem Kept.advanceRing (h : Kept f q s) (i k pos) :
    Kept f q (State.advanceRing s i k pos) := by
  unfold State.advanceRing
  with_reducible repeat' first
    | assumption | apply Kept.sat | apply Kept.showRing | apply Kept.drainRing | apply Kept.ite | split
    | apply Kept.upd

theorem Kept.writeRingctl (h : Kept f q s) (i off v) :
    Kept f q (State.writeRingctl s i off v) := by
  unfold State.writeRingctl
  with_reducible repeat' first
    | assumption | apply Kept.advanceRing | apply Kept.enableRing | apply Kept.disableRing | apply Kept.refuseWrite
    | apply Kept.ite | split

theorem execRingAdvance_kept (h : Kept f q s) (i ring pos) :
    ∃ t, execRingAdvance i ring pos s = .next t ∧ Kept f q t := by
  refine live_kept h (fun s h => ?_)
  with_reducible repeat' first | assumption | apply Kept.flow | apply Kept.advanceRing | apply Kept.ite

theorem execRingEnable_kept (h : Kept f q s) (i ring) :
    ∃ t, execRingEnable i ring s = .next t ∧ Kept f q t := by
  refine live_kept h (fun s h => ?_)
  with_reducible repeat' first | assumption | apply Kept.enableRing | apply Kept.ite

theorem execRingDisable_kept (h : Kept f q s) (i ring) :
    ∃ t, execRingDisable i ring s = .next t ∧ Kept f q t := by
  refine live_kept h (fun s h => ?_)
  with_reducible repeat' first | assumption | apply Kept.flow | apply Kept.disableRing | apply Kept.ite

theorem Kept.coreWrite (h : Kept f q s) (i off v) :
    Kept f q (State.coreWrite s i off v) := by
  unfold State.coreWrite
  with_reducible repeat' first
    | assumption | apply Kept.writeQctl | apply Kept.writeBase | apply Kept.writeTail | apply Kept.put
    | apply Kept.writeRingtab | apply Kept.writeRingctl | apply Kept.writeHandover | apply Kept.refuseWrite
    | apply Kept.setWord | apply Kept.ite | split

theorem Kept.copyBytes (h : Kept f q s) (i src dst n) :
    Kept f q (State.copyBytes s i src dst n) := by
  unfold State.copyBytes
  with_reducible repeat' first
    | assumption | apply Kept.countReads | apply Kept.writeBytes | apply Kept.foldl | intro _ _ _ | apply Kept.upd

theorem Kept.localColl (h : Kept f q s) (c r) :
    Kept f q (State.localColl s c r) := by
  unfold State.localColl
  with_reducible repeat' first
    | assumption | apply Kept.writeBytes | apply Kept.complete | apply Kept.copyBytes | apply Kept.ite

theorem Kept.arriveAt (h : Kept f q s) (c r) :
    Kept f q (State.arriveAt s c r) := by
  unfold State.arriveAt
  with_reducible repeat' first | assumption | apply Kept.emit

theorem Kept.startColl (h : Kept f q s) (c) :
    Kept f q (State.startColl s c) := by
  unfold State.startColl
  with_reducible repeat' first
    | assumption | apply Kept.complete | apply Kept.leaveBuffers | apply Kept.forgetAborts | apply Kept.put
    | apply Kept.localColl | apply Kept.arriveAt | apply Kept.setCmd | apply Kept.feed | apply Kept.ite | split
    | dsimp only

theorem Kept.collRow (h : Kept f q s) (i q' cmd) : Kept f q (State.collRow s i q' cmd) :=
  (h.startHead i q' _ _ (fun _ c hs => hs.startColl c)).flow


theorem execBarrier_kept (h : Kept f q s) (i q') :
    ∃ t, execBarrier i q' s = .next t ∧ Kept f q t := by
  refine live_kept h (fun s h => ?_)
  with_reducible repeat' first | assumption | apply Kept.collRow

theorem execScalarReduce_kept (h : Kept f q s) (i q') :
    ∃ t, execScalarReduce i q' s = .next t ∧ Kept f q t := by
  refine live_kept h (fun s h => ?_)
  with_reducible repeat' first | assumption | apply Kept.collRow

theorem execReduce_kept (h : Kept f q s) (i q') :
    ∃ t, execReduce i q' s = .next t ∧ Kept f q t := by
  refine live_kept h (fun s h => ?_)
  with_reducible repeat' first | assumption | apply Kept.collRow

theorem execAllReduce_kept (h : Kept f q s) (i q') :
    ∃ t, execAllReduce i q' s = .next t ∧ Kept f q t := by
  refine live_kept h (fun s h => ?_)
  with_reducible repeat' first | assumption | apply Kept.collRow

theorem execBroadcast_kept (h : Kept f q s) (i q') :
    ∃ t, execBroadcast i q' s = .next t ∧ Kept f q t := by
  refine live_kept h (fun s h => ?_)
  with_reducible repeat' first | assumption | apply Kept.collRow

theorem execReduceScatter_kept (h : Kept f q s) (i q') :
    ∃ t, execReduceScatter i q' s = .next t ∧ Kept f q t := by
  refine live_kept h (fun s h => ?_)
  with_reducible repeat' first | assumption | apply Kept.collRow

theorem execAllGather_kept (h : Kept f q s) (i q') :
    ∃ t, execAllGather i q' s = .next t ∧ Kept f q t := by
  refine live_kept h (fun s h => ?_)
  with_reducible repeat' first | assumption | apply Kept.collRow

theorem Kept.writeChunk (h : Kept f q s) (i run a p) :
    Kept f q (State.writeChunk s i run a p).2 := by
  unfold State.writeChunk
  with_reducible repeat' first | assumption | apply Kept.countNoOwner | apply Kept.writePayload | apply Kept.ite_snd

theorem Kept.writeChunk_eq {i} {run} {a} {p} {x t} (h : Kept f q s) (e : State.writeChunk s i run a p = (x, t)) :
    Kept f q t := by
  have k := h.writeChunk i run a p
  rwa [e] at k

theorem Kept.takeChunk (h : Kept f q s) (i c r p) :
    Kept f q (State.takeChunk s i c r p) := by
  unfold State.takeChunk
  with_reducible repeat' first
    | assumption | refine Kept.writeChunk_eq ?_ (by assumption) | apply Kept.writeChunk | apply Kept.finishColl
    | apply Kept.setCmd | apply Kept.ite | split

theorem Kept.redDown (h : Kept f q s) (i p) :
    Kept f q (State.redDown s i p) := by
  unfold State.redDown
  with_reducible repeat' first | assumption | apply Kept.stray | apply Kept.takeChunk | apply Kept.ite | split

theorem Kept.takeDownAt (h : Kept f q s) (e' p) :
    Kept f q (State.takeDownAt s e' p) := by
  unfold State.takeDownAt
  with_reducible repeat' first
    | assumption | apply Kept.discardHead | apply Kept.redDown | apply Kept.portEndpoint | apply Kept.ite | split

theorem execRedDownArrival_kept (h : Kept f q s) (ep pkt) :
    ∃ t, execRedDownArrival ep pkt s = .next t ∧ Kept f q t := by
  refine live_kept h (fun s h => ?_)
  with_reducible repeat' first
    | assumption | apply Kept.takeIn | apply Kept.flow | apply Kept.resetDiscard | apply Kept.takeDownAt
    | apply Kept.ite

theorem Kept.sinkRefuse (h : Kept f q s) (st p status) :
    Kept f q (State.sinkRefuse s st p status) := by
  unfold State.sinkRefuse
  with_reducible repeat' first | assumption | apply Kept.event | apply Kept.sat

theorem Kept.sinkWrite (h : Kept f q s) (st p) :
    Kept f q (State.sinkWrite s st p) := by
  unfold State.sinkWrite
  with_reducible repeat' first
    | assumption | apply Kept.sinkRefuse | apply Kept.noteSink | apply Kept.writePayload | apply Kept.ite | split

theorem execStackSinkRedDown_kept (h : Kept f q s) (st pkt) :
    ∃ t, execStackSinkRedDown st pkt s = .next t ∧ Kept f q t := by
  refine live_kept h (fun s h => ?_)
  with_reducible repeat' first
    | assumption | apply Kept.takeIn | apply Kept.flow | apply Kept.discardHead | apply Kept.sinkWrite
    | apply Kept.ite

theorem execCollectiveTimeout_kept (h : Kept f q s) (i q') :
    ∃ t, execCollectiveTimeout i q' s = .next t ∧ Kept f q t := by
  refine live_kept h (fun s h => ?_)
  with_reducible repeat' first | assumption | apply Kept.flow | apply Kept.abortColl | apply Kept.ite | split

theorem Kept.endOwn (h : Kept f q s) (is pick st cause) :
    Kept f q (State.endOwn s is pick st cause) := by
  unfold State.endOwn
  with_reducible repeat' first
    | assumption | apply Kept.finishColl | apply Kept.raiseAbort | apply Kept.foldl | intro _ _ _ | apply Kept.ite
    | split

theorem Kept.quiesceColls (h : Kept f q s) (is) :
    Kept f q (State.quiesceColls s is) := by
  unfold State.quiesceColls
  with_reducible repeat' first | assumption | apply Kept.endOwn

theorem Kept.fenceColls (h : Kept f q s) (is) :
    Kept f q (State.fenceColls s is) := by
  unfold State.fenceColls
  with_reducible repeat' first | assumption | apply Kept.endOwn

theorem Kept.resetColls (h : Kept f q s) (i) :
    Kept f q (State.resetColls s i) := by
  unfold State.resetColls
  with_reducible repeat' first | assumption | apply Kept.raiseAbort | apply Kept.foldl | intro _ _ _ | apply Kept.upd

end Sys2Proof.Machine
end

