-- ==== Sys2Proof/Laws/KeptAlorn.lean ====
section
/-! SUPPORT. What every operation keeps, one lemma per operation: Stencil loads, Alorn, resets and ticks. -/

namespace Sys2Proof.Machine

variable {f : Fuse} {q : List Instr} {s : State}

theorem Kept.clearReg (h : Kept f q s) (r n) :
    Kept f q (State.clearReg s r n) := by
  unfold State.clearReg
  with_reducible repeat' first | assumption | apply Kept.setWord | apply Kept.ite

theorem Kept.record (h : Kept f q s) (w0 w1 w2 w3) : Kept f q (State.record s w0 w1 w2 w3) := by
  unfold State.record
  extract_lets q' log
  refine ((((h.withLog _ ?_).put _ _ _).put _ _ _).put _ _ _).pulse _
  have hl := h.sound.log
  have hn : log.length = s.log.length + 1 := by simp [log]
  split
  · simp; omega
  · omega


theorem Kept.writeRecord (h : Kept f q s) : Kept f q (State.writeRecord s) := by
  unfold State.writeRecord
  have hi := h.sound.events
  split
  · exact h
  · next e rest he =>
    rw [he] at hi
    have h1 : Kept f q ({ s with logIntake := rest } : State) := h.withIntake _ (by simp at hi; omega)
    have h2 : ∀ e : LogEntry, Kept f q ({ s with logIntake := e :: rest } : State) :=
      fun e => h.withIntake _ (by simpa using hi)
    split
    · exact Kept.ite (h1.record _ _ _ _) ((h2 _).record _ _ _ _)
    · exact h1.record _ _ _ _


theorem execLogRecordWrite_kept (h : Kept f q s) :
    ∃ t, execLogRecordWrite s = .next t ∧ Kept f q t := by
  refine live_kept h (fun s h => ?_)
  with_reducible repeat' first | assumption | apply Kept.writeRecord | apply Kept.ite

theorem Kept.startBackground (h : Kept f q s) (a cmd arg) :
    Kept f q (State.startBackground s a cmd arg).1 := by
  unfold State.startBackground
  with_reducible repeat' first | assumption | apply Kept.modAlorn | exact fun _ => ⟨Nat.le_refl _, Nat.le_refl _⟩

theorem Kept.startBackground_eq {a} {cmd} {arg} {x t} (h : Kept f q s) (e : State.startBackground s a cmd arg = (t, x)) :
    Kept f q t := by
  have k := h.startBackground a cmd arg
  rwa [e] at k

theorem Kept.finishDrain (h : Kept f q s) (p) :
    Kept f q (State.finishDrain s p) := by
  unfold State.finishDrain
  with_reducible repeat' first | assumption | apply Kept.setPart | apply Kept.endAll | apply Kept.event

theorem Kept.stopIntake (h : Kept f q s) (p) :
    Kept f q (State.stopIntake s p) := by
  unfold State.stopIntake
  with_reducible repeat' first | assumption | apply Kept.quiesceColls

theorem Kept.doQuiesce (h : Kept f q s) (a p) :
    Kept f q (State.doQuiesce s a p).1 := by
  unfold State.doQuiesce
  with_reducible repeat' first
    | assumption | apply Kept.setPart | apply Kept.stallPlumb | apply Kept.stallSlots | apply Kept.stopIntake
    | refine Kept.startBackground_eq ?_ (by assumption) | apply Kept.startBackground | apply Kept.ite_fst

theorem Kept.doQuiesce_eq {a} {p} {x t} (h : Kept f q s) (e : State.doQuiesce s a p = (t, x)) :
    Kept f q t := by
  have k := h.doQuiesce a p
  rwa [e] at k

theorem execQuiesceDrained_kept (h : Kept f q s) (p) :
    ∃ t, execQuiesceDrained p s = .next t ∧ Kept f q t := by
  refine live_kept h (fun s h => ?_)
  with_reducible repeat' first | assumption | apply Kept.finishDrain | apply Kept.ite

theorem execQuiesceStuck_kept (h : Kept f q s) (p) :
    ∃ t, execQuiesceStuck p s = .next t ∧ Kept f q t := by
  refine live_kept h (fun s h => ?_)
  with_reducible repeat' first | assumption | apply Kept.event | apply Kept.drawn | apply Kept.endAll | apply Kept.ite

theorem Kept.clearBusy (h : Kept f q s) (hit) :
    Kept f q (State.clearBusy s hit) := by
  unfold State.clearBusy
  with_reducible repeat' first | assumption | apply Kept.put | apply Kept.foldl | intro _ _ _

theorem Kept.fenceAt (h : Kept f q s) (i q' pos) :
    Kept f q (State.fenceAt s i q' pos) := by
  unfold State.fenceAt
  with_reducible repeat' first
    | assumption | apply Kept.finishColl | apply Kept.complete | refine Kept.fetchCmd_eq ?_ (by assumption)
    | apply Kept.fetchCmd | apply Kept.ite | split

theorem Kept.fenceQueue (h : Kept f q s) (i q') :
    Kept f q (State.fenceQueue s i q') := by
  unfold State.fenceQueue
  with_reducible repeat' first
    | assumption | apply Kept.put | apply Kept.fenceAt | apply Kept.foldl | intro _ _ _ | apply Kept.ite

theorem Kept.fenceHolds (h : Kept f q s) (i) :
    Kept f q (State.fenceHolds s i) := by
  unfold State.fenceHolds
  with_reducible repeat' first
    | assumption | apply Kept.respond | apply Kept.cacheReply | apply Kept.showRing | apply Kept.freeHold
    | apply Kept.foldl | intro _ _ _

theorem Kept.fenceCore (h : Kept f q s) (i) :
    Kept f q (State.fenceCore s i) := by
  unfold State.fenceCore
  with_reducible repeat' first
    | assumption | apply Kept.fenceHolds | apply Kept.fenceQueue | apply Kept.foldl | intro _ _ _ | apply Kept.ite
    | split | apply Kept.upd

theorem Kept.fenceCores (h : Kept f q s) (is) :
    Kept f q (State.fenceCores s is) := by
  unfold State.fenceCores
  with_reducible repeat' first
    | assumption | apply Kept.raiseAbort | apply Kept.fenceCore | apply Kept.foldl | intro _ _ _

theorem Kept.fencePart (h : Kept f q s) (p) :
    Kept f q (State.fencePart s p) := by
  unfold State.fencePart
  with_reducible repeat' first
    | assumption | apply Kept.setPart | apply Kept.clearBusy | apply Kept.fenceCores | apply Kept.finishDrain
    | apply Kept.ite

theorem Kept.doFence (h : Kept f q s) (p) :
    Kept f q (State.doFence s p).1 := by
  unfold State.doFence
  with_reducible repeat' first | assumption | apply Kept.fencePart | apply Kept.ite_fst

theorem Kept.doFence_eq {p} {x t} (h : Kept f q s) (e : State.doFence s p = (t, x)) :
    Kept f q t := by
  have k := h.doFence p
  rwa [e] at k

theorem Kept.doResume (h : Kept f q s) (p) :
    Kept f q (State.doResume s p).1 := by
  unfold State.doResume
  with_reducible repeat' first | assumption | apply Kept.setPart | apply Kept.ite_fst

theorem Kept.doResume_eq {p} {x t} (h : Kept f q s) (e : State.doResume s p = (t, x)) :
    Kept f q t := by
  have k := h.doResume p
  rwa [e] at k

theorem Kept.tableFault (h : Kept f q s) (r n) :
    Kept f q (State.tableFault s r n) := by
  unfold State.tableFault
  with_reducible repeat' first
    | assumption | apply Kept.event | apply Kept.fencePart | apply Kept.foldl | intro _ _ _ | apply Kept.ite | split
    | apply Kept.upd

theorem execTableEcc_kept (h : Kept f q s) (corrected reg n) :
    ∃ t, execTableEcc corrected reg n s = .next t ∧ Kept f q t := by
  refine live_kept h (fun s h => ?_)
  with_reducible repeat' first
    | assumption | apply Kept.flow | apply Kept.tableFault | apply Kept.ite | split | apply Kept.upd

theorem Kept.guarded (h : Kept f q s) (cmd ws act) (ha : ∀ s, Kept f q s → Kept f q (act s).1) :
    Kept f q (State.guarded s cmd ws act).1 := by
  unfold State.guarded
  split
  · exact h.noteGuard _ _ _
  · exact ha _ (h.doWrites _)

theorem Kept.guarded_eq {cmd ws act x t} (h : Kept f q s) (e : State.guarded s cmd ws act = (t, x))
    (ha : ∀ s, Kept f q s → Kept f q (act s).1) : Kept f q t := by
  have k := h.guarded cmd ws act ha
  rwa [e] at k


theorem Kept.doPortAdmit (h : Kept f q s) (l) : Kept f q (State.doPortAdmit s l).1 := by
  unfold State.doPortAdmit
  refine Kept.ite_fst h (h.guarded _ _ _ (fun s hs => ?_))
  exact Kept.ite (((hs.showAdmit _).showLight _).startKeying _ _) ((hs.showAdmit _).showLight _)

theorem Kept.doPortAdmit_eq {l x t} (h : Kept f q s) (e : State.doPortAdmit s l = (t, x)) : Kept f q t := by
  have k := h.doPortAdmit l
  rwa [e] at k


theorem Kept.doPortQuarantine (h : Kept f q s) (l hold) :
    Kept f q (State.doPortQuarantine s l hold).1 := by
  unfold State.doPortQuarantine
  with_reducible repeat' first
    | assumption | refine Kept.guarded_eq ?_ (by assumption) | apply Kept.guarded | apply Kept.showAdmit
    | apply Kept.movePort | apply Kept.showLight | intro _ _ | apply Kept.ite_fst | split

theorem Kept.doPortQuarantine_eq {l} {hold} {x t} (h : Kept f q s) (e : State.doPortQuarantine s l hold = (t, x)) :
    Kept f q t := by
  have k := h.doPortQuarantine l hold
  rwa [e] at k

theorem Kept.doPortRemap (h : Kept f q s) (a b) : Kept f q (State.doPortRemap s a b).1 := by
  unfold State.doPortRemap
  refine Kept.ite_fst h (Kept.ite_fst h (h.guarded _ _ _ (fun s hs => ?_)))
  dsimp only
  with_reducible refine Kept.startKeying (Kept.startKeying (Kept.foldl hs (fun s x ht => ?_)) _ _) _ _
  exact (ht.modPort _ _).showAdmit _

theorem Kept.doPortRemap_eq {a b x t} (h : Kept f q s) (e : State.doPortRemap s a b = (t, x)) : Kept f q t := by
  have k := h.doPortRemap a b
  rwa [e] at k


theorem Kept.doLaneSpare (h : Kept f q s) (ask l lane) :
    Kept f q (State.doLaneSpare s ask l lane).1 := by
  unfold State.doLaneSpare
  with_reducible repeat' first | assumption | apply Kept.startPatch | apply Kept.modPort | apply Kept.ite_fst

theorem Kept.doLaneSpare_eq {ask} {l} {lane} {x t} (h : Kept f q s) (e : State.doLaneSpare s ask l lane = (t, x)) :
    Kept f q t := by
  have k := h.doLaneSpare ask l lane
  rwa [e] at k

theorem Kept.startRamp (h : Kept f q s) (k target) :
    Kept f q (State.startRamp s k target) := by
  unfold State.startRamp
  with_reducible repeat' first | assumption | apply Kept.relight | apply Kept.put | apply Kept.upd

theorem Kept.doLaserPrepare (h : Kept f q s) (ask k) :
    Kept f q (State.doLaserPrepare s ask k).1 := by
  unfold State.doLaserPrepare
  with_reducible repeat' first
    | assumption | refine Kept.startBackground_eq ?_ (by assumption) | apply Kept.startBackground
    | apply Kept.startRamp | apply Kept.ite_fst

theorem Kept.doLaserPrepare_eq {ask} {k} {x t} (h : Kept f q s) (e : State.doLaserPrepare s ask k = (t, x)) :
    Kept f q t := by
  have k := h.doLaserPrepare ask k
  rwa [e] at k

theorem Kept.doLaserRestore (h : Kept f q s) (ask k) :
    Kept f q (State.doLaserRestore s ask k).1 := by
  unfold State.doLaserRestore
  with_reducible repeat' first
    | assumption | refine Kept.startBackground_eq ?_ (by assumption) | apply Kept.startBackground
    | apply Kept.startRamp | apply Kept.ite_fst

theorem Kept.doLaserRestore_eq {ask} {k} {x t} (h : Kept f q s) (e : State.doLaserRestore s ask k = (t, x)) :
    Kept f q t := by
  have k := h.doLaserRestore ask k
  rwa [e] at k

theorem Kept.rekeyCoords (h : Kept f q s) :
    Kept f q (State.rekeyCoords s) := by
  unfold State.rekeyCoords
  with_reducible repeat' first | assumption | apply Kept.startKeying | apply Kept.foldl | intro _ _ _ | apply Kept.ite

theorem Kept.doSetCoords (h : Kept f q s) (addr) :
    Kept f q (State.doSetCoords s addr).1 := by
  unfold State.doSetCoords
  with_reducible repeat' first
    | assumption | apply Kept.put | refine Kept.guarded_eq ?_ (by assumption) | apply Kept.guarded
    | apply Kept.rekeyCoords | apply Kept.repeatKeying | intro _ _ | apply Kept.ite_fst | split

theorem Kept.doSetCoords_eq {addr} {x t} (h : Kept f q s) (e : State.doSetCoords s addr = (t, x)) :
    Kept f q t := by
  have k := h.doSetCoords addr
  rwa [e] at k

theorem Kept.doSetTimebase (h : Kept f q s) (add v) : Kept f q (State.doSetTimebase s add v).1 := by
  unfold State.doSetTimebase
  extract_lets new
  split
  · exact h.noteGuard _ _ _
  · exact h.upd

theorem Kept.doSetTimebase_eq {add v x t} (h : Kept f q s) (e : State.doSetTimebase s add v = (t, x)) : Kept f q t := by
  have k := h.doSetTimebase add v
  rwa [e] at k


theorem Kept.doBankHandover (h : Kept f q s) (ask h' wait) :
    Kept f q (State.doBankHandover s ask h' wait).1 := by
  unfold State.doBankHandover
  with_reducible repeat' first
    | assumption | apply Kept.noteGuard | refine Kept.alornHandover_eq ?_ (by assumption) | apply Kept.alornHandover
    | apply Kept.loadHandovers | apply Kept.drawn | refine Kept.startBackground_eq ?_ (by assumption)
    | apply Kept.startBackground | apply Kept.ite_fst | split

theorem Kept.doBankHandover_eq {ask} {h'} {wait} {x t} (h : Kept f q s) (e : State.doBankHandover s ask h' wait = (t, x)) :
    Kept f q t := by
  have k := h.doBankHandover ask h' wait
  rwa [e] at k

theorem Kept.doLoadBegin (h : Kept f q s) (ask size) :
    Kept f q (State.doLoadBegin s ask size).1 := by
  unfold State.doLoadBegin
  with_reducible repeat' first
    | assumption | apply Kept.modAlorn | exact fun _ => ⟨Nat.le_refl _, Nat.le_refl _⟩ | apply Kept.ite_fst

theorem Kept.doLoadBegin_eq {ask} {size} {x t} (h : Kept f q s) (e : State.doLoadBegin s ask size = (t, x)) :
    Kept f q t := by
  have k := h.doLoadBegin ask size
  rwa [e] at k

theorem Kept.doLoadData (h : Kept f q s) (ask off n data) :
    Kept f q (State.doLoadData s ask off n data).1 := by
  unfold State.doLoadData
  with_reducible repeat' first
    | assumption | apply Kept.modAlorn | exact fun _ => ⟨Nat.le_refl _, Nat.le_refl _⟩ | apply Kept.foldl
    | intro _ _ _ | apply Kept.ite_fst

theorem Kept.doLoadData_eq {ask} {off} {n} {data} {x t} (h : Kept f q s) (e : State.doLoadData s ask off n data = (t, x)) :
    Kept f q t := by
  have k := h.doLoadData ask off n data
  rwa [e] at k

theorem Kept.doLoadDiscard (h : Kept f q s) :
    Kept f q (State.doLoadDiscard s).1 := by
  unfold State.doLoadDiscard
  with_reducible repeat' first | assumption | apply Kept.freeStaging

theorem Kept.doLoadDiscard_eq  {x t} (h : Kept f q s) (e : State.doLoadDiscard s = (t, x)) :
    Kept f q t := by
  have k := h.doLoadDiscard 
  rwa [e] at k

theorem Kept.refuseLoad (h : Kept f q s) (r) :
    Kept f q (State.refuseLoad s r) := by
  unfold State.refuseLoad
  with_reducible repeat' first
    | assumption | apply Kept.modAlorn | apply Kept.drawn | apply Kept.put | apply Kept.event
    | apply Kept.endBackground | exact fun _ => ⟨Nat.le_refl _, Nat.le_refl _⟩ | apply Kept.ite | split | dsimp only

theorem Kept.useKey (h : Kept f q s) (bytes) :
    Kept f q (State.useKey s bytes) := by
  unfold State.useKey
  with_reducible repeat' first | assumption | apply Kept.useSlot | apply Kept.ite | split

theorem Kept.doLoadCommit (h : Kept f q s) (ask) :
    Kept f q (State.doLoadCommit s ask).1 := by
  unfold State.doLoadCommit
  with_reducible repeat' first
    | assumption | refine Kept.startBackground_eq ?_ (by assumption) | apply Kept.startBackground
    | apply Kept.emptyStaging | apply Kept.useKey | apply Kept.put | apply Kept.refuseLoad | apply Kept.modAlorn
    | exact fun _ => ⟨Nat.le_refl _, Nat.le_refl _⟩ | apply Kept.ite_fst | split | dsimp only

theorem Kept.doLoadCommit_eq {ask} {x t} (h : Kept f q s) (e : State.doLoadCommit s ask = (t, x)) :
    Kept f q t := by
  have k := h.doLoadCommit ask
  rwa [e] at k

theorem execStencilLoadLimitExpiry_kept (h : Kept f q s) :
    ∃ t, execStencilLoadLimitExpiry s = .next t ∧ Kept f q t := by
  refine live_kept h (fun s h => ?_)
  with_reducible repeat' first | assumption | apply Kept.refuseLoad | apply Kept.ite

theorem Kept.putImage (h : Kept f q s) (img bank k) :
    Kept f q (State.putImage s img bank k) := by
  unfold State.putImage
  with_reducible repeat' first | assumption | apply Kept.setWord | apply Kept.ite | split

theorem Kept.writeBank (h : Kept f q s) (img bank only) :
    Kept f q (State.writeBank s img bank only) := by
  unfold State.writeBank
  with_reducible repeat' first | assumption | apply Kept.putImage | apply Kept.foldl | intro _ _ _

theorem Kept.writeStatics (h : Kept f q s) (img only) :
    Kept f q (State.writeStatics s img only) := by
  unfold State.writeStatics
  with_reducible repeat' first
    | assumption | apply Kept.putImage | apply Kept.setWord | apply Kept.foldl | intro _ _ _ | apply Kept.ite

theorem Kept.writeTables (h : Kept f q s) (l) :
    Kept f q (State.writeTables s l) := by
  unfold State.writeTables
  with_reducible repeat' first | assumption | apply Kept.foldl | intro _ _ _ | apply Kept.ite | split | apply Kept.upd

theorem Kept.newParts (h : Kept f q s) (was first) :
    Kept f q (State.newParts s was first) := by
  unfold State.newParts
  with_reducible repeat' first
    | assumption | apply Kept.setPart | apply Kept.put | apply Kept.foldl | intro _ _ _ | apply Kept.ite | split
    | apply Kept.upd

theorem Kept.firstEpoch (h : Kept f q s) (l) :
    Kept f q (State.firstEpoch s l) := by
  unfold State.firstEpoch
  with_reducible repeat' first
    | assumption | apply Kept.put | apply Kept.showAdmit | apply Kept.modPort | apply Kept.foldl | intro _ _ _

theorem Kept.loadDone (h : Kept f q s) (l) :
    Kept f q (State.loadDone s l) := by
  unfold State.loadDone
  with_reducible repeat' first | assumption | apply Kept.put | apply Kept.event

theorem Kept.guardLoad (h : Kept f q s) (r n) :
    Kept f q (State.guardLoad s r n) := by
  unfold State.guardLoad
  with_reducible repeat' first
    | assumption | apply Kept.noteGuard | apply Kept.put | apply Kept.modAlorn | apply Kept.endBackground
    | exact fun _ => ⟨Nat.le_refl _, Nat.le_refl _⟩ | apply Kept.ite | split | dsimp only

theorem Kept.commitLoad (h : Kept f q s) (l : Load) : Kept f q (State.commitLoad s l) := by
  unfold State.commitLoad
  extract_lets was s1 s2 s3 s4 c5 a5 s5 s6 s7
  have h1 : Kept f q s1 := (h.writeBank _ _ _).writeTables _
  have h2 : Kept f q s2 := Kept.ite ((h1.writeBank _ _ _).firstEpoch _) h1
  have h3 : Kept f q s3 := (h2.writeStatics _ _).newParts _ _
  have h4 : Kept f q s4 := (h3.put _ _ _).loadDone _
  have h5 : Kept f q s5 :=
    ⟨⟨h4.sound.memory, h4.sound.regs, h4.sound.events, h4.sound.log, h4.sound.requests, h4.sound.cache, h4.sound.fifos⟩,
      h4.pending, h4.fuse⟩
  have h6 : Kept f q s6 := by
    simp only [s6]
    split
    · exact h5.endBackground _ _ _ _
    · exact h5
  exact Kept.ite (h6.loadHandovers.repeatKeying) h6.loadHandovers


theorem execStencilLoadStep7_kept (h : Kept f q s) :
    ∃ t, execStencilLoadStep7 s = .next t ∧ Kept f q t := by
  refine live_kept h (fun s h => ?_)
  with_reducible repeat' first
    | assumption | apply Kept.flow | apply Kept.guardLoad | apply Kept.commitLoad | apply Kept.ite | split

theorem Kept.cutLoad (h : Kept f q s) :
    Kept f q (State.cutLoad s) := by
  unfold State.cutLoad
  with_reducible repeat' first
    | assumption | apply Kept.modAlorn | apply Kept.put | apply Kept.drawn | apply Kept.writeStatics
    | apply Kept.writeBank | apply Kept.newParts | exact fun _ => ⟨Nat.le_refl _, Nat.le_refl _⟩ | apply Kept.ite
    | split

theorem Kept.arm (h : Kept f q s) (e') :
    Kept f q (State.arm s e') := by
  unfold State.arm
  with_reducible repeat' first
    | assumption | apply Kept.put | apply Kept.fromAlorn | apply Kept.ite | split | apply Kept.upd

theorem Kept.awaitEpoch (h : Kept f q s) (ask wait) :
    Kept f q (State.awaitEpoch s ask wait).1 := by
  unfold State.awaitEpoch
  with_reducible repeat' first
    | assumption | refine Kept.startBackground_eq ?_ (by assumption) | apply Kept.startBackground | apply Kept.ite_fst
    | split

theorem Kept.awaitEpoch_eq {ask} {wait} {x t} (h : Kept f q s) (e : State.awaitEpoch s ask wait = (t, x)) :
    Kept f q t := by
  have k := h.awaitEpoch ask wait
  rwa [e] at k

theorem Kept.doApplyEpoch (h : Kept f q s) (ask e' wait) :
    Kept f q (State.doApplyEpoch s ask e' wait).1 := by
  unfold State.doApplyEpoch
  with_reducible repeat' first
    | assumption | refine Kept.awaitEpoch_eq ?_ (by assumption) | apply Kept.awaitEpoch | apply Kept.arm
    | apply Kept.ite_fst

theorem Kept.doApplyEpoch_eq {ask} {e'} {wait} {x t} (h : Kept f q s) (e : State.doApplyEpoch s ask e' wait = (t, x)) :
    Kept f q t := by
  have k := h.doApplyEpoch ask e' wait
  rwa [e] at k

theorem Kept.disarm (h : Kept f q s) (e') :
    Kept f q (State.disarm s e') := by
  unfold State.disarm
  with_reducible repeat' first
    | assumption | apply Kept.put | apply Kept.raiseAbort | apply Kept.endAll | apply Kept.ite | split
    | apply Kept.upd

theorem Kept.doCancelEpoch (h : Kept f q s) (e') :
    Kept f q (State.doCancelEpoch s e').1 := by
  unfold State.doCancelEpoch
  with_reducible repeat' first | assumption | apply Kept.disarm | apply Kept.upd

theorem Kept.doCancelEpoch_eq {e'} {x t} (h : Kept f q s) (e : State.doCancelEpoch s e' = (t, x)) :
    Kept f q t := by
  have k := h.doCancelEpoch e'
  rwa [e] at k

theorem Kept.grantLock (h : Kept f q s) (src job) :
    Kept f q (State.grantLock s src job) := by
  unfold State.grantLock
  with_reducible repeat' first
    | assumption | apply Kept.modAlorn | apply Kept.setWord | exact fun _ => ⟨Nat.le_refl _, Nat.le_refl _⟩

theorem Kept.doClaim (h : Kept f q s) (ask job) :
    Kept f q (State.doClaim s ask job).1 := by
  unfold State.doClaim
  with_reducible repeat' first
    | assumption | apply Kept.modAlorn | apply Kept.grantLock | exact fun _ => ⟨Nat.le_refl _, Nat.le_refl _⟩
    | apply Kept.ite_fst

theorem Kept.doClaim_eq {ask} {job} {x t} (h : Kept f q s) (e : State.doClaim s ask job = (t, x)) :
    Kept f q t := by
  have k := h.doClaim ask job
  rwa [e] at k

theorem Kept.doRelease (h : Kept f q s) (ask) :
    Kept f q (State.doRelease s ask).1 := by
  unfold State.doRelease
  with_reducible repeat' first
    | assumption | apply Kept.put | apply Kept.event | apply Kept.dropStaging | apply Kept.ite_fst

theorem Kept.doRelease_eq {ask} {x t} (h : Kept f q s) (e : State.doRelease s ask = (t, x)) :
    Kept f q t := by
  have k := h.doRelease ask
  rwa [e] at k

theorem execLockLeaseExpiry_kept (h : Kept f q s) :
    ∃ t, execLockLeaseExpiry s = .next t ∧ Kept f q t := by
  refine live_kept h (fun s h => ?_)
  with_reducible repeat' first | assumption | apply Kept.breakLock | apply Kept.ite

theorem Kept.doGetVersion (h : Kept f q s) :
    Kept f q (State.doGetVersion s).1 := by
  unfold State.doGetVersion
  with_reducible repeat' first | assumption | apply Kept.useSlot

theorem Kept.doGetVersion_eq  {x t} (h : Kept f q s) (e : State.doGetVersion s = (t, x)) :
    Kept f q t := by
  have k := h.doGetVersion 
  rwa [e] at k

theorem Kept.doGetCensus (h : Kept f q s) :
    Kept f q (State.doGetCensus s).1 := by
  unfold State.doGetCensus
  exact h

theorem Kept.doGetCensus_eq  {x t} (h : Kept f q s) (e : State.doGetCensus s = (t, x)) :
    Kept f q t := by
  have k := h.doGetCensus 
  rwa [e] at k

theorem Kept.doSelfTest (h : Kept f q s) (ask tests) :
    Kept f q (State.doSelfTest s ask tests).1 := by
  unfold State.doSelfTest
  with_reducible repeat' first
    | assumption | refine Kept.startBackground_eq ?_ (by assumption) | apply Kept.startBackground | apply Kept.ite_fst
    | split

theorem Kept.doSelfTest_eq {ask} {tests} {x t} (h : Kept f q s) (e : State.doSelfTest s ask tests = (t, x)) :
    Kept f q t := by
  have k := h.doSelfTest ask tests
  rwa [e] at k

theorem Kept.emptyFabric (h : Kept f q s) : Kept f q (State.emptyFabric s) :=
  ⟨⟨h.sound.memory, h.sound.regs, h.sound.events, h.sound.log, h.sound.requests, h.sound.cache, by
    intro e he; simp [State.emptyFabric] at he⟩, h.pending, h.fuse⟩


theorem execSelfTestDone_kept (h : Kept f q s) (failed first) :
    ∃ t, execSelfTestDone failed first s = .next t ∧ Kept f q t := by
  refine live_kept h (fun s h => ?_)
  with_reducible repeat' first
    | assumption | apply Kept.flow | apply Kept.endBackground | apply Kept.emptyFabric | apply Kept.ite | split

theorem Kept.doReadCounters (h : Kept f q s) (window count stride offset clear) :
    Kept f q (State.doReadCounters s window count stride offset clear).1 := by
  unfold State.doReadCounters
  with_reducible repeat' first
    | assumption | apply Kept.drawn | apply Kept.clearReg | apply Kept.foldl | intro _ _ _ | apply Kept.ite_fst | split

theorem Kept.doReadCounters_eq {window} {count} {stride} {offset} {clear} {x t} (h : Kept f q s) (e : State.doReadCounters s window count stride offset clear = (t, x)) :
    Kept f q t := by
  have k := h.doReadCounters window count stride offset clear
  rwa [e] at k

theorem Kept.readUpTo (h : Kept f q s) (n) : Kept f q (State.readUpTo s n) := h.upd


theorem Kept.doReadEvents (h : Kept f q s) (first most) : Kept f q (State.doReadEvents s first most).1 := by
  unfold State.doReadEvents
  exact h.readUpTo _

theorem Kept.doReadEvents_eq {first most x t} (h : Kept f q s) (e : State.doReadEvents s first most = (t, x)) :
    Kept f q t := by
  have k := h.doReadEvents first most
  rwa [e] at k


theorem Kept.wipeStore (h : Kept f q s) (cause) :
    Kept f q (State.wipeStore s cause) := by
  unfold State.wipeStore
  with_reducible repeat' first | assumption | apply Kept.event | apply Kept.upd

theorem execTamperInput_kept (h : Kept f q s) :
    ∃ t, execTamperInput s = .next t ∧ Kept f q t := by
  refine live_kept h (fun s h => ?_)
  with_reducible repeat' first | assumption | apply Kept.wipeStore

theorem execGlitchDetectorTrip_kept (h : Kept f q s) :
    ∃ t, execGlitchDetectorTrip s = .next t ∧ Kept f q t := by
  refine live_kept h (fun s h => ?_)
  with_reducible repeat' first | assumption | apply Kept.wipeStore

theorem Kept.doZeroize (h : Kept f q s) :
    Kept f q (State.doZeroize s).1 := by
  unfold State.doZeroize
  with_reducible repeat' first | assumption | apply Kept.wipeStore

theorem Kept.doZeroize_eq  {x t} (h : Kept f q s) (e : State.doZeroize s = (t, x)) :
    Kept f q t := by
  have k := h.doZeroize 
  rwa [e] at k

theorem Kept.nextNonce (h : Kept f q s) :
    Kept f q (State.nextNonce s) := by
  unfold State.nextNonce
  with_reducible repeat' first | assumption | apply Kept.wrap

theorem Kept.doSealKey (h : Kept f q s) (slot erase ws) :
    Kept f q (State.doSealKey s slot erase ws).1 := by
  unfold State.doSealKey
  with_reducible repeat' first
    | assumption | apply Kept.useSlot | apply Kept.nextNonce | apply Kept.ite_fst | split | apply Kept.upd

theorem Kept.doSealKey_eq {slot} {erase} {ws} {x t} (h : Kept f q s) (e : State.doSealKey s slot erase ws = (t, x)) :
    Kept f q t := by
  have k := h.doSealKey slot erase ws
  rwa [e] at k

theorem Kept.newIdentity (h : Kept f q s) :
    Kept f q (State.newIdentity s) := by
  unfold State.newIdentity
  with_reducible repeat' first | assumption | apply Kept.drawn | apply Kept.foldl | intro _ _ _ | apply Kept.upd

theorem Kept.reseal (h : Kept f q s) (target key) :
    Kept f q (State.reseal s target key) := by
  unfold State.reseal
  with_reducible repeat' first | assumption | apply Kept.newIdentity | apply Kept.ite | split | apply Kept.upd

theorem Kept.decommission (h : Kept f q s) :
    Kept f q (State.decommission s) := by
  unfold State.decommission
  with_reducible repeat' first
    | assumption | apply Kept.fencePart | apply Kept.showLight | apply Kept.movePort | apply Kept.foldl | intro _ _ _

theorem Kept.moveLife (h : Kept f q s) (target key) (ht : s.fuse.lifecycle ≠ LC.DECOMMISSIONED) (hb : target ≠ LC.BLANK) :
    Kept f q (State.moveLife s target key).1 := by
  unfold State.moveLife
  dsimp only
  have h2 := h.reseal target key
  have h3 : Kept f q ({ State.reseal s target key with
      fuse := { (State.reseal s target key).fuse with
        lifecycle := target
        transitions := (State.reseal s target key).fuse.transitions + 1 } } : State) := by
    refine ⟨⟨h2.sound.memory, h2.sound.regs, h2.sound.events, h2.sound.log, h2.sound.requests, h2.sound.cache,
      h2.sound.fifos⟩, h2.pending, ⟨h2.fuse.chipId, h2.fuse.cores, Nat.le_succ_of_le h2.fuse.burnt, ?_, fun _ => hb⟩⟩
    intro hd
    exact absurd (h.fuse.decommissioned hd) ht
  exact Kept.ite h3.decommission h3


theorem authority_notLast {a b : Nat} {w : Bool} {x : Authority} (e : authority a b w = some x) : a ≠ LC.DECOMMISSIONED := by
  intro h
  unfold authority at e
  rw [if_pos h] at e
  contradiction

theorem authority_notBlank {a b : Nat} {w : Bool} {x : Authority} (e : authority a b w = some x) : b ≠ LC.BLANK := by
  intro h
  subst h
  unfold authority at e
  simp [LC.BLANK, LC.DECOMMISSIONED, LC.PROVISIONED, LC.DEPLOYED] at e

theorem doWrites_fuse (s : State) (ws : List (Reg × Nat × Word)) : (s.doWrites ws).fuse = s.fuse := by
  unfold State.doWrites
  induction ws generalizing s with
  | nil => rfl
  | cons w l ih => rw [List.foldl_cons, ih]; rfl

theorem event_fuse (s : State) (e w u a b m) : (s.event e w u a b m).fuse = s.fuse := by
  unfold State.event
  repeat' split
  all_goals rfl

theorem useSlot_fuse (s : State) (k : Nat) : (s.useSlot k).fuse = s.fuse := by
  unfold State.useSlot
  split
  · rfl
  · unfold State.corruptSlot
    split
    · exact event_fuse ..
    · rfl

theorem Kept.doLifecycle (h : Kept f q s) (target ws) : Kept f q (State.doLifecycle s target ws).1 := by
  unfold State.doLifecycle
  split
  · exact h
  · next a ha =>
    refine Kept.ite_fst h (Kept.ite_fst h (Kept.ite_fst h ?_))
    extract_lets s1 s2
    have h1 : Kept f q s1 := Kept.ite (h.useSlot _) h
    have h2 : Kept f q s2 := Kept.ite h1 h1.nextNonce
    have e1 : s1.fuse = s.fuse := by
      simp only [s1]
      split
      · exact useSlot_fuse ..
      · rfl
    have e2 : s2.fuse = s.fuse := by
      simp only [s2]
      split
      · exact e1
      · exact e1
    refine Kept.ite_fst h1 (Kept.ite_fst ?_ ?_)
    · unfold State.guarded
      split
      · exact h2.noteGuard _ _ _
      · exact (h2.doWrites _).moveLife _ _ (by rw [doWrites_fuse, e2]; exact authority_notLast ha) (authority_notBlank ha)
    · exact h2.moveLife _ _ (by rw [e2]; exact authority_notLast ha) (authority_notBlank ha)

theorem Kept.doLifecycle_eq {target ws x t} (h : Kept f q s) (e : State.doLifecycle s target ws = (t, x)) : Kept f q t := by
  have k := h.doLifecycle target ws
  rwa [e] at k


theorem Kept.doLoadStencil (h : Kept f q s) (ask ws) : Kept f q (State.doLoadStencil s ask ws).1 := by
  unfold State.doLoadStencil
  dsimp only
  split
  · exact h.doLoadBegin _ _
  · exact h.doLoadData _ _ _ _
  · exact h.doLoadCommit _
  · exact h.doLoadDiscard

theorem Kept.doLoadStencil_eq {ask ws x t} (h : Kept f q s) (e : State.doLoadStencil s ask ws = (t, x)) : Kept f q t := by
  have k := h.doLoadStencil ask ws
  rwa [e] at k


theorem Kept.doApply (h : Kept f q s) (ask w) :
    Kept f q (State.doApply s ask w).1 := by
  unfold State.doApply
  with_reducible repeat' first
    | assumption | refine Kept.doCancelEpoch_eq ?_ (by assumption) | apply Kept.doCancelEpoch
    | refine Kept.doApplyEpoch_eq ?_ (by assumption) | apply Kept.doApplyEpoch | apply Kept.ite_fst

theorem Kept.doApply_eq {ask} {w} {x t} (h : Kept f q s) (e : State.doApply s ask w = (t, x)) :
    Kept f q t := by
  have k := h.doApply ask w
  rwa [e] at k

theorem Kept.someIf {c : Prop} [Decidable c] {a : State × Option Final} {b : Option (State × Option Final)} {t x}
    (ha : Kept f q a.1) (hb : b = some (t, x) → Kept f q t) (e : (if c then some a else b) = some (t, x)) : Kept f q t := by
  split at e
  · rw [Option.some.inj e] at ha; exact ha
  · exact hb e

theorem Kept.runMachine {ask cmd ws t} {x : Option Final} (h : Kept f q s) (e : State.runMachine s ask cmd ws = some (t, x)) :
    Kept f q t := by
  revert e
  unfold State.runMachine
  refine Kept.someIf (h.doGetVersion) ?_
  refine Kept.someIf (h.doGetCensus) ?_
  refine Kept.someIf (h.doSelfTest _ _) ?_
  refine Kept.someIf (h.doClaim _ _) ?_
  refine Kept.someIf (h.doRelease _) ?_
  refine Kept.someIf (h.doLoadStencil _ _) ?_
  refine Kept.someIf (h.doApply _ _) ?_
  refine Kept.someIf (h.doQuiesce _ _) ?_
  refine Kept.someIf (h.doResume _) ?_
  refine Kept.someIf (h.doFence _) ?_
  refine Kept.someIf (h.doReadCounters _ _ _ _ _) ?_
  refine Kept.someIf (h.doReadEvents _ _) ?_
  intro e; contradiction


theorem Kept.runDevice (h : Kept f q s) (ask cmd ws) :
    Kept f q (State.runDevice s ask cmd ws).1 := by
  unfold State.runDevice
  with_reducible repeat' first
    | assumption | refine Kept.doPortAdmit_eq ?_ (by assumption) | apply Kept.doPortAdmit
    | refine Kept.doPortQuarantine_eq ?_ (by assumption) | apply Kept.doPortQuarantine
    | refine Kept.doPortRemap_eq ?_ (by assumption) | apply Kept.doPortRemap
    | refine Kept.doLaneSpare_eq ?_ (by assumption) | apply Kept.doLaneSpare
    | refine Kept.doLaserPrepare_eq ?_ (by assumption) | apply Kept.doLaserPrepare
    | refine Kept.doLaserRestore_eq ?_ (by assumption) | apply Kept.doLaserRestore
    | refine Kept.doSetCoords_eq ?_ (by assumption) | apply Kept.doSetCoords
    | refine Kept.doSetTimebase_eq ?_ (by assumption) | apply Kept.doSetTimebase
    | refine Kept.doBankHandover_eq ?_ (by assumption) | apply Kept.doBankHandover
    | refine Kept.doSealKey_eq ?_ (by assumption) | apply Kept.doSealKey | refine Kept.doZeroize_eq ?_ (by assumption)
    | apply Kept.doZeroize | refine Kept.doLifecycle_eq ?_ (by assumption) | apply Kept.doLifecycle | apply Kept.ite_fst
    | split

theorem Kept.runDevice_eq {ask} {cmd} {ws} {x t} (h : Kept f q s) (e : State.runDevice s ask cmd ws = (t, x)) :
    Kept f q t := by
  have k := h.runDevice ask cmd ws
  rwa [e] at k

theorem Kept.runRequest (h : Kept f q s) (ask ws len) : Kept f q (State.runRequest s ask ws len).1 := by
  unfold State.runRequest
  dsimp only
  iterate 7 with_reducible refine Kept.ite_fst h ?_
  cases hc : s.runMachine ask (rqCmd ws) ws with
  | none => exact h.runDevice _ _ _
  | some y => exact h.runMachine hc

theorem Kept.runRequest_eq {ask ws len x t} (h : Kept f q s) (e : State.runRequest s ask ws len = (t, x)) : Kept f q t := by
  have k := h.runRequest ask ws len
  rwa [e] at k


theorem Kept.relayRequest (h : Kept f q s) (ask ws l) :
    Kept f q (State.relayRequest s ask ws l) := by
  unfold State.relayRequest
  with_reducible repeat' first
    | assumption | apply Kept.sendMgmt | apply Kept.modAlorn | apply Kept.deliver
    | exact fun _ => ⟨Nat.le_refl _, Nat.le_refl _⟩ | apply Kept.ite

theorem Kept.endRelay (h : Kept f q s) (r ws) :
    Kept f q (State.endRelay s r ws) := by
  unfold State.endRelay
  with_reducible repeat' first
    | assumption | apply Kept.deliver | apply Kept.modAlorn | exact fun _ => ⟨Nat.le_refl _, Nat.le_refl _⟩

theorem Kept.relayAnswer (h : Kept f q s) (l hdr ws) :
    Kept f q (State.relayAnswer s l hdr ws) := by
  unfold State.relayAnswer
  with_reducible repeat' first | assumption | apply Kept.endRelay | apply Kept.ite | split

theorem execRelayResponse_kept (h : Kept f q s) (p a) :
    ∃ t, execRelayResponse p a s = .next t ∧ Kept f q t := by
  refine live_kept h (fun s h => ?_)
  with_reducible repeat' first | assumption | apply Kept.flow | apply Kept.relayAnswer | apply Kept.ite

theorem execRelayTimeout_kept (h : Kept f q s) (p hdr) :
    ∃ t, execRelayTimeout p hdr s = .next t ∧ Kept f q t := by
  refine live_kept h (fun s h => ?_)
  with_reducible repeat' first | assumption | apply Kept.flow | apply Kept.endRelay | apply Kept.ite | split

theorem Kept.addCache (h : Kept f q s) (e : CacheEnt) : Kept f q (State.addCache s e) := by
  unfold State.addCache
  refine h.setAlorn _ h.sound.requests ?_
  have hc := h.sound.cache
  dsimp only
  rw [List.length_append]
  split
  · simp; omega
  · split
    · next x hx =>
      have := List.length_erase_of_mem (List.mem_of_find?_eq_some hx)
      simp; omega
    · simp; omega


theorem Kept.concludeRequest (h : Kept f q s) (ask cmd f') :
    Kept f q (State.concludeRequest s ask cmd f') := by
  unfold State.concludeRequest
  with_reducible repeat' first
    | assumption | apply Kept.deliver | apply Kept.cacheAnswer | apply Kept.finalAnswer | apply Kept.ite | split

theorem Kept.enterIntake (h : Kept f q s) (r hold) : Kept f q (State.enterIntake s r hold) := by
  unfold State.enterIntake
  refine Kept.ite (h.sat _ _ _) ?_
  split
  · exact h.setAlorn _ (by simp; omega) h.sound.cache
  · exact Kept.ite (h.setAlorn _ h.sound.requests h.sound.cache) (h.sat _ _ _)


theorem Kept.takeRequest (h : Kept f q s) (r : Req) : Kept f q (State.takeRequest s r) := by
  unfold State.takeRequest
  extract_lets ask crc s1
  have h1 : Kept f q s1 := Kept.ite (h.modAlorn _ (fun _ => ⟨Nat.le_refl _, Nat.le_refl _⟩)) h
  split
  · exact Kept.ite (h1.deliver _ _) (h1.deliver _ _)
  · refine Kept.ite (h1.relayRequest _ _ _) ?_
    split
    next t x e => exact ((h1.addCache _).runRequest_eq e).concludeRequest _ _ _


theorem execRequestTaken_kept (h : Kept f q s) : ∃ t, execRequestTaken s = .next t ∧ Kept f q t := by
  refine live_kept h (fun s h => Kept.ite h ?_)
  split
  · exact h
  · next r t e =>
    have hi := h.sound.requests
    rw [e] at hi
    have h1 : Kept f q (s.modAlorn (fun a => { a with intake := t ++ a.held.take 1, held := a.held.drop 1 })) := by
      refine h.setAlorn _ ?_ h.sound.cache
      simp only [List.length_append, List.length_cons, List.length_take] at hi ⊢
      omega
    exact (h1.takeRequest r).flow


theorem Kept.requestNow (h : Kept f q s) (src cmd tag args) :
    Kept f q (State.requestNow s src cmd tag args) := by
  unfold State.requestNow
  with_reducible repeat' first
    | assumption | apply Kept.put | apply Kept.flow | apply Kept.takeRequest | apply Kept.enterIntake | apply Kept.ite

theorem execGetVersion_kept (h : Kept f q s) (src tag) :
    ∃ t, execGetVersion src tag s = .next t ∧ Kept f q t := by
  refine live_kept h (fun s h => ?_)
  with_reducible repeat' first | assumption | apply Kept.requestNow

theorem execGetCensus_kept (h : Kept f q s) (src tag) :
    ∃ t, execGetCensus src tag s = .next t ∧ Kept f q t := by
  refine live_kept h (fun s h => ?_)
  with_reducible repeat' first | assumption | apply Kept.requestNow

theorem execSelfTest_kept (h : Kept f q s) (src tag arg) :
    ∃ t, execSelfTest src tag arg s = .next t ∧ Kept f q t := by
  refine live_kept h (fun s h => ?_)
  with_reducible repeat' first | assumption | apply Kept.requestNow

theorem execClaim_kept (h : Kept f q s) (src tag arg) :
    ∃ t, execClaim src tag arg s = .next t ∧ Kept f q t := by
  refine live_kept h (fun s h => ?_)
  with_reducible repeat' first | assumption | apply Kept.requestNow

theorem execRelease_kept (h : Kept f q s) (src tag) :
    ∃ t, execRelease src tag s = .next t ∧ Kept f q t := by
  refine live_kept h (fun s h => ?_)
  with_reducible repeat' first | assumption | apply Kept.requestNow

theorem execLoadStencilBegin_kept (h : Kept f q s) (src tag arg) :
    ∃ t, execLoadStencilBegin src tag arg s = .next t ∧ Kept f q t := by
  refine live_kept h (fun s h => ?_)
  with_reducible repeat' first | assumption | apply Kept.requestNow

theorem execLoadStencilData_kept (h : Kept f q s) (src tag arg data) :
    ∃ t, execLoadStencilData src tag arg data s = .next t ∧ Kept f q t := by
  refine live_kept h (fun s h => ?_)
  with_reducible repeat' first | assumption | apply Kept.requestNow

theorem execLoadStencilCommit_kept (h : Kept f q s) (src tag arg) :
    ∃ t, execLoadStencilCommit src tag arg s = .next t ∧ Kept f q t := by
  refine live_kept h (fun s h => ?_)
  with_reducible repeat' first | assumption | apply Kept.requestNow

theorem execLoadStencilDiscard_kept (h : Kept f q s) (src tag arg) :
    ∃ t, execLoadStencilDiscard src tag arg s = .next t ∧ Kept f q t := by
  refine live_kept h (fun s h => ?_)
  with_reducible repeat' first | assumption | apply Kept.requestNow

theorem execApplyEpoch_kept (h : Kept f q s) (src tag arg) :
    ∃ t, execApplyEpoch src tag arg s = .next t ∧ Kept f q t := by
  refine live_kept h (fun s h => ?_)
  with_reducible repeat' first | assumption | apply Kept.requestNow

theorem execApplyEpochCancel_kept (h : Kept f q s) (src tag arg) :
    ∃ t, execApplyEpochCancel src tag arg s = .next t ∧ Kept f q t := by
  refine live_kept h (fun s h => ?_)
  with_reducible repeat' first | assumption | apply Kept.requestNow

theorem execQuiesce_kept (h : Kept f q s) (src tag arg) :
    ∃ t, execQuiesce src tag arg s = .next t ∧ Kept f q t := by
  refine live_kept h (fun s h => ?_)
  with_reducible repeat' first | assumption | apply Kept.requestNow

theorem execResume_kept (h : Kept f q s) (src tag arg) :
    ∃ t, execResume src tag arg s = .next t ∧ Kept f q t := by
  refine live_kept h (fun s h => ?_)
  with_reducible repeat' first | assumption | apply Kept.requestNow

theorem execFence_kept (h : Kept f q s) (src tag arg) :
    ∃ t, execFence src tag arg s = .next t ∧ Kept f q t := by
  refine live_kept h (fun s h => ?_)
  with_reducible repeat' first | assumption | apply Kept.requestNow

theorem execPortAdmit_kept (h : Kept f q s) (src tag arg) :
    ∃ t, execPortAdmit src tag arg s = .next t ∧ Kept f q t := by
  refine live_kept h (fun s h => ?_)
  with_reducible repeat' first | assumption | apply Kept.requestNow

theorem execPortQuarantine_kept (h : Kept f q s) (src tag arg) :
    ∃ t, execPortQuarantine src tag arg s = .next t ∧ Kept f q t := by
  refine live_kept h (fun s h => ?_)
  with_reducible repeat' first | assumption | apply Kept.requestNow

theorem execPortRemap_kept (h : Kept f q s) (src tag arg) :
    ∃ t, execPortRemap src tag arg s = .next t ∧ Kept f q t := by
  refine live_kept h (fun s h => ?_)
  with_reducible repeat' first | assumption | apply Kept.requestNow

theorem execLaneSpare_kept (h : Kept f q s) (src tag arg) :
    ∃ t, execLaneSpare src tag arg s = .next t ∧ Kept f q t := by
  refine live_kept h (fun s h => ?_)
  with_reducible repeat' first | assumption | apply Kept.requestNow

theorem execLaserPrepare_kept (h : Kept f q s) (src tag arg) :
    ∃ t, execLaserPrepare src tag arg s = .next t ∧ Kept f q t := by
  refine live_kept h (fun s h => ?_)
  with_reducible repeat' first | assumption | apply Kept.requestNow

theorem execLaserRestore_kept (h : Kept f q s) (src tag arg) :
    ∃ t, execLaserRestore src tag arg s = .next t ∧ Kept f q t := by
  refine live_kept h (fun s h => ?_)
  with_reducible repeat' first | assumption | apply Kept.requestNow

theorem execSetCoords_kept (h : Kept f q s) (src tag arg) :
    ∃ t, execSetCoords src tag arg s = .next t ∧ Kept f q t := by
  refine live_kept h (fun s h => ?_)
  with_reducible repeat' first | assumption | apply Kept.requestNow

theorem execSetTimebase_kept (h : Kept f q s) (src tag arg value) :
    ∃ t, execSetTimebase src tag arg value s = .next t ∧ Kept f q t := by
  refine live_kept h (fun s h => ?_)
  with_reducible repeat' first | assumption | apply Kept.requestNow

theorem execBankHandover_kept (h : Kept f q s) (src tag arg) :
    ∃ t, execBankHandover src tag arg s = .next t ∧ Kept f q t := by
  refine live_kept h (fun s h => ?_)
  with_reducible repeat' first | assumption | apply Kept.requestNow

theorem execReadCounters_kept (h : Kept f q s) (src tag arg offset) :
    ∃ t, execReadCounters src tag arg offset s = .next t ∧ Kept f q t := by
  refine live_kept h (fun s h => ?_)
  with_reducible repeat' first | assumption | apply Kept.requestNow

theorem execReadEvents_kept (h : Kept f q s) (src tag arg) :
    ∃ t, execReadEvents src tag arg s = .next t ∧ Kept f q t := by
  refine live_kept h (fun s h => ?_)
  with_reducible repeat' first | assumption | apply Kept.requestNow

theorem execSealKey_kept (h : Kept f q s) (src tag arg key sig) :
    ∃ t, execSealKey src tag arg key sig s = .next t ∧ Kept f q t := by
  refine live_kept h (fun s h => ?_)
  with_reducible repeat' first | assumption | apply Kept.requestNow

theorem execZeroize_kept (h : Kept f q s) (src tag) :
    ∃ t, execZeroize src tag s = .next t ∧ Kept f q t := by
  refine live_kept h (fun s h => ?_)
  with_reducible repeat' first | assumption | apply Kept.requestNow

theorem execLifecycle_kept (h : Kept f q s) (src tag arg key sig) :
    ∃ t, execLifecycle src tag arg key sig s = .next t ∧ Kept f q t := by
  refine live_kept h (fun s h => ?_)
  with_reducible repeat' first | assumption | apply Kept.requestNow

theorem Kept.ring (h : Kept f q s) (busy) :
    Kept f q (State.ring s busy) := by
  unfold State.ring
  with_reducible repeat' first | assumption | apply Kept.put | apply Kept.enterIntake | apply Kept.ite

theorem Kept.takeResponse (h : Kept f q s) :
    Kept f q (State.takeResponse s) := by
  unfold State.takeResponse
  with_reducible repeat' first | assumption | apply Kept.put

theorem execDoorbell_kept (h : Kept f q s) :
    ∃ t, execDoorbell s = .next t ∧ Kept f q t := by
  refine live_kept h (fun s h => ?_)
  with_reducible repeat' first | assumption | apply Kept.ring | apply Kept.ite

theorem execRspTaken_kept (h : Kept f q s) :
    ∃ t, execRspTaken s = .next t ∧ Kept f q t := by
  refine live_kept h (fun s h => ?_)
  with_reducible repeat' first | assumption | apply Kept.takeResponse | apply Kept.ite

theorem Kept.writeMbctl (h : Kept f q s) (v) :
    Kept f q (State.writeMbctl s v) := by
  unfold State.writeMbctl
  with_reducible repeat' first
    | assumption | apply Kept.setWord | apply Kept.takeResponse | apply Kept.ring | apply Kept.ite

theorem Kept.hostWrite (h : Kept f q s) (addr v) :
    Kept f q (State.hostWrite s addr v) := by
  unfold State.hostWrite
  with_reducible repeat' first
    | assumption | apply Kept.writeMbctl | apply Kept.put | apply Kept.setWord | apply Kept.ite | split

theorem execRegisterWrite_kept (h : Kept f q s) (path addr bytes v) :
    ∃ t, execRegisterWrite path addr bytes v s = .next t ∧ Kept f q t := by
  refine live_kept h (fun s h => ?_)
  with_reducible repeat' first
    | assumption | apply Kept.flow | apply Kept.loadHandovers | apply Kept.coreWrite | apply Kept.hostWrite
    | apply Kept.ite | split

theorem execMctpMessage_kept (h : Kept f q s) (eid msgTag ic bytes) :
    ∃ t, execMctpMessage eid msgTag ic bytes s = .next t ∧ Kept f q t := by
  refine live_kept h (fun s h => ?_)
  with_reducible repeat' first | assumption | apply Kept.sat | apply Kept.enterIntake | apply Kept.ite

theorem Kept.i3cReply (h : Kept f q s) (bs) :
    Kept f q (State.i3cReply s bs) := by
  unfold State.i3cReply
  with_reducible repeat' first | assumption | apply Kept.modAlorn | exact fun _ => ⟨Nat.le_refl _, Nat.le_refl _⟩

theorem Kept.resetMctp (h : Kept f q s) :
    Kept f q (State.resetMctp s) := by
  unfold State.resetMctp
  with_reducible repeat' first | assumption | apply Kept.breakLock | apply Kept.ite

theorem Kept.takeControl (h : Kept f q s) (x') :
    Kept f q (State.takeControl s x') := by
  unfold State.takeControl
  with_reducible repeat' first
    | assumption | apply Kept.i3cReply | apply Kept.modAlorn | apply Kept.resetMctp
    | exact fun _ => ⟨Nat.le_refl _, Nat.le_refl _⟩ | apply Kept.ite | split

theorem Kept.i3cControl (h : Kept f q s) (k eid) :
    Kept f q (State.i3cControl s k eid) := by
  unfold State.i3cControl
  with_reducible repeat' first
    | assumption | apply Kept.takeControl | apply Kept.modAlorn | exact fun _ => ⟨Nat.le_refl _, Nat.le_refl _⟩
    | apply Kept.ite | split

theorem Kept.takeHeldControl (h : Kept f q s) :
    Kept f q (State.takeHeldControl s) := by
  unfold State.takeHeldControl
  with_reducible repeat' first
    | assumption | apply Kept.takeControl | apply Kept.modAlorn | exact fun _ => ⟨Nat.le_refl _, Nat.le_refl _⟩
    | apply Kept.foldl | intro _ _ _

theorem execSetEndpointId_kept (h : Kept f q s) (eid) :
    ∃ t, execSetEndpointId eid s = .next t ∧ Kept f q t := by
  refine live_kept h (fun s h => ?_)
  with_reducible repeat' first | assumption | apply Kept.i3cControl

theorem execGetEndpointId_kept (h : Kept f q s) :
    ∃ t, execGetEndpointId s = .next t ∧ Kept f q t := by
  refine live_kept h (fun s h => ?_)
  with_reducible repeat' first | assumption | apply Kept.i3cControl

theorem execGetMctpVersionSupport_kept (h : Kept f q s) :
    ∃ t, execGetMctpVersionSupport s = .next t ∧ Kept f q t := by
  refine live_kept h (fun s h => ?_)
  with_reducible repeat' first | assumption | apply Kept.i3cControl

theorem execGetMessageTypeSupport_kept (h : Kept f q s) :
    ∃ t, execGetMessageTypeSupport s = .next t ∧ Kept f q t := by
  refine live_kept h (fun s h => ?_)
  with_reducible repeat' first | assumption | apply Kept.i3cControl

theorem execGetVendorDefinedMsgSupport_kept (h : Kept f q s) :
    ∃ t, execGetVendorDefinedMsgSupport s = .next t ∧ Kept f q t := by
  refine live_kept h (fun s h => ?_)
  with_reducible repeat' first | assumption | apply Kept.i3cControl

theorem execGetstatus_kept (h : Kept f q s) :
    ∃ t, execGetstatus s = .next t ∧ Kept f q t := by
  refine live_kept h (fun s h => ?_)
  with_reducible repeat' first | assumption | apply Kept.i3cReply | apply Kept.ite

theorem execI3cTargetReset_kept (h : Kept f q s) :
    ∃ t, execI3cTargetReset s = .next t ∧ Kept f q t := by
  refine live_kept h (fun s h => ?_)
  with_reducible repeat' first | assumption | apply Kept.resetMctp

theorem Kept.takeMgmt (h : Kept f q s) (l p) :
    Kept f q (State.takeMgmt s l p) := by
  unfold State.takeMgmt
  with_reducible repeat' first
    | assumption | apply Kept.stray | apply Kept.nack | apply Kept.relayAnswer | apply Kept.enterIntake
    | apply Kept.ite

theorem execMgmtArrival_kept (h : Kept f q s) (port pkt) :
    ∃ t, execMgmtArrival port pkt s = .next t ∧ Kept f q t := by
  refine live_kept h (fun s h => ?_)
  with_reducible repeat' first
    | assumption | apply Kept.flow | apply Kept.reply | apply Kept.request | apply Kept.takeIn
    | apply Kept.discardHead | apply Kept.takeMgmt | intro _ _ | apply Kept.ite | split

theorem Kept.abortCache (h : Kept f q s) : Kept f q (State.abortCache s) :=
  h.setAlorn _ h.sound.requests (by simpa using h.sound.cache)


theorem Kept.loseWork (h : Kept f q s) (halt) :
    Kept f q (State.loseWork s halt) := by
  unfold State.loseWork
  with_reducible repeat' first
    | assumption | apply Kept.breakAll | apply Kept.cutLoad | apply Kept.freeStaging | apply Kept.abortCache
    | apply Kept.modAlorn | apply Kept.modPort | apply Kept.deliver | exact fun _ => ⟨Nat.le_refl _, Nat.le_refl _⟩
    | apply Kept.foldl | intro _ _ _ | apply Kept.ite | split

theorem Kept.dropIntake (h : Kept f q s) : Kept f q (State.dropIntake s) :=
  (h.setAlorn { s.alorn with intake := [], held := [], i3cHeld := [] } (by simp) h.sound.cache).sat _ _ _


theorem Kept.restart (h : Kept f q s) (cause rom) :
    Kept f q (State.restart s cause rom) := by
  unfold State.restart
  with_reducible repeat' first
    | assumption | apply Kept.sat | apply Kept.modAlorn | apply Kept.loseWork | apply Kept.event
    | apply Kept.dropIntake | apply Kept.put | exact fun _ => ⟨Nat.le_refl _, Nat.le_refl _⟩ | apply Kept.ite

theorem execWatchdogExpiry_kept (h : Kept f q s) (romAddr) :
    ∃ t, execWatchdogExpiry romAddr s = .next t ∧ Kept f q t := by
  refine live_kept h (fun s h => ?_)
  with_reducible repeat' first | assumption | apply Kept.flow | apply Kept.restart

theorem Kept.eccRestart (h : Kept f q s) (mem addr) :
    Kept f q (State.eccRestart s mem addr) := by
  unfold State.eccRestart
  with_reducible repeat' first
    | assumption | apply Kept.restart | apply Kept.drawn | apply Kept.event | apply Kept.ite

theorem execAlornEcc_kept (h : Kept f q s) (mem corrected addr) :
    ∃ t, execAlornEcc mem corrected addr s = .next t ∧ Kept f q t := by
  refine live_kept h (fun s h => Kept.ite h (Kept.ite ?_ ?_))
  · split <;> exact h.sat _ _ _
  · split
    · exact (h.eccRestart _ _).flow
    · exact (h.eccRestart _ _).flow
    · refine h.modAlorn _ (fun a => ⟨Nat.le_refl _, ?_⟩)
      simp only [List.length_eraseIdx]
      split <;> omega
    · exact h.breakLock _
    · exact h.emptyStaging


theorem Kept.checkSlot (h : Kept f q s) (corrupt k) :
    Kept f q (State.checkSlot s corrupt k) := by
  unfold State.checkSlot
  with_reducible repeat' first | assumption | apply Kept.corruptSlot | apply Kept.ite | split

theorem execAlornRunning_kept (h : Kept f q s) (corrupt) :
    ∃ t, execAlornRunning corrupt s = .next t ∧ Kept f q t := by
  refine live_kept h (fun s h => ?_)
  with_reducible repeat' first
    | assumption | apply Kept.loadHandovers | apply Kept.takeHeldControl | apply Kept.put | apply Kept.checkSlot
    | apply Kept.foldl | intro _ _ _ | apply Kept.ite

theorem Kept.discardFifo (h : Kept f q s) (n) : Kept f q (State.discardFifo s n) :=
  (h.setFifo_le n _ (by simp)).sat _ _ _


theorem wholeStages_length (l : List Stage) : (wholeStages l).length ≤ l.length := by
  unfold wholeStages
  simp only [List.length_reverse]
  exact Nat.le_trans (List.dropWhile_sublist _).length_le (by simp)

theorem Kept.cutFifo (h : Kept f q s) (n) : Kept f q (State.cutFifo s n) := by
  unfold State.cutFifo
  extract_lets ws keep s1
  have h1 : Kept f q s1 := h.upd (outWait := s.outWait.filter (fun w => w.fifo != n))
  exact (h1.setFifo_le n ⟨keep, false, (s1.fifo n).last⟩ (wholeStages_length _)).sat _ _ _


theorem Kept.resetReg (h : Kept f q s) (i r) :
    Kept f q (State.resetReg s i r) := by
  unfold State.resetReg
  with_reducible repeat' first | assumption | apply Kept.setWord | apply Kept.foldl | intro _ _ _

theorem Kept.dropCore (h : Kept f q s) (i) :
    Kept f q (State.dropCore s i) := by
  unfold State.dropCore
  with_reducible repeat' first | assumption | apply Kept.upd

theorem Kept.resetCore (h : Kept f q s) (i) :
    Kept f q (State.resetCore s i) := by
  unfold State.resetCore
  with_reducible repeat' first
    | assumption | apply Kept.dropCore | apply Kept.breakAll | apply Kept.resetColls | apply Kept.resetReg
    | apply Kept.clearBusy | apply Kept.discardFifo | apply Kept.cutFifo | apply Kept.sat | apply Kept.unholdPlumb
    | apply Kept.foldl | intro _ _ _ | apply Kept.upd

theorem execCoreReset_kept (h : Kept f q s) (i) :
    ∃ t, execCoreReset i s = .next t ∧ Kept f q t := by
  refine live_kept h (fun s h => ?_)
  with_reducible repeat' first | assumption | apply Kept.flow | apply Kept.resetCore | apply Kept.ite

theorem execCoreResetRelease_kept (h : Kept f q s) (i) : ∃ t, execCoreResetRelease i s = .next t ∧ Kept f q t := by
  refine live_kept h (fun s h => Kept.ite ?_ h)
  have h1 : Kept f q ((List.range 6).foldl (fun s k => s.setFifo (coreFifo i.val k) Fifo.initial) s) :=
    h.foldl (fun _ _ hs => hs.setFifo _ _ (fun _ => Nat.zero_le _))
  exact (h1.upd (coreRst := _)).flow


theorem Kept.resetAll (h : Kept f q s) (r) :
    Kept f q (State.resetAll s r) := by
  unfold State.resetAll
  with_reducible repeat' first | assumption | apply Kept.setWord | apply Kept.foldl | intro _ _ _

theorem execHostBridgeReset_kept (h : Kept f q s) :
    ∃ t, execHostBridgeReset s = .next t ∧ Kept f q t := by
  refine live_kept h (fun s h => ?_)
  with_reducible repeat' first
    | assumption | apply Kept.breakLock | apply Kept.resetAll | apply Kept.modAlorn | apply Kept.discardFifo
    | apply Kept.cutFifo | apply Kept.flow | exact fun _ => ⟨Nat.le_refl _, Nat.le_refl _⟩ | apply Kept.foldl
    | intro _ _ _ | apply Kept.ite | split | apply Kept.upd

theorem Kept.chipResetNow (h : Kept f q s) : Kept f q (State.chipResetNow s) := by
  have k : Kept f q ({ State.reset with
      pending := s.pending, freeCtr := s.freeCtr, fuse := s.fuse, sealStore := s.sealStore, wiped := s.wiped
      chipReset := true } : State) :=
    ⟨⟨rfl, rfl, Nat.zero_le _, Nat.zero_le _, Nat.zero_le _, Nat.zero_le _, by intro e he; cases he⟩, h.pending, h.fuse⟩
  exact (k.drawn _).put _ _ _


theorem execChipReset_kept (h : Kept f q s) : ∃ t, execChipReset s = .next t ∧ Kept f q t := ⟨_, rfl, h.chipResetNow⟩


theorem execChipResetRelease_kept (h : Kept f q s) : ∃ t, execChipResetRelease s = .next t ∧ Kept f q t :=
  ⟨_, rfl, Kept.ite ((h.upd (chipReset := false)).foldl (fun _ _ hs => hs.showLight _)) h⟩


theorem Kept.loseEdges (h : Kept f q s) (d) :
    Kept f q (State.loseEdges s d) := by
  unfold State.loseEdges
  with_reducible repeat' first
    | assumption | apply Kept.pulsesStop | apply Kept.foldl | intro _ _ _ | apply Kept.ite | split | apply Kept.upd

theorem execClockStop_kept (h : Kept f q s) (d) :
    ∃ t, execClockStop d s = .next t ∧ Kept f q t := by
  refine live_kept h (fun s h => ?_)
  with_reducible repeat' first
    | assumption | apply Kept.loseEdges | apply Kept.sat | apply Kept.event | apply Kept.flow | apply Kept.allDown
    | apply Kept.ite | split | apply Kept.upd

theorem Kept.wakeCluster (h : Kept f q s) (c) :
    Kept f q (State.wakeCluster s c) := by
  unfold State.wakeCluster
  with_reducible repeat' first
    | assumption | apply Kept.fenceCores | apply Kept.quiesceColls | apply Kept.stallPlumb | apply Kept.stallSlots
    | apply Kept.feed | apply Kept.drainPlumb | apply Kept.foldl | intro _ _ _ | apply Kept.upd

theorem Kept.wakePorts (h : Kept f q s) :
    Kept f q (State.wakePorts s) := by
  unfold State.wakePorts
  with_reducible repeat' first | assumption | apply Kept.portReads | apply Kept.foldl | intro _ _ _

theorem Kept.regainEdges (h : Kept f q s) (d) :
    Kept f q (State.regainEdges s d) := by
  unfold State.regainEdges
  with_reducible repeat' first | assumption | apply Kept.pulsesStart | apply Kept.ite | split | apply Kept.upd

theorem execClockStart_kept (h : Kept f q s) (d) :
    ∃ t, execClockStart d s = .next t ∧ Kept f q t := by
  refine live_kept h (fun s h => ?_)
  with_reducible repeat' first
    | assumption | apply Kept.regainEdges | apply Kept.event | apply Kept.drawn | apply Kept.flow
    | apply Kept.wakeCluster | apply Kept.wakePorts | apply Kept.ite | split

theorem execMultiOvr_kept (h : Kept f q s) (d) :
    ∃ t, execMultiOvr d s = .next t ∧ Kept f q t := by
  refine live_kept h (fun s h => ?_)
  with_reducible repeat' first | assumption | apply Kept.put | apply Kept.ite | split | apply Kept.upd

theorem Kept.setTime (h : Kept f q s) (x') :
    Kept f q (State.setTime s x') := by
  unfold State.setTime
  with_reducible repeat' first | assumption | apply Kept.setWord | apply Kept.event | apply Kept.ite | split

theorem Kept.tick (h : Kept f q s) :
    Kept f q (State.tick s) := by
  unfold State.tick
  with_reducible repeat' first
    | assumption | apply Kept.setWord | apply Kept.setTime | apply Kept.foldl | intro _ _ _ | apply Kept.ite | split
    | apply Kept.upd

end Sys2Proof.Machine
end

