-- ==== Sys2Proof/WellFormed.lean ====
section
/-! DEFINITION. Which commands are well formed: operands that the types do not bound already. -/

namespace Sys2Proof

/-- A packet of at most 64 payload flits (R82). -/
def Packet.wellFormed (p : Packet) : Bool := p.body.length ≤ 64

/-- An endpoint that takes requests: a core port, a stack port or the host bridge (Table 4-10). -/
def isSink (ep : BitVec 9) : Bool := ep.toNat < 280 || ep = 286

/-- Whether a command's operands are ones its event can have. -/
def Instr.wellFormed : Instr → Bool
  | .inFifoAdmit _ p => p.wellFormed
  | .routerHeaderArrival _ _ _ p => p.wellFormed
  | .putArrival ep p => p.wellFormed && ep.toNat < 288
  | .putMcArrival ep p => p.wellFormed && ep.toNat < 288
  | .getReqArrival ep p => p.wellFormed && ep.toNat < 288
  | .atomAddArrival ep p => p.wellFormed && ep.toNat < 288
  | .atomSwapArrival ep p => p.wellFormed && ep.toNat < 288
  | .signalArrival ep p => p.wellFormed && ep.toNat < 288
  | .amArrival ep p => p.wellFormed && ep.toNat < 288
  | .redDownArrival ep p => p.wellFormed && ep.toNat < 288
  | .stackSinkRedDown _ p => p.wellFormed
  | .getRspArrival ep p => p.wellFormed && ep.toNat < 288
  | .atomRspArrival ep p => p.wellFormed && ep.toNat < 288
  | .ackArrival ep p => p.wellFormed && ep.toNat < 288
  | .nackArrival ep p => p.wellFormed && ep.toNat < 288
  | .amReplyArrival ep p => p.wellFormed && ep.toNat < 288
  | .mgmtArrival _ p => p.wellFormed
  | .portEgress _ _ p => p.wellFormed
  | .portIngress _ _ p => p.wellFormed
  | .mgmtRelayAtPort _ p => p.wellFormed
  | .treePacketArrival _ _ p => p.wellFormed
  | .mergeAnswerArrival _ _ p => p.wellFormed
  | .contributionTaken _ _ p _ => p.wellFormed
  | .plumbPortIngress _ p => p.wellFormed
  | .handoverDrainDone ep bank => ep.toNat < 280 && (ep.toNat ≥ 256 || bank.toNat < 48)
  | .handoverLeaseExpiry ep bank => ep.toNat < 280 && (ep.toNat ≥ 256 || bank.toNat < 48)
  | .mctpMessage _ _ _ bytes => bytes.length ≤ 1032
  | .relayResponse _ a => a.words.length ≤ 128
  | .loadStencilData _ _ _ ws => ws.length ≤ 126
  | .sealKey _ _ _ key sig => key.length ≤ 7 && sig.length ≤ 12
  | .lifecycle _ _ _ key sig => key.length ≤ 7 && sig.length ≤ 12
  | _ => true

end Sys2Proof
end

