-- ==== Sys2Proof/Laws/PerInstr.lean ====
section
/-! SUPPORT. The family of facts stated per command: a well-formed command carries a packet of at most
64 payload flits, or none (R82). -/

set_option Elab.async false

namespace Sys2Proof

/-- The packet a command carries, if it carries one. -/
def Instr.packet? : Instr → Option Packet
  | .chipReset => none
  | .coreReset _ => none
  | .coreResetRelease _ => none
  | .hostBridgeReset => none
  | .testLogicReset => none
  | .throttleAssert => none
  | .throttleRelease => none
  | .fabricMeasurement _ _ _ => none
  | .tamperInput => none
  | .glitchDetectorTrip => none
  | .refLost => none
  | .refBack => none
  | .clkLkLost => none
  | .clkMgLost => none
  | .clockStop _ => none
  | .clockStart _ => none
  | .fifoWrite _ _ => none
  | .fifoRead _ => none
  | .inFifoAdmit _ pkt => some pkt
  | .linkHandshake _ _ => none
  | .routerHeaderArrival _ _ _ pkt => some pkt
  | .arbiterGrant _ _ _ => none
  | .putArrival _ pkt => some pkt
  | .putMcArrival _ pkt => some pkt
  | .getReqArrival _ pkt => some pkt
  | .atomAddArrival _ pkt => some pkt
  | .atomSwapArrival _ pkt => some pkt
  | .signalArrival _ pkt => some pkt
  | .amArrival _ pkt => some pkt
  | .redDownArrival _ pkt => some pkt
  | .stackSinkRedDown _ pkt => some pkt
  | .getRspArrival _ pkt => some pkt
  | .atomRspArrival _ pkt => some pkt
  | .ackArrival _ pkt => some pkt
  | .nackArrival _ pkt => some pkt
  | .amReplyArrival _ pkt => some pkt
  | .mgmtArrival _ pkt => some pkt
  | .hostDrainExpiry => none
  | .portEgress _ _ pkt => some pkt
  | .portIngress _ _ pkt => some pkt
  | .mgmtRelayAtPort _ pkt => some pkt
  | .windowRelease _ _ _ => none
  | .stagingDeparture _ _ => none
  | .poolForward _ _ => none
  | .parcelSend _ => none
  | .parcelReceive _ _ _ => none
  | .linkRetryExpiry _ => none
  | .ackStall _ => none
  | .alignmentBlockReceive _ _ _ => none
  | .lightDetected _ => none
  | .lightLost _ => none
  | .lossOfSignal _ _ => none
  | .retrainExpiry _ => none
  | .keyTimeoutExpiry _ => none
  | .drainComplete _ => none
  | .drainLimitExpiry _ => none
  | .downHoldExpiry _ _ => none
  | .keyOffer _ _ => none
  | .keyResult _ _ => none
  | .delayProbe _ _ => none
  | .delayEcho _ _ => none
  | .patchReq _ _ => none
  | .patchApply _ => none
  | .portOpen _ => none
  | .portClose _ => none
  | .controlRepeatExpiry _ _ => none
  | .delayPeriodExpiry _ => none
  | .laneSignalLost _ _ => none
  | .serWindowExpiry _ _ _ => none
  | .patchFail _ => none
  | .laserSlotRemoved _ => none
  | .laserSlotInserted _ => none
  | .laserFault _ _ => none
  | .laserFeed _ _ => none
  | .laserLow _ _ _ => none
  | .laserRampDone _ => none
  | .treePacketArrival _ _ pkt => some pkt
  | .roomCountArrival _ _ _ _ _ _ _ => none
  | .forkCopy _ _ => none
  | .mergeAnswerArrival _ _ pkt => some pkt
  | .mergeTimeout _ _ => none
  | .contributionTaken _ _ pkt _ => some pkt
  | .resultCopy _ _ _ => none
  | .barArrive _ _ _ => none
  | .barRelease _ _ _ => none
  | .sredUp _ _ _ => none
  | .sredDown _ _ _ => none
  | .plumbPairExpiry _ _ => none
  | .plumbPortIngress _ pkt => some pkt
  | .abort _ _ => none
  | .epoch _ _ => none
  | .retirementRoundResult _ => none
  | .epochPollExpiry => none
  | .epochSettleExpiry => none
  | .nop _ _ => none
  | .put _ _ => none
  | .get _ _ => none
  | .putMc _ _ => none
  | .atomAdd _ _ => none
  | .atomSwap _ _ => none
  | .signal _ _ => none
  | .am _ _ => none
  | .amReply _ _ => none
  | .barrier _ _ => none
  | .scalarReduce _ _ => none
  | .reduce _ _ => none
  | .allReduce _ _ => none
  | .broadcast _ _ => none
  | .reduceScatter _ _ => none
  | .allGather _ _ => none
  | .requestTimeout _ _ _ => none
  | .collectiveTimeout _ _ => none
  | .cpQtailWrite _ _ _ => none
  | .skip _ _ => none
  | .cpQbaseWrite _ _ _ => none
  | .cpEvcntWrite _ _ _ _ => none
  | .cpHandoverWrite _ _ => none
  | .cpRingtabWrite _ _ => none
  | .ringAdvance _ _ _ => none
  | .ringEnable _ _ => none
  | .ringDisable _ _ => none
  | .registerWrite _ _ _ _ => none
  | .handoverDrainDone _ _ => none
  | .handoverLeaseExpiry _ _ => none
  | .doorbell => none
  | .rspTaken => none
  | .mctpMessage _ _ _ _ => none
  | .setEndpointId _ => none
  | .getEndpointId => none
  | .getMctpVersionSupport => none
  | .getMessageTypeSupport => none
  | .getVendorDefinedMsgSupport => none
  | .getstatus => none
  | .i3cTargetReset => none
  | .requestTaken => none
  | .relayResponse _ _ => none
  | .relayTimeout _ _ => none
  | .getVersion _ _ => none
  | .getCensus _ _ => none
  | .selfTest _ _ _ => none
  | .selfTestDone _ _ => none
  | .claim _ _ _ => none
  | .release _ _ => none
  | .loadStencilBegin _ _ _ => none
  | .loadStencilData _ _ _ _ => none
  | .loadStencilCommit _ _ _ => none
  | .stencilLoadLimitExpiry => none
  | .loadStencilDiscard _ _ _ => none
  | .applyEpoch _ _ _ => none
  | .applyEpochCancel _ _ _ => none
  | .quiesce _ _ _ => none
  | .quiesceDrained _ => none
  | .quiesceStuck _ => none
  | .resume _ _ _ => none
  | .fence _ _ _ => none
  | .portAdmit _ _ _ => none
  | .portQuarantine _ _ _ => none
  | .portRemap _ _ _ => none
  | .laneSpare _ _ _ => none
  | .laserPrepare _ _ _ => none
  | .laserRestore _ _ _ => none
  | .setCoords _ _ _ => none
  | .setTimebase _ _ _ _ => none
  | .bankHandover _ _ _ => none
  | .readCounters _ _ _ _ => none
  | .readEvents _ _ _ => none
  | .sealKey _ _ _ _ _ => none
  | .zeroize _ _ => none
  | .lifecycle _ _ _ _ _ => none
  | .watchdogExpiry _ => none
  | .alornEcc _ _ _ => none
  | .lockLeaseExpiry => none
  | .tableEcc _ _ _ => none
  | .logRecordWrite => none
  | .chipResetRelease => none
  | .alornRunning _ => none
  | .stencilLoadStep7 => none
  | .multiOvr _ => none

namespace Laws.Listed

/-- The packet of a well-formed command is well formed. -/
def Statement (i : Instr) : Prop :=
  i.wellFormed = true → ∀ pkt, i.packet? = some pkt → pkt.wellFormed = true

theorem chipReset : Statement (.chipReset) :=
  fun _ _ h => nomatch h
theorem coreReset (i : Fin 256) : Statement (.coreReset i) :=
  fun _ _ h => nomatch h
theorem coreResetRelease (i : Fin 256) : Statement (.coreResetRelease i) :=
  fun _ _ h => nomatch h
theorem hostBridgeReset : Statement (.hostBridgeReset) :=
  fun _ _ h => nomatch h
theorem testLogicReset : Statement (.testLogicReset) :=
  fun _ _ h => nomatch h
theorem throttleAssert : Statement (.throttleAssert) :=
  fun _ _ h => nomatch h
theorem throttleRelease : Statement (.throttleRelease) :=
  fun _ _ h => nomatch h
theorem fabricMeasurement (vdd : BitVec 12) (temp : BitVec 12) (speed : BitVec 16) : Statement (.fabricMeasurement vdd temp speed) :=
  fun _ _ h => nomatch h
theorem tamperInput : Statement (.tamperInput) :=
  fun _ _ h => nomatch h
theorem glitchDetectorTrip : Statement (.glitchDetectorTrip) :=
  fun _ _ h => nomatch h
theorem refLost : Statement (.refLost) :=
  fun _ _ h => nomatch h
theorem refBack : Statement (.refBack) :=
  fun _ _ h => nomatch h
theorem clkLkLost : Statement (.clkLkLost) :=
  fun _ _ h => nomatch h
theorem clkMgLost : Statement (.clkMgLost) :=
  fun _ _ h => nomatch h
theorem clockStop (d : Fin 18) : Statement (.clockStop d) :=
  fun _ _ h => nomatch h
theorem clockStart (d : Fin 18) : Statement (.clockStart d) :=
  fun _ _ h => nomatch h
theorem fifoWrite (f : FifoId) (w : Stage) : Statement (.fifoWrite f w) :=
  fun _ _ h => nomatch h
theorem fifoRead (f : FifoId) : Statement (.fifoRead f) :=
  fun _ _ h => nomatch h
theorem inFifoAdmit (f : FifoId) (pkt : Packet) : Statement (.inFifoAdmit f pkt) :=
  fun h q hq => by
    injection hq with hq
    subst hq
    simp only [Instr.wellFormed, Bool.and_eq_true] at h
    first | exact h | exact h.1
theorem linkHandshake (l : LinkId) (levels : BitVec 4180) : Statement (.linkHandshake l levels) :=
  fun _ _ h => nomatch h
theorem routerHeaderArrival (m : Mesh) (r : Fin 256) (inp : Fin 8) (pkt : Packet) : Statement (.routerHeaderArrival m r inp pkt) :=
  fun h q hq => by
    injection hq with hq
    subst hq
    simp only [Instr.wellFormed, Bool.and_eq_true] at h
    first | exact h | exact h.1
theorem arbiterGrant (m : Mesh) (r : Fin 256) (out : Fin 8) : Statement (.arbiterGrant m r out) :=
  fun _ _ h => nomatch h
theorem putArrival (ep : BitVec 9) (pkt : Packet) : Statement (.putArrival ep pkt) :=
  fun h q hq => by
    injection hq with hq
    subst hq
    simp only [Instr.wellFormed, Bool.and_eq_true] at h
    first | exact h | exact h.1
theorem putMcArrival (ep : BitVec 9) (pkt : Packet) : Statement (.putMcArrival ep pkt) :=
  fun h q hq => by
    injection hq with hq
    subst hq
    simp only [Instr.wellFormed, Bool.and_eq_true] at h
    first | exact h | exact h.1
theorem getReqArrival (ep : BitVec 9) (pkt : Packet) : Statement (.getReqArrival ep pkt) :=
  fun h q hq => by
    injection hq with hq
    subst hq
    simp only [Instr.wellFormed, Bool.and_eq_true] at h
    first | exact h | exact h.1
theorem atomAddArrival (ep : BitVec 9) (pkt : Packet) : Statement (.atomAddArrival ep pkt) :=
  fun h q hq => by
    injection hq with hq
    subst hq
    simp only [Instr.wellFormed, Bool.and_eq_true] at h
    first | exact h | exact h.1
theorem atomSwapArrival (ep : BitVec 9) (pkt : Packet) : Statement (.atomSwapArrival ep pkt) :=
  fun h q hq => by
    injection hq with hq
    subst hq
    simp only [Instr.wellFormed, Bool.and_eq_true] at h
    first | exact h | exact h.1
theorem signalArrival (ep : BitVec 9) (pkt : Packet) : Statement (.signalArrival ep pkt) :=
  fun h q hq => by
    injection hq with hq
    subst hq
    simp only [Instr.wellFormed, Bool.and_eq_true] at h
    first | exact h | exact h.1
theorem amArrival (ep : BitVec 9) (pkt : Packet) : Statement (.amArrival ep pkt) :=
  fun h q hq => by
    injection hq with hq
    subst hq
    simp only [Instr.wellFormed, Bool.and_eq_true] at h
    first | exact h | exact h.1
theorem redDownArrival (ep : BitVec 9) (pkt : Packet) : Statement (.redDownArrival ep pkt) :=
  fun h q hq => by
    injection hq with hq
    subst hq
    simp only [Instr.wellFormed, Bool.and_eq_true] at h
    first | exact h | exact h.1
theorem stackSinkRedDown (st : Fin 24) (pkt : Packet) : Statement (.stackSinkRedDown st pkt) :=
  fun h q hq => by
    injection hq with hq
    subst hq
    simp only [Instr.wellFormed, Bool.and_eq_true] at h
    first | exact h | exact h.1
theorem getRspArrival (ep : BitVec 9) (pkt : Packet) : Statement (.getRspArrival ep pkt) :=
  fun h q hq => by
    injection hq with hq
    subst hq
    simp only [Instr.wellFormed, Bool.and_eq_true] at h
    first | exact h | exact h.1
theorem atomRspArrival (ep : BitVec 9) (pkt : Packet) : Statement (.atomRspArrival ep pkt) :=
  fun h q hq => by
    injection hq with hq
    subst hq
    simp only [Instr.wellFormed, Bool.and_eq_true] at h
    first | exact h | exact h.1
theorem ackArrival (ep : BitVec 9) (pkt : Packet) : Statement (.ackArrival ep pkt) :=
  fun h q hq => by
    injection hq with hq
    subst hq
    simp only [Instr.wellFormed, Bool.and_eq_true] at h
    first | exact h | exact h.1
theorem nackArrival (ep : BitVec 9) (pkt : Packet) : Statement (.nackArrival ep pkt) :=
  fun h q hq => by
    injection hq with hq
    subst hq
    simp only [Instr.wellFormed, Bool.and_eq_true] at h
    first | exact h | exact h.1
theorem amReplyArrival (ep : BitVec 9) (pkt : Packet) : Statement (.amReplyArrival ep pkt) :=
  fun h q hq => by
    injection hq with hq
    subst hq
    simp only [Instr.wellFormed, Bool.and_eq_true] at h
    first | exact h | exact h.1
theorem mgmtArrival (port : Option (Fin 6)) (pkt : Packet) : Statement (.mgmtArrival port pkt) :=
  fun h q hq => by
    injection hq with hq
    subst hq
    simp only [Instr.wellFormed, Bool.and_eq_true] at h
    first | exact h | exact h.1
theorem hostDrainExpiry : Statement (.hostDrainExpiry) :=
  fun _ _ h => nomatch h
theorem portEgress (p : Fin 6) (src : Fin 32) (pkt : Packet) : Statement (.portEgress p src pkt) :=
  fun h q hq => by
    injection hq with hq
    subst hq
    simp only [Instr.wellFormed, Bool.and_eq_true] at h
    first | exact h | exact h.1
theorem portIngress (p : Fin 6) (vl : Fin 6) (pkt : Packet) : Statement (.portIngress p vl pkt) :=
  fun h q hq => by
    injection hq with hq
    subst hq
    simp only [Instr.wellFormed, Bool.and_eq_true] at h
    first | exact h | exact h.1
theorem mgmtRelayAtPort (p : Fin 6) (pkt : Packet) : Statement (.mgmtRelayAtPort p pkt) :=
  fun h q hq => by
    injection hq with hq
    subst hq
    simp only [Instr.wellFormed, Bool.and_eq_true] at h
    first | exact h | exact h.1
theorem windowRelease (p : Fin 6) (k : Fin 3) (src : Fin 32) : Statement (.windowRelease p k src) :=
  fun _ _ h => nomatch h
theorem stagingDeparture (p : Fin 6) (vl : Fin 6) : Statement (.stagingDeparture p vl) :=
  fun _ _ h => nomatch h
theorem poolForward (p : Fin 6) (k : Nat) : Statement (.poolForward p k) :=
  fun _ _ h => nomatch h
theorem parcelSend (p : Fin 6) : Statement (.parcelSend p) :=
  fun _ _ h => nomatch h
theorem parcelReceive (p : Fin 6) (n : Fin 20560) (w : ParcelLevels) : Statement (.parcelReceive p n w) :=
  fun _ _ h => nomatch h
theorem linkRetryExpiry (p : Fin 6) : Statement (.linkRetryExpiry p) :=
  fun _ _ h => nomatch h
theorem ackStall (p : Fin 6) : Statement (.ackStall p) :=
  fun _ _ h => nomatch h
theorem alignmentBlockReceive (p : Fin 6) (lane : Fin 18) (b : HeardBlock) : Statement (.alignmentBlockReceive p lane b) :=
  fun _ _ h => nomatch h
theorem lightDetected (p : Fin 6) : Statement (.lightDetected p) :=
  fun _ _ h => nomatch h
theorem lightLost (p : Fin 6) : Statement (.lightLost p) :=
  fun _ _ h => nomatch h
theorem lossOfSignal (p : Fin 6) (lanes : BitVec 18) : Statement (.lossOfSignal p lanes) :=
  fun _ _ h => nomatch h
theorem retrainExpiry (p : Fin 6) : Statement (.retrainExpiry p) :=
  fun _ _ h => nomatch h
theorem keyTimeoutExpiry (p : Fin 6) : Statement (.keyTimeoutExpiry p) :=
  fun _ _ h => nomatch h
theorem drainComplete (p : Fin 6) : Statement (.drainComplete p) :=
  fun _ _ h => nomatch h
theorem drainLimitExpiry (p : Fin 6) : Statement (.drainLimitExpiry p) :=
  fun _ _ h => nomatch h
theorem downHoldExpiry (p : Fin 6) (light : Bool) : Statement (.downHoldExpiry p light) :=
  fun _ _ h => nomatch h
theorem keyOffer (p : Fin 6) (payload : BitVec 2048) : Statement (.keyOffer p payload) :=
  fun _ _ h => nomatch h
theorem keyResult (p : Fin 6) (payload : BitVec 2048) : Statement (.keyResult p payload) :=
  fun _ _ h => nomatch h
theorem delayProbe (p : Fin 6) (payload : BitVec 2048) : Statement (.delayProbe p payload) :=
  fun _ _ h => nomatch h
theorem delayEcho (p : Fin 6) (payload : BitVec 2048) : Statement (.delayEcho p payload) :=
  fun _ _ h => nomatch h
theorem patchReq (p : Fin 6) (payload : BitVec 2048) : Statement (.patchReq p payload) :=
  fun _ _ h => nomatch h
theorem patchApply (p : Fin 6) : Statement (.patchApply p) :=
  fun _ _ h => nomatch h
theorem portOpen (p : Fin 6) : Statement (.portOpen p) :=
  fun _ _ h => nomatch h
theorem portClose (p : Fin 6) : Statement (.portClose p) :=
  fun _ _ h => nomatch h
theorem controlRepeatExpiry (p : Fin 6) (msg : Repeated) : Statement (.controlRepeatExpiry p msg) :=
  fun _ _ h => nomatch h
theorem delayPeriodExpiry (p : Fin 6) : Statement (.delayPeriodExpiry p) :=
  fun _ _ h => nomatch h
theorem laneSignalLost (p : Fin 6) (lane : Fin 18) : Statement (.laneSignalLost p lane) :=
  fun _ _ h => nomatch h
theorem serWindowExpiry (p : Fin 6) (lane : Fin 18) (corrected : BitVec 20) : Statement (.serWindowExpiry p lane corrected) :=
  fun _ _ h => nomatch h
theorem patchFail (p : Fin 6) : Statement (.patchFail p) :=
  fun _ _ h => nomatch h
theorem laserSlotRemoved (slot : Fin 8) : Statement (.laserSlotRemoved slot) :=
  fun _ _ h => nomatch h
theorem laserSlotInserted (slot : Fin 8) : Statement (.laserSlotInserted slot) :=
  fun _ _ h => nomatch h
theorem laserFault (slot : Fin 8) (output : BitVec 12) : Statement (.laserFault slot output) :=
  fun _ _ h => nomatch h
theorem laserFeed (p : Fin 6) (feed : Fin 2) : Statement (.laserFeed p feed) :=
  fun _ _ h => nomatch h
theorem laserLow (p : Fin 6) (lane : Fin 18) (power : BitVec 11) : Statement (.laserLow p lane power) :=
  fun _ _ h => nomatch h
theorem laserRampDone (slot : Fin 8) : Statement (.laserRampDone slot) :=
  fun _ _ h => nomatch h
theorem treePacketArrival (u : Unit9) (inp : Fin 8) (pkt : Packet) : Statement (.treePacketArrival u inp pkt) :=
  fun h q hq => by
    injection hq with hq
    subst hq
    simp only [Instr.wellFormed, Bool.and_eq_true] at h
    first | exact h | exact h.1
theorem roomCountArrival (u : Unit9) (edge : Fin 8) (group : BitVec 12) (kind : RoomKind) (epoch : Bool) (count : BitVec 4) (gen : Bool) : Statement (.roomCountArrival u edge group kind epoch count gen) :=
  fun _ _ h => nomatch h
theorem forkCopy (u : Unit9) (buf : Fin 64) : Statement (.forkCopy u buf) :=
  fun _ _ h => nomatch h
theorem mergeAnswerArrival (u : Unit9) (out : Fin 8) (pkt : Packet) : Statement (.mergeAnswerArrival u out pkt) :=
  fun h q hq => by
    injection hq with hq
    subst hq
    simp only [Instr.wellFormed, Bool.and_eq_true] at h
    first | exact h | exact h.1
theorem mergeTimeout (u : Unit9) (entry : Fin 64) : Statement (.mergeTimeout u entry) :=
  fun _ _ h => nomatch h
theorem contributionTaken (u : Unit9) (inp : Fin 8) (pkt : Packet) (res : List Residue) : Statement (.contributionTaken u inp pkt res) :=
  fun h q hq => by
    injection hq with hq
    subst hq
    simp only [Instr.wellFormed, Bool.and_eq_true] at h
    first | exact h | exact h.1
theorem resultCopy (u : Unit9) (slot : Fin 64) (out : Fin 8) : Statement (.resultCopy u slot out) :=
  fun _ _ h => nomatch h
theorem barArrive (n : PlumbNode) (src : PlumbFrom) (m : PlumbMsg) : Statement (.barArrive n src m) :=
  fun _ _ h => nomatch h
theorem barRelease (n : PlumbNode) (hub : Hub) (m : HubCopy) : Statement (.barRelease n hub m) :=
  fun _ _ h => nomatch h
theorem sredUp (n : PlumbNode) (src : PlumbFrom) (m : PlumbMsg) : Statement (.sredUp n src m) :=
  fun _ _ h => nomatch h
theorem sredDown (n : PlumbNode) (hub : Hub) (m : HubCopy) : Statement (.sredDown n hub m) :=
  fun _ _ h => nomatch h
theorem plumbPairExpiry (n : PlumbNode) (m : PlumbMsg) : Statement (.plumbPairExpiry n m) :=
  fun _ _ h => nomatch h
theorem plumbPortIngress (p : Fin 6) (pkt : Packet) : Statement (.plumbPortIngress p pkt) :=
  fun h q hq => by
    injection hq with hq
    subst hq
    simp only [Instr.wellFormed, Bool.and_eq_true] at h
    first | exact h | exact h.1
theorem abort (src : PlumbFrom) (m : PlumbMsg) : Statement (.abort src m) :=
  fun _ _ h => nomatch h
theorem epoch (port : Option (Fin 6)) (m : PlumbMsg) : Statement (.epoch port m) :=
  fun _ _ h => nomatch h
theorem retirementRoundResult (m : PlumbMsg) : Statement (.retirementRoundResult m) :=
  fun _ _ h => nomatch h
theorem epochPollExpiry : Statement (.epochPollExpiry) :=
  fun _ _ h => nomatch h
theorem epochSettleExpiry : Statement (.epochSettleExpiry) :=
  fun _ _ h => nomatch h
theorem nop (i : Fin 256) (q : Fin 16) : Statement (.nop i q) :=
  fun _ _ h => nomatch h
theorem put (i : Fin 256) (q : Fin 16) : Statement (.put i q) :=
  fun _ _ h => nomatch h
theorem get (i : Fin 256) (q : Fin 16) : Statement (.get i q) :=
  fun _ _ h => nomatch h
theorem putMc (i : Fin 256) (q : Fin 16) : Statement (.putMc i q) :=
  fun _ _ h => nomatch h
theorem atomAdd (i : Fin 256) (q : Fin 16) : Statement (.atomAdd i q) :=
  fun _ _ h => nomatch h
theorem atomSwap (i : Fin 256) (q : Fin 16) : Statement (.atomSwap i q) :=
  fun _ _ h => nomatch h
theorem signal (i : Fin 256) (q : Fin 16) : Statement (.signal i q) :=
  fun _ _ h => nomatch h
theorem am (i : Fin 256) (q : Fin 16) : Statement (.am i q) :=
  fun _ _ h => nomatch h
theorem amReply (i : Fin 256) (q : Fin 16) : Statement (.amReply i q) :=
  fun _ _ h => nomatch h
theorem barrier (i : Fin 256) (q : Fin 16) : Statement (.barrier i q) :=
  fun _ _ h => nomatch h
theorem scalarReduce (i : Fin 256) (q : Fin 16) : Statement (.scalarReduce i q) :=
  fun _ _ h => nomatch h
theorem reduce (i : Fin 256) (q : Fin 16) : Statement (.reduce i q) :=
  fun _ _ h => nomatch h
theorem allReduce (i : Fin 256) (q : Fin 16) : Statement (.allReduce i q) :=
  fun _ _ h => nomatch h
theorem broadcast (i : Fin 256) (q : Fin 16) : Statement (.broadcast i q) :=
  fun _ _ h => nomatch h
theorem reduceScatter (i : Fin 256) (q : Fin 16) : Statement (.reduceScatter i q) :=
  fun _ _ h => nomatch h
theorem allGather (i : Fin 256) (q : Fin 16) : Statement (.allGather i q) :=
  fun _ _ h => nomatch h
theorem requestTimeout (i : Fin 256) (q : Fin 16) (pos : BitVec 9) : Statement (.requestTimeout i q pos) :=
  fun _ _ h => nomatch h
theorem collectiveTimeout (i : Fin 256) (q : Fin 16) : Statement (.collectiveTimeout i q) :=
  fun _ _ h => nomatch h
theorem cpQtailWrite (i : Fin 256) (q : Fin 16) (v : Word) : Statement (.cpQtailWrite i q v) :=
  fun _ _ h => nomatch h
theorem skip (i : Fin 256) (q : Fin 16) : Statement (.skip i q) :=
  fun _ _ h => nomatch h
theorem cpQbaseWrite (i : Fin 256) (q : Fin 16) (v : Word) : Statement (.cpQbaseWrite i q v) :=
  fun _ _ h => nomatch h
theorem cpEvcntWrite (i : Fin 256) (k : Fin 64) (v : Word) (inc : BitVec 32) : Statement (.cpEvcntWrite i k v inc) :=
  fun _ _ h => nomatch h
theorem cpHandoverWrite (i : Fin 256) (v : Word) : Statement (.cpHandoverWrite i v) :=
  fun _ _ h => nomatch h
theorem cpRingtabWrite (i : Fin 256) (v : Word) : Statement (.cpRingtabWrite i v) :=
  fun _ _ h => nomatch h
theorem ringAdvance (i : Fin 256) (ring : BitVec 12) (pos : BitVec 21) : Statement (.ringAdvance i ring pos) :=
  fun _ _ h => nomatch h
theorem ringEnable (i : Fin 256) (ring : BitVec 12) : Statement (.ringEnable i ring) :=
  fun _ _ h => nomatch h
theorem ringDisable (i : Fin 256) (ring : BitVec 12) : Statement (.ringDisable i ring) :=
  fun _ _ h => nomatch h
theorem registerWrite (path : WritePath) (addr : BitVec 32) (bytes : Nat) (v : Word) : Statement (.registerWrite path addr bytes v) :=
  fun _ _ h => nomatch h
theorem handoverDrainDone (ep : BitVec 9) (bank : BitVec 8) : Statement (.handoverDrainDone ep bank) :=
  fun _ _ h => nomatch h
theorem handoverLeaseExpiry (ep : BitVec 9) (bank : BitVec 8) : Statement (.handoverLeaseExpiry ep bank) :=
  fun _ _ h => nomatch h
theorem doorbell : Statement (.doorbell) :=
  fun _ _ h => nomatch h
theorem rspTaken : Statement (.rspTaken) :=
  fun _ _ h => nomatch h
theorem mctpMessage (eid : BitVec 8) (msgTag : BitVec 3) (ic : Bool) (bytes : List Byte) : Statement (.mctpMessage eid msgTag ic bytes) :=
  fun _ _ h => nomatch h
theorem setEndpointId (eid : BitVec 8) : Statement (.setEndpointId eid) :=
  fun _ _ h => nomatch h
theorem getEndpointId : Statement (.getEndpointId) :=
  fun _ _ h => nomatch h
theorem getMctpVersionSupport : Statement (.getMctpVersionSupport) :=
  fun _ _ h => nomatch h
theorem getMessageTypeSupport : Statement (.getMessageTypeSupport) :=
  fun _ _ h => nomatch h
theorem getVendorDefinedMsgSupport : Statement (.getVendorDefinedMsgSupport) :=
  fun _ _ h => nomatch h
theorem getstatus : Statement (.getstatus) :=
  fun _ _ h => nomatch h
theorem i3cTargetReset : Statement (.i3cTargetReset) :=
  fun _ _ h => nomatch h
theorem requestTaken : Statement (.requestTaken) :=
  fun _ _ h => nomatch h
theorem relayResponse (p : Fin 6) (a : RelayAnswer) : Statement (.relayResponse p a) :=
  fun _ _ h => nomatch h
theorem relayTimeout (p : Fin 6) (hdr : BitVec 16) : Statement (.relayTimeout p hdr) :=
  fun _ _ h => nomatch h
theorem getVersion (src : Source) (tag : BitVec 32) : Statement (.getVersion src tag) :=
  fun _ _ h => nomatch h
theorem getCensus (src : Source) (tag : BitVec 32) : Statement (.getCensus src tag) :=
  fun _ _ h => nomatch h
theorem selfTest (src : Source) (tag : BitVec 32) (arg : Word) : Statement (.selfTest src tag arg) :=
  fun _ _ h => nomatch h
theorem selfTestDone (failed : BitVec 4) (first : Word) : Statement (.selfTestDone failed first) :=
  fun _ _ h => nomatch h
theorem claim (src : Source) (tag : BitVec 32) (arg : Word) : Statement (.claim src tag arg) :=
  fun _ _ h => nomatch h
theorem release (src : Source) (tag : BitVec 32) : Statement (.release src tag) :=
  fun _ _ h => nomatch h
theorem loadStencilBegin (src : Source) (tag : BitVec 32) (arg : Word) : Statement (.loadStencilBegin src tag arg) :=
  fun _ _ h => nomatch h
theorem loadStencilData (src : Source) (tag : BitVec 32) (arg : Word) (data : List Word) : Statement (.loadStencilData src tag arg data) :=
  fun _ _ h => nomatch h
theorem loadStencilCommit (src : Source) (tag : BitVec 32) (arg : Word) : Statement (.loadStencilCommit src tag arg) :=
  fun _ _ h => nomatch h
theorem stencilLoadLimitExpiry : Statement (.stencilLoadLimitExpiry) :=
  fun _ _ h => nomatch h
theorem loadStencilDiscard (src : Source) (tag : BitVec 32) (arg : Word) : Statement (.loadStencilDiscard src tag arg) :=
  fun _ _ h => nomatch h
theorem applyEpoch (src : Source) (tag : BitVec 32) (arg : Word) : Statement (.applyEpoch src tag arg) :=
  fun _ _ h => nomatch h
theorem applyEpochCancel (src : Source) (tag : BitVec 32) (arg : Word) : Statement (.applyEpochCancel src tag arg) :=
  fun _ _ h => nomatch h
theorem quiesce (src : Source) (tag : BitVec 32) (arg : Word) : Statement (.quiesce src tag arg) :=
  fun _ _ h => nomatch h
theorem quiesceDrained (p : Fin 16) : Statement (.quiesceDrained p) :=
  fun _ _ h => nomatch h
theorem quiesceStuck (p : Fin 16) : Statement (.quiesceStuck p) :=
  fun _ _ h => nomatch h
theorem resume (src : Source) (tag : BitVec 32) (arg : Word) : Statement (.resume src tag arg) :=
  fun _ _ h => nomatch h
theorem fence (src : Source) (tag : BitVec 32) (arg : Word) : Statement (.fence src tag arg) :=
  fun _ _ h => nomatch h
theorem portAdmit (src : Source) (tag : BitVec 32) (arg : Word) : Statement (.portAdmit src tag arg) :=
  fun _ _ h => nomatch h
theorem portQuarantine (src : Source) (tag : BitVec 32) (arg : Word) : Statement (.portQuarantine src tag arg) :=
  fun _ _ h => nomatch h
theorem portRemap (src : Source) (tag : BitVec 32) (arg : Word) : Statement (.portRemap src tag arg) :=
  fun _ _ h => nomatch h
theorem laneSpare (src : Source) (tag : BitVec 32) (arg : Word) : Statement (.laneSpare src tag arg) :=
  fun _ _ h => nomatch h
theorem laserPrepare (src : Source) (tag : BitVec 32) (arg : Word) : Statement (.laserPrepare src tag arg) :=
  fun _ _ h => nomatch h
theorem laserRestore (src : Source) (tag : BitVec 32) (arg : Word) : Statement (.laserRestore src tag arg) :=
  fun _ _ h => nomatch h
theorem setCoords (src : Source) (tag : BitVec 32) (arg : Word) : Statement (.setCoords src tag arg) :=
  fun _ _ h => nomatch h
theorem setTimebase (src : Source) (tag : BitVec 32) (arg : Word) (value : Word) : Statement (.setTimebase src tag arg value) :=
  fun _ _ h => nomatch h
theorem bankHandover (src : Source) (tag : BitVec 32) (arg : Word) : Statement (.bankHandover src tag arg) :=
  fun _ _ h => nomatch h
theorem readCounters (src : Source) (tag : BitVec 32) (arg : Word) (offset : Word) : Statement (.readCounters src tag arg offset) :=
  fun _ _ h => nomatch h
theorem readEvents (src : Source) (tag : BitVec 32) (arg : Word) : Statement (.readEvents src tag arg) :=
  fun _ _ h => nomatch h
theorem sealKey (src : Source) (tag : BitVec 32) (arg : Word) (key : List Word) (sig : List Word) : Statement (.sealKey src tag arg key sig) :=
  fun _ _ h => nomatch h
theorem zeroize (src : Source) (tag : BitVec 32) : Statement (.zeroize src tag) :=
  fun _ _ h => nomatch h
theorem lifecycle (src : Source) (tag : BitVec 32) (arg : Word) (key : List Word) (sig : List Word) : Statement (.lifecycle src tag arg key sig) :=
  fun _ _ h => nomatch h
theorem watchdogExpiry (romAddr : Word) : Statement (.watchdogExpiry romAddr) :=
  fun _ _ h => nomatch h
theorem alornEcc (mem : AlornMem) (corrected : Bool) (addr : Word) : Statement (.alornEcc mem corrected addr) :=
  fun _ _ h => nomatch h
theorem lockLeaseExpiry : Statement (.lockLeaseExpiry) :=
  fun _ _ h => nomatch h
theorem tableEcc (corrected : Bool) (reg : BitVec 16) (n : BitVec 32) : Statement (.tableEcc corrected reg n) :=
  fun _ _ h => nomatch h
theorem logRecordWrite : Statement (.logRecordWrite) :=
  fun _ _ h => nomatch h
theorem chipResetRelease : Statement (.chipResetRelease) :=
  fun _ _ h => nomatch h
theorem alornRunning (corrupt : BitVec 16) : Statement (.alornRunning corrupt) :=
  fun _ _ h => nomatch h
theorem stencilLoadStep7 : Statement (.stencilLoadStep7) :=
  fun _ _ h => nomatch h
theorem multiOvr (d : Fin 18) : Statement (.multiOvr d) :=
  fun _ _ h => nomatch h

end Laws.Listed
end Sys2Proof
end

