-- ==== Sys2Proof/Tests/Slice0.lean ====
section
/-! SUPPORT. Small tests: worked examples of the spec, ill-formed commands, and for each statement with hypotheses a
concrete state and operands that meet them. -/

namespace Sys2Proof.Tests

set_option Elab.async false

open Sys2Proof Sys2Proof.Machine Sys2Proof.Safety

/-! ### Helpers -/

/-- The state a command answers. -/
def out (c : Instr) (s : State) : State := match exec c s with | .next t => t | _ => s

/-- A chip after reset whose Alorn runs. -/
def up : State := State.reset.put F.AL_STATUS_STATE 0 0

/-- `up` with partition 0 running job 9 on every cluster. -/
def p0 : State := ((up.put F.RK_PARTJOB_VALID 0 1).put F.RK_PARTJOB_CLUSTERS 0 0xFFFF).put F.RK_PARTJOB_JOB 0 9

def shareBank (s : State) (ep b : Nat) : State := s.setBank ep b [(F.CP_BANKOWN_STATE, 1), (F.CP_BANKOWN_SHARED, 1)]
def ownBank (s : State) (ep b e : Nat) : State := s.setBank ep b [(F.CP_BANKOWN_STATE, 1), (F.CP_BANKOWN_OWNER_EP, e)]

/-- `p0` with bank 0 and 1 of core 5 and bank 0 of stack 0 shared. -/
def c0 : State := shareBank (shareBank (shareBank p0 5 0) 5 1) 256 0

/-- A request of job 9 from core 6. -/
def req (op ep : Nat) (l : List (HFld × Nat)) (bs : List Byte) : Packet :=
  mkPacket ([(H.OPCODE, op), (H.JOB, 9), (H.DST_EP, ep), (H.SRC_EP, 6)] ++ l) bs []

def bs8 : List Byte := [1, 2, 3, 4, 5, 6, 7, 8]

/-- A packet of the given fields and no payload. -/
def hd (l : List (HFld × Nat)) : Packet := mkPacket l [] []

/-- The state of port `k`. -/
def portIn (k n : Nat) (s : State) : State := s.put F.OP_PORTSTATE_STATE k n

/-- `s` with packet `p` waiting whole for endpoint `ep`: in its in FIFO, or at attachment 0 of its stack port. -/
def come (s : State) (ep : Nat) (p : Packet) : State :=
  let k := if meshOf p = .request then 1 else 3
  let fifo (n : Nat) : State := s.setFifo n ⟨stagesOf p, false, 0⟩
  if ep < 256 then fifo (coreFifo ep k)
  else if ep < 280 then { s with grants := upsert s.grants (outKey (meshOf p) (stackRouter (ep - 256) 0) 5) ⟨3, 0, false, false, p⟩ }
  else if ep < 286 then fifo (256 * 17 + 34 * s.portOfEp ep + 4 * attachOf p + k)
  else if ep = 286 then fifo (256 * 16 + 6 + k)
  else fifo (256 * 16 + k)

/-! ### Worked examples of the spec -/

/-- The header of Table 4-14. -/
theorem test_header_example :
    let p := mkPacket [(H.OPCODE, 0x10), (H.ACK_REQ, 1), (H.SIGNAL, 1), (H.EPOCH, 1), (H.PARTITION, 3), (H.JOB, 0x0A31),
      (H.DST_CHIP, 0x012), (H.DST_EP, 40), (H.SRC_CHIP, 0x011), (H.SRC_EP, 17), (H.ADDRESS, 0x20100), (H.TAG, 0x123),
      (H.SRC_RANK, 5), (H.HANDLER, 9)] ((List.range 256).map (BitVec.ofNat 8)) []
    (List.range 8).map (hword p.head.data) = [0x0A31000310000310, 0x0001101100028012, 0x0123010000020100, 0x0000900500000000,
      0, 0, 0, 0x0500000000000000] := by decide +kernel

/-- A flipped bit is a header error (R86). -/
theorem test_header_error :
    headerBad ⟨⟨(hd [(H.OPCODE, 0x10)]).head.data ^^^ 4, (hd [(H.OPCODE, 0x10)]).head.poison⟩, []⟩ = true := by decide +kernel

/-- The descriptor of Table 6-17 is cut into the packets of Table 6-18. -/
theorem test_put_pieces :
    (cmdPieces [0x13870001, 0, 0x00010E0000040000, 0x0028000C, 0x0000000400000600, 0x0000080000000800, 0, 0] 0).map
      (fun x => (x.src, x.addr, x.len)) = [(0x40000, 0x10E00, 512), (0x40200, 0x11000, 1024), (0x40800, 0x11600, 1536),
      (0x41000, 0x11E00, 512), (0x41200, 0x12000, 1024), (0x41800, 0x12600, 1536)] := by decide +kernel

/-- The first trailer of Table 11-13. -/
theorem test_trailer :
    [TR.TYPE, TR.VL, TR.SEQ, TR.ACK, TR.CR_POOL, TR.CR_COUNT].map (fun f => f (BitVec.ofNat 2112 (0x054A67C002460029 * 2 ^ 2048)))
      = [PT.DATA, 2, 0x123, 0x1F00, 6, 0x2A5] := by decide +kernel

/-- The fold at node (5, 6) of Table 9-8. -/
theorem test_fp32_fold :
    [0x33800000, 0x33800000, 0xBF800000].foldl (addF fp32) 0x33800000 = 0xBF7FFFFD := by decide +kernel

/-- The root of Table 9-8. -/
theorem test_fp32_root : [0x34000000, 0xBF7FFFFD].foldl (addF fp32) 0x3F800000 = 0x34A00000 := by decide +kernel

/-- Five ties of a left fold round to the even 1.0 each time, as the example of Table 9-8 says. -/
theorem test_fp32_ties :
    (List.replicate 5 0x33800000 ++ [0xBF800000]).foldl (addF fp32) 0x3F800000 = 0 := by decide +kernel

/-- The B8 add of Table 9-9. -/
theorem test_b8_add :
    addB8 ([127, 0x7A, 0x39, 0x01, 0x80] ++ List.replicate 28 0) ([127, 0x78, 0x18, 0x00, 0x80] ++ List.replicate 28 0)
      = [0x80, 0x79, 0x32, 0x00, 0x80] ++ List.replicate 28 0 := by decide +kernel

/-- The three rows of Table 9-10. -/
theorem test_e4m3_orders :
    [addF e4m3 (addF e4m3 0x7A 0x74) 0xFE, addF e4m3 (addF e4m3 0xFE 0x7A) 0x74,
      elemConv 3 5 1 (addF fp16 (addF fp16 (elemConv 5 3 1 0x7A) (elemConv 5 3 1 0x74)) (elemConv 5 3 1 0xFE))]
      = [0x00, 0x68, 0x68] := by decide +kernel

/-- The container of Table 12-14, without its signature: two frames at 0xA0 and 0xB0. -/
theorem test_container :
    let words : List Nat := [0x54532D524F4E504F, 0x0FFF000801030001, 0x00C411A000037E21, 0x0000000200010011, 0x000000B800000080,
      0x13A07] ++ List.replicate 10 0 ++ [0x000000A000000010, 16, 0x000000B000000040, 8, 0x0000001200010904, 0x701, 0xC80001]
    let bs := words.flatMap (fun w => leBytes 8 w) ++ List.replicate 96 0
    (parseContainer bs).map (fun x => x.2.length) = some 2 := by decide +kernel

/-! ### Ill-formed commands -/

/-- A packet of 65 payload flits. -/
def long : Packet := ⟨(hd []).head, List.replicate 65 ⟨0, false⟩⟩

theorem test_long_packet : [Instr.inFifoAdmit (.core 5 1) long, .routerHeaderArrival .request 0 0 long, .putArrival 5 long,
    .putMcArrival 5 long, .getReqArrival 5 long, .atomAddArrival 5 long, .atomSwapArrival 5 long, .signalArrival 5 long,
    .amArrival 5 long, .redDownArrival 5 long, .stackSinkRedDown 5 long, .getRspArrival 5 long, .atomRspArrival 5 long,
    .ackArrival 5 long, .nackArrival 5 long, .amReplyArrival 5 long, .mgmtArrival none long, .portEgress 0 0 long,
    .portIngress 0 0 long, .mgmtRelayAtPort 0 long, .treePacketArrival (.router 0) 0 long,
    .mergeAnswerArrival (.router 0) 0 long, .contributionTaken (.router 0) 0 long [], .plumbPortIngress 0 long].map
      Instr.wellFormed = List.replicate 24 false := by decide +kernel

theorem test_no_such_endpoint : [Instr.putArrival 288 (hd []), .putMcArrival 288 (hd []), .redDownArrival 288 (hd []), .getReqArrival 288 (hd []),
    .atomAddArrival 511 (hd []), .atomSwapArrival 288 (hd []), .signalArrival 288 (hd []), .amArrival 288 (hd []),
    .getRspArrival 288 (hd []), .atomRspArrival 288 (hd []), .ackArrival 288 (hd []), .nackArrival 288 (hd []),
    .amReplyArrival 288 (hd []), .handoverDrainDone 280 0, .handoverDrainDone 5 48, .handoverLeaseExpiry 280 0,
    .handoverLeaseExpiry 5 48].map Instr.wellFormed = List.replicate 17 false := by decide +kernel

theorem test_too_long : [Instr.mctpMessage 8 0 false (List.replicate 1033 0), .relayResponse 0 ⟨0, List.replicate 129 0⟩,
    .loadStencilData .mailbox 0 0 (List.replicate 127 0), .sealKey .mailbox 0 0 (List.replicate 8 0) [],
    .sealKey .mailbox 0 0 [] (List.replicate 13 0), .lifecycle .mailbox 0 0 (List.replicate 8 0) [],
    .lifecycle .mailbox 0 0 [] (List.replicate 13 0)].map Instr.wellFormed = List.replicate 7 false := by decide +kernel

/-! ### Witnesses: the queue, the clock and the reset -/

theorem witness_idle : up.pending = [] ∧ up.chipReset = false ∧ up.mgLost = false ∧ up.timeSets = []
    ∧ ({ up with timeSets := [(true, 7)] } : State).timeSets = [(true, 7)] := by decide +kernel
theorem witness_idle_asserted : (out .chipReset up).pending = [] ∧ (out .chipReset up).chipReset = true := by decide +kernel
theorem witness_idle_lost : (out .clkMgLost up).pending = [] ∧ (out .clkMgLost up).mgLost = true := by decide +kernel

theorem witness_sound : Sound (out .doorbell up) :=
  ⟨by decide +kernel, by decide +kernel, by decide +kernel, by decide +kernel, by decide +kernel, by decide +kernel,
    by decide +kernel⟩

theorem witness_asserted : (out .chipReset up).chipReset = true ∧ Instr.refLost ≠ .chipReset ∧ Instr.refLost ≠ .chipResetRelease := by
  decide +kernel

theorem witness_chip_reset : apart F.AL_STATUS_NONCE F.AL_STATUS_STATE = true ∧ up.chipReset = false := by decide +kernel

theorem witness_clock_stop : up.chipReset = false ∧ [0, 16, 17].map up.clockRuns = [true, true, true] := by decide +kernel
def halted (d : Nat) : State := { up with clkStopped := [(d, 5)], mgLost := decide (d = 16), lkLost := decide (d = 17) }
theorem witness_clock_start : [0, 16, 17].map (fun d => ((halted d).chipReset, (halted d).hasEdges d, (halted d).clockRuns d))
    = List.replicate 3 (false, false, false) := by decide +kernel
/-- CLK_LK lost for fewer ticks than a stop takes: the mark has not come, the domain still runs. -/
theorem witness_clock_back : (out .clkLkLost up).hasEdges 17 = false ∧ (out .clkLkLost up).clockRuns 17 = true
    ∧ (out .clkMgLost up).mgLost = true := by decide +kernel

theorem witness_corner : up.chipReset = false ∧ up.flag F.TM_FABCORNER_THROTTLE = false ∧ up.mgLost = false := by decide +kernel
theorem witness_corner_throttled : (out .throttleAssert up).chipReset = false
    ∧ (out .throttleAssert up).flag F.TM_FABCORNER_THROTTLE = true ∧ (out .throttleAssert up).mgLost = false := by decide +kernel

/-- A supply of exactly 680 mV is not low, 679 mV is, and 105.25 °C is hot (R58, R381). -/
theorem test_measurement : [(680, 420), (679, 421)].map (fun e =>
    let t := out (.fabricMeasurement (BitVec.ofNat 12 e.1) (BitVec.ofNat 12 e.2) 7) up
    [t.get F.TM_FABCORNER_LOWV, t.get F.TM_FABCORNER_THROTTLED, t.get F.TM_FABCORNER_HOT]) = [[0, 0, 0], [1, 1, 1]] := by
  decide +kernel

theorem witness_reference : up.refLostAt = none ∧ (out .refLost up).refLostAt = some 0 ∧ (out .refLost up).chipReset = false := by
  decide +kernel

theorem witness_release : ((∀ k ∈ [0, 2, 4], ((out (.coreReset 255) up).fifo (coreFifo 255 k)).stages = []))
    ∧ (((out (.coreReset 255) up).setFifo (coreFifo 255 4) ⟨[0], false, 0⟩).fifo (coreFifo 255 4)).stages ≠ [] := by decide +kernel
theorem witness_overrun : up.hasEdges 15 = true ∧ (halted 15).hasEdges 15 = false := by decide +kernel
theorem witness_core_reset : up.chipReset = false ∧ up.present 255 = true ∧ up.coreRst.contains 255 = false
    ∧ (out (.coreReset 255) up).coreRst.contains 255 = true ∧ (out (.coreReset 255) up).chipReset = false := by decide +kernel

/-! ### Witnesses: frames

Each frame holds of the next state a command answers: the commands of every part answer one. -/

theorem witness_frames : [Instr.coreReset 0, .clockStop 0, .linkHandshake (.stack 0 0) 0, .cpEvcntWrite 0 0 1 0, .doorbell, .nop 0 0,
    .mgmtArrival none (hd []), .windowRelease 0 0 0, .lightDetected 0, .laserSlotInserted 0, .forkCopy (.router 0) 0,
    .epochSettleExpiry, .getVersion .mailbox 0].all (fun c => match exec c up with | .next _ => true | _ => false) = true := by
  decide +kernel

/-! ### Witnesses: FIFOs, links, routers -/

/-- The header and the tail of a request and the header of a reply. -/
def headStage : Stage := (stagesOf (req Op.PUT 5 [] bs8)).headD 0
def replyStage : Stage := (stagesOf (req Op.ACK 5 [] [])).headD 0
def outFifoWith (l : List Stage) (lost : Bool) : State := up.setFifo (fifoCopy (.core 5 0)) ⟨l, lost, 0⟩
theorem witness_out_fifo : up.chipReset = false ∧ fifoOut (fifoCopy (.core 5 0)) = true ∧ up.sideRuns (.core 5 0) = true
    ∧ up.stageFits (fifoCopy (.core 5 0)) headStage = true ∧ up.stageFits (fifoCopy (.core 5 0)) replyStage = false
    ∧ up.stageFits (fifoCopy (.core 5 0)) (1#524 <<< 521) = false
    ∧ (outFifoWith [headStage] false).stageFits (fifoCopy (.core 5 0)) (1#524 <<< 521) = true
    ∧ (up.fifo (fifoCopy (.core 5 0))).stages.length < fifoDepth (fifoCopy (.core 5 0)) := by decide +kernel
theorem witness_out_fifo_full : (outFifoWith (List.replicate 65 0) true).chipReset = false
    ∧ (outFifoWith (List.replicate 65 0) true).sideRuns (.core 5 0) = true
    ∧ (outFifoWith (List.replicate 65 0) true).stageFits (fifoCopy (.core 5 0)) 0 = true
    ∧ fifoDepth (fifoCopy (.core 5 0)) ≤ ((outFifoWith (List.replicate 65 0) true).fifo (fifoCopy (.core 5 0))).stages.length := by
  decide +kernel

/-- A tail written into the 65th stage is kept and gives its notice; one more is lost (R66, R69). -/
theorem test_out_fifo_full :
    let s := outFifoWith (List.replicate 64 0) false
    let t := out (.fifoWrite (.core 5 0) (1#524 <<< 521)) s
    let u := out (.fifoWrite (.core 5 0) headStage) t
    (u.get F.XB_FIFO_OVERRUN (fifoCopy (.core 5 0)), u.get F.XB_ERRORS_OVERRUNS (fifoDomain (.core 5 0)),
      (u.fifo (fifoCopy (.core 5 0))).stages.length) = (1, 1, 65) := by decide +kernel

def packetIn : State := come up 5 (req Op.PUT 5 [] bs8)
theorem witness_in_fifo_read : packetIn.chipReset = false ∧ fifoOut (fifoCopy (.core 5 1)) = false
    ∧ packetIn.sideRuns (.core 5 1) = true ∧ (packetIn.fifo (fifoCopy (.core 5 1))).stages = stagesOf (req Op.PUT 5 [] bs8)
    ∧ (stagesOf (req Op.PUT 5 [] bs8)).length = 2 ∧ (packetIn.fifo (fifoCopy (.core 5 1))).packets ≠ 0
    ∧ (up.fifo (fifoCopy (.core 5 1))).packets = 0 := by decide +kernel

/-- A request to core 5 that stands at its router (17), in state `s`. -/
def standing (s : State) : State := { s with grants := upsert s.grants (outKey .request 17 4) ⟨3, 0, false, false, req Op.PUT 5 [] bs8⟩ }
theorem witness_in_fifo_admit :
    let n := fifoCopy (.core 5 1)
    let p := req Op.PUT 5 [] bs8
    let need := Nat.max (flitsOf p).length (1 + payloadFlits p)
    [standing up, standing (up.setFifo n ⟨List.replicate 129 0, false, 0⟩), standing (out (.coreReset 5) up)].map (fun s =>
      ((s.standBefore (.core 5 1) p), s.chipReset, s.coreRst.contains 5, decide ((s.fifo n).stages.length + need ≤ fifoDepth n)))
      = [(some (.output .request 17 4), false, false, true), (some (.output .request 17 4), false, false, false),
        (some (.output .request 17 4), false, true, true)] := by decide +kernel
/-- A Plumb message of cluster node 0 for core 5, whose Plumb in FIFO is full. -/
def plumbHeldAt : State :=
  let p := plumbStage (mkPlumb Op.BAR_RELEASE 4 7 0 0 0)
  { (up.setFifo (fifoCopy (.core 5 5)) ⟨List.replicate 8 0, false, 0⟩) with plumbOut := [⟨2, 37, stageMsg p⟩] }
theorem witness_plumb_held : (plumbHeldAt.heldFor 37).head? = some ⟨2, 37, stageMsg (plumbStage (mkPlumb Op.BAR_RELEASE 4 7 0 0 0))⟩
    ∧ plumbHeldAt.room (fifoCopy (.core 5 5)) = 0 := by decide +kernel

/-- Headers that the host side offers: to this chip, to one without a route, to one behind port 5. -/
def hostStage (chip : Nat) : Stage := (stagesOf (req Op.PUT 5 [(H.DST_CHIP, chip), (H.SRC_EP, 286)] bs8)).headD 0
/-- Chip 0x12 lies behind port 5, whose window for the host bridge holds `n` flits. -/
def behind (port st n : Nat) : State :=
  ((portIn 5 st up).put F.RK_CHIPROUTE_PORT 0x12 port).put F.OP_EGWIN_WINDOW (egwin 5 (winClass (req Op.PUT 5 [] bs8)) 20) n
theorem witness_host_header :
    let n := fifoCopy (.host 0)
    let p : Packet := ⟨flitOf (hostStage 0x12), []⟩
    let x := egwin 5 (winClass p) 20
    (up.sideRuns (.host 0), up.stageFits n (hostStage 0x12), stageHead (hostStage 0x12), lookup up.hostWait n, (up.fifo n).stages)
      = (true, true, true, none, []) ∧ (behind 7 4 64).routeOf 20 p = .none ∧ (behind 5 6 64).routeOf 20 p = .shut
    ∧ (behind 5 4 1).routeOf 20 p = .out x ∧ (behind 5 4 1).gateOpen (.window x) (1 + payloadFlits p) = false
    ∧ (behind 5 4 64).routeOf 20 p = .out x ∧ (behind 5 4 64).gateOpen (.window x) (1 + payloadFlits p) = true := by decide +kernel

/-- Levels that differ from the reset levels on wire 0 of every group below `n`. -/
def levelsOf (n : Nat) : BitVec 4180 := BitVec.ofNat 4180 ((2 ^ (4 * n) - 1) / 15)
/-- A request that core 6 sends to core 4. -/
def hop : Packet := req Op.PUT 4 [] bs8
/-- `hop` stands at router 33, on its way south to router 17. -/
def above : State := { up with grants := upsert up.grants (outKey .request 33 2) ⟨4, 0, false, false, hop⟩ }
theorem witness_handshake : above.chipReset = false ∧ above.offers (.router .request 17 0) = true
    ∧ up.offers (.router .request 17 0) = false
    ∧ handshakeDone (levelsOf 264 ^^^ (above.link (wireKey (.router .request 17 0))).levels) 264 = true
    ∧ subChannel (.router .request 17 0) (levelsOf 264) = true
    ∧ handshakeDone (levelsOf 263 ^^^ (above.link (wireKey (.router .request 17 0))).levels) 264 = false := by decide +kernel

/-- `hop` is whole in core 6's out FIFO, before its router 18. -/
def headed : State := up.setFifo (coreFifo 6 0) ⟨stagesOf hop, false, 0⟩
theorem witness_header : headed.chipReset = false ∧ headed.headerAt .request 18 4 = some hop ∧ headed.headerOutput 18 4 hop = some 3
    ∧ headed.grants = [] := by decide +kernel
/-- The output that `hop` asks for is held by the same request coming from the east. -/
def busyRouter : State := { headed with grants := [(outKey .request 19 3, ⟨4, 0, false, false, hop⟩), (outKey .request 18 3, ⟨0, 0, false, false, hop⟩)] }
theorem witness_header_waits : busyRouter.headerAt .request 18 1 = some hop ∧ busyRouter.headerOutput 18 1 hop = some 3
    ∧ lookup busyRouter.grants (outKey .request 18 3) = some ⟨0, 0, false, false, hop⟩ := by decide +kernel
/-- Both headers wait, and the tail of the packet before has passed where `b`. -/
def waitingRouter (b : Bool) : State :=
  { busyRouter with grants := [(outKey .request 18 3, ⟨0, 0, false, b, hop⟩)]
                    waits := [⟨.request, 18, 1, 3, 0, hop⟩, ⟨.request, 18, 4, 3, 0, hop⟩] }
theorem witness_arbiter : (waitingRouter true).chipReset = false
    ∧ lookup (waitingRouter true).grants (outKey .request 18 3) = some ⟨0, 0, false, true, hop⟩
    ∧ (waitingRouter true).waits.map (fun w => (w.mesh, w.router, w.out)) = [(.request, 18, 3), (.request, 18, 3)]
    ∧ lookup (waitingRouter false).grants (outKey .request 18 3) = some ⟨0, 0, false, false, hop⟩
    ∧ ({ waitingRouter true with waits := [] } : State).waits = [] := by decide +kernel

/-! ### Witnesses: arrivals -/

/-- A request that sets a counter and asks for an answer. -/
def putAsks : Packet := req Op.PUT 5 [(H.ADDRESS, 0xFFF8), (H.SIGNAL, 1), (H.HANDLER, 63), (H.ACK_REQ, 1)] bs8
theorem witness_put_signal_ack : Claims.Passes Op.PUT (come c0 5 putAsks) 5 putAsks ∧ hasPoison putAsks = false
    ∧ Memory.wf (come c0 5 putAsks).mem = true
    ∧ (come c0 5 putAsks).routeOf (windowSource 5) ((come c0 5 putAsks).replyTo 5 putAsks Op.ACK St.OK) = .here := by
  unfold Claims.Passes Claims.Reaches; decide +kernel

/-- `c0` with a receive flow context for core 6. -/
def flow : State := ((c0.put F.RK_FLOWCTX_VALID 3 1).put F.RK_FLOWCTX_ENDPOINT 3 5).put F.RK_FLOWCTX_PEER_EP 3 6
def flowPut (n : Nat) : Packet := req Op.PUT 5 [(H.FLOW_VALID, 1), (H.FLOW, 3), (H.SEQ, n)] bs8
theorem witness_put_flow : Claims.Passes Op.PUT (come flow 5 (flowPut 1)) 5 (flowPut 1) ∧ pflag (flowPut 1) H.FLOW_VALID = true := by
  unfold Claims.Passes Claims.Reaches; decide +kernel
theorem witness_put_host : Claims.Passes Op.PUT (come p0 286 (req Op.PUT 286 [] bs8)) 286 (req Op.PUT 286 [] bs8) := by
  unfold Claims.Passes Claims.Reaches; decide +kernel

/-- A PUT into the last word of bank 0 and the first of bank 1 stores its bytes and raises its counter. -/
theorem test_put :
    let p := req Op.PUT 5 [(H.ADDRESS, 0xFFF8), (H.SIGNAL, 1), (H.HANDLER, 63)] (bs8 ++ bs8)
    let t := out (.putArrival 5 p) (come c0 5 p)
    ([0xFFF7, 0xFFF8, 0xFFFF, 0x10000, 0x10007, 0x10008].map (fun a => (t.byteAt 5 a).toNat), t.get F.CP_EVCNT_VALUE (evCopy 5 63))
      = ([0, 1, 8, 1, 8, 0], 1) := by decide +kernel

def mcPut : Packet := req Op.PUT_MC 5 [(H.ADDRESS, 64), (H.GROUP, 4), (H.ACK_REQ, 1)] bs8
/-- Group 4 of partition 0 with cores 5 and 6 as members, its root at router 17. -/
def grouped (s : State) : State :=
  let t (s : State) (n up kids ins ord : Nat) : State :=
    let s := (((((s.put F.SC_TREE_VALID n 1).put F.SC_TREE_GROUP n 4).put F.SC_TREE_PARENT n up).put F.SC_TREE_CHILDREN n kids).put
      F.SC_TREE_INPUTS n ins).put F.SC_TREE_ORDER n ord
    (((s.put F.SC_TREERES_SLOTS n 3).put F.SC_TREERES_MC_BASE n 0).put F.SC_TREERES_MC_COUNT n 4).put F.SC_TREERES_MERGE_COUNT n 4
  let s := (((s.put F.RK_GROUP_VALID 4 1).put F.RK_GROUP_MEMBERS 4 2).put F.RK_GROUP_ROOT_MEMBER 4 1).put F.PL_MEMBERS_MASK 16 0x60
  t (t s (16 * 17) 7 0x12 2 (4 + 8 * 1)) (16 * 18) 3 0x10 1 4
def c0g : State := grouped c0
theorem witness_put_mc : Claims.Reaches Op.PUT_MC (come c0g 5 mcPut) 5 mcPut
    ∧ (Claims.taken (come c0g 5 mcPut) 5 mcPut).verdict 5 mcPut = .accept
    ∧ hasPoison mcPut = false ∧ Memory.wf (come c0g 5 mcPut).mem = true := by unfold Claims.Reaches; decide +kernel

def getReq (ep : Nat) : Packet := req Op.GET_REQ ep [(H.SIGNAL, if ep < 256 then 1 else 0), (H.HANDLER, if ep < 256 then 63 else 0), (H.SEQ, 8)] []
theorem witness_get : Claims.Passes Op.GET_REQ (come c0 256 (getReq 256)) 256 (getReq 256)
    ∧ Claims.Passes Op.GET_REQ (come c0 5 (getReq 5)) 5 (getReq 5) := by
  unfold Claims.Passes Claims.Reaches; decide +kernel
theorem witness_get_host : Claims.Passes Op.GET_REQ (come c0 286 (getReq 286)) 286 (getReq 286) := by
  unfold Claims.Passes Claims.Reaches; decide +kernel

def addReq : Packet := req Op.ATOM_ADD 5 [(H.ADDRESS, 16)] [3, 0, 0, 0]
theorem witness_atomic_add : Claims.Passes Op.ATOM_ADD (come c0 5 addReq) 5 addReq ∧ hasPoison addReq = false
    ∧ (come c0 5 addReq).isBad 5 16 (pget addReq H.LENGTH) = false := by unfold Claims.Passes Claims.Reaches; decide +kernel
def swapReq : Packet := mkPacket [(H.OPCODE, Op.ATOM_SWAP), (H.JOB, 9), (H.DST_EP, 5), (H.SRC_EP, 6), (H.ADDRESS, 16), (H.FORMAT, 1)]
  bs8 [true]
theorem witness_atomic_poisoned : Claims.Passes Op.ATOM_SWAP (come c0 5 swapReq) 5 swapReq ∧ hasPoison swapReq = true := by
  unfold Claims.Passes Claims.Reaches; decide +kernel
/-- INT32 addition wraps (R208, Table 8-6). -/
theorem test_atomic_wraps : atomicOp true 0 0xFFFFFFFF 2 = 1 := by decide +kernel

def signalReq : Packet := req Op.SIGNAL 5 [(H.ADDRESS, 0xFFFFFFFF), (H.HANDLER, 63), (H.ACK_REQ, 1)] []
theorem witness_signal : Claims.Passes Op.SIGNAL (come c0 5 signalReq) 5 signalReq := by
  unfold Claims.Passes Claims.Reaches; decide +kernel

/-- Ring 2 of core 5 at 0, 4 KiB long, and receive entry 0 for it from core 6 with credit for `n` flits. -/
def ringed (n : Nat) : State :=
  let s := ownBank (ownBank p0 5 0 5) 5 1 5
  let s := (((((s.put F.CP_AMCHAN_VALID (chCopy 5 0) 1).put F.CP_AMCHAN_ROLE (chCopy 5 0) 0).put F.CP_AMCHAN_RING (chCopy 5 0) 2).put
    F.CP_AMCHAN_ENDPOINT (chCopy 5 0) 6).put F.CP_AMCREDIT_FLITS (chCopy 5 0) n)
  { s with rings := upsert s.rings (ringKey 5 2) ⟨0, 4096, false, 0, 0, 0, 0⟩ }
/-- The same with a ring that holds no free byte. -/
def ringFull (n : Nat) : State :=
  let s := ringed n
  { s with rings := upsert s.rings (ringKey 5 2) ⟨0, 4096, false, 0, 4096, 0, 64⟩ }
def amReq : Packet := req Op.AM 5 [(H.ADDRESS, 2), (H.HANDLER, 7)] bs8
theorem witness_am_rings : Claims.Passes Op.AM (come (ringed 2) 5 amReq) 5 amReq
    ∧ ((Claims.taken (come (ringed 2) 5 amReq) 5 amReq).tryPlace 5 2 amReq false).isSome = true := by
  unfold Claims.Passes Claims.Reaches; decide +kernel
theorem witness_am_held : Claims.Passes Op.AM (come (ringFull 2) 5 amReq) 5 amReq
    ∧ ((Claims.taken (come (ringFull 2) 5 amReq) 5 amReq).tryPlace 5 2 amReq false).isNone = true
    ∧ (ringFull 2).get F.CP_AMSTAT_OUT (chCopy 5 0) + (1 + payloadFlits amReq) ≤ (ringFull 2).get F.CP_AMCREDIT_FLITS (chCopy 5 0) := by
  unfold Claims.Passes Claims.Reaches; decide +kernel
theorem witness_am_no_credit : Claims.Passes Op.AM (come (ringFull 1) 5 amReq) 5 amReq
    ∧ ((Claims.taken (come (ringFull 1) 5 amReq) 5 amReq).tryPlace 5 2 amReq false).isNone = true
    ∧ (ringFull 1).get F.CP_AMCREDIT_FLITS (chCopy 5 0) < (ringFull 1).get F.CP_AMSTAT_OUT (chCopy 5 0) + (1 + payloadFlits amReq) := by
  unfold Claims.Passes Claims.Reaches; decide +kernel

/-- Whether `p` of opcode `op` waits at `ep` of `s` and is judged `v` there. -/
def judged (op : Nat) (s : State) (ep : Nat) (p : Packet) (v : Verdict) : Prop :=
  Claims.Reaches op (come s ep p) (BitVec.ofNat 9 ep) p ∧ (Claims.taken (come s ep p) ep p).verdict ep p = v
theorem witness_refused : judged Op.PUT c0 5 (req Op.PUT 5 [(H.ADDRESS, 1)] bs8) (.refuse St.RANGE)
    ∧ judged Op.AM c0 287 (req Op.AM 287 [] bs8) (.refuse St.RANGE) := by unfold judged Claims.Reaches; decide +kernel
theorem witness_repeated : judged Op.PUT flow 5 (flowPut 0) .repeated ∧ judged Op.PUT c0 7 (req Op.PUT 7 [] bs8) .noOwner := by
  unfold judged Claims.Reaches; decide +kernel

def strayAck : Packet := req Op.ACK 5 [(H.TAG, 0xFFFF)] []
theorem witness_stray : Claims.Reaches Op.ACK (come c0 5 strayAck) 5 strayAck ∧ (come c0 5 strayAck).cmdOf 5 0xFFFF = none
    ∧ (c0.setPart 0 { Part.initial with quiesced := true }).answersStray 5 = true := by unfold Claims.Reaches; decide +kernel

/-- A packet for `ep` whose header carries poison, and one with a reserved opcode. -/
def badHead (ep : Nat) : Packet := { hd [(H.DST_EP, ep)] with head := ⟨(hd [(H.DST_EP, ep)]).head.data, true⟩ }
def reservedOp (ep : Nat) : Packet := hd [(H.OPCODE, 0x7F), (H.DST_EP, ep)]
def offered (ep : Nat) (p : Packet) : Bool :=
  let s := come c0 ep p
  !s.chipReset && !s.mgLost && s.waitsAt ep p && s.takes ep && !s.coreRst.contains ep
theorem witness_bad_header : [5, 256, 281, 286, 287].all (fun ep => offered ep (badHead ep) && headerBad (badHead ep)) = true
    ∧ [5, 256, 281, 286, 287].all (fun ep => offered ep (reservedOp ep) && !headerBad (reservedOp ep)
        && (classOf (pget (reservedOp ep) H.OPCODE)).isNone && pget (reservedOp ep) H.DST_EP = ep) = true := by decide +kernel
theorem witness_port_endpoint : Claims.Reaches Op.PUT (come c0 285 (req Op.PUT 285 [] bs8)) 285 (req Op.PUT 285 [] bs8)
    ∧ Claims.Reaches Op.ACK (come c0 280 (req Op.ACK 280 [] [])) 280 (req Op.ACK 280 [] []) := by unfold Claims.Reaches; decide +kernel
def ackAt (ep : Nat) : Packet := req Op.ACK ep [(H.TAG, 7)] []
theorem witness_replies_elsewhere : Claims.Reaches Op.ACK (come { c0 with hostTags := [7] } 286 (ackAt 286)) 286 (ackAt 286)
    ∧ Claims.Reaches Op.ACK (come c0 286 (ackAt 286)) 286 (ackAt 286) ∧ (come c0 286 (ackAt 286)).hostTags = []
    ∧ Claims.Reaches Op.ACK (come c0 287 (ackAt 287)) 287 (ackAt 287) ∧ (come c0 287 (ackAt 287)).alorn.relays = []
    ∧ Claims.Reaches Op.ACK (come c0 279 (ackAt 279)) 279 (ackAt 279) := by unfold Claims.Reaches; decide +kernel

/-! ### Witnesses: command queues -/

/-- The words of a descriptor. -/
def words8 (l : List (DFld × Nat)) : List Word :=
  (List.range 8).map (fun k => l.foldl (fun w e => if e.1.word = k then fieldPut w e.1.lo e.1.width e.2 else w) 0)

/-- Queue 1 of core 5, whose arrays the core owns, with `ws` at position 2; rank 0 is this chip; channel 2 sends to core 6. -/
def queueWith (ws : List Word) : State :=
  let s := ownBank (ownBank (ownBank (ownBank p0 5 0 5) 5 1 5) 5 2 5) 5 3 5
  let n := qCopy 5 1
  let s := (((s.put F.CP_QCTL_ENABLE n 1).put F.CP_QTAIL_TAIL n 3).put F.CP_QSTAT_HEAD n 2).put F.CP_QSTAT_RETIRE n 2
  let s := ((s.put F.CP_QBASE_DESC_BASE n 0x10000).put F.CP_QBASE_COMP_BASE n 0x20000).put F.RK_RANKMAP_VALID0 0 1
  let c := chCopy 5 2
  let s := ((((s.put F.CP_AMCHAN_VALID c 1).put F.CP_AMCHAN_ROLE c 1).put F.CP_AMCHAN_RING c 3).put F.CP_AMCHAN_ENDPOINT c 6).put
    F.CP_AMCREDIT_FLITS c 16
  let s := (s.put F.CP_AMCREDIT_REPLY_UNITS c 4).put F.CP_AMCREDIT_RHOLD c 8
  s.writeBytes 5 (0x10000 + 64 * 2) (wordBytes ws)

/-- The hypotheses of `Claims.Ready` for queue 1 of core 5, as a check. -/
def readyAt (s : State) (ws : List Word) : Bool :=
  s.chipReset == false && s.queueOpen 5 1 && s.arraysOwned 5 1 && decide (ws = s.descriptor 5 1 (s.get F.CP_QSTAT_HEAD (qCopy 5 1)))
    && s.headWaits 5 ws == false && s.headFenced 5 1 ws == false && s.headFlowBusy ws == false

theorem ready_of_check (s : State) (ws : List Word) (h : readyAt s ws = true) : Claims.Ready s 5 1 ws := by
  simp only [readyAt, Bool.and_eq_true, beq_iff_eq, decide_eq_true_eq] at h
  obtain ⟨⟨⟨⟨⟨⟨a, b⟩, c⟩, d⟩, e⟩, f⟩, g⟩ := h
  exact ⟨a, b, c, d, e, f, g⟩

def nopD : List Word := words8 [(D.CMD, 0)]
def putD : List Word := words8 [(D.CMD, 1), (D.LOCAL_ADDR, 0x100), (D.REMOTE_ADDR, 0x30000), (D.ENDPOINT, 6), (D.ROW_BYTES, 64), (D.ROWS, 1),
  (D.ACK_REQ, 1)]
def getD' : List Word := words8 [(D.CMD, 2), (D.LOCAL_ADDR, 0x100), (D.REMOTE_ADDR, 0x30000), (D.ENDPOINT, 6), (D.ROW_BYTES, 8192), (D.ROWS, 1)]
def putMcD : List Word := words8 [(D.CMD, 3), (D.LOCAL_ADDR, 0x100), (D.REMOTE_ADDR, 0x30000), (D.GROUP, 4), (D.ROW_BYTES, 64), (D.ROWS, 1)]
def addD : List Word := words8 [(D.CMD, 4), (D.REMOTE_ADDR, 0x30000), (D.ENDPOINT, 6), (D.OPERAND, 3)]
def swapD : List Word := words8 [(D.CMD, 5), (D.REMOTE_ADDR, 0x30000), (D.ENDPOINT, 6), (D.OPERAND, 3)]
def signalD : List Word := words8 [(D.CMD, 6), (D.ENDPOINT, 6), (D.TARGET_CTR, 3), (D.OPERAND, 3), (D.ACK_REQ, 1)]
def amD : List Word := words8 [(D.CMD, 0x10), (D.LOCAL_ADDR, 0x100), (D.CHANNEL, 2), (D.AM_HANDLER, 7), (D.EXPECT_REPLY, 1), (D.AM_LENGTH, 64)]
def amReplyD : List Word := words8 [(D.CMD, 0x11), (D.LOCAL_ADDR, 0x100), (D.ENDPOINT, 6), (D.RING, 2), (D.AM_LENGTH, 64), (D.REPLY_TAG, 5)]
def collD (cmd : Nat) (l : List (DFld × Nat)) : List Word := words8 ([(D.CMD, cmd), (C.GROUP, 4), (C.SEQ, 7)] ++ l)
def collDs : List (List Word) :=
  [collD CC.BARRIER [], collD CC.SCALAR_REDUCE [(C.FORMAT, 0), (C.OP, 1), (C.OPERAND, 3)],
    collD CC.REDUCE [(C.SRC_ADDR, 0x1000), (C.DST_ADDR, 0x2000), (C.COUNT, 256)],
    collD CC.ALL_REDUCE [(C.SRC_ADDR, 0x1000), (C.DST_ADDR, 0x8000), (C.COUNT, 256)],
    collD CC.BROADCAST [(C.SRC_ADDR, 0x1000), (C.DST_ADDR, 0x8000), (C.COUNT, 256)],
    collD CC.REDUCE_SCATTER [(C.SRC_ADDR, 0x1000), (C.DST_ADDR, 0x8000), (C.COUNT, 256), (C.MEMBERS, 2)],
    collD CC.ALL_GATHER [(C.SRC_ADDR, 0x1000), (C.DST_ADDR, 0x8000), (C.COUNT, 256), (C.MEMBERS, 2)]]

theorem witness_ready : Claims.Ready (queueWith putD) 5 1 putD := ready_of_check _ _ (by decide +kernel)
/-- Every row that starts a command finds its descriptor at the head of its queue. -/
theorem witness_every_row_starts : ([nopD, putD, getD', putMcD, addD, swapD, signalD, amD, amReplyD] ++ collDs).all
      (fun ws => readyAt (queueWith ws) ws) = true
    ∧ ([nopD, putD, getD', putMcD, addD, swapD, signalD, amD, amReplyD] ++ collDs).map (fun ws => dget ws D.CMD)
      = (Claims.starts 5 1).map (fun e => e.1) := by decide +kernel
theorem witness_arrays_lost : (ownBank (queueWith putD) 5 2 7).queueOpen 5 1 = true
    ∧ (ownBank (queueWith putD) 5 2 7).arraysOwned 5 1 = false := by decide +kernel
def waitD : List Word := words8 [(D.CMD, 0), (D.WAIT_EN, 1), (D.WAIT_CTR, 63), (D.WAIT_VALUE, 1)]
theorem witness_head_waits : (queueWith waitD).queueOpen 5 1 = true ∧ (queueWith waitD).arraysOwned 5 1 = true
    ∧ waitD = (queueWith waitD).descriptor 5 1 2 ∧ (queueWith waitD).get F.CP_QSTAT_HEAD (qCopy 5 1) = 2
    ∧ (queueWith waitD).headWaits 5 waitD = true := by decide +kernel

theorem witness_nop : wellDescribed nopD = true ∧ pairingOk nopD = true
    ∧ ((Claims.begun (queueWith nopD) 5 1).livePart 5).isSome = true ∧ Memory.wf (queueWith nopD).mem = true
    ∧ readyAt (queueWith nopD) nopD = true := by decide +kernel
/-- Reserved bit 63 of word 0. -/
def misfitD : List Word := putD.set 0 (putD.getD 0 0 ||| 0x8000000000000000)
theorem witness_misfit : wellDescribed misfitD = false ∧ dget misfitD D.CMD = 1 ∧ readyAt (queueWith misfitD) misfitD = true := by
  decide +kernel

/-- The hypotheses of a transfer's issue, as a check. -/
def issues (s : State) (ws : List Word) : Bool :=
  let v := Claims.begun s 5 1
  readyAt s ws && wellDescribed ws && pairingOk ws && v.livePart 5 == some 0
    && (zeroShape ws && !dflag ws D.RSIG_EN && !dflag ws D.ACK_REQ) == false && v.localCheck 5 ws == none && v.channelCheck 5 ws == none
    && (match v.aim 5 0 ws true with | .at d => d.group != 0 || d.ep != 5 || d.chip != s.own | _ => false)
    && v.channelFull 5 ws == false && decide (s.stale = [])
theorem witness_transfers : [putD, getD', addD, swapD, signalD, amD, amReplyD].all (fun ws => issues (queueWith ws) ws) = true := by
  decide +kernel
theorem witness_put_mc_issues : issues (grouped (queueWith putMcD)) putMcD = true := by decide +kernel

def collState (ws : List Word) : State := grouped ((queueWith ws).setBank 5 0 [(F.CP_BANKOWN_SHARED, 1)])
theorem witness_collectives : [0, 3].map (fun k =>
    let ws := collDs.getD k []
    let s := collState ws
    let v := Claims.begun s 5 1
    let x : Cmd := { Cmd.begin 5 1 2 ws with serial := (Config.noSerial s.freeCtr).toNat }
    (readyAt s ws, v.collCheck x (v.newRun ws))) = [(true, none), (true, none)] := by decide +kernel
theorem witness_collective_fails : (collDs.take 3).map (fun ws =>
    let s := queueWith ws
    let v := Claims.begun s 5 1
    let x : Cmd := { Cmd.begin 5 1 2 ws with serial := (Config.noSerial s.freeCtr).toNat }
    (readyAt s ws, v.collCheck x (v.newRun ws))) = List.replicate 3 (true, some St.RANGE) := by decide +kernel
theorem witness_group_of_two : (grouped (queueWith nopD)).get F.RK_GROUP_MEMBERS 4 ≠ 1 := by decide +kernel

/-! ### Witnesses: replies, time-outs and the writes of a core -/

/-- Core 5 after issuing the command. -/
def issued (c : Instr) (ws : List Word) : State := out c (queueWith ws)
def getTwo : State := issued (.get 5 1) getD'
/-- A reply to core 5 from core 6. -/
def rep (op tag : Nat) (l : List (HFld × Nat)) (bs : List Byte) : Packet :=
  mkPacket ([(H.OPCODE, op), (H.JOB, 9), (H.DST_EP, 5), (H.SRC_EP, 6), (H.TAG, tag)] ++ l) bs []

/-- The check of the hypotheses of a reply that leaves its command in progress, on the state in which it waits. -/
def repliesTo (s : State) (p : Packet) : Bool :=
  let s := come s 5 p
  s.waitsAt 5 p && s.takes 5 && !s.coreRst.contains 5 && headerBad p == false && s.answersStray 5 == false
    && (match s.cmdOf 5 (pget p H.TAG) with
      | none => false
      | some c => decide (c.lostBanks = []) && (match answerPkt c.pkts (pget p H.ADDRESS) 0 with
        | none => false
        | some (_, rest) => rest.any (fun k => k.sent && k.answer.isNone)))
    && hasPoison p == false && Memory.wf s.mem
def tagOf (s : State) : Nat := (s.cmds.map (fun c => cmdTag c)).headD 0
theorem witness_get_rsp : repliesTo getTwo (rep Op.GET_RSP (tagOf getTwo) [(H.ADDRESS, 0x31000)] bs8) = true
    ∧ getTwo.cmds.map (fun c => dget c.words D.CMD) = [2] := by decide +kernel
def putTwoD : List Word := words8 [(D.CMD, 1), (D.LOCAL_ADDR, 0x100), (D.REMOTE_ADDR, 0x30000), (D.ENDPOINT, 6), (D.ROW_BYTES, 8), (D.ROWS, 2),
  (D.ACK_REQ, 1), (D.REMOTE_STRIDE, 64)]
def putTwo : State := issued (.put 5 1) putTwoD
theorem witness_ack : repliesTo putTwo (rep Op.ACK (tagOf putTwo) [(H.ADDRESS, 0x30040)] []) = true
    ∧ repliesTo putTwo (rep Op.NACK (tagOf putTwo) [(H.ADDRESS, 0x30000), (H.STATUS, 3)] []) = true
    ∧ putTwo.cmds.map (fun c => dget c.words D.CMD) = [1] := by decide +kernel

def amSent : State :=
  let s := issued (.am 5 1) amD
  { s.put F.CP_AMCHAN_REPLY_RING (chCopy 5 2) 2 with rings := upsert s.rings (ringKey 5 2) ⟨0, 4096, false, 0, 0, 0, 0⟩ }
def amAnswer : Packet := rep Op.AM_REPLY (tagOf amSent) [(H.ADDRESS, 3), (H.HANDLER, 7)] bs8
def amReturned : State := come amSent 5 amAnswer
theorem witness_am_reply : Claims.Returns Op.AM_REPLY amReturned 5 amAnswer
    ∧ (amReturned.cmdOf 5 (pget amAnswer H.TAG)).map (fun c => (dget c.words D.CMD, dflag c.words D.EXPECT_REPLY, dget c.words D.CHANNEL))
      = some (0x10, true, 2)
    ∧ amReturned.get F.CP_AMCHAN_REPLY_RING (chCopy 5 2) = 2 ∧ pget amAnswer H.SRC_RANK = amReturned.get F.CP_AMCHAN_RANK (chCopy 5 2)
    ∧ pget amAnswer H.SRC_EP = amReturned.get F.CP_AMCHAN_ENDPOINT (chCopy 5 2)
    ∧ pget amAnswer H.ADDRESS % 4096 = amReturned.get F.CP_AMCHAN_RING (chCopy 5 2) ∧ amReturned.holds = []
    ∧ pget amAnswer H.LENGTH ≤ 64 * amReturned.get F.CP_AMCREDIT_REPLY_UNITS (chCopy 5 2)
    ∧ (lookup amReturned.rings (ringKey 5 2)).map (fun r => r.tooSmall amAnswer) = some false
    ∧ ((Claims.taken amReturned 5 amAnswer).tryPlace 5 2 amAnswer true).isSome = true := by
  unfold Claims.Returns Claims.Reaches; decide +kernel

theorem witness_flow_records : (∀ c ∈ putTwo.cmds, memBase 5 + 0x100 < memBase c.core + Claims.recordAt putTwo c)
    ∧ putTwo.cmds ≠ [] := by decide +kernel

def retried : State := putTwo.put F.CP_QCTL_RETRIES (qCopy 5 1) 1
/-- The hypotheses of a time-out, as a check on the command at position 2. -/
def expires (s : State) (again : Bool) : Bool :=
  s.coreRuns 5 && (match s.cmds.find? (fun c => c.core == 5 && c.queue == 1 && c.pos == 2 && !c.done && c.coll.isNone) with
    | none => false
    | some c => expectsAnswers c.words && !s.outWait.any (fun w => waitsFor c w) && !allAnswered c && dget c.words D.CMD != 0x10
      && (if again then retryable c.words && decide (c.tries < s.get F.CP_QCTL_RETRIES (qCopy 5 1))
          else decide (s.get F.CP_QCTL_RETRIES (qCopy 5 1) ≤ c.tries))) && Memory.wf s.mem
theorem witness_timeout : (expires retried true, expires putTwo false) = (true, true) := by decide +kernel
theorem witness_collective_timeout :
    let s := out (.barrier 5 1) (collState (collD CC.BARRIER []))
    ((s.collOn 5 1).map (fun c => c.coll.map (fun r => (r.group, r.seq))), s.raised) = (some (some (4, 7)), [])
      := by decide +kernel

/-- TAIL 258 past RETIRE 2 is the last that is taken, 259 is one too far, 2 goes back from 3 (R139). -/
theorem test_tail : [258, 259, 2].map (fun v =>
    let t := out (.cpQtailWrite 5 1 (BitVec.ofNat 64 v)) (queueWith nopD)
    (t.get F.CP_QTAIL_TAIL (qCopy 5 1), t.get F.CP_QSTAT_SUBMIT (qCopy 5 1), t.get F.CP_QSTAT_FULL (qCopy 5 1)))
      = [(258, St.OK, 0), (3, St.QUEUE_FULL, 1), (3, St.RANGE, 0)] := by decide +kernel
theorem witness_tail : (queueWith nopD).chipReset = false ∧ (queueWith nopD).coreWrites 5 = true
    ∧ (queueWith nopD).get F.CP_QSTAT_RETIRE (qCopy 5 1) = 2 ∧ (queueWith nopD).get F.CP_QTAIL_TAIL (qCopy 5 1) = 3 := by decide +kernel
theorem witness_skip : (queueWith nopD).get F.CP_QSTAT_HEAD (qCopy 5 1) ≠ (queueWith nopD).get F.CP_QTAIL_TAIL (qCopy 5 1)
    ∧ Memory.wf (queueWith nopD).mem = true := by decide +kernel
def basesWord : Word := fieldPut (fieldPut 0 F.CP_QBASE_DESC_BASE.lo F.CP_QBASE_DESC_BASE.width 0x2FC000) F.CP_QBASE_COMP_BASE.lo
  F.CP_QBASE_COMP_BASE.width 0x2FE000
theorem witness_base : p0.coreWrites 5 = true ∧ p0.flag F.CP_QCTL_ENABLE (qCopy 5 1) = false
    ∧ p0.get F.CP_QSTAT_RETIRE (qCopy 5 1) = p0.get F.CP_QTAIL_TAIL (qCopy 5 1) ∧ written basesWord F.CP_QBASE_DESC_BASE = 0x2FC000
    ∧ written basesWord F.CP_QBASE_COMP_BASE = 0x2FE000 ∧ (queueWith nopD).flag F.CP_QCTL_ENABLE (qCopy 5 1) = true := by decide +kernel
theorem witness_ring_table : p0.anyRing 5 = false ∧ (ringed 2).anyRing 5 = true ∧ (ringed 2).coreWrites 5 = true := by decide +kernel

/-- `ringed` with one record of 128 bytes in the ring, and its table at 0. -/
def oneRecord : State :=
  let s := (ringed 2).put F.CP_RINGTAB_VALID 5 1
  { s with rings := upsert s.rings (ringKey 5 2) ⟨0, 4096, false, 0, 128, 0, 1⟩ }
theorem witness_ring_advance : (lookup oneRecord.rings (ringKey 5 2)).map (fun r =>
      (decide ((128 : Nat) < 2 * r.size), decide ((r.writePos + 2 * r.size - 128) % (2 * r.size) ≤ r.used))) = some (true, true)
    ∧ oneRecord.holds = [] ∧ lookup oneRecord.rings (ringKey 5 3) = none ∧ oneRecord.coreWrites 5 = true := by decide +kernel
/-- The table entry of ring 3: 256 bytes at 0x10000. -/
def ringEntryWritten : State := oneRecord.writeBytes 5 (oneRecord.ringEntry 5 3) (leBytes 8 (0x10000 + 8 * 2 ^ 24))
theorem witness_ring_enable :
    let s := ringEntryWritten
    let w : Word := BitVec.ofNat 64 (s.readNat 5 (s.ringEntry 5 3) 8)
    (s.flag F.CP_RINGTAB_VALID 5, lookup s.rings (ringKey 5 3), fieldGet w 24 5, fieldGet w 0 22, s.coreOwnsAll 5 0x10000 256,
      s.coreOwnsAll 5 (s.get F.CP_RINGTAB_BASE 5) 0x20000) = (true, none, 8, 0x10000, true, true) := by decide +kernel
theorem witness_ring_enable_refused : (ringed 2).flag F.CP_RINGTAB_VALID 5 = false := by decide +kernel

/-! ### Witnesses: banks and register writes -/

/-- Bank 5 of core 5 owned by the core, handed to core 6. -/
def toSix : Word := [(F.CP_HANDOVER_BANK_EP, 5), (F.CP_HANDOVER_BANK, 5), (F.CP_HANDOVER_NEW_EP, 6)].foldl
  (fun w (e : Fld × Nat) => fieldPut w e.1.lo e.1.width e.2) 0
def pendingBank : State := out (.cpHandoverWrite 5 toSix) (ownBank p0 5 5 5)
theorem witness_handover : p0.coreWrites 5 = true ∧ p0.flag F.CP_HANDOVER_ANSWERED 5 = true ∧ p0.alorn.banksToDo = []
    ∧ p0.handoverValid (handoverOf (fieldPut toSix F.CP_HANDOVER_BANK.lo F.CP_HANDOVER_BANK.width 48)) = false
    ∧ (p0.put F.CP_HANDOVER_ANSWERED 5 0).flag F.CP_HANDOVER_ANSWERED 5 = false := by decide +kernel
/-- The words by which core 5 hands bank `b` of its memory to core `ep`. -/
def handTo (b ep : Nat) : Word := [(F.CP_HANDOVER_BANK_EP, 5), (F.CP_HANDOVER_BANK, b), (F.CP_HANDOVER_NEW_EP, ep)].foldl
  (fun w (e : Fld × Nat) => fieldPut w e.1.lo e.1.width e.2) 0
/-- Bank 5 of core 5 in state `st`, owned by core `e`, its next owner core `n`. -/
def bankOf (st e n : Nat) : State := p0.setBank 5 5 [(F.CP_BANKOWN_STATE, st), (F.CP_BANKOWN_OWNER_EP, e), (F.CP_BANKOWN_NEXT_EP, n)]
def noEntryFree : State := (List.range 64).foldl (fun s k => s.put F.RK_HANDOVER_VALID k 1) (bankOf 1 5 0)
/-- Every row of Table 8-4: a bank that is not there, an owner's and a next owner's claim, a PENDING bank, a bank of another and one of
none, no entry free, accepted. -/
theorem witness_handover_results : [(bankOf 1 5 0, handTo 48 6), (bankOf 3 5 0, handTo 5 6), (bankOf 3 7 5, handTo 5 5),
      (bankOf 2 5 0, handTo 5 6), (bankOf 1 6 0, handTo 5 6), (bankOf 0 5 0, handTo 5 6), (noEntryFree, handTo 5 6),
      (bankOf 1 5 0, handTo 5 6)].map (fun e => (e.1.handoverValid (handoverOf e.2),
        e.1.partOfCore 5 == some (handoverOf e.2).part && e.1.coreWrites 5 && e.1.flag F.CP_HANDOVER_ANSWERED 5, e.1.hoFree,
        (out (.cpHandoverWrite 5 e.2) e.1).get F.CP_HANDOVER_RESULT 5))
    = [(false, true, some 0, St.RANGE), (true, true, some 0, St.BROKEN), (true, true, some 0, St.BROKEN), (true, true, some 0, St.REFUSED),
      (true, true, some 0, St.NO_OWNER), (true, true, some 0, St.NO_OWNER), (true, true, none, St.REFUSED), (true, true, some 0, St.OK)] := by
  decide +kernel
theorem witness_lease : pendingBank.mgLost = false := by decide +kernel
theorem witness_pending : pendingBank.chipReset = false ∧ pendingBank.bank F.CP_BANKOWN_STATE 5 5 = 2 ∧ 5 < bankCount 5
    ∧ pendingBank.bankDrained 5 5 = true ∧ pendingBank.alorn.banksToDo = [] ∧ pendingBank.bank F.CP_BANKOWN_NEXT_EP 5 5 = 6 := by
  decide +kernel
theorem witness_register_write : up.coreWrites 5 = true ∧ regAt 0 (Reg.CP_EVCNT.info.offset + 8 * 63) = some (.CP_EVCNT, 63)
    ∧ regAt 0 (Reg.CP_AMCHAN.info.offset + 8) = some (.CP_AMCHAN, 1) ∧ Reg.CP_EVCNT.info.offset % 8 = 0 ∧ Reg.CP_AMCHAN.info.offset % 8 = 0
    ∧ (0x09000000 + Reg.AL_MBREQ.info.offset + 8 * 127) / 2 ^ 24 = 9 ∧ regAt 9 (Reg.AL_MBREQ.info.offset + 8 * 127) = some (.AL_MBREQ, 127)
    ∧ up.flag F.AL_MBCTL_REQ_BUSY 0 = false ∧ (out .doorbell up).flag F.AL_MBCTL_REQ_BUSY 0 = true
    ∧ (out .doorbell up).mgLost = false := by decide +kernel

/-! ### Witnesses: results, management and host packets -/

/-- A RED_DOWN of group 4, sequence number 7, with one FP32 chunk piece. -/
def down (ep : Nat) (l : List (HFld × Nat)) : Packet :=
  mkPacket ([(H.OPCODE, Op.RED_DOWN), (H.JOB, 9), (H.DST_EP, ep), (H.GROUP, 4), (H.SEQ, 7)] ++ l) bs8 []
/-- A RED_DOWN at core 5, and at the host bridge, that waits in `s`. -/
def downAt (s : State) (ep : Nat) : State := come s ep (down ep [])
theorem witness_red_down_stray : headerBad (down 5 []) = false ∧ pget (down 5 []) H.OPCODE = Op.RED_DOWN
    ∧ (downAt c0g 5).waitsAt 5 (down 5 []) = true ∧ (downAt c0g 5).takes 5 = true ∧ (downAt c0g 5).coreRst.contains 5 = false
    ∧ (downAt c0g 5).cmds = [] ∧ (downAt c0g 286).waitsAt 286 (down 286 []) = true ∧ (downAt c0g 287).waitsAt 287 (down 287 []) = true := by
  decide +kernel
def reducing : State :=
  let ws := collD CC.ALL_REDUCE [(C.SRC_ADDR, 0x1000), (C.DST_ADDR, 0x8000), (C.COUNT, 8192)]
  let s := collState ws
  let c : Cmd := Cmd.begin 5 1 2 ws
  { s with cmds := [{ c with coll := some ⟨4, 7, 0, 8, 1, 0, 0, 0, [], false, 0, []⟩ }] }
theorem witness_red_down_member :
    let s := downAt reducing 5
    let v := Claims.taken s 5 (down 5 [])
    s.waitsAt 5 (down 5 []) = true ∧ (v.cmds.find? (fun c => c.core == 5 && isColl c (pget (down 5 []) H.GROUP) (pget (down 5 []) H.SEQ)
      && isData (dget c.words D.CMD))).map (fun c => c.coll.isSome) = some true
    ∧ v.downCheck 5 (down 5 []) = none ∧ pflag (down 5 []) H.LAST_CHUNK = false
    ∧ hasPoison (down 5 []) = false ∧ s.takes 5 = true ∧ s.coreRst.contains 5 = false ∧ s.answersStray 5 = false := by decide +kernel
def sink : State := (((((c0g.put F.RK_GROUPAUX_SINK_VALID 4 1).put F.RK_GROUPAUX_SINK_STACK 4 0).put F.RK_GROUPAUX_SINK_BASE 4 0x100))).setBank 256 0
  [(F.CP_BANKOWN_STATE, 1), (F.CP_BANKOWN_SHARED, 1)]
theorem witness_stack_sink :
    let p := down 256 []
    let s := downAt sink 256
    let v := Claims.taken s 256 p
    let a := v.getE (pget p H.EPOCH) F.RK_GROUPAUX_SINK_BASE (pget p H.GROUP) + pget p H.ADDRESS
    s.waitsAt 256 p = true ∧ a = 0x100 ∧ pget p H.LENGTH = 8 ∧ hasPoison p = false ∧ Memory.wf s.mem = true
      ∧ v.flagE 0 F.RK_GROUPAUX_SINK_VALID 4 = true
      ∧ v.getE 0 F.RK_GROUPAUX_SINK_STACK 4 = 0 ∧ v.partCheck 256 (pset p [(H.ADDRESS, a)]) = none ∧ pget p H.FORMAT < 8 ∧ pget p H.OP < 6
      ∧ pflag p H.FLOW_VALID = false ∧ a % 8 = 0 ∧ a + 8 ≤ memSize 256 ∧ 8 % Nat.max 1 (unitBytes (pget p H.FORMAT)) = 0
      ∧ (∀ b ∈ banksOf 256 a 8, v.netOwns p 256 b = true) := by decide +kernel

def mgmtReq : Packet := mkPacket [(H.OPCODE, Op.MGMT), (H.DST_EP, 287), (H.TAG, 3)] (leBytes 8 (16 * 2 ^ 16 + 1) ++ leBytes 8 0) []
theorem witness_mgmt : up.mgLost = false ∧ headerBad mgmtReq = false ∧ pget mgmtReq H.OPCODE = Op.MGMT ∧ pget mgmtReq H.DST_EP = 287
    ∧ (come up 287 mgmtReq).waitsAt 287 mgmtReq = true ∧ mgmtSound mgmtReq = true ∧ pflag mgmtReq H.RESPONSE = false ∧ up.halted = false
    ∧ up.alorn.intake = [] := by decide +kernel
theorem witness_host_drain : [req Op.ACK 286 [] [], req Op.PUT 286 [] bs8].map (fun p =>
      let s := come up 286 p
      (s.chipReset, s.hostFront.map (fun e => (decide (e.2 = p), (splitTail (s.fifo e.1).stages).isSome)), headerBad p, classOf (pget p H.OPCODE)))
    = [(false, some (true, true), false, some .reply), (false, some (true, true), false, some .request)] := by decide +kernel

/-! ### Witnesses: optical ports -/

/-- Port 5 in state `n`, sequencing active. -/
def port5 (n : Nat) : State := (portIn 5 n up).modPort 5 (fun q => { q with seqOn := true })
theorem witness_port_states : [0, 1, 2, 3, 4, 5, 6].map (fun n => ((port5 n).portState 5, (port5 n).inData 5))
    = [(PS.DARK, false), (PS.TRAINING, false), (PS.KEYING, true), (PS.QUARANTINE, true), (PS.ADMITTED, true), (PS.DRAINING, true),
      (PS.DOWN, false)] ∧ up.lkLost = false ∧ (port5 6).flag F.OP_PORTCTL_HOLD_DOWN 5 = false := by decide +kernel
def drained : State := (port5 5).modPort 5 (fun q => { q with closeSent := true, closeGot := true })
theorem witness_drained : drained.portState 5 = PS.DRAINING ∧ (drained.port 5).staging = [] ∧ (drained.port 5).retry = []
    ∧ (drained.port 5).tx = [] ∧ (drained.port 5).closeSent = true ∧ (drained.port 5).closeGot = true := by decide +kernel
def stalled : State := (port5 4).modPort 5 (fun q => { q with retry := [(0, ⟨2, 0, 0⟩)], patch := [⟨3, 3, 16, 1⟩] })
theorem witness_stalled : stalled.inData 5 = true ∧ (stalled.port 5).retry ≠ [] ∧ (stalled.port 5).patch ≠ [] := by decide +kernel
def openable : State := (((port5 3).put F.OP_PORTCTL_ADMIT 5 1).put F.OP_PORTSTATE_VERDICT 5 0).put F.OP_PORTSTATE_PEER_VERDICT 5 0
theorem witness_port_open : openable.portState 5 = PS.QUARANTINE ∧ openable.verdictsOk 5 = true ∧ openable.localAdmit 5 = true
    ∧ (openable.port 5).seqOn = true := by decide +kernel

/-- Lane 17 of port 5 carries logical lane 15; no spare is locked. -/
def laned (n spares : Nat) : State := ((port5 n).put F.OP_LANEMAP_LOGICAL (laneCopy 5 1 17) 15).put F.OP_PORTSTATE_SPARES 5 spares
theorem witness_lanes :
    let lost := (List.range 18).filter (fun k => (0x20000#18).getLsbD k)
    let active (s : State) := (lost.filter (fun k => s.get F.OP_LANEMAP_LOGICAL (laneCopy 5 1 k) < 16)).length
    lost = [17] ∧ active (laned 4 0) = 1 ∧ (laned 4 0).get F.OP_PORTSTATE_SPARES 5 = 0 ∧ (laned 4 1).get F.OP_PORTSTATE_SPARES 5 = 1
      ∧ (laned 4 0).inData 5 = true := by decide +kernel

/-- A window of lane 17 in which the decoder corrected 7 symbols, and one of 2²⁰ and more, which SER cannot hold. -/
def windowOf (n : Nat) : State := (laned 4 0).modPort 5 (fun q => { q with corrected := [(17, n)] })
theorem witness_ser_window : [7, 0x100001].map (fun n => Nat.min 0xFFFFF ((lookup ((windowOf n).port 5).corrected 17).getD 0))
    = [(7#20).toNat, (0xFFFFF#20).toNat] ∧ (windowOf 7).chipReset = false := by decide +kernel

/-- A block of sixteen alternating symbols, seventeen empty ones and their sum. -/
def goodBlock : BitVec 340 := BitVec.ofNat 340 ((List.range 16).foldl (fun a k => a + (if k % 2 = 0 then 0x155 else 0x2AA) * 2 ^ (10 * k)) 0)
theorem witness_blocks : blockGood goodBlock = true ∧ blockGood 0 = false ∧ lookup ((port5 1).port 5).badBlk 17 = none
    ∧ (port5 1).portState 5 = PS.TRAINING ∧ (port5 0).portState 5 ≠ PS.TRAINING ∧ (port5 0).inData 5 = false := by decide +kernel

def laser (n : Nat) : State := { up.put F.OP_LASER_STATE 7 n with ramps := [(7, 0)] }
theorem witness_lasers : (laser LS.RUN).laserState 7 = LS.RUN ∧ (laser LS.EMPTY).laserState 7 = LS.EMPTY
    ∧ (laser LS.RAMPING).laserState 7 = LS.RAMPING ∧ lookup (laser LS.RAMPING).ramps 7 = some 0 := by decide +kernel
/-- Port 5 admitted, with its feeds `a` and `b`. -/
def fed (a b : Nat) : State := ((portIn 5 4 up).put F.OP_PORTSTATE_FEED_A 5 a).put F.OP_PORTSTATE_FEED_B 5 b
theorem witness_feeds : [fed 0 1, fed 1 0, fed 1 1].map (fun s =>
      (s.flag F.OP_PORTSTATE_FEED_A 5, s.flag F.OP_PORTSTATE_FEED_B 5, s.inData 5))
    = [(false, true, true), (true, false, true), (true, true, true)] := by decide +kernel
/-- The nominal power is an open value: whatever it is, the highest power is not low in a port that is down, and where it is above
-16.0 dBm a lane at -20.0 dBm of an admitted port is. -/
theorem witness_laser_low : (fed 1 1).inData 5 = true ∧ up.inData 5 = false
    ∧ (-165 < Config.nominalPower.toInt → (BitVec.ofInt 11 (-200)).toInt + 35 < Config.nominalPower.toInt) :=
  ⟨by decide +kernel, by decide +kernel, fun h => by
    have k : (BitVec.ofInt 11 (-200)).toInt = -200 := by decide
    omega⟩
theorem witness_window_release : [0, 17].all (fun n => (({ up with released := [(egwin 5 2 31, n)] } : State).chipReset) == false) = true := by
  decide +kernel

def far : Packet := req Op.PUT 6 [(H.DST_CHIP, 0x12)] bs8
/-- `far` with the reply of core 6 that crosses the dateline of port 5's ring a second time. -/
def farReply : Packet := mkPacket [(H.OPCODE, Op.ACK), (H.JOB, 9), (H.DST_EP, 6), (H.SRC_EP, 5), (H.DST_CHIP, 0x12), (H.CLASS_B, 1)] [] []
theorem witness_egress : [far, farReply].map (fun p => (headerBad p, classOf (pget p H.OPCODE), isTree (pget p H.OPCODE)))
      = [(false, some .request, false), (false, some .reply, false)]
    ∧ [(port5 4), (port5 3)].map (fun s => (s.logical 5, (come s 285 far).waitsAt 285 far, (come s 285 farReply).waitsAt 285 farReply))
      = [(5, true, true), (5, true, true)]
    ∧ (port5 4).admitted 5 = true ∧ (port5 3).admitted 5 = false
    ∧ ((port5 4).put F.RK_RINGPLAN_DATELINE 5 1).lane 5 true farReply = none
    ∧ ((come (port5 4) 285 far).lane 5 ((31 : Nat) == 22 + opposite 5) far).isSome = true := by decide +kernel
def relayPkt : Packet := mkPacket [(H.OPCODE, Op.MGMT), (H.DST_EP, 285)] (leBytes 8 (16 * 2 ^ 16 + 1) ++ leBytes 8 0) []
theorem witness_mgmt_relay : headerBad relayPkt = false ∧ pget relayPkt H.OPCODE = Op.MGMT
    ∧ pget relayPkt H.DST_EP = 280 + (port5 3).logical 5 ∧ pget relayPkt H.DST_CHIP = (port5 3).own
    ∧ (come (port5 3) 285 relayPkt).waitsAt 285 relayPkt = true := by decide +kernel
/-- Port 5 with one packet staged on VL2, and credit for `n` parcels there. -/
def stagedAt (n : Nat) : State :=
  ((port5 4).put F.OP_CREDIT_LIMIT (7 * 5 + 2) n).modPort 5 (fun q => { q with staging := [⟨1, 2, false, far⟩] })
theorem witness_staging : ((stagedAt 1).port 5).staging.find? (fun t => t.vl == 2) = some ⟨1, 2, false, far⟩ ∧ (stagedAt 1).vlOpen 5 2 = true
    ∧ (stagedAt 1).creditFor 5 2 (ceilDiv (flitsOf far).length 4) far = some (1, none) := by decide +kernel
theorem witness_staging_waits : (stagedAt 0).vlOpen 5 2 = true ∧ (stagedAt 0).creditFor 5 2 (ceilDiv (flitsOf far).length 4) far = none
    ∧ (stagedAt 0).transitSide1 5 far = none := by decide +kernel

def sending (q : Port → Port) : State := (port5 4).modPort 5 q
theorem witness_send : [sending (fun q => { q with replay := [(0, ⟨2, 0, 0⟩)] }), sending (fun q => { q with control := [1] }),
      sending (fun q => { q with tx := [⟨0, 0, 0⟩] }), sending (fun q => { q with tx := [⟨1, 0, 0⟩] }), sending id].map
    (fun s => ((s.port 5).replay.length, (s.port 5).control.length, (s.ready 5 0).isSome, (s.ready 5 1).isSome, (s.nextTurn 5).isSome))
    = [(1, 0, false, false, false), (0, 1, false, false, false), (0, 0, true, false, false), (0, 0, false, true, false),
      (0, 0, false, false, false)] ∧ (sending id).inData 5 = true := by decide +kernel

/-- A parcel of TYPE `t`, VL `v` and SEQ `n`. -/
def parcel (t v n : Nat) : Parcel := BitVec.ofNat 2112 ((t + 4 * v + 2 ^ 17 * n) * 2 ^ 2048)
/-- `port5` whose receive lane k carries logical lane k. -/
def mapped : State := (List.range 16).foldl (fun s k => s.put F.OP_LANEMAP_LOGICAL (laneCopy 5 1 k) k) (port5 4)
/-- The levels on those lanes of a codeword whose symbols from place `a` on are `m` and else 0: each bit pair as its level, symbol j
on lane j mod 16. -/
def levelsFor (a : Nat) (m : List Nat) : BitVec 6120 :=
  BitVec.ofNat 6120 (m.zipIdx.foldl (fun v e =>
    v + (e.1 ^^^ (e.1 >>> 1 &&& 0x155)) * 2 ^ (340 * ((a + e.2) % 16) + 10 * ((a + e.2) / 16))) 0)
/-- A word of `m` between zeros. -/
def between (a : Nat) (m : List Nat) (b : Nat) : List Nat := List.replicate a 0 ++ m ++ List.replicate b 0

theorem gfMul_zero (x : Nat) : gfMul 0 x = 0 := by
  have h : ∀ (l : List Nat) (f : Nat → Bool), l.foldl (fun r i => if f i then r ^^^ ((0 : Nat) <<< i) else r) 0 = 0 := by
    intro l f; induction l <;> simp_all
  unfold gfMul
  simp only [h]
  decide
theorem gfFold_zeros (n x : Nat) : (List.replicate n 0).foldl (fun r c => gfMul r x ^^^ c) 0 = 0 := by
  induction n <;> simp_all [List.replicate_succ, gfMul_zero]
theorem gfEval_between (a : Nat) (m : List Nat) (b x : Nat) :
    gfEval (between a m b) x = (List.replicate b 0).foldl (fun r c => gfMul r x ^^^ c) (gfEval m x) := by
  simp only [gfEval, between, List.foldl_append, gfFold_zeros]
/-- A word whose symbols between the zeros vanish at every root is a codeword. -/
theorem codeword_between (a : Nat) (m : List Nat) (b : Nat) (h : ∀ i ∈ List.range 30, gfEval m (gfAlpha i) = 0) :
    rsDecode (between a m b) = some (between a m b, []) := by
  have k : (rsSyndromes (between a m b)).all (fun x => x == 0) = true := by
    simp only [rsSyndromes, List.all_map, List.all_eq_true]
    intro i hi
    simp [gfEval_between, h i hi, gfFold_zeros]
  simp only [rsDecode, k, if_true]
theorem ofSymbols_zeros (n : Nat) (l : List Nat) : ofSymbols (List.replicate n 0 ++ l) = 1024 ^ n * ofSymbols l := by
  induction n with
  | zero => simp
  | succ n ih =>
    simp only [List.replicate_succ, List.cons_append, ofSymbols, List.foldr_cons, Nat.zero_add] at ih ⊢
    rw [ih, Nat.pow_succ, Nat.mul_comm (1024 ^ n) 1024, Nat.mul_assoc]
theorem same_of_chunks {α : Type} (n : Nat) : ∀ (m : Nat) (a b : List α), a.length ≤ n * m → b.length ≤ n * m →
    (∀ k, k < m → (a.drop (n * k)).take n = (b.drop (n * k)).take n) → a = b := by
  intro m
  induction m with
  | zero => intro a b ha hb _; simp at ha hb; simp [ha, hb]
  | succ m ih =>
    intro a b ha hb h
    have h0 := h 0 (by omega)
    simp only [Nat.mul_zero, List.drop_zero] at h0
    rw [← List.take_append_drop n a, ← List.take_append_drop n b, h0]
    congr 1
    refine ih _ _ ?_ ?_ fun k hk => ?_
    · simp only [List.length_drop]; rw [Nat.mul_succ] at ha; omega
    · simp only [List.length_drop]; rw [Nat.mul_succ] at hb; omega
    · have := h (k + 1) (by omega)
      rw [Nat.mul_succ] at this
      simp only [List.drop_drop]
      rw [Nat.add_comm n (n * k)]; exact this
/-- What the lanes carry, symbol by symbol. -/
def symbolsFrom (levels : BitVec 6120) : List Nat :=
  (List.range 544).map (fun j => ((List.range 16).map (fun l => (gray (levels.extractLsb' (340 * l) 340)).toNat)).getD (j % 16) 0
    / 2 ^ (10 * (j / 16)) % 1024)
theorem rxWord_mapped (levels : BitVec 6120) : mapped.rxWord 5 levels = symbolsFrom levels := by
  have h : ∀ n ∈ List.range 16, mapped.rxLane 5 n = some n := by decide +kernel
  have k : ∀ f g : Nat → Nat, (∀ n ∈ List.range 16, f n = g n) →
      (List.range 544).map (fun j => ((List.range 16).map f).getD (j % 16) 0 / 2 ^ (10 * (j / 16)) % 1024)
        = (List.range 544).map (fun j => ((List.range 16).map g).getD (j % 16) 0 / 2 ^ (10 * (j / 16)) % 1024) :=
    fun f g e => by rw [List.map_congr_left e]
  unfold State.rxWord symbolsFrom
  dsimp only
  refine k _ _ (fun n hn => ?_)
  rw [h n hn]
/-- The levels of a word of zeros and some symbols are received as that word. -/
theorem rxWord_between (a : Nat) (m : List Nat) (b : Nat) (h : a + m.length + b = 544)
    (k : ∀ k, k < 17 → ((symbolsFrom (levelsFor a m)).drop (32 * k)).take 32 = ((between a m b).drop (32 * k)).take 32) :
    mapped.rxWord 5 (levelsFor a m) = between a m b := by
  rw [rxWord_mapped]
  exact same_of_chunks 32 17 _ _ (by simp [symbolsFrom]) (by simp only [between, List.length_append, List.length_replicate]; omega) k

/-- Thirty-one symbols of a codeword (a multiple of the generator): the first of them are the trailer of a sequenced parcel of VL 7. -/
def code : List Nat := [261, 303, 585, 9, 143, 585, 261, 287, 799, 269, 979, 570, 957, 905, 159, 761, 492, 183, 695, 913, 846, 443, 425, 885, 211, 612, 515, 505, 928, 520, 430]
theorem codeword_code : rsDecode (mapped.rxWord 5 (levelsFor 204 code)) = some (between 204 code 309, []) := by
  rw [rxWord_between 204 code 309 (by decide) (by decide +kernel)]
  exact codeword_between _ _ _ (by decide +kernel)
theorem codeword_zeros : rsDecode (mapped.rxWord 5 (levelsFor 514 [])) = some (between 514 [] 30, []) := by
  rw [rxWord_between 514 [] 30 (by decide) (by decide +kernel)]
  exact codeword_between _ _ _ (by decide +kernel)
/-- Fourteen wrong symbols, one too many (R274). -/
def noisy : BitVec 6120 := levelsFor 530 (List.replicate 14 1)
theorem witness_uncorrectable : rsDecode (mapped.rxWord 5 noisy) = none ∧ parcelAt 0 = 0 ∧ touchesTwo 2 = true := by
  refine ⟨?_, by decide, by decide⟩
  unfold noisy
  rw [rxWord_between 530 (List.replicate 14 1) 0 (by decide) (by decide +kernel)]
  have s : rsSyndromes (between 530 (List.replicate 14 1) 0) = (List.range 30).map (fun i => gfEval (List.replicate 14 1) (gfAlpha i)) := by
    simp only [rsSyndromes, gfEval_between, List.replicate_zero, List.foldl_nil]
  have d : ((List.range 30).map (fun i => gfEval (List.replicate 14 1) (gfAlpha i))).all (fun x => x == 0) = false := by decide +kernel
  have t : 13 < (rsLocator ((List.range 30).map (fun i => gfEval (List.replicate 14 1) (gfAlpha i)))).len := by decide +kernel
  simp only [rsDecode, s, d, t, if_true, if_false, Bool.false_eq_true]

theorem receive_zero (a : BitVec 6120) (w : List Nat) (l : List Nat) (h : rsDecode (mapped.rxWord 5 a) = some (w, l)) :
    (mapped.receive 5 0 a 0).2 = some (parcelFrom 0 (messageOf w) 0) := by
  have k : touchesTwo 0 = false := by decide
  simp only [State.receive, k, h, Bool.not_false, if_true, Option.map_some]
theorem take_between (a : Nat) (m : List Nat) (b c : Nat) : (between a m (b + c)).take (a + m.length + b) = between a m b := by
  unfold between
  rw [← List.replicate_append_replicate, ← List.append_assoc]
  exact List.take_left' (by simp only [List.length_append, List.length_replicate])
theorem messageOf_between (a : Nat) (m : List Nat) (b : Nat) (h : a + m.length + b = 514) :
    messageOf (between a m (b + 30)) = 1024 ^ a * ofSymbols (m ++ List.replicate b 0) := by
  have k := take_between a m b 30
  rw [h] at k
  rw [← ofSymbols_zeros, messageOf, k, between, List.append_assoc]
/-- An idle parcel, and one of VL 7 that takes `expSeq` or does not. -/
theorem witness_parcels : (∃ x, (mapped.receive 5 0 (levelsFor 514 []) 0).2 = some x ∧ TR.REPLAY x = false ∧ TR.TYPE x = PT.IDLE)
    ∧ (∃ x, (mapped.receive 5 0 (levelsFor 204 code) 0).2 = some x ∧ TR.REPLAY x = false ∧ TR.TYPE x = PT.DATA
      ∧ TR.SEQ x = 306 ∧ TR.VL x = 7) ∧ mapped.inData 5 = true ∧ (mapped.port 5).seqOn = true ∧ (mapped.port 5).expSeq = 0
    ∧ ((mapped.modPort 5 (fun q => { q with expSeq := 306 })).port 5).expSeq = 306 := by
  refine ⟨⟨_, receive_zero _ _ _ codeword_zeros, ?_⟩, ⟨_, receive_zero _ _ _ codeword_code, ?_⟩, by decide +kernel⟩
  · rw [messageOf_between 514 [] 0 (by decide)]; decide +kernel
  · rw [messageOf_between 204 code 279 (by decide)]; decide +kernel

theorem witness_link_timers : (stalled.port 5).seqOn = true ∧ (stalled.port 5).retry ≠ [] ∧ stalled.inData 5 = true := by decide +kernel
def repeating : State := (port5 4).modPort 5 (fun q => { q with openSent := true, closeSent := true, key := { q.key with own := 1 } })
theorem witness_repeats : repeating.inData 5 = true ∧ (repeating.port 5).openSent = true ∧ (repeating.port 5).openGot = false
    ∧ (repeating.port 5).closeSent = true ∧ (repeating.port 5).closeGot = false ∧ (repeating.port 5).key.peerDone = false
    ∧ (repeating.port 5).key.own ≠ 0 ∧ repeating.alornRuns = true := by decide +kernel

def echoed (n : Nat) : State := (port5 4).modPort 5 (fun q => { q with delays := List.replicate n (100, 0) })
theorem witness_control : cget 3 0 8 = CM.DELAY_PROBE ∧ cget 4 0 8 = CM.DELAY_ECHO ∧ cget 2 0 8 = CM.KEY_RESULT ∧ cget 1 0 8 = CM.KEY_OFFER
    ∧ ((echoed 6).port 5).delays.length < 7 ∧ ((echoed 7).port 5).delays.length = 7 ∧ (echoed 7).inData 5 = true
    ∧ (echoed 7).alornRuns = true := by decide +kernel
/-- PATCH_REQ for logical lane 15, from lane 16 to lane 17. -/
def patchMsg : BitVec 2048 := BitVec.ofNat 2048 (CM.PATCH_REQ + 15 * 2 ^ 8 + 16 * 2 ^ 16 + 17 * 2 ^ 24 + 9 * 2 ^ 32)
def patchable : State := ((port5 4).put F.OP_LANEMAP_LOGICAL (laneCopy 5 0 16) 15).put F.OP_LANEMAP_LOGICAL (laneCopy 5 0 17) LM.SPARE
theorem witness_patch : cget patchMsg 0 8 = CM.PATCH_REQ ∧ [cget patchMsg 8 8, cget patchMsg 16 8, cget patchMsg 24 8, cget patchMsg 32 10]
      = [15, 16, 17, 9]
    ∧ patchable.laneOf 5 0 16 = 15 ∧ patchable.laneOf 5 0 17 = LM.SPARE ∧ (patchable.port 5).txPatch = []
    ∧ ((patchable.modPort 5 (fun q => { q with txPatch := [⟨15, 16, 17, 9⟩] })).port 5).txPatch = [⟨15, 16, 17, 9⟩] := by decide +kernel

/-- `port5` admitted with a request for core 5 of this chip in its pool. -/
def pooled (n : Next) : State :=
  let s := ((portIn 5 4 c0).modPort 5 (fun q => { q with seqOn := true, pool := [⟨2, n, req Op.PUT 5 [] bs8, 1, 0, none, none⟩] }))
  s
theorem witness_ingress : (port5 3).portState 5 = PS.QUARANTINE ∧ classOf (pget (req Op.PUT 5 [] bs8) H.OPCODE) = some .request
    ∧ (pooled .arrived).portState 5 = PS.ADMITTED ∧ headerBad (req Op.PUT 5 [] bs8) = false
    ∧ (match (pooled .arrived).fate 5 (req Op.PUT 5 [] bs8) with | .queue _ none => true | _ => false) = true
    ∧ ((pooled .arrived).arrivedAt 5 2 (req Op.PUT 5 [] bs8)).isSome = true := by decide +kernel
theorem witness_pool_forward : ((pooled .die).port 5).pool.length = 1 ∧ (((pooled .die).port 5).pool.map (fun e =>
      ((pooled .die).queuedBehind 5 0 e, e.next == .die,
        decide ((flitsOf e.pkt).length ≤ (pooled .die).room ((pooled .die).outFifo (280 + (pooled .die).logical 5) e.pkt)))))
      = [(false, true, true)] ∧ ((pooled .die).port 5).seqOn = true := by decide +kernel

/-! ### Witnesses: Screed, Plumb and epochs -/

def u17 : Unit9 := .router 17
/-- `s` with tree packet `p` of input `inp` standing at the Screed unit of router 17. -/
def atUnit (s : State) (inp : Nat) (p : Packet) : State :=
  { s with grants := upsert s.grants (outKey (meshOf p) 17 7) ⟨inp, 0, false, false, p⟩ }
def mcTree : Packet := req Op.PUT_MC 0 [(H.GROUP, 4)] bs8
theorem witness_no_entry : headerBad mcTree = false ∧ (classOf (pget mcTree H.OPCODE)).isSome = true ∧ treePacket mcTree = true
    ∧ treeEdge (unitNo u17) 4 = true ∧ (atUnit c0 4 mcTree).treeStands 17 4 mcTree = true ∧ ((atUnit c0 4 mcTree).node 17 0 4).isNone = true := by
  decide +kernel
def forkable : State := atUnit c0g 4 mcTree
theorem witness_fork_entered : (forkable.node 17 0 4).map (fun n => (n.up, decide (1 < n.kids.length), (forkable.dropTree 17 4 mcTree).oldHolds n,
      (freeKey forkable.mcBufs n.intakes).isSome, (freeKey forkable.merges n.mergeKeys).isSome)) = some (4, true, false, true, true)
    ∧ forkable.treeStands 17 4 mcTree = true ∧ forkable.unitOpen 17 = true ∧ pget mcTree H.OPCODE = Op.PUT_MC := by decide +kernel
/-- A PUT_MC at its root node takes a buffer and a merge entry that waits for both branches (R215, R216). -/
theorem test_fork_entered :
    let t := out (.treePacketArrival u17 4 mcTree) forkable
    (t.mcBufs.map (fun e => e.2.outs), t.merges.map (fun e => e.2.pending)) = ([0x12], [0x12]) := by decide +kernel
theorem witness_rooms : (c0g.node (unitNo u17) 0 4).isSome = true ∧ (256 ≤ unitNo u17 ∨ (1 : Fin 8).val ≠ 7)
    ∧ c0g.generation 17 4 = false ∧ (c0g.node (unitNo u17) 0 4).map (fun n => n.up) ≠ some 1
    ∧ [c0g.shownCount 17 1 0 4 .result 2, c0g.shownCount 17 1 0 4 .contribution 0, c0g.shownCount 17 1 0 4 .multicast 4,
      c0g.shownCount 18 3 0 4 .contribution 0, c0g.shownCount 17 1 0 4 .result 15] = [true, true, true, true, false] := by
  decide +kernel
def lastCopy : State := { c0g with mcBufs := upsert c0g.mcBufs (64 * 17 + 2) ⟨4, 0, none, false, 2, 0, mcTree⟩ }
theorem witness_last_copy : lookup lastCopy.mcBufs (64 * unitNo u17 + 2) = some ⟨4, 0, none, false, 2, 0, mcTree⟩
    ∧ (lastCopy.node 17 0 4).map (fun n => (n.kids, lastCopy.olderWaits n ⟨4, 0, none, false, 2, 0, mcTree⟩ 1, n.branchBuf 1, n.branchBuf 4))
      = some ([1, 4], false, some (64 * 17), some (64 * 17 + 1))
    ∧ clearBit 2 1 = 0 ∧ lookup lastCopy.mcBufs (64 * 17) = none := by decide +kernel
theorem witness_last_copy_outs : ∀ o, bit 2 o = (o == 1) := by
  intro o
  match o with
  | 0 => rfl
  | 1 => rfl
  | n + 2 => simp [bit, Nat.testBit, Nat.shiftRight_succ_inside]

def mcAnswer : Packet := rep Op.ACK 5 [(H.GROUP, 4), (H.ADDRESS, 64)] (leBytes 4 1 ++ List.replicate 12 0)
def merging (pending : Nat) : State :=
  { c0g with merges := upsert c0g.merges (64 * 17 + 63) ⟨4, 0, req Op.PUT_MC 0 [(H.GROUP, 4), (H.TAG, 5), (H.ADDRESS, 64)] bs8, pending, 0, 0, 0, 0⟩ }
theorem witness_merges : headerBad mcAnswer = false ∧ isTree (pget mcAnswer H.OPCODE) = false ∧ treePacket mcAnswer = true
    ∧ treeEdge (unitNo u17) 4 = true ∧ [merging 0x12, merging 0x10, c0g].map (fun s =>
      let s := atUnit s 4 mcAnswer
      (s.unitOpen 17, s.treeStands 17 4 mcAnswer, (s.node 17 (pget mcAnswer H.EPOCH) (pget mcAnswer H.GROUP)).isSome,
        (s.mergeFor 17 4 4 5 64).map (fun e => (e.1, clearBit e.2.pending 4))))
      = [(true, true, true, some (64 * 17 + 63, 2)), (true, true, true, some (64 * 17 + 63, 0)), (true, true, true, none)] := by
  decide +kernel

/-- A last chunk of 64 zero bytes for group 4; input 0 stands for one with a wrong ADDRESS. -/
def contribution (inp : Nat) : Packet :=
  mkPacket [(H.OPCODE, Op.RED_UP), (H.GROUP, 4), (H.SEQ, 7), (H.JOB, 9), (H.OP, 1), (H.LAST_CHUNK, 1), (H.ADDRESS, if inp = 0 then 64 else 0)]
    (List.replicate 64 0) []
theorem witness_contribution : ((c0g.node 17 0 4).bind (fun n => c0g.awaiting n 4)) = some (68, 0, 0)
    ∧ (c0g.node 17 0 4).map (fun n => (c0g.run n).halted) = some false ∧ (c0g.node 17 0 4).map (fun n => n.order.length) = some 2
    ∧ ((c0g.node 17 0 4).bind (fun n => c0g.badField n 68 0 0 4 (contribution 4))) = none
    ∧ ((c0g.node 17 0 4).bind (fun n => c0g.badField n 68 0 0 4 (contribution 0))) = some 3
    ∧ headerBad (contribution 4) = false ∧ treeEdge 17 4 = true
    ∧ (atUnit c0g 4 (contribution 4)).treeStands 17 4 (contribution 4) = true ∧ c0g.abortRecorded 4 7 = false ∧ c0g.unitOpen 17 = true := by decide +kernel
theorem witness_no_intake_stopped : ∀ i, c0g.intakeStopped i = false := by
  intro i
  have h : c0g.parts = [] := by decide +kernel
  unfold State.intakeStopped State.part
  rw [h]
  cases c0g.partOfCore i <;> rfl
def summed : State :=
  out (.contributionTaken u17 1 (contribution 1) [])
    (atUnit (out (.contributionTaken u17 4 (contribution 4) []) (atUnit c0g 4 (contribution 4))) 1 (contribution 1))
theorem witness_result : summed.slotState 68 = SL.RESULT ∧ 4 * 17 + 0 = 68 ∧ bit (summed.slot 68).outs 1 = true
    ∧ (summed.node 17 (summed.get F.SC_SLOTSTAT_EPOCH 68) (summed.get F.SC_SLOTSTAT_GROUP 68)).map (fun n =>
      (n.unit, summed.copyOpen n 68 1)) = some (17, true) := by decide +kernel

/-- An arrival of group 4, sequence number 7. -/
def arrival (op v : Nat) : PlumbMsg := mkPlumb op 4 7 0 0 0 0 1 v
def oneArrived : State := out (.barArrive (.cluster 0) (.member 5) (arrival Op.BAR_ARRIVE 0)) c0g
theorem witness_plumb : wired (.cluster 0) (.member 5) = true ∧ M.OPCODE (arrival Op.BAR_ARRIVE 0) = Op.BAR_ARRIVE
    ∧ M.OPCODE (arrival Op.SRED_UP 9) = Op.SRED_UP ∧ c0g.dropsArrival 2 4 7 = false ∧ c0g.plumbInputs 2 0 4 = [5, 6]
    ∧ inputKey (.member 5) = 5 ∧ c0g.absentInputs 2 0 4 = [] ∧ lookup c0g.plumb (plumbKey 2 4) = none := by decide +kernel
theorem test_plumb : (lookup oneArrived.plumb (plumbKey 2 4)).map (fun r => (r.seq, r.sent, r.vals.map (fun e => e.1))) = some (7, false, [5]) := by
  decide +kernel
def hubbed : State := { c0g with plumb := [(plumbKey 0 4, ⟨7, 0, false, 0, 0, 0, [], false, true⟩), (plumbKey 2 4, ⟨7, 0, true, 0, 0, 0, [], false, true⟩)] }
theorem witness_releases : hubbed.plumbRuns 0 4 7 = true ∧ hubbed.epochGroup ≠ 4 ∧ hubbed.plumbRuns 2 4 7 = true ∧ hubbed.hubDown = []
    ∧ (hubbed.copyTake 2 .a (arrival Op.SRED_DOWN 9)).pairOf 2 .a (arrival Op.SRED_DOWN 9) = none
    ∧ hubbed.copies.contains (2, otherHub .a, 0) = false ∧ c0g.altered 2 .a (arrival Op.SRED_DOWN 9) = false
    ∧ (c0g.copyTake 2 .a (arrival Op.SRED_DOWN 9)).pairOf 2 .a (arrival Op.SRED_DOWN 9) = none
    ∧ c0g.copies.contains (2, otherHub .a, 0) = false ∧ c0g.plumbRuns 2 4 7 = false ∧ c0g.abortRecorded 4 7 = false
    ∧ M.OPCODE (arrival Op.SRED_DOWN 9) = Op.SRED_DOWN ∧ M.OPCODE (arrival Op.BAR_RELEASE 0) = Op.BAR_RELEASE
    ∧ hubbed.hubsUp = [0, 1] ∧ hubbed.memberClusters 0 4 = [0] := by decide +kernel
/-- The first copy of a message at cluster node 15, and at port 5. -/
def paired (n : Nat) : State := { hubbed with copies := [(n, .a, arrival Op.SRED_DOWN 9)] }
theorem witness_missed_copy : [2 + 15, 18 + 5].map (fun n =>
      (paired n).copies.find? (fun x => x.1 == n && x.2.2 == arrival Op.SRED_DOWN 9 && arrival Op.SRED_DOWN 9 != 0))
    = [some (17, .a, arrival Op.SRED_DOWN 9), some (23, .a, arrival Op.SRED_DOWN 9)] := by decide +kernel
def plumbPkt : Packet := hd [(H.OPCODE, Op.BAR_ARRIVE)]
/-- `plumbPkt` has arrived at port 5 in state `n`, whose Plumb out FIFO holds `l` stages. -/
def plumbIn (n l : Nat) : State :=
  ((port5 n).modPort 5 (fun q => { q with pool := [⟨0, .arrived, plumbPkt, 1, 0, none, none⟩] })).setFifo (plumbOutOf 5)
    ⟨List.replicate l 0, false, 0⟩
theorem witness_plumb_port : headerBad plumbPkt = false ∧ classOf (pget plumbPkt H.OPCODE) = some .plumb
    ∧ [plumbIn 3 0, plumbIn 4 7, plumbIn 4 8].map (fun s =>
      (s.portState 5, (s.arrivedAt 5 0 plumbPkt).isSome, decide (s.room (plumbOutOf 5) = 0), (s.port 5).seqOn))
      = [(PS.QUARANTINE, true, false, true), (PS.ADMITTED, true, false, true), (PS.ADMITTED, true, true, true)] := by decide +kernel
def abortMsg (g : Nat) : PlumbMsg := mkPlumb Op.ABORT g 7 0 8 0
theorem witness_abort : M.OPCODE (abortMsg 4095) = Op.ABORT ∧ M.GROUP (abortMsg 4095) < 4096
    ∧ ((up.put F.PL_GROUPSTATE_ABORT_VALID1 4095 1).put F.PL_GROUPSTATE_ABORT_SEQ1 4095 7).abortRecorded 4095 7 = true := by decide +kernel

/-- A chip at epoch 7, armed. -/
def armed : State := (up.put F.RK_EPOCH_NUMBER 0 7).put F.RK_EPOCH_ARMED 0 1
def token (n : Nat) : PlumbMsg := mkPlumb Op.EPOCH 0xFFF n 0 0 0
theorem witness_token : M.OPCODE (token 8) = Op.EPOCH ∧ M.SEQ (token 8) = nextEpoch 7 ∧ armed.flag F.RK_EPOCH_ARMED 0 = true
    ∧ armed.get F.RK_EPOCH_NUMBER 0 = 7 ∧ M.SEQ (token 7) = 7 ∧ M.SEQ (token 9) ≠ nextEpoch 7
    ∧ (armed.put F.RK_EPOCH_ARMED 0 0).flag F.RK_EPOCH_ARMED 0 = false ∧ armed.epochCtl.settle = none := by decide +kernel
def retiring (b : Bool) : State :=
  let s := ((armed.put F.RK_EPOCH_SHADOW 0 SH.RETIRING).put F.RK_EPOCH_EPOCH_GROUP 0 4).put F.PL_GROUP_VALID 4 1
  { s with epochCtl := { s.epochCtl with round := b } }
def retireMsg (v st : Nat) : PlumbMsg := mkPlumb Op.SRED_DOWN 4 7 0 st 0 0 4 v
theorem witness_retirement : M.OPCODE (retireMsg 0 0) = Op.SRED_DOWN ∧ M.GROUP (retireMsg 0 0) = (retiring true).epochGroup
    ∧ (retiring true).shadow = SH.RETIRING ∧ (retiring true).epochCtl.round = true ∧ M.SEQ (retireMsg 0 0) = (retiring true).get F.RK_EPOCH_NUMBER 0
    ∧ M.VALUE (retireMsg 0 0) = 0 ∧ M.STATUS (retireMsg 0 0) = 0 ∧ M.VALUE (retireMsg 1 0) ≠ 0 ∧ M.STATUS (retireMsg 0 8) ≠ 0
    ∧ (retiring false).epochCtl.round = false ∧ (retiring false).alornRuns = true
    ∧ (retiring false).flag F.PL_GROUP_VALID (retiring false).epochGroup = true ∧ (retiring false).room alornOut ≠ 0
    ∧ ((retiring false).setFifo alornOut ⟨List.replicate 8 0, false, 0⟩).room alornOut = 0 := by decide +kernel

/-! ### Witnesses: Alorn -/

/-- `s` with the lock held by the mailbox. -/
def locked (s : State) : State := ((s.put F.AL_LOCK_HELD 0 1).put F.AL_LOCK_SRC 0 0).put F.AL_LOCK_ID 0 0

/-- The hypotheses of `Claims.Heard`, as a check. -/
def heardAt (s : State) (src : Source) (cmd : Nat) (tag : BitVec 32) (args : List Word) : Bool :=
  s.chipReset == false && s.takesRequests && decide (s.alorn.intake = []) && (src != .mailbox || s.flag F.AL_MBCTL_REQ_BUSY 0 == false)
    && s.alorn.cache.all (fun e => e.src != src || e.tag != tag) && decide (args.length ≤ 126)
    && layoutSound cmd (requestWords src cmd tag args)
    && (s.fuse.lifecycle != LC.DECOMMISSIONED || acceptedLast cmd (args.getD 0 0)) && decide (s.backgroundOf AC.SELF_TEST = [])
    && (!needsLock cmd (args.getD 0 0) || s.holdsLock src) && s.familyFull cmd (args.getD 0 0) == false

theorem heard_of_check (s : State) (src : Source) (cmd : Nat) (tag : BitVec 32) (args : List Word) (h : heardAt s src cmd tag args = true) :
    Claims.Heard s src cmd tag args := by
  simp only [heardAt, Bool.and_eq_true, Bool.or_eq_true, beq_iff_eq, decide_eq_true_eq, List.all_eq_true, bne_iff_ne, Bool.not_eq_true'] at h
  obtain ⟨⟨⟨⟨⟨⟨⟨⟨⟨⟨a, b⟩, x⟩, y⟩, c⟩, d⟩, e⟩, f⟩, g⟩, i⟩, j⟩ := h
  refine ⟨⟨a, b, x, fun n => ?_⟩, fun x hx hs => ?_, d, e, f, g, fun n => ?_, j⟩
  · rcases y with k | k
    · exact absurd n k
    · exact k
  · rcases c x hx with k | k
    · exact absurd hs k
    · exact k
  · rcases i with k | k
    · rw [n] at k; cases k
    · exact k

theorem witness_heard : Claims.Heard up (.relayed 5 0xFF) AC.GET_VERSION 0xFFFFFFFF [] := heard_of_check _ _ _ _ _ (by decide +kernel)

/-- Every request row is heard on a chip whose lock the mailbox holds. -/
theorem witness_every_request_heard : ((Claims.requests .mailbox 1 0 0 [] []).map (fun e => (e.1, e.2.1))).all (fun e =>
    let w : Word := if e.1 = AC.READ_COUNTERS then 0x100 else if e.1 = AC.READ_EVENTS then 0x100000000 else 0
    let args := if e.1 = AC.READ_COUNTERS then [w, 0x400] else if e.1 = AC.READ_EVENTS then [w]
      else if e.1 = AC.SEAL_KEY ∨ e.1 = AC.LIFECYCLE then 1 :: List.replicate 19 0
      else if e.2 = [fixed 0 2 1 0] then [fixed 0 2 1 0x80000, 0] else e.2
    heardAt (locked p0) .mailbox e.1 1 args) = true := by decide +kernel

theorem witness_doorbell : up.chipReset = false ∧ up.mgLost = false ∧ up.flag F.AL_MBCTL_REQ_BUSY 0 = false ∧ up.halted = false
    ∧ up.alorn.intake.length < 64 ∧ (up.put F.AL_MBCTL_REQ_BUSY 0 1).flag F.AL_MBCTL_REQ_BUSY 0 = true := by decide +kernel
theorem witness_mctp_long : ((List.replicate 1030 0x7F#8).getD 0 0).toNat % 128 = 0x7F ∧ 1029 < (List.replicate 1030 0x7F#8).length := by
  decide +kernel
theorem witness_mctp : ((0x7F#8 :: (leBytes 4 Config.enterprise.toNat ++ bs8)).drop 1).take 4 = leBytes 4 Config.enterprise.toNat := rfl
/-- A GET_VERSION request by VIA `v`. -/
def request (v : Nat) : Req := ⟨.mctp 8, [BitVec.ofNat 64 (AC.GET_VERSION + 16 * 2 ^ 16 + 5 * 2 ^ 32), BitVec.ofNat 64 v], 16, 0, false, 0⟩
def asked (v : Nat) : State := (portIn 2 4 up).modAlorn (fun a => { a with intake := [request v] })
theorem witness_request_taken : (asked 2).takesRequests = true ∧ (asked 2).mgLost = false ∧ (asked 2).window (egwin 2 2 21) ≠ 0 ∧ (asked 2).alorn.intake = [request 2] ∧ (asked 2).alorn.cache = []
    ∧ headerSound (request 2).src (request 2).words (request 2).len = true ∧ relayedSource (request 2).src = false
    ∧ rqVia (request 2).words = 2 ∧ (asked 2).portState ((asked 2).physOf 2) = 4 := by decide +kernel

/-- Every request row finds Alorn busy with LANE_SPARE or with an earlier request, and with the mailbox's own. -/
theorem witness_queued : ((port5 4).modPort 5 (fun q => { q with spareWait := [(1, ⟨.mailbox, 1, 0, false, 1⟩)] })).takesRequests = false
    ∧ (asked 2).alorn.intake ≠ [] ∧ (asked 2).halted = false ∧ (up.put F.AL_MBCTL_REQ_BUSY 0 1).flag F.AL_MBCTL_REQ_BUSY 0 = true
    ∧ (asked 2).flag F.AL_MBCTL_REQ_BUSY 0 = false := by decide +kernel
def alornAt (n : Nat) : State := up.put F.AL_STATUS_STATE 0 n
theorem witness_i3c : [alornAt 0, alornAt 1, alornAt 2].map (fun s => (s.alornRuns, s.halted, s.mgLost))
    = [(true, false, false), (false, false, false), (false, true, false)]
    ∧ ((up.put F.AL_LOCK_SRC 0 1).put F.AL_LOCK_HELD 0 1).flag F.AL_LOCK_HELD 0 = true
    ∧ ((up.put F.AL_LOCK_SRC 0 1).put F.AL_LOCK_HELD 0 1).get F.AL_LOCK_SRC 0 = 1 ∧ up.flag F.AL_LOCK_HELD 0 = false := by decide +kernel

theorem witness_cache (resp : List Word) : ({ up with alorn := { up.alorn with cache := [⟨.mailbox, 1, 7, false, resp⟩] } } : State).alorn.cache.find?
    (fun x => x.src == .mailbox && x.tag == 1) = some ⟨.mailbox, 1, 7, false, resp⟩ := by rfl
theorem witness_repeat : (AC.GET_VERSION, [], Instr.getVersion .mailbox 1) ∈ Claims.requests .mailbox 1 0 0 [] []
    ∧ Claims.crcOf (requestWords .mailbox AC.GET_VERSION 1 []) ≠ 7 := by decide +kernel

theorem witness_read_counters : heardAt up .mailbox AC.READ_COUNTERS 1 [BitVec.ofNat 64 (8 + 126 * 2 ^ 8 + 8 * 2 ^ 16),
      BitVec.ofNat 64 Reg.RK_CHIPROUTE.info.offset] = true
    ∧ ((List.range 126).mapM (fun k => windowReg 8 (Reg.RK_CHIPROUTE.info.offset + k * 8))).isSome = true := by decide +kernel
theorem witness_self_test : up.get F.RK_EPOCH_NUMBER 0 = 0 ∧ ∀ p, p < 6 → up.portState p = PS.DARK ∨ up.portState p = PS.DOWN := by decide +kernel
def testing : State := up.modAlorn (fun a => { a with background := [⟨.mailbox, 1, AC.SELF_TEST, 15⟩] })
theorem witness_self_test_done : testing.alornRuns = true ∧ testing.backgroundOf AC.SELF_TEST = [⟨.mailbox, 1, AC.SELF_TEST, 15⟩] := by
  decide +kernel

theorem witness_lock : up.flag F.AL_LOCK_HELD 0 = false ∧ (locked up).holdsLock .mailbox = true ∧ (locked up).flag F.AL_LOCK_HELD 0 = true
    ∧ (locked up).holdsLock (.mctp 8) = false ∧ heardAt (locked up) (.mctp 8) AC.CLAIM 1 [9] = true
    ∧ heardAt (locked up) .mailbox AC.RELEASE 1 [] = true ∧ heardAt up .mailbox AC.RELEASE 1 [] = true ∧ (locked up).holderBusy = false
    ∧ (locked up).mgLost = false ∧ up.holdsLock .mailbox = false := by decide +kernel

/-- Staging bound to the mailbox with 8 bytes of 16 written. -/
def staged : State := (locked up).modAlorn (fun a => { a with stageSrc := some .mailbox, stageSize := 16, stage := (List.range 16).map (fun k => (k, 1#8)) })
theorem witness_load :
    heardAt (locked up) .mailbox AC.LOAD_STENCIL 1 [fixed 0 2 0 (BitVec.ofNat 64 (stageMax * 2 ^ 32))] = true ∧ stageMax % 8 = 0
    ∧ fieldGet (BitVec.ofNat 64 (stageMax * 2 ^ 32)) 32 32 = stageMax ∧ (locked up).backgroundOf AC.LOAD_STENCIL = []
    ∧ heardAt staged .mailbox AC.LOAD_STENCIL 1 (fixed 0 2 1 (BitVec.ofNat 64 (8 * 2 ^ 16 + 8 * 2 ^ 32)) :: [5]) = true
    ∧ staged.alorn.stageSrc = some .mailbox ∧ 8 + 8 ≤ staged.alorn.stageSize
    ∧ heardAt staged .mailbox AC.LOAD_STENCIL 1 [fixed 0 2 2 0] = true ∧ staged.alorn.stage.length = staged.alorn.stageSize
    ∧ heardAt staged .mailbox AC.LOAD_STENCIL 1 [fixed 0 2 3 0] = true := by decide +kernel
def loading (first : Bool) : State :=
  let s := if first then up else armed
  s.modAlorn (fun a => { a with load := some ⟨first, 1, 8, 4, false, 0, [(256 * 0x12 + 2 * Reg.RK_CHIPROUTE.num, 0x701)], [], [], [], [], []⟩ })
/-- A load that gives partition 0 the job word `w`: of an active partition it is stopped (R316). -/
def reassigning (s : State) (w : Word) : State :=
  s.modAlorn (fun a => { a with load := some ⟨false, 1, 8, 4, false, 0, [], [(2 * Reg.RK_PARTJOB.num, w)], [], [], [], []⟩ })
theorem witness_load_stops : [reassigning p0 0, reassigning up 0].map (fun s => (s.chipReset, s.alornRuns, s.alorn.load.bind s.loadStops))
    = [(false, true, some (.RK_PARTJOB, 0)), (false, true, none)] := by decide +kernel
theorem witness_step7 : (loading false).alorn.load.isSome = true ∧ (loading true).alorn.load.isSome = true ∧ (loading false).alornRuns = true
    ∧ Reg.RK_CHIPROUTE.info.cls = .epoch
    ∧ (loading false).alorn.load.map (fun l => lookup l.image (256 * 0x12 + 2 * Reg.RK_CHIPROUTE.num)) = some (some 0x701) := by decide +kernel

def epoch7 : State := (locked up).put F.RK_EPOCH_NUMBER 0 7
theorem witness_apply : heardAt epoch7 .mailbox AC.APPLY_EPOCH 1 [fixed 16 1 0 8] = true ∧ nextEpoch 7 = 8
    ∧ epoch7.get F.RK_EPOCH_NUMBER 0 = 7 ∧ epoch7.backgroundOf AC.LOAD_STENCIL = [] ∧ epoch7.epochCtl.settle = none
    ∧ epoch7.shadow = SH.CLEAN ∧ heardAt epoch7 .mailbox AC.APPLY_EPOCH 1 [fixed 16 1 0 (8 + 2 * 2 ^ 17)] = true
    ∧ heardAt epoch7 .mailbox AC.APPLY_EPOCH 1 [fixed 16 1 0 9] = true ∧ heardAt epoch7 .mailbox AC.APPLY_EPOCH 1 [fixed 16 1 1 8] = true
    ∧ (epoch7.put F.RK_EPOCH_ARMED 0 1).flag F.RK_EPOCH_ARMED 0 = true := by decide +kernel

/-- Partition 0 with run state `v`. -/
def parted (v : Part) : State := (locked p0).setPart 0 v
theorem witness_partition : heardAt (parted Part.initial) .mailbox AC.QUIESCE 1 [0] = true ∧ (parted Part.initial).flag F.RK_PARTJOB_VALID 0 = true
    ∧ ((parted Part.initial).part 0).quiesced = false ∧ ((parted Part.initial).part 0).fenced = false
    ∧ ((parted Part.initial).part 0).reported = false
    ∧ ((parted { Part.initial with quiesced := true, reported := true }).part 0).reported = true
    ∧ heardAt (parted Part.initial) .mailbox AC.RESUME 1 [0] = true ∧ heardAt (parted Part.initial) .mailbox AC.FENCE 1 [0] = true
    ∧ bit ((parted Part.initial).get F.RK_STENCIL_NEW_PARTS 0) 0 = false ∧ (parted Part.initial).shadow ≠ SH.INCOMPLETE := by decide +kernel
theorem witness_fence_contexts : ((parted Part.initial).put F.RK_FLOWCTX_VALID 4095 1 |>.put F.RK_FLOWCTX_ROLE 4095 0).sendOf 0 4095 = true
    ∨ ((parted Part.initial).put F.RK_FLOWCTX_VALID 4095 1 |>.put F.RK_FLOWCTX_ROLE 4095 1).sendOf 0 4095 = true := by decide +kernel
def draining : State := (parted { Part.initial with draining := true }).modAlorn (fun a =>
  { a with background := [⟨.mailbox, 1, AC.QUIESCE, 0⟩] })
theorem witness_draining : (draining.part 0).draining = true ∧ draining.alornRuns = true
    ∧ draining.backgroundOf AC.QUIESCE = [⟨.mailbox, 1, AC.QUIESCE, 0⟩] := by decide +kernel
theorem witness_drained_partition :
    (({ draining with fuse := { draining.fuse with cores := 1 } } : State).partDrained 0) = true := by decide +kernel
theorem witness_table_word : Reg.ofCode Reg.RK_RANKMAP.info.code = some .RK_RANKMAP ∧ tableWord .RK_RANKMAP = true ∧ 0 < Reg.RK_RANKMAP.total
    ∧ p0.tableServes .RK_RANKMAP 0 = some 0 ∧ p0.flag F.RK_PARTJOB_VALID 0 = true ∧ Reg.ofCode Reg.RK_CHIPROUTE.info.code = some .RK_CHIPROUTE
    ∧ tableWord .RK_CHIPROUTE = true ∧ p0.tableServes .RK_CHIPROUTE 0 = none := by decide +kernel

theorem witness_port_admit : heardAt (locked up) .mailbox AC.PORT_ADMIT 1 [5] = true ∧ (locked up).physOf 5 = 5
    ∧ ((locked up).put F.OP_PLAN_VALID 5 1).flag F.OP_PLAN_VALID 5 = true
    ∧ (locked up).guardStops [(locked up).portCtl 5 [(F.OP_PORTCTL_ADMIT, 1), (F.OP_PORTCTL_HOLD_DOWN, 0)]] = none
    ∧ ({ locked up with guard := [(5, 0)] } : State).guard = [(5, 0)] := by decide +kernel
theorem witness_port_quarantine : heardAt (locked up) .mailbox AC.PORT_QUARANTINE 1 [0x105] = true
    ∧ heardAt (locked up) .mailbox AC.PORT_QUARANTINE 1 [5] = true ∧ fieldGet 0x105 8 1 = 1 ∧ fieldGet 5 8 1 = 0
    ∧ (locked up).guardStops [(locked up).portCtl 5 [(F.OP_PORTCTL_ADMIT, 0), (F.OP_PORTCTL_HOLD_DOWN, 1)]] = none
    ∧ (locked up).guardStops [(locked up).portCtl 5 [(F.OP_PORTCTL_ADMIT, 0)]] = none
    ∧ (locked (port5 4)).admitted 5 = true := by decide +kernel
def guarded : State := { (locked up).put F.OP_PLAN_VALID 5 1 with guard := [(regKey .OP_PORTCTL 5 0, 0)] }
theorem witness_guard_stops : guarded.guardStops [guarded.portCtl 5 [(F.OP_PORTCTL_ADMIT, 1), (F.OP_PORTCTL_HOLD_DOWN, 0)]]
      = some (.OP_PORTCTL, 5)
    ∧ heardAt guarded .mailbox AC.PORT_ADMIT 1 [5] = true ∧ guarded.flag F.OP_PLAN_VALID 5 = true := by decide +kernel
/-- Ports 4 and 5 swapped at the panel. -/
def crossed : State :=
  let s := ((locked up).put F.OP_PLAN_REMAP_OK 4 1).put F.OP_PLAN_REMAP_OK 5 1
  [(4, 5), (5, 4)].foldl (fun (s : State) (e : Nat × Nat) => ((portIn e.1 3 s).put F.OP_PORTSTATE_VERDICT e.1 VD.CABLE).modPort e.1
    (fun q => { q with swap := some e.2 })) s
theorem witness_port_remap : heardAt crossed .mailbox AC.PORT_REMAP 1 [0x405] = true ∧ crossed.physOf 5 = 5 ∧ crossed.physOf 4 = 4
    ∧ crossed.swapped 5 4 = true ∧ crossed.flag F.OP_PLAN_REMAP_OK 5 = true ∧ crossed.flag F.OP_PLAN_REMAP_OK 4 = true
    ∧ crossed.guardStops [crossed.portCtl 5 [(F.OP_PORTCTL_LOGICAL, 4)], crossed.portCtl 4 [(F.OP_PORTCTL_LOGICAL, 5)]] = none := by
  decide +kernel
/-- Lane 17 of port 5 is active and lane 16 a locked spare. -/
def sparing : State := (((locked (laned 4 1)).put F.OP_LANEMAP_LOGICAL (laneCopy 5 1 16) LM.SPARE).put F.OP_LANEMAP_LOCKED (laneCopy 5 1 16) 1)
theorem witness_lane_spare : heardAt sparing .mailbox AC.LANE_SPARE 1 [0x1105] = true ∧ sparing.physOf 5 = 5 ∧ sparing.laneOf 5 1 17 = 15
    ∧ sparing.inData 5 = true ∧ (sparing.port 5).patch = [] ∧ (lookup (sparing.port 5).mode0 17).getD 0 = 0
    ∧ (sparing.lockedSpares 5).find? (fun d => !(sparing.port 5).patch.any (fun x => x.dst == d)) = some 16 := by decide +kernel
def allRun : State := (List.range 8).foldl (fun s k => s.put F.OP_LASER_STATE k LS.RUN) (locked up)
theorem witness_laser_commands : heardAt allRun .mailbox AC.LASER_PREPARE 1 [7] = true ∧ (∀ k, k < 8 → allRun.laserState k = LS.RUN)
    ∧ heardAt (allRun.put F.OP_LASER_STATE 7 LS.INSERTED) .mailbox AC.LASER_RESTORE 1 [7] = true
    ∧ (allRun.put F.OP_LASER_STATE 7 LS.INSERTED).laserState 7 = LS.INSERTED := by decide +kernel

theorem witness_coords : heardAt (locked up) .mailbox AC.SET_COORDS 1 [0xFFF] = true ∧ (locked up).flag F.RK_COORDS_SET 0 = false
    ∧ (locked up).anyActive = false
    ∧ (locked up).guardStops [(.RK_COORDS, 0, overlay ((locked up).word .RK_COORDS 0) [(F.RK_COORDS_ADDR, 0xFFF), (F.RK_COORDS_SET, 1)])] = none := by
  decide +kernel
theorem witness_timebase : heardAt (locked up) .mailbox AC.SET_TIMEBASE 1 [1, 0xFFFFFFFFFFFFFFFF] = true
    ∧ (locked up).guardStops [(.TM_TIMESTAMP, 0, 0xFFFFFFFFFFFFFFFF)] = none := by decide +kernel
/-- Bank 47 of core 255 in state `st`, owned by core 5; partition 0 active. -/
def bankIn (st : Nat) : State := (locked p0).setBank 255 47 [(F.CP_BANKOWN_STATE, st), (F.CP_BANKOWN_OWNER_EP, 5)]
def giveToSix : Word := [(F.CP_HANDOVER_BANK_EP, 255), (F.CP_HANDOVER_BANK, 47), (F.CP_HANDOVER_NEW_EP, 6)].foldl
  (fun w (e : Fld × Nat) => fieldPut w e.1.lo e.1.width e.2) 0
theorem witness_bank_handover : heardAt (bankIn 1) .mailbox AC.BANK_HANDOVER 1 [giveToSix] = true
    ∧ (bankIn 1).handoverValid (newOwner giveToSix) = true ∧ (bankIn 1).handoverStops (newOwner giveToSix) = none
    ∧ (newOwner giveToSix).mem = 255 ∧ (newOwner giveToSix).bank = 47 ∧ (bankIn 1).hoFree = some 0
    ∧ (bankIn 1).bank F.CP_BANKOWN_STATE 255 47 = 1 ∧ (bankIn 3).bank F.CP_BANKOWN_STATE 255 47 = 3
    ∧ (bankIn 3).handoverStops (newOwner giveToSix) = none ∧ (bankIn 3).alorn.banksToDo = [] := by decide +kernel

/-- A SEAL_KEY request whose first argument is `w`. -/
def sealArgs (w : Word) : List Word := w :: List.replicate 19 0
def aged (l : Nat) : State := { locked up with fuse := { up.fuse with lifecycle := l } }
theorem witness_seal : heardAt (aged LC.BLANK) .mailbox AC.SEAL_KEY 1 (sealArgs 7) = true ∧ (aged LC.BLANK).fuse.lifecycle = LC.BLANK
    ∧ heardAt (aged LC.PROVISIONED) .mailbox AC.SEAL_KEY 1 (sealArgs 7) = true ∧ (aged LC.PROVISIONED).fuse.lifecycle ≠ LC.BLANK
    ∧ heardAt (aged LC.PROVISIONED) .mailbox AC.SEAL_KEY 1 (sealArgs 0x100) = true ∧ fieldGet 0x100 8 1 = 1 ∧ fieldGet 0x100 0 4 = 0 := by
  decide +kernel
/-- Without a root key no signature holds, whatever its digest does. -/
theorem witness_unsigned : let s' := (aged LC.PROVISIONED).useSlot 0
    s'.signedBy s'.rootKey (requestWords .mailbox AC.SEAL_KEY 1 (sealArgs 7)) = false
      ∧ s'.authorised .root (requestWords .mailbox AC.LIFECYCLE 1 (sealArgs 2)) = false := by
  have h : ∀ b : Bool, let s' := if b = true then (aged LC.PROVISIONED).drawn else (aged LC.PROVISIONED).drawn.corruptSlot 0
      s'.signedBy s'.rootKey (requestWords .mailbox AC.SEAL_KEY 1 (sealArgs 7)) = false
        ∧ s'.authorised .root (requestWords .mailbox AC.LIFECYCLE 1 (sealArgs 2)) = false := by decide +kernel
  exact h _
/-- The digest's and the signature's checks are free values of Config (log entries 6 and 31): where both accept, a signed SEAL_KEY
meets every hypothesis. -/
def rooted : State := { aged LC.PROVISIONED with sealStore := [(0, ⟨1, 0⟩)] }
theorem witness_seal_signed (d : Config.digestHolds rooted.freeCtr = true)
    (h : Config.ecdsaVerify 1 (rooted.drawn.signedHash (requestWords .mailbox AC.SEAL_KEY 1 (sealArgs 7)))
      (sigOf (requestWords .mailbox AC.SEAL_KEY 1 (sealArgs 7))) = true) :
    let s' := rooted.useSlot 0
    s'.signedBy s'.rootKey (requestWords .mailbox AC.SEAL_KEY 1 (sealArgs 7)) = true := by
  have u : rooted.useSlot 0 = rooted.drawn := by simp only [State.useSlot, d, if_true]
  have k : rooted.drawn.rootKey = some 1 := by decide +kernel
  have n : (fieldGet ((requestWords .mailbox AC.SEAL_KEY 1 (sealArgs 7)).getD 2 0) 32 32) = rooted.drawn.get F.AL_STATUS_NONCE 0 := by
    decide +kernel
  simp only [u, k]; unfold State.signedBy; simp only [h, n, decide_true, Bool.and_true]
def keeping : State := { aged LC.BLANK with guard := [(regKey .OP_PORTCTL 5 0, 0)] }
theorem witness_guarded_end : heardAt keeping .mailbox AC.LIFECYCLE 1 (sealArgs 3) = true
    ∧ keeping.guardStops ((List.range 6).map (fun p => keeping.portCtl p [(F.OP_PORTCTL_HOLD_DOWN, 1)])) = some (.OP_PORTCTL, 5)
    ∧ keeping.authorised .lockAlone (requestWords .mailbox AC.LIFECYCLE 1 (sealArgs 3)) = true
    ∧ authority LC.PROVISIONED LC.DEPLOYED false = some .root ∧ (aged LC.PROVISIONED).fuse.transitions < 15
    ∧ heardAt (aged LC.PROVISIONED) .mailbox AC.LIFECYCLE 1 (sealArgs 2) = true := by decide +kernel
theorem witness_life_cycle : heardAt (aged LC.BLANK) .mailbox AC.LIFECYCLE 1 (sealArgs 1) = true
    ∧ authority LC.BLANK LC.PROVISIONED false = some .lockAlone ∧ authority LC.BLANK LC.DEPLOYED false = none
    ∧ authority LC.BLANK LC.DECOMMISSIONED false = some .lockAlone ∧ (aged LC.BLANK).anyActive = false
    ∧ (aged LC.BLANK).backgroundOf AC.LOAD_STENCIL = [] ∧ (aged LC.BLANK).flag F.RK_EPOCH_ARMED 0 = false ∧ (aged LC.BLANK).fuse.transitions < 15
    ∧ (aged LC.BLANK).authorised .lockAlone (requestWords .mailbox AC.LIFECYCLE 1 (sealArgs 1)) = true
    ∧ heardAt (aged LC.BLANK) .mailbox AC.LIFECYCLE 1 (sealArgs 3) = true ∧ heardAt (aged LC.BLANK) .mailbox AC.LIFECYCLE 1 (sealArgs 2) = true
    ∧ (aged LC.BLANK).guardStops ((List.range 6).map (fun p => (aged LC.BLANK).portCtl p [(F.OP_PORTCTL_HOLD_DOWN, 1)])) = none := by
  decide +kernel

theorem witness_alorn : up.halted = false ∧ up.mgLost = false ∧ (locked up).flag F.AL_LOCK_HELD 0 = true
    ∧ (up.put F.AL_STATUS_STATE 0 1).get F.AL_STATUS_STATE 0 = 1 := by decide +kernel
/-- The seventh restart within 10 s leaves Alorn restarting, the eighth halts it (R353). -/
theorem test_halt : [6, 7].map (fun n => (out (.watchdogExpiry 0) (up.modAlorn (fun a => { a with restarts := List.replicate n 0 }))).get
    F.AL_STATUS_STATE 0) = [1, 2] := by decide +kernel
def logging : State := out .refLost up
theorem witness_log : logging.chipReset = false ∧ logging.mgLost = false ∧ logging.logIntake.map (fun e => e.more) = [none] := by decide +kernel
def relaying : State := up.modAlorn (fun a => { a with relays := [⟨2, 5, ⟨.mctp 8, 5, 0, false, 5⟩, AC.GET_VERSION, 0⟩] })
theorem witness_restart_relay : relaying.halted = false ∧ relaying.mgLost = false ∧ (∀ p, p < 6 → (relaying.port p).spareWait = [])
    ∧ relaying.alorn.relays.length = 1 ∧ relaying.alorn.restarts = [] := by decide +kernel
theorem witness_relay : relaying.alornRuns = true ∧ (relaying.relayOf 2 5).isSome = true ∧ (relaying.relayOf 2 4).isNone = true := by
  decide +kernel

/-! ### The decoder -/

/-- No row has bits: no word is a command (log entry 1). -/
theorem test_no_word : decodeTableWord 0 0 = none ∧ (up.withFetchWord 16 0xFFFF).pending = [] := by decide +kernel

end Sys2Proof.Tests
end

/-! Register writes by their path (chapters 0, 1 and 13), and a step with a command in front. -/

namespace Sys2Proof.Machine

open Safety

variable {s : State}

/-! ### Values written and handovers not started -/

/-- A field set to the bits that a write has for it reads as those bits. -/
theorem State.get_put_written (s : State) (f : Fld) (n : Nat) (v : Word) (hp : apart f F.RK_EPOCH_PARITY = true)
    (hw : f.lo + f.width ≤ 64) : (s.put f n (written v f)).get f n = written v f := by
  rw [State.get_put_self s f n _ hp hw]
  exact Nat.mod_eq_of_lt (fieldGet_lt v f.lo f.width (by omega))

/-- Where a Stencil load has left no handover to start, none is started. -/
theorem State.loadHandovers_of_none (h : s.alorn.banksToDo = []) : s.loadHandovers = s := by
  have e : s.loadHandovers = { s with alorn := { s.alorn with banksToDo := [] } } := by
    unfold State.loadHandovers
    rw [h]
    rfl
  rw [e, ← h]

/-! ### The effect of REGISTER_WRITE -/

theorem exec_registerWrite (path : WritePath) (addr : BitVec 32) (bytes : Nat) (v : Word) :
    exec (.registerWrite path addr bytes v) s = execRegisterWrite path addr bytes v s := rfl

theorem exec_registerWrite_ignored (path : WritePath) (addr : BitVec 32) (bytes : Nat) (v : Word) (h : s.chipReset = false)
    (hi : bytes ≠ 8 ∨ addr.toNat % 8 ≠ 0 ∨ path = .other) : exec (.registerWrite path addr bytes v) s = .next s := by
  rw [exec_registerWrite, execRegisterWrite, live_running h]
  rcases hi with hb | ha | rfl
  · simp [hb]
  · simp [ha]
  · simp

theorem exec_registerWrite_core (i : Fin 256) (addr : BitVec 32) (v : Word) (h : s.chipReset = false)
    (ha : addr.toNat % 8 = 0) (hc : s.coreWrites i.val = true) :
    exec (.registerWrite (.core i) addr 8 v) s = .next (s.coreWrite i.val addr.toNat v).loadHandovers.flow := by
  rw [exec_registerWrite, execRegisterWrite, live_running h]
  simp [ha, hc]

theorem exec_registerWrite_host (addr : BitVec 32) (v : Word) (h : s.chipReset = false) (ha : addr.toNat % 8 = 0) :
    exec (.registerWrite .host addr 8 v) s = .next (s.hostWrite addr.toNat v) := by
  rw [exec_registerWrite, execRegisterWrite, live_running h]
  simp [ha]

/-! ### What a core's write does to the register it names -/

theorem State.coreWrite_eventCounter {off n : Nat} (i : Nat) (v : Word) (hr : regAt 0 off = some (.CP_EVCNT, n)) :
    s.coreWrite i off v = s.put F.CP_EVCNT_VALUE (evCopy i n) (written v F.CP_EVCNT_VALUE) := by
  unfold State.coreWrite
  rw [hr]
  rfl

/-- A register with configuration fields refuses the write: none of those with an action of their own has any. -/
theorem State.coreWrite_configuration {r : Reg} {off n : Nat} (i : Nat) (v : Word) (hr : regAt 0 off = some (r, n))
    (hc : r.info.cfg ≠ 0) : s.coreWrite i off v = s.refuseWrite i off := by
  have acts (q : Reg) (hq : q.info.cfg = 0) : r ≠ q := fun e => hc (e ▸ hq)
  unfold State.coreWrite
  rw [hr]
  simp only [acts .CP_QCTL rfl, acts .CP_QBASE rfl, acts .CP_QTAIL rfl, acts .CP_EVCNT rfl, acts .CP_RINGTAB rfl,
    acts .CP_RINGCTL rfl, acts .CP_HANDOVER rfl, bne_iff_ne.2 hc, if_true, if_false]

@[simp] theorem State.refuseWrite_alorn (s : State) (i off : Nat) : (s.refuseWrite i off).alorn = s.alorn := rfl

/-- A refused write raises REFUSED of its core. -/
theorem State.get_refuseWrite_refused (s : State) (i off : Nat) : (s.refuseWrite i off).get F.CP_ERRAUX_REFUSED i = 1 := by
  unfold State.refuseWrite
  rw [State.get_put_ne _ _ _ _ (by decide) (.inl (by decide)), State.get_put_self _ _ _ _ (by decide) (by decide)]
  rfl

/-- A refused write shows the low 16 bits of its offset. -/
theorem State.get_refuseWrite_offset (s : State) (i off : Nat) :
    (s.refuseWrite i off).get F.CP_ERRAUX_REFUSED_OFFSET i = off % 2 ^ 16 := by
  unfold State.refuseWrite
  exact State.get_put_self _ _ _ _ (by decide) (by decide)

theorem State.fieldsBut_refuseWrite (s : State) (i off : Nat) :
    FieldsBut [(F.CP_ERRAUX_REFUSED, i), (F.CP_ERRAUX_REFUSED_OFFSET, i)] s (s.refuseWrite i off) :=
  ((FieldsBut.refl _ s).put _ _ _ (by simp)).put _ _ _ (by simp)

/-! ### What the host's write does to the request buffer -/

theorem State.hostWrite_requestBuffer {addr n : Nat} (v : Word) (hm : s.mgLost = false) (hw : addr / 2 ^ 24 = 9)
    (hr : regAt 9 (addr % 2 ^ 24) = some (.AL_MBREQ, n)) :
    s.hostWrite addr v = if s.flag F.AL_MBCTL_REQ_BUSY 0 then s.put F.AL_MBCTL_DB_IGNORED 0 1 else s.setWord .AL_MBREQ n v := by
  unfold State.hostWrite
  rw [hm, hw, hr]
  rfl

/-! ### The write of each path -/

/-- A core's write of its event counter sets the counter's value. -/
theorem registerWrite_eventCounter (i : Fin 256) (n : Nat) (addr : BitVec 32) (v : Word) (h : s.chipReset = false)
    (ha : addr.toNat % 8 = 0) (hc : s.coreWrites i.val = true) (hb : s.alorn.banksToDo = [])
    (hr : regAt 0 addr.toNat = some (.CP_EVCNT, n)) : Claims.Flows (.registerWrite (.core i) addr 8 v) s (fun u =>
      u.get F.CP_EVCNT_VALUE (evCopy i.val n) = written v F.CP_EVCNT_VALUE ∧ FieldsBut [(F.CP_EVCNT_VALUE, evCopy i.val n)] s u) := by
  refine ⟨s.put F.CP_EVCNT_VALUE (evCopy i.val n) (written v F.CP_EVCNT_VALUE), ?_, ?_, ?_⟩
  · rw [exec_registerWrite_core i addr v h ha hc, State.coreWrite_eventCounter i.val v hr,
      State.loadHandovers_of_none (by simpa using hb)]
  · exact State.get_put_written s _ _ v (by decide) (by decide)
  · exact (FieldsBut.refl _ s).put _ _ _ (by simp)

/-- A core's write of a register with configuration fields is refused, and CP_ERRAUX shows its offset. -/
theorem registerWrite_configuration {r : Reg} (i : Fin 256) (n : Nat) (addr : BitVec 32) (v : Word) (h : s.chipReset = false)
    (ha : addr.toNat % 8 = 0) (hc : s.coreWrites i.val = true) (hb : s.alorn.banksToDo = [])
    (hr : regAt 0 addr.toNat = some (r, n)) (hf : r.info.cfg ≠ 0) :
    Claims.Flows (.registerWrite (.core i) addr 8 v) s (fun u => u.get F.CP_ERRAUX_REFUSED i.val = 1
      ∧ u.get F.CP_ERRAUX_REFUSED_OFFSET i.val = addr.toNat % 2 ^ 16
      ∧ FieldsBut [(F.CP_ERRAUX_REFUSED, i.val), (F.CP_ERRAUX_REFUSED_OFFSET, i.val)] s u) := by
  refine ⟨s.refuseWrite i.val addr.toNat, ?_, s.get_refuseWrite_refused _ _, s.get_refuseWrite_offset _ _,
    s.fieldsBut_refuseWrite _ _⟩
  rw [exec_registerWrite_core i addr v h ha hc, State.coreWrite_configuration i.val v hr hf,
    State.loadHandovers_of_none (by simpa using hb)]

/-- The host's write of the request buffer while REQ_BUSY is clear. -/
theorem registerWrite_requestBuffer_free (n : Nat) (addr : BitVec 32) (v : Word) (h : s.chipReset = false)
    (ha : addr.toNat % 8 = 0) (hm : s.mgLost = false) (hw : addr.toNat / 2 ^ 24 = 9)
    (hr : regAt 9 (addr.toNat % 2 ^ 24) = some (.AL_MBREQ, n)) (hb : s.flag F.AL_MBCTL_REQ_BUSY 0 = false) :
    Claims.Does (.registerWrite .host addr 8 v) s (fun t =>
      t.word .AL_MBREQ n = v ∧ FieldsBut [(⟨.AL_MBREQ, 0, 64⟩, n)] s t) := by
  refine ⟨s.setWord .AL_MBREQ n v, ?_, State.word_setWord_self s _ _ _ _, ?_⟩
  · rw [exec_registerWrite_host addr v h ha, State.hostWrite_requestBuffer v hm hw hr, hb]
    rfl
  · exact (FieldsBut.refl _ s).setWord _ _ _ _ (by decide) (by simp)

/-- The host's write of the request buffer while REQ_BUSY is set. -/
theorem registerWrite_requestBuffer_busy (n : Nat) (addr : BitVec 32) (v : Word) (h : s.chipReset = false)
    (ha : addr.toNat % 8 = 0) (hm : s.mgLost = false) (hw : addr.toNat / 2 ^ 24 = 9)
    (hr : regAt 9 (addr.toNat % 2 ^ 24) = some (.AL_MBREQ, n)) (hb : s.flag F.AL_MBCTL_REQ_BUSY 0 = true) :
    Claims.Does (.registerWrite .host addr 8 v) s (fun t =>
      t.get F.AL_MBCTL_DB_IGNORED 0 = 1 ∧ FieldsBut [(F.AL_MBCTL_DB_IGNORED, 0)] s t) := by
  refine ⟨s.put F.AL_MBCTL_DB_IGNORED 0 1, ?_, State.get_put_self s _ _ _ (by decide) (by decide), ?_⟩
  · rw [exec_registerWrite_host addr v h ha, State.hostWrite_requestBuffer v hm hw hr, hb]
    rfl
  · exact (FieldsBut.refl _ s).put _ _ _ (by simp)

/-! ### The statements -/

/-- Settles O50, path by path: what is ignored, a core's write of its own block, the host's write of the request buffer. -/
theorem registerWritesFollowTheirPath : Obligations.RegisterWritesFollowTheirPath := by
  intro s path addr bytes v h
  refine ⟨exec_registerWrite_ignored path addr bytes v h, ?_, ?_⟩
  · rintro i n rfl rfl ha hc hb
    refine ⟨registerWrite_eventCounter i n addr v h ha hc hb, fun hr => ?_⟩
    obtain ⟨u, hu, hset, -, hrest⟩ := registerWrite_configuration i n addr v h ha hc hb hr (by decide)
    exact ⟨u, hu, hset, hrest⟩
  · rintro n rfl rfl ha hm hw hr
    exact ⟨registerWrite_requestBuffer_free n addr v h ha hm hw hr, registerWrite_requestBuffer_busy n addr v h ha hm hw hr⟩

/-- Settles O1: a step with a command in front is defined as that command's effect on the queue's rest. -/
theorem stepRunsTheFrontCommand : Obligations.StepRunsTheFrontCommand := fun _ _ _ => rfl

end Sys2Proof.Machine

/-! The corner monitor, the rack reference, and the inputs that wipe the sealed store (chapters 2, 13 and 14). -/

namespace Sys2Proof.Machine

open Safety

variable {s : State}

/-! ### Events of the corner -/

/-- A corner event changes no field but DROPPED. -/
theorem State.get_cornerEvent (s : State) (e : Event) (g : Fld) (n : Nat) (h : apart F.TM_LOGSTAT_DROPPED g = true) :
    (s.cornerEvent e).get g n = s.get g n := State.get_event_ne s g n e _ _ _ _ _ (.inl h)

/-! ### The THROTTLE input -/

theorem exec_throttleAssert (h : s.chipReset = false) (hf : s.flag F.TM_FABCORNER_THROTTLE = false) :
    exec .throttleAssert s
      = .next (((s.put F.TM_FABCORNER_THROTTLE 0 1).put F.TM_FABCORNER_THROTTLED 0 1).cornerEvent evThrottleOn) := by
  rw [show exec .throttleAssert s = execThrottleAssert s from rfl, execThrottleAssert, live_running h, hf]
  rfl

theorem exec_throttleRelease (h : s.chipReset = false) (hf : s.flag F.TM_FABCORNER_THROTTLE = true) :
    exec .throttleRelease s = .next ((s.put F.TM_FABCORNER_THROTTLE 0 0).cornerEvent evThrottleOff) := by
  rw [show exec .throttleRelease s = execThrottleRelease s from rfl, execThrottleRelease, live_running h, hf]
  rfl

theorem throttleAssert_sets (h : s.chipReset = false) (hf : s.flag F.TM_FABCORNER_THROTTLE = false) :
    ∃ t, exec .throttleAssert s = .next t ∧ t.get F.TM_FABCORNER_THROTTLE = 1 ∧ t.get F.TM_FABCORNER_THROTTLED = 1
      ∧ FieldsBut [(F.TM_FABCORNER_THROTTLE, 0), (F.TM_FABCORNER_THROTTLED, 0), (F.TM_LOGSTAT_DROPPED, 0)] s t := by
  refine ⟨_, exec_throttleAssert h hf, ?_, ?_, ?_⟩
  · rw [State.get_cornerEvent _ _ _ _ (by decide), State.get_put_ne _ _ _ _ (by decide) (.inl (by decide)),
      State.get_put_self _ _ _ _ (by decide) (by decide)]
    rfl
  · rw [State.get_cornerEvent _ _ _ _ (by decide), State.get_put_self _ _ _ _ (by decide) (by decide)]
    rfl
  · exact (((FieldsBut.refl _ s).put _ _ _ (by simp)).put _ _ _ (by simp)).event _ _ _ _ _ _ (by simp)

theorem throttleRelease_clears (h : s.chipReset = false) (hf : s.flag F.TM_FABCORNER_THROTTLE = true) :
    ∃ t, exec .throttleRelease s = .next t ∧ t.get F.TM_FABCORNER_THROTTLE = 0
      ∧ t.get F.TM_FABCORNER_THROTTLED = s.get F.TM_FABCORNER_THROTTLED
      ∧ FieldsBut [(F.TM_FABCORNER_THROTTLE, 0), (F.TM_LOGSTAT_DROPPED, 0)] s t := by
  refine ⟨_, exec_throttleRelease h hf, ?_, ?_, ?_⟩
  · rw [State.get_cornerEvent _ _ _ _ (by decide), State.get_put_self _ _ _ _ (by decide) (by decide)]
    rfl
  · rw [State.get_cornerEvent _ _ _ _ (by decide), State.get_put_ne _ _ _ _ (by decide) (.inl (by decide))]
  · exact ((FieldsBut.refl _ s).put _ _ _ (by simp)).event _ _ _ _ _ _ (by simp)

/-! ### A measurement -/

/-- The readings of a measurement, as TM_FABCORNER takes them. -/
def State.withReadings (s : State) (vdd temp : BitVec 12) (speed : BitVec 16) : State :=
  (((s.put F.TM_FABCORNER_VDD 0 vdd.toNat).put F.TM_FABCORNER_TEMP 0 temp.toNat).put F.TM_FABCORNER_SPEED 0 speed.toNat).put
    F.TM_FABCORNER_HOT 0 (b2n (isHot temp))

/-- What a measurement does after it has judged the supply: the events of heat and brown-out, and FAB_LOW (R381). -/
def State.noteLimits (s : State) (vdd temp : BitVec 12) : State :=
  let u := if isHot temp then s.cornerEvent evHot else s
  let u : State := { u with fabLow := vdd.toNat < 600 }
  if vdd.toNat < 600 then u.cornerEvent evBrownout else u

theorem exec_fabricMeasurement (vdd temp : BitVec 12) (speed : BitVec 16) (h : s.chipReset = false) (hm : s.mgLost = false) :
    exec (.fabricMeasurement vdd temp speed) s
      = .next (((s.withReadings vdd temp speed).judgeSupply vdd.toNat).noteLimits vdd temp) := by
  rw [show exec (.fabricMeasurement vdd temp speed) s = execFabricMeasurement vdd temp speed s from rfl, execFabricMeasurement,
    live_running h, hm]
  rfl

/-- The readings leave the other fields of the corner. -/
theorem State.get_withReadings_ne (s : State) (vdd temp : BitVec 12) (speed : BitVec 16) (g : Fld) (n : Nat)
    (hv : apart F.TM_FABCORNER_VDD g = true) (ht : apart F.TM_FABCORNER_TEMP g = true)
    (hs : apart F.TM_FABCORNER_SPEED g = true) (hh : apart F.TM_FABCORNER_HOT g = true) :
    (s.withReadings vdd temp speed).get g n = s.get g n := by
  rw [State.withReadings, State.get_put_ne _ _ _ _ (by decide) (.inl hh), State.get_put_ne _ _ _ _ (by decide) (.inl hs),
    State.get_put_ne _ _ _ _ (by decide) (.inl ht), State.get_put_ne _ _ _ _ (by decide) (.inl hv)]

theorem State.get_withReadings_vdd (s : State) (vdd temp : BitVec 12) (speed : BitVec 16) :
    (s.withReadings vdd temp speed).get F.TM_FABCORNER_VDD = vdd.toNat := by
  rw [State.withReadings, State.get_put_ne _ _ _ _ (by decide) (.inl (by decide)),
    State.get_put_ne _ _ _ _ (by decide) (.inl (by decide)), State.get_put_ne _ _ _ _ (by decide) (.inl (by decide)),
    State.get_put_self _ _ _ _ (by decide) (by decide)]
  exact Nat.mod_eq_of_lt vdd.isLt

theorem State.get_withReadings_temp (s : State) (vdd temp : BitVec 12) (speed : BitVec 16) :
    (s.withReadings vdd temp speed).get F.TM_FABCORNER_TEMP = temp.toNat := by
  rw [State.withReadings, State.get_put_ne _ _ _ _ (by decide) (.inl (by decide)),
    State.get_put_ne _ _ _ _ (by decide) (.inl (by decide)), State.get_put_self _ _ _ _ (by decide) (by decide)]
  exact Nat.mod_eq_of_lt temp.isLt

theorem State.get_withReadings_speed (s : State) (vdd temp : BitVec 12) (speed : BitVec 16) :
    (s.withReadings vdd temp speed).get F.TM_FABCORNER_SPEED = speed.toNat := by
  rw [State.withReadings, State.get_put_ne _ _ _ _ (by decide) (.inl (by decide)),
    State.get_put_self _ _ _ _ (by decide) (by decide)]
  exact Nat.mod_eq_of_lt speed.isLt

theorem State.get_withReadings_hot (s : State) (vdd temp : BitVec 12) (speed : BitVec 16) :
    (s.withReadings vdd temp speed).get F.TM_FABCORNER_HOT = if (420 : Int) < temp.toInt then 1 else 0 := by
  rw [State.withReadings, State.get_put_self _ _ _ _ (by decide) (by decide)]
  by_cases hot : (420 : Int) < temp.toInt <;> simp [hot, isHot, b2n, F.TM_FABCORNER_HOT]

/-- The judgement of the supply leaves every field but THROTTLED, LOWV and DROPPED. -/
theorem State.get_judgeSupply_ne (s : State) (vdd : Nat) (g : Fld) (n : Nat) (ht : apart F.TM_FABCORNER_THROTTLED g = true)
    (hl : apart F.TM_FABCORNER_LOWV g = true) (hd : apart F.TM_LOGSTAT_DROPPED g = true) :
    (s.judgeSupply vdd).get g n = s.get g n := by
  unfold State.judgeSupply
  split
  · rfl
  · split
    · rw [State.get_cornerEvent _ _ _ _ hd, State.get_put_ne _ _ _ _ (by decide) (.inl hl),
        State.get_put_ne _ _ _ _ (by decide) (.inl ht)]
    · exact State.get_put_ne _ _ _ _ (by decide) (.inl ht)

theorem State.judgeSupply_throttled (vdd : Nat) (h : s.flag F.TM_FABCORNER_THROTTLE = true) : s.judgeSupply vdd = s := if_pos h

/-- While THROTTLE is released, a supply below 680 mV sets THROTTLED and LOWV; one that is not clears THROTTLED alone (R58). -/
theorem State.judgeSupply_released (vdd : Nat) (h : s.flag F.TM_FABCORNER_THROTTLE = false) :
    (s.judgeSupply vdd).get F.TM_FABCORNER_THROTTLED = (if vdd < 680 then 1 else 0)
      ∧ (s.judgeSupply vdd).get F.TM_FABCORNER_LOWV = (if vdd < 680 then 1 else s.get F.TM_FABCORNER_LOWV) := by
  unfold State.judgeSupply
  rw [if_neg (by simp [h])]
  by_cases low : vdd < 680
  · rw [if_pos low, if_pos low, if_pos low]
    constructor
    · rw [State.get_cornerEvent _ _ _ _ (by decide), State.get_put_ne _ _ _ _ (by decide) (.inl (by decide)),
        State.get_put_self _ _ _ _ (by decide) (by decide)]
      rfl
    · rw [State.get_cornerEvent _ _ _ _ (by decide), State.get_put_self _ _ _ _ (by decide) (by decide)]
      rfl
  · rw [if_neg low, if_neg low, if_neg low]
    exact ⟨State.get_put_self _ _ _ _ (by decide) (by decide), State.get_put_ne _ _ _ _ (by decide) (.inl (by decide))⟩

theorem State.get_noteLimits (s : State) (vdd temp : BitVec 12) (g : Fld) (n : Nat) (h : apart F.TM_LOGSTAT_DROPPED g = true) :
    (s.noteLimits vdd temp).get g n = s.get g n := by
  have hot : (if isHot temp then s.cornerEvent evHot else s).get g n = s.get g n := by
    split
    · exact State.get_cornerEvent _ _ _ _ h
    · rfl
  unfold State.noteLimits
  dsimp only
  split
  · rw [State.get_cornerEvent _ _ _ _ h]
    exact hot
  · exact hot

theorem State.noteLimits_fabLow (s : State) (vdd temp : BitVec 12) : (s.noteLimits vdd temp).fabLow = decide (vdd.toNat < 600) := by
  unfold State.noteLimits
  dsimp only
  by_cases low : vdd.toNat < 600
  · rw [if_pos low, State.cornerEvent]
    exact State.event_fabLow _ _ _ _ _ _ _
  · rw [if_neg low]

theorem cornerMonitorFollows : Claims.CornerMonitorFollows := by
  intro s h
  refine ⟨throttleAssert_sets h, throttleRelease_clears h, fun vdd temp speed hm => ?_⟩
  have kept : (s.withReadings vdd temp speed).get F.TM_FABCORNER_THROTTLE = s.get F.TM_FABCORNER_THROTTLE :=
    s.get_withReadings_ne vdd temp speed _ _ (by decide) (by decide) (by decide) (by decide)
  have throttle : (s.withReadings vdd temp speed).flag F.TM_FABCORNER_THROTTLE = s.flag F.TM_FABCORNER_THROTTLE := by
    unfold State.flag
    rw [kept]
  have low : (s.withReadings vdd temp speed).get F.TM_FABCORNER_LOWV = s.get F.TM_FABCORNER_LOWV :=
    s.get_withReadings_ne vdd temp speed _ _ (by decide) (by decide) (by decide) (by decide)
  refine ⟨_, exec_fabricMeasurement vdd temp speed h hm, ?_, ?_, ?_, ?_, fun off => ?_, fun on => ?_,
    State.noteLimits_fabLow _ vdd temp, ?_⟩
  · rw [State.get_noteLimits _ _ _ _ _ (by decide), State.get_judgeSupply_ne _ _ _ _ (by decide) (by decide) (by decide),
      State.get_withReadings_vdd]
  · rw [State.get_noteLimits _ _ _ _ _ (by decide), State.get_judgeSupply_ne _ _ _ _ (by decide) (by decide) (by decide),
      State.get_withReadings_temp]
  · rw [State.get_noteLimits _ _ _ _ _ (by decide), State.get_judgeSupply_ne _ _ _ _ (by decide) (by decide) (by decide),
      State.get_withReadings_speed]
  · rw [State.get_noteLimits _ _ _ _ _ (by decide), State.get_judgeSupply_ne _ _ _ _ (by decide) (by decide) (by decide),
      State.get_withReadings_hot]
  · obtain ⟨judged, lowv⟩ := State.judgeSupply_released vdd.toNat (throttle.trans off)
    rw [State.get_noteLimits _ _ _ _ _ (by decide), State.get_noteLimits _ _ _ _ _ (by decide), judged, lowv, low]
    exact ⟨rfl, rfl⟩
  · rw [State.get_noteLimits _ _ _ _ _ (by decide), State.get_noteLimits _ _ _ _ _ (by decide),
      State.judgeSupply_throttled _ (throttle.trans on), low]
    exact ⟨s.get_withReadings_ne vdd temp speed _ _ (by decide) (by decide) (by decide) (by decide), rfl⟩
  · rw [State.get_noteLimits _ _ _ _ _ (by decide), State.get_judgeSupply_ne _ _ _ _ (by decide) (by decide) (by decide), kept]

/-! ### The rack reference -/

/-- An event raised after stores have changed that it does not read is logged, and changes no field but DROPPED. -/
theorem State.event_noted (v : State) (e : Event) (w k a b : Nat) (hr : s.regs = v.regs) (hm : s.mgLost = v.mgLost)
    (hl : s.logIntake = v.logIntake) :
    Logged s (v.event e w k a b) e w k a b ∧ FieldsBut [(F.TM_LOGSTAT_DROPPED, 0)] s (v.event e w k a b) :=
  ⟨Logged.event v e w k a b hr hm hl, ((FieldsBut.refl _ s).same hr.symm).event _ _ _ _ _ _ (by simp)⟩

theorem exec_refLost (h : s.chipReset = false) (hr : s.refLostAt = none) :
    exec .refLost s = .next (({ s with refLostAt := some s.now } : State).event evRefLost 10 0) := by
  rw [show exec .refLost s = execRefLost s from rfl, execRefLost, live_running h, hr]

theorem exec_refBack {k : Nat} (h : s.chipReset = false) (hr : s.refLostAt = some k) :
    exec .refBack s = .next (({ s with refLostAt := none } : State).event evRefBack 10 0 (s.now - k)) := by
  rw [show exec .refBack s = execRefBack s from rfl, execRefBack, live_running h, hr]

theorem referenceLossIsLogged : Claims.ReferenceLossIsLogged := by
  intro s h
  refine ⟨fun hr => ⟨_, exec_refLost h hr, State.event_refLostAt _ _ _ _ _ _ _, ?_⟩,
    fun k hr => ⟨_, exec_refBack h hr, State.event_refLostAt _ _ _ _ _ _ _, ?_⟩⟩
  · exact State.event_noted { s with refLostAt := some s.now } evRefLost 10 0 0 0 rfl rfl rfl
  · exact State.event_noted { s with refLostAt := none } evRefBack 10 0 (s.now - k) 0 rfl rfl rfl

/-! ### Tamper and glitch -/

/-- A wipe empties the sealed store, notes it and logs its cause (R358). -/
theorem State.wipeStore_effect (s : State) (cause : Nat) :
    (s.wipeStore cause).sealStore = [] ∧ (s.wipeStore cause).wiped = true
      ∧ Logged s (s.wipeStore cause) evSealWiped 9 0 cause 0 ∧ FieldsBut [(F.TM_LOGSTAT_DROPPED, 0)] s (s.wipeStore cause) :=
  ⟨State.event_sealStore _ _ _ _ _ _ _, State.event_wiped _ _ _ _ _ _ _,
    State.event_noted { s with sealStore := [], wiped := true } evSealWiped 9 0 cause 0 rfl rfl rfl⟩

theorem tamperWipesTheSealedStore : Claims.TamperWipesTheSealedStore := fun s h =>
  ⟨⟨s.wipeStore 0, runs (g := fun s => s.wipeStore 0) h rfl, s.wipeStore_effect 0⟩,
    ⟨s.wipeStore 1, runs (g := fun s => s.wipeStore 1) h rfl, s.wipeStore_effect 1⟩⟩

/-- Settles O9: the corner monitor, the rack reference, and the two inputs that wipe the sealed store. -/
theorem inputsAreNotedAndLogged : Obligations.InputsAreNotedAndLogged :=
  ⟨cornerMonitorFollows, referenceLossIsLogged, tamperWipesTheSealedStore⟩

end Sys2Proof.Machine

/-! Handshakes on channels, and stages that no out FIFO takes (chapters 2 and 3). -/

namespace Sys2Proof.Machine

open Safety

variable {s : State}

/-! ### A stage that is not the FIFO's own -/

theorem exec_fifoWrite_misfit (f : FifoId) (w : Stage) (h : s.chipReset = false) (hw : s.stageFits (fifoCopy f) w = false) :
    exec (.fifoWrite f w) s = .next s := by
  change execFifoWrite f w s = .next s
  unfold execFifoWrite
  rw [live_running h]
  exact congrArg _ (if_pos (by simp [hw]))

/-! ### The receiving end of a channel -/

theorem State.link_same {u t : State} (e : u.links = t.links) (k : Nat) : u.link k = t.link k := by
  unfold State.link
  rw [e]

@[simp] theorem State.countLink_links (s : State) (l : LinkId) (parity viol : Nat) : (s.countLink l parity viol).links = s.links :=
  (Off.countLink (M := 0x200000000c0) (Nat.and_self _) l parity viol (Off.refl _ s)).stores .links (by decide)

theorem State.link_countLink (s : State) (l : LinkId) (parity viol k : Nat) : (s.countLink l parity viol).link k = s.link k :=
  State.link_same (s.countLink_links l parity viol) k

theorem State.link_drawn (s : State) (n k : Nat) : (s.drawn n).link k = s.link k := rfl

/-- Packets that leave and commands that complete touch no channel. -/
@[simp] theorem State.flow_links (s : State) : s.flow.links = s.links :=
  (Off.flow (M := 0x101632001c00000000000c407090400) (Nat.and_self _) (Off.refl _ s)).stores .links (by decide)

theorem State.popFifo_links (s : State) (n : Nat) : (s.popFifo n).links = s.links := by
  unfold State.popFifo
  split
  · rfl
  · split <;> rfl

theorem State.levels_takeFlits (s : State) (l : LinkId) (levels : BitVec 4180) (head tail : Bool) (fs : List Flit) :
    ((s.takeFlits l levels head tail fs).link (wireKey l)).levels = levels := by
  simp [State.takeFlits, State.link]

/-- A handshake's acknowledge and flits stand at its receiving end, whether its wires are its own or its channel's; with the tail
its packet is whole. -/
theorem State.link_takeFlits (s : State) (l : LinkId) (levels : BitVec 4180) (head tail : Bool) (fs : List Flit) :
    let c := s.link (linkKey l)
    let got := (if head then [] else c.flits) ++ fs
    let c' := (s.takeFlits l levels head tail fs).link (linkKey l)
    c'.ack = !c.ack ∧ (tail = false → c'.flits = got ∧ c'.ready = c.ready)
      ∧ (tail = true → c'.flits = [] ∧ ∀ f b, got = f :: b → c'.ready = c.ready ++ [⟨f, b⟩]) := by
  intro c got c'
  have taken : c'.ack = !c.ack ∧ c'.flits = (if tail then [] else got)
      ∧ c'.ready = if tail then c.ready ++ got.head?.elim [] (fun f => [⟨f, got.tail⟩]) else c.ready := by
    by_cases e : linkKey l = wireKey l
    · simp only [c', got, c, State.takeFlits, State.link, ← e, lookup_upsert_self, Option.getD_some, true_and]
      generalize (_ ++ fs : List Flit) = g
      cases g <;> rfl
    · simp only [c', got, c, State.takeFlits, State.link, lookup_upsert_ne _ _ _ _ e, lookup_upsert_self, Option.getD_some, true_and]
      generalize (_ ++ fs : List Flit) = g
      cases g <;> rfl
  obtain ⟨ack, flits, ready⟩ := taken
  refine ⟨ack, ?_, ?_⟩
  · rintro rfl
    exact ⟨flits, ready⟩
  · rintro rfl
    refine ⟨flits, fun f b e => ?_⟩
    rw [ready, e]
    rfl

/-- A packet that leaves its sender's out FIFO starts its channel's count of handshakes afresh, and no more. -/
theorem State.popNeighbour_links (s : State) (l : LinkId) : (s.popNeighbour l).links = s.links
    ∨ (s.popNeighbour l).links = upsert s.links (linkKey l) { s.link (linkKey l) with shakes := 0 } := by
  cases l with
  | router m r i => exact .inl rfl
  | stack st a => exact .inl rfl
  | neighbour m i side =>
    unfold State.popNeighbour
    dsimp only
    split
    · exact .inl rfl
    · split
      · exact .inl rfl
      · rw [State.flow_links, State.wrap_links, State.popFifo_links]
        exact .inr rfl

theorem State.link_popNeighbour (s : State) (l : LinkId) (k : Nat) :
    ((s.popNeighbour l).link k).levels = (s.link k).levels ∧ ((s.popNeighbour l).link k).ack = (s.link k).ack := by
  rcases s.popNeighbour_links l with e | e
  · rw [State.link_same e]
    exact ⟨rfl, rfl⟩
  · unfold State.link
    rw [e]
    by_cases hk : k = linkKey l
    · subst hk
      simp [State.link]
    · simp [lookup_upsert_ne _ _ _ _ hk]

/-! ### A handshake -/

theorem exec_linkHandshake (l : LinkId) (levels : BitVec 4180) (h : s.chipReset = false) :
    exec (.linkHandshake l levels) s = .next (s.handshake l levels) :=
  runs (g := fun s => s.handshake l levels) h rfl

/-- Nothing happens where the sender offers nothing, or a group has not changed. -/
theorem State.handshake_idle (l : LinkId) (levels : BitVec 4180) (h : s.offers l = false
    ∨ handshakeDone (levels ^^^ (s.link (wireKey l)).levels) (match l with | .neighbour .. => 1045 | _ => 264) = false) :
    s.handshake l levels = s := by
  unfold State.handshake
  refine if_pos ?_
  rcases h with h | h
  · simp [h]
  · cases l <;> simp [h]

/-- A complete handshake that a mesh link or stack attachment offers brings one flit. -/
theorem State.handshake_mesh (l : LinkId) (levels : BitVec 4180) (hl : ∀ m i side, l ≠ .neighbour m i side) (ho : s.offers l = true)
    (hd : handshakeDone (levels ^^^ (s.link (wireKey l)).levels) 264 = true) :
    s.handshake l levels = s.meshHandshake l levels (levels ^^^ (s.link (wireKey l)).levels) := by
  unfold State.handshake
  cases l with
  | router m r k => exact if_neg (by simp [ho, hd, subChannel])
  | stack st a => exact if_neg (by simp [ho, hd, subChannel])
  | neighbour m i side => exact absurd rfl (hl m i side)

/-- A complete handshake that the sender offers on a sub-channel of a neighbour channel is taken there. -/
theorem State.handshake_neighbour (m : Mesh) (i : Fin 256) (side : Fin 4) (levels : BitVec 4180)
    (ho : s.offers (.neighbour m i side) = true)
    (hd : handshakeDone (levels ^^^ (s.link (wireKey (.neighbour m i side))).levels) 1045 = true)
    (hs : subChannel (.neighbour m i side) (levels ^^^ (s.link (wireKey (.neighbour m i side))).levels) = true) :
    s.handshake (.neighbour m i side) levels = s.neighbourHandshake (.neighbour m i side) levels
      (levels ^^^ (s.link (wireKey (.neighbour m i side))).levels) := by
  unfold State.handshake
  exact if_neg (by simp [ho, hd, hs])

/-- What stands at the channels after a handshake of one flit is what that flit brought. -/
theorem State.meshHandshake_links (s : State) (l : LinkId) (levels change : BitVec 4180) :
    (s.meshHandshake l levels change).links = (s.takeFlits l levels (groupBits s.freeCtr change 260 1 % 2 = 1)
      (2 ≤ groupBits s.freeCtr change 260 1) [(takenFlit (groupBits s.freeCtr change 0 256) (groupBits s.freeCtr change 256 4)
        (groupBits s.freeCtr change 261 1 % 2 = 1) (violations change 0 264 != 0)).1]).links := by
  unfold State.meshHandshake
  dsimp only
  generalize takenFlit _ _ _ _ = x
  obtain ⟨f, wrong⟩ := x
  rw [State.drawn_links, State.countLink_links]

/-- A mesh link or stack attachment takes one flit, which with the tail makes its packet whole. -/
theorem State.meshHandshake_takes (s : State) (l : LinkId) (levels change : BitVec 4180) :
    let tail := decide (2 ≤ groupBits s.freeCtr change 260 1)
    let got := (if groupBits s.freeCtr change 260 1 % 2 = 1 then [] else (s.link (linkKey l)).flits)
      ++ [(takenFlit (groupBits s.freeCtr change 0 256) (groupBits s.freeCtr change 256 4)
          (groupBits s.freeCtr change 261 1 % 2 = 1) (violations change 0 264 != 0)).1]
    let t := s.meshHandshake l levels change
    (t.link (wireKey l)).levels = levels ∧ (t.link (linkKey l)).ack = !(s.link (linkKey l)).ack
      ∧ (tail = false → (t.link (linkKey l)).flits = got ∧ (t.link (linkKey l)).ready = (s.link (linkKey l)).ready)
      ∧ (tail = true → (t.link (linkKey l)).flits = [] ∧ ∃ h b, got = h :: b
          ∧ (t.link (linkKey l)).ready = (s.link (linkKey l)).ready ++ [⟨h, b⟩]) := by
  intro tail got t
  have links (k : Nat) := State.link_same (s.meshHandshake_links l levels change) k
  obtain ⟨ack, more, whole⟩ := s.link_takeFlits l levels (groupBits s.freeCtr change 260 1 % 2 = 1) tail
      [(takenFlit (groupBits s.freeCtr change 0 256) (groupBits s.freeCtr change 256 4)
          (groupBits s.freeCtr change 261 1 % 2 = 1) (violations change 0 264 != 0)).1]
  simp only [decide_eq_true_eq] at more whole
  rw [links, links]
  refine ⟨s.levels_takeFlits _ _ _ _ _, ack, more, fun ht => ⟨(whole ht).1, ?_⟩⟩
  obtain ⟨f, b, e⟩ : ∃ f b, got = f :: b := List.exists_cons_of_ne_nil (by simp [got])
  exact ⟨f, b, e, (whole ht).2 f b e⟩

/-- A neighbour channel keeps the levels and changes its sub-channel's acknowledge wire once. -/
theorem State.neighbourHandshake_acknowledges (s : State) (l : LinkId) (levels change : BitVec 4180) :
    ((s.neighbourHandshake l levels change).link (wireKey l)).levels = levels
      ∧ ((s.neighbourHandshake l levels change).link (linkKey l)).ack = !(s.link (linkKey l)).ack := by
  unfold State.neighbourHandshake
  dsimp only
  rw [(State.link_popNeighbour _ _ _).1, (State.link_popNeighbour _ _ _).2, State.link_drawn, State.link_drawn,
    State.link_countLink, State.link_countLink]
  exact ⟨s.levels_takeFlits _ _ _ _ _, (s.link_takeFlits _ _ _ _ _).1⟩

/-- Settles O19: what a handshake takes, by the kind of its channel, and when it takes nothing. -/
theorem handshakesTakeFlits : Obligations.HandshakesTakeFlits := by
  refine ⟨fun s f w h _ _ hw => exec_fifoWrite_misfit f w h hw, fun s l levels h => ?_⟩
  intro change n tail got
  constructor
  · intro ho hd hs
    refine ⟨s.handshake l levels, exec_linkHandshake l levels h, ?_⟩
    cases l with
    | router m r k =>
      rw [State.handshake_mesh _ levels (by simp) ho hd]
      obtain ⟨taken, ack, more, whole⟩ := s.meshHandshake_takes (.router m r k) levels change
      exact ⟨taken, ack, fun _ => more, fun _ => whole⟩
    | stack st a =>
      rw [State.handshake_mesh _ levels (by simp) ho hd]
      obtain ⟨taken, ack, more, whole⟩ := s.meshHandshake_takes (.stack st a) levels change
      exact ⟨taken, ack, fun _ => more, fun _ => whole⟩
    | neighbour m i side =>
      rw [State.handshake_neighbour m i side levels ho hd hs]
      obtain ⟨taken, ack⟩ := s.neighbourHandshake_acknowledges (.neighbour m i side) levels change
      have wide : n ≠ 264 := (by decide : (1045 : Nat) ≠ 264)
      exact ⟨taken, ack, fun hn => absurd hn wide, fun hn => absurd hn wide⟩
  · intro hi
    rw [exec_linkHandshake l levels h, State.handshake_idle l levels hi]

end Sys2Proof.Machine

/-! Router outputs: requests and grants (chapter 2). -/

namespace Sys2Proof.Machine

open Safety

variable {s : State}

/-! ### Requests -/

theorem exec_routerHeaderArrival (m : Mesh) (r : Fin 256) (inp : Fin 8) (p : Packet) {out : Nat} (h : s.chipReset = false)
    (hp : s.headerAt m r.val inp.val = some p) (ho : s.headerOutput r.val inp.val p = some out) :
    exec (.routerHeaderArrival m r inp p) s
      = .next (((s.takeReady (meshLink m r.val inp.val)).leaveFifo m r.val inp.val p).requestOutput m r.val inp.val out p) := by
  rw [show exec (.routerHeaderArrival m r inp p) s = execRouterHeaderArrival m r inp p s from rfl, execRouterHeaderArrival,
    live_running h]
  simp [hp, ho]

/-- A free or parked output is granted at once. -/
theorem State.requestOutput_granted (m : Mesh) (r inp out : Nat) (p : Packet)
    (h : ∀ g, lookup s.grants (outKey m r out) = some g → g.parked = true) :
    s.requestOutput m r inp out p
      = { s with grants := upsert s.grants (outKey m r out) ⟨inp, s.now, false, false, p⟩ } := by
  cases hg : lookup s.grants (outKey m r out) with
  | none => simp [State.requestOutput, hg]
  | some g => simp [State.requestOutput, hg, h g hg]

/-- At an output that a packet holds the header waits. -/
theorem State.requestOutput_waits (m : Mesh) (r inp out : Nat) (p : Packet) {g : Grant}
    (hg : lookup s.grants (outKey m r out) = some g) (hp : g.parked = false) :
    s.requestOutput m r inp out p = { s with waits := s.waits ++ [⟨m, r, inp, out, s.now, p⟩] } := by
  simp [State.requestOutput, hg, hp]

/-- What the packet's way out of its channel and its out FIFO may change; no bit of the clock, the grants or the waits. -/
theorem State.takeReady_leaveFifo_off (s : State) (key : Nat) (m : Mesh) (r inp : Nat) (p : Packet) :
    Off 0x101672001c04000000000c407090600 s ((s.takeReady key).leaveFifo m r inp p) :=
  Off.leaveFifo (by decide) m r inp p (Off.takeReady (by decide) key (Off.refl _ s))

theorem headersRequestOutputs : Claims.HeadersRequestOutputs := by
  intro s m r inp p out h hp ho
  have off := s.takeReady_leaveFifo_off (meshLink m r.val inp.val) m r.val inp.val p
  have now := off.stores .now (by decide)
  have grants := off.stores .grants (by decide)
  have waits := off.stores .waits (by decide)
  simp only [Store.same] at now grants waits
  refine ⟨_, exec_routerHeaderArrival m r inp p h hp ho, fun free => ?_, fun g hg hk => ?_⟩
  · rw [State.requestOutput_granted m r.val inp.val out p (by rwa [grants])]
    simp [now, waits]
  · rw [State.requestOutput_waits m r.val inp.val out p (by rwa [grants]) hk]
    simp [now, grants, waits]

/-! ### The header of lowest rank -/

/-- Headers that wait at an output. -/
def State.waitersAt (s : State) (m : Mesh) (r out : Nat) : List Waiting :=
  s.waits.filter (fun w => w.mesh = m && w.router = r && w.out = out)

/-- The order in which headers that wait at an output are served: by rank, then by input (R45). -/
def State.turnAt (s : State) (m : Mesh) (r out : Nat) (w : Waiting) : Nat := 8 * s.rankAt m r out w.inp + w.inp

theorem State.mem_waitersAt {m : Mesh} {r out : Nat} {w : Waiting} :
    w ∈ s.waitersAt m r out ↔ w ∈ s.waits ∧ w.mesh = m ∧ w.router = r ∧ w.out = out := by
  simp [State.waitersAt, and_assoc]

/-- Of the best element so far and the next one, the one of the lower rank; the earlier of two of the same rank. -/
def keepLeast {α : Type} (rank : α → Nat) (best : Option α) (a : α) : Option α :=
  match best with
  | none => some a
  | some b => if rank a < rank b then some a else some b

/-- What is kept of a list and an element before it is one of them, of the least rank among them. -/
theorem foldl_keepLeast {α : Type} (rank : α → Nat) (l : List α) (b : α) :
    ∃ w, l.foldl (keepLeast rank) (some b) = some w ∧ w ∈ b :: l ∧ ∀ x ∈ b :: l, rank w ≤ rank x := by
  induction l generalizing b with
  | nil =>
    refine ⟨b, rfl, List.mem_cons_self, fun x hx => ?_⟩
    exact Nat.le_of_eq (congrArg rank (List.mem_singleton.1 hx).symm)
  | cons a l ih =>
    by_cases less : rank a < rank b
    · obtain ⟨w, kept, mem, least⟩ := ih a
      refine ⟨w, ?_, List.mem_cons_of_mem _ mem, fun x hx => ?_⟩
      · rw [List.foldl_cons, keepLeast, if_pos less, kept]
      · rcases List.mem_cons.1 hx with rfl | hx
        · exact Nat.le_trans (least a List.mem_cons_self) (Nat.le_of_lt less)
        · exact least x hx
    · obtain ⟨w, kept, mem, least⟩ := ih b
      have first : rank w ≤ rank b := least b List.mem_cons_self
      refine ⟨w, ?_, ?_, fun x hx => ?_⟩
      · rw [List.foldl_cons, keepLeast, if_neg less, kept]
      · rcases List.mem_cons.1 mem with rfl | mem
        · exact List.mem_cons_self
        · exact List.mem_cons_of_mem _ (List.mem_cons_of_mem _ mem)
      · rcases List.mem_cons.1 hx with rfl | hx
        · exact first
        · rcases List.mem_cons.1 hx with rfl | hx
          · exact Nat.le_trans first (Nat.le_of_not_lt less)
          · exact least x (List.mem_cons_of_mem _ hx)

/-- The winner is what the order of service keeps of the headers that wait. -/
theorem State.winner_eq_foldl (s : State) (m : Mesh) (r out : Nat) :
    s.winner m r out = (s.waitersAt m r out).foldl (keepLeast (s.turnAt m r out)) none := by
  have kept : (fun best w => match best with
      | none => some w
      | some b => if s.turnAt m r out w < s.turnAt m r out b then some w else some b) = keepLeast (s.turnAt m r out) := by
    funext best w
    cases best with
    | none => rfl
    | some b => rfl
  rw [← kept]
  rfl

theorem State.winner_eq_none {m : Mesh} {r out : Nat}
    (h : ∀ w, ¬ (w ∈ s.waits ∧ w.mesh = m ∧ w.router = r ∧ w.out = out)) : s.winner m r out = none := by
  have empty : s.waitersAt m r out = [] :=
    List.eq_nil_iff_forall_not_mem.2 (fun w hw => h w (State.mem_waitersAt.1 hw))
  rw [State.winner_eq_foldl, empty, List.foldl_nil]

/-- Where a header waits, the winner is one of those that wait there, and none of them comes before it. -/
theorem State.exists_winner {m : Mesh} {r out : Nat} {v : Waiting} (h : v ∈ s.waitersAt m r out) :
    ∃ w, s.winner m r out = some w ∧ w ∈ s.waitersAt m r out
      ∧ ∀ x ∈ s.waitersAt m r out, s.turnAt m r out w ≤ s.turnAt m r out x := by
  rw [State.winner_eq_foldl]
  cases hl : s.waitersAt m r out with
  | nil =>
    rw [hl] at h
    exact absurd h List.not_mem_nil
  | cons b l => exact foldl_keepLeast (s.turnAt m r out) l b

/-! ### Grants -/

/-- A grant that ends no copy of a Screed unit frees the output alone. -/
theorem exec_arbiterGrant (m : Mesh) (r : Fin 256) (out : Fin 8) {g : Grant} (h : s.chipReset = false)
    (hg : lookup s.grants (outKey m r.val out.val) = some g) (hc : g.inp = 7 → g.passed = true → g.parked = true) :
    exec (.arbiterGrant m r out) s = .next (s.freeOutput m r.val out.val) := by
  have no : (g.inp = 7 && g.passed && !g.parked) = false := by
    simpa using hc
  rw [show exec (.arbiterGrant m r out) s = execArbiterGrant m r out s from rfl, execArbiterGrant, live_running h]
  simp [hg, no]

theorem State.freeOutput_held {m : Mesh} {r out : Nat} {g : Grant} (hg : lookup s.grants (outKey m r out) = some g)
    (hk : g.parked = false) (hp : g.passed = false) : s.freeOutput m r out = s := by
  unfold State.freeOutput
  simp [hg, hk, hp]

theorem State.freeOutput_parks {m : Mesh} {r out : Nat} {g : Grant} (hg : lookup s.grants (outKey m r out) = some g)
    (hf : (g.parked || g.passed) = true) (hw : s.winner m r out = none) :
    s.freeOutput m r out = { s with grants := upsert s.grants (outKey m r out) { g with parked := true } } := by
  unfold State.freeOutput
  simp only [Bool.or_eq_true] at hf
  rcases hf with hf | hf <;> simp [hg, hf, hw]

theorem State.freeOutput_grants {m : Mesh} {r out : Nat} {g : Grant} {w : Waiting}
    (hg : lookup s.grants (outKey m r out) = some g) (hf : (g.parked || g.passed) = true) (hw : s.winner m r out = some w) :
    s.freeOutput m r out = { s.countWait m (8 * r + w.inp) (s.now - w.since + 1) with
      waits := s.waits.erase w, grants := upsert s.grants (outKey m r out) ⟨w.inp, s.now, false, false, w.pkt⟩ } := by
  have off := Off.countWait (M := 0x18) (Nat.and_self _) m (8 * r + w.inp) (s.now - w.since + 1) (Off.refl _ s)
  have now := off.stores .now (by decide)
  have grants := off.stores .grants (by decide)
  have waits := off.stores .waits (by decide)
  simp only [Store.same] at now grants waits
  have busy : (!g.parked && !g.passed) = false := by
    rw [← Bool.not_or, hf]
    rfl
  unfold State.freeOutput
  simp [hg, busy, hw, now, grants, waits]

/-- The wait is counted in TOTAL of the input (R52, Table 2-6). -/
theorem State.countWait_total (s : State) (m : Mesh) (n t : Nat) :
    (s.countWait m n t).get (match m with | .request => F.RQ_ARBWAIT_TOTAL | .reply => F.RP_ARBWAIT_TOTAL) n
      = Claims.counted s (match m with | .request => F.RQ_ARBWAIT_TOTAL | .reply => F.RP_ARBWAIT_TOTAL) n t := by
  cases m <;>
    exact (State.get_sat_self _ _ _ _ (by decide) (by decide)).trans (by
      rw [State.raiseTo, State.get_put_ne _ _ _ _ (by decide) (.inl (by decide)),
        State.get_sat_ne _ _ _ _ (by decide) (.inl (by decide))]
      rfl)

theorem lowestRankIsGranted : Claims.LowestRankIsGranted := by
  intro s m r out g h hg here free
  have frees (hf : free) : exec (.arbiterGrant m r out) s = .next (s.freeOutput m r.val out.val) :=
    exec_arbiterGrant m r out h hg (fun hi _ => hf.2 hi)
  refine ⟨fun hk hp => ?_, fun hf alone => ?_, fun hf ⟨v, hv⟩ => ?_⟩
  · rw [exec_arbiterGrant m r out h hg (fun _ ht => absurd (hp.symm.trans ht) (by decide)), State.freeOutput_held hg hk hp]
  · exact ⟨_, frees hf, State.freeOutput_parks hg hf.1 (State.winner_eq_none alone)⟩
  · obtain ⟨w, hw, mem, least⟩ := State.exists_winner (State.mem_waitersAt.2 hv)
    refine ⟨w, State.mem_waitersAt.1 mem, fun x hx => least x (State.mem_waitersAt.2 hx), _, frees hf, ?_⟩
    rw [State.freeOutput_grants hg hf.1 hw]
    exact ⟨rfl, lookup_upsert_self _ _ _,
      (State.get_same rfl _ _).trans (s.countWait_total m (8 * r.val + w.inp) (s.now - w.since + 1))⟩

/-- Settles O20: a header's request at an output, and the grant of an output whose tail has passed. -/
theorem outputsAreGrantedByRank : Obligations.OutputsAreGrantedByRank :=
  ⟨headersRequestOutputs, lowestRankIsGranted⟩

end Sys2Proof.Machine

/-! Out FIFOs and what their clocked side writes (chapter 3), and what waiting packets change as they leave. -/

namespace Sys2Proof.Machine

open Safety

variable {s : State}

/-- Settles O11: the footprint of what leaves is the frame that the statement names. -/
theorem flowChangesItsOwnAlone : Obligations.FlowChangesItsOwnAlone := fun s =>
  Off.within (Off.flow (M := 0x101632001c00000000000c407090400) (Nat.and_self _) (Off.refl _ s)) (by decide) (by decide)

/-! ### FIFOs of the table -/

@[simp] theorem State.fifo_setFifo_self (s : State) (n : Nat) (x : Fifo) : (s.setFifo n x).fifo n = x :=
  getD_assign_self _ _ _ _

theorem State.fifo_setFifo_ne (s : State) {n m : Nat} (x : Fifo) (h : m ≠ n) : (s.setFifo n x).fifo m = s.fifo m := by
  simp [State.fifo, State.setFifo, lookup_assign_ne _ _ _ _ _ h]

/-- States with the same FIFOs hold the same in each. -/
theorem State.fifo_same {t u : State} (e : t.fifos = u.fifos) (n : Nat) : t.fifo n = u.fifo n := by
  unfold State.fifo
  rw [e]

@[simp] theorem State.noteOld_fifos (s : State) (e : Nat) : (s.noteOld e).fifos = s.fifos :=
  (Off.noteOld (M := 0x40000000000000000) (Nat.and_self _) e (Off.refl _ s)).stores .fifos (by decide)

@[simp] theorem State.noteHostTag_fifos (s : State) (n : Nat) : (s.noteHostTag n).fifos = s.fifos :=
  (Off.noteHostTag (M := 0x200000000000000000000000000000000000000) (Nat.and_self _) n (Off.refl _ s)).stores .fifos (by decide)

@[simp] theorem State.noteHostTag_regs (s : State) (n : Nat) : (s.noteHostTag n).regs = s.regs := by
  unfold State.noteHostTag
  split
  · rfl
  · split
    · rfl
    · dsimp only
      split <;> rfl

/-- A packet of the old parity sets OLD_SEEN, and no other field. -/
theorem State.fieldsBut_noteOld {fs : List (Fld × Nat)} {t : State} (h : FieldsBut fs s t) (e : Nat)
    (hf : (F.RK_EPOCH_OLD_SEEN, 0) ∈ fs) : FieldsBut fs s (t.noteOld e) := h.ite (h.put _ _ _ hf)

theorem State.get_noteOld (s : State) (e : Nat) (g : Fld) (n : Nat) (h : apart F.RK_EPOCH_OLD_SEEN g = true) :
    (s.noteOld e).get g n = s.get g n := by
  unfold State.noteOld
  split
  · rfl
  · exact State.get_put_ne _ _ _ _ (by decide) (.inl h)

/-! ### A stage written -/

/-- A stage without NOT_VALID, bit 523, which a writer does not set. -/
def validStage (w : Stage) : Stage := w &&& ~~~(1#524 <<< 523)

/-- A written stage as the FIFO keeps it: the tail of a packet that lost a flit has POISON (R69). -/
def keptStage (lost : Bool) (w : Stage) : Stage :=
  if stageTail (validStage w) && lost then validStage w ||| (1#524 <<< 522) else validStage w

/-- The packet that a stage begins notes its parity (R328). -/
def State.noteStage (s : State) (w : Stage) : State :=
  if stageHead (validStage w) then s.noteOld (hget (stageData (validStage w)) H.EPOCH) else s

@[simp] theorem State.noteStage_fifos (s : State) (w : Stage) : (s.noteStage w).fifos = s.fifos := by
  unfold State.noteStage
  split
  · exact State.noteOld_fifos _ _
  · rfl

theorem State.get_noteStage (s : State) (w : Stage) (g : Fld) (n : Nat) (h : apart F.RK_EPOCH_OLD_SEEN g = true) :
    (s.noteStage w).get g n = s.get g n := by
  unfold State.noteStage
  split
  · exact State.get_noteOld _ _ _ _ h
  · rfl

theorem State.fieldsBut_noteStage {fs : List (Fld × Nat)} (w : Stage) (hf : (F.RK_EPOCH_OLD_SEEN, 0) ∈ fs) :
    FieldsBut fs s (s.noteStage w) := .ite (State.fieldsBut_noteOld (.refl fs s) _ hf) (.refl fs s)

/-- FIFO `n` with one more stage. -/
def State.fifoWith (s : State) (n : Nat) (w : Stage) : Fifo :=
  ⟨(s.fifo n).stages ++ [keptStage (s.fifo n).lost w], (s.fifo n).lost && !stageTail (validStage w), (s.fifo n).last⟩

/-- A stage that finds room is kept; with a tail the notice is given. -/
theorem State.writeStage_room (n d : Nat) (w : Stage) (h : (s.fifo n).stages.length < fifoDepth n) :
    s.writeStage n d w = if stageTail (validStage w)
      then (((s.noteStage w).setFifo n (s.fifoWith n w)).wrap F.XB_FIFO_NOTICES n).noteHostTag n
      else (s.noteStage w).setFifo n (s.fifoWith n w) := by
  unfold State.writeStage State.fifoWith keptStage State.noteStage validStage
  rw [if_neg (Nat.not_le.2 h)]
  generalize w &&& ~~~(1#524 <<< 523) = v
  by_cases ht : stageTail v = true
  · simp only [ht, if_true, Bool.true_and, Bool.not_true, Bool.and_false]
  · simp only [ht, if_false, Bool.false_and, Bool.not_false, Bool.and_true, Bool.false_eq_true]

/-- A stage that finds none is lost (R69). -/
theorem State.writeStage_full (n d : Nat) (w : Stage) (h : fifoDepth n ≤ (s.fifo n).stages.length) :
    s.writeStage n d w = ((((s.setFifo n { s.fifo n with lost := true }).put F.XB_FIFO_OVERRUN n 1).put F.XB_DOMAIN_FIFO_OVR d 1).sat
      F.XB_ERRORS_OVERRUNS d).event evOverrun 6 d (n % 256) := by
  unfold State.writeStage
  rw [if_pos h]

/-- A stage that finds room changes its FIFO, the notices of a tail, and what the head of an old packet notes. -/
theorem State.writeStage_keeps (n d : Nat) (w : Stage) (h : (s.fifo n).stages.length < fifoDepth n) :
    let t := s.writeStage n d w
    t.fifo n = s.fifoWith n w
      ∧ t.get F.XB_FIFO_NOTICES n = (s.get F.XB_FIFO_NOTICES n + b2n (stageTail (validStage w))) % 2 ^ F.XB_FIFO_NOTICES.width
      ∧ (∀ m, m ≠ n → t.fifo m = s.fifo m) ∧ FieldsBut [(F.XB_FIFO_NOTICES, n), (F.RK_EPOCH_OLD_SEEN, 0)] s t := by
  intro t
  have written : t = _ := State.writeStage_room n d w h
  have notices : ((s.noteStage w).setFifo n (s.fifoWith n w)).get F.XB_FIFO_NOTICES n = s.get F.XB_FIFO_NOTICES n :=
    State.get_noteStage _ _ _ _ (by decide)
  have others (m : Nat) (hm : m ≠ n) : ((s.noteStage w).setFifo n (s.fifoWith n w)).fifo m = s.fifo m := by
    rw [State.fifo_setFifo_ne _ _ hm, State.fifo_same (State.noteStage_fifos _ _)]
  have fields : FieldsBut [(F.XB_FIFO_NOTICES, n), (F.RK_EPOCH_OLD_SEEN, 0)] s ((s.noteStage w).setFifo n (s.fifoWith n w)) :=
    (State.fieldsBut_noteStage w (by simp)).same rfl
  by_cases ht : stageTail (validStage w) = true
  · rw [if_pos ht] at written
    have fifos (m : Nat) : t.fifo m = ((s.noteStage w).setFifo n (s.fifoWith n w)).fifo m := by
      rw [written]
      exact State.fifo_same (State.noteHostTag_fifos _ _) m
    refine ⟨by rw [fifos, State.fifo_setFifo_self], ?_, fun m hm => (fifos m).trans (others m hm), ?_⟩
    · rw [written, State.get_same (State.noteHostTag_regs _ _), State.get_wrap_self _ _ _ _ (by decide) (by decide), notices, ht]
      rfl
    · rw [written]
      exact (fields.wrap _ _ _ (by simp)).same (State.noteHostTag_regs _ _)
  · rw [if_neg ht] at written
    rw [written, (Bool.not_eq_true _).mp ht]
    refine ⟨State.fifo_setFifo_self _ _ _, ?_, others, fields⟩
    rw [notices]
    exact (Nat.mod_eq_of_lt (fieldGet_lt _ _ _ (by decide))).symm

/-- A stage that finds no room leaves the FIFO's stages, and is flagged, counted and logged. -/
theorem State.writeStage_loses (n d : Nat) (w : Stage) (h : fifoDepth n ≤ (s.fifo n).stages.length) :
    let t := s.writeStage n d w
    t.fifo n = { s.fifo n with lost := true } ∧ t.get F.XB_FIFO_OVERRUN n = 1 ∧ t.get F.XB_DOMAIN_FIFO_OVR d = 1
      ∧ t.get F.XB_ERRORS_OVERRUNS d = Claims.counted s F.XB_ERRORS_OVERRUNS d 1 ∧ Logged s t evOverrun 6 d (n % 256) 0 := by
  intro t
  have written : t = _ := State.writeStage_full n d w h
  rw [written]
  refine ⟨?_, ?_, ?_, ?_, ?_⟩
  · rw [State.fifo_same (State.event_fifos _ _ _ _ _ _ _)]
    exact State.fifo_setFifo_self s n _
  · rw [State.get_event_ne _ _ _ _ _ _ _ _ _ (.inl (by decide)), State.get_sat_ne _ _ _ _ (by decide) (.inl (by decide)),
      State.get_put_ne _ _ _ _ (by decide) (.inl (by decide)), State.get_put_self _ _ _ _ (by decide) (by decide)]
    rfl
  · rw [State.get_event_ne _ _ _ _ _ _ _ _ _ (.inl (by decide)), State.get_sat_ne _ _ _ _ (by decide) (.inl (by decide)),
      State.get_put_self _ _ _ _ (by decide) (by decide)]
    rfl
  · rw [State.get_event_ne _ _ _ _ _ _ _ _ _ (.inl (by decide)), State.get_sat_self _ _ _ _ (by decide) (by decide),
      State.get_put_ne _ _ _ _ (by decide) (.inl (by decide)), State.get_put_ne _ _ _ _ (by decide) (.inl (by decide))]
    rfl
  · refine (State.event_logged _ _ _ _ _ _).congr rfl rfl ?_ ?_
    · rw [State.sat, State.word_put_ne _ _ _ (by decide) (.inl (by decide)), State.word_put_ne _ _ _ (by decide) (.inl (by decide)),
        State.word_put_ne _ _ _ (by decide) (.inl (by decide))]
      rfl
    · rw [State.get_sat_ne _ _ _ _ (by decide) (.inl (by decide)), State.get_put_ne _ _ _ _ (by decide) (.inl (by decide)),
        State.get_put_ne _ _ _ _ (by decide) (.inl (by decide))]
      rfl

/-- A stage that is the FIFO's own, and no header at the host bridge, is written. -/
theorem exec_fifoWrite_own (f : FifoId) (w : Stage) (h : s.chipReset = false) (ho : fifoOut (fifoCopy f) = true)
    (hr : s.sideRuns f = true) (hw : s.stageFits (fifoCopy f) w = true) (hh : ∀ k, f = .host k → stageHead w = false) :
    exec (.fifoWrite f w) s = .next (s.writeStage (fifoCopy f) (fifoDomain f) w) := by
  change execFifoWrite f w s = _
  unfold execFifoWrite
  rw [live_running h]
  dsimp only
  rw [if_neg (by simp [ho, hr, hw])]
  cases f with
  | host k => simp [hh k rfl]
  | core i k => simp
  | alorn k => simp
  | port p a k => simp
  | portPlumb p k => simp
  | portCopy p hub => simp

/-- Settles O17: by whether the FIFO has a free stage. -/
theorem outFifoKeepsOrCountsAStage : Obligations.OutFifoKeepsOrCountsAStage := by
  intro s f w h ho hr
  refine ⟨fun ⟨fits, plain⟩ room => ⟨_, exec_fifoWrite_own f w h ho hr fits plain, ?_⟩,
    fun ⟨fits, plain⟩ full => ⟨_, exec_fifoWrite_own f w h ho hr fits plain, ?_⟩⟩
  · obtain ⟨kept, rest⟩ := State.writeStage_keeps (fifoCopy f) (fifoDomain f) w room
    rw [kept]
    exact ⟨rfl, rfl, rest⟩
  · obtain ⟨kept, rest⟩ := State.writeStage_loses (fifoCopy f) (fifoDomain f) w full
    rw [kept]
    exact ⟨rfl, rfl, rest⟩

end Sys2Proof.Machine

/-! In FIFOs: what the clocked side reads, what is admitted, and the headers of the host side (chapter 3). -/

namespace Sys2Proof.Machine

open Safety

variable {s : State}

/-! ### A stage read -/

theorem exec_fifoRead (f : FifoId) (h : s.chipReset = false) (ho : fifoOut (fifoCopy f) = false) (hr : s.sideRuns f = true) :
    exec (.fifoRead f) s = .next (s.readStage (fifoCopy f) (fifoDomain f)) := by
  change execFifoRead f s = _
  unfold execFifoRead
  rw [live_running h]
  simp [ho, hr]

/-- The oldest stage of a complete packet, with POISON where a word of it has bad parity (R68). -/
theorem State.readStage_complete (n d : Nat) {w : Stage} {rest : List Stage} (hw : (s.fifo n).stages = w :: rest)
    (hp : (s.fifo n).packets ≠ 0) : s.readStage n d = (s.setFifo n ⟨rest, (s.fifo n).lost,
      if stageBad w = 0 then w else w ||| (1#524 <<< 522)⟩).sat F.XB_ERRORS_PARITY d (stageBad w) := by
  obtain ⟨k, hk⟩ := Nat.exists_eq_succ_of_ne_zero hp
  unfold State.readStage
  dsimp only
  rw [hw, hk]

theorem State.readStage_none (n d : Nat) (hp : (s.fifo n).packets = 0) :
    s.readStage n d = s.setFifo n { s.fifo n with last := notValid } := by
  unfold State.readStage
  dsimp only
  rw [hp]
  split
  · contradiction
  · rfl

theorem inFifoReadsCompletePackets : Claims.InFifoReadsCompletePackets := by
  intro s f h ho hr
  refine ⟨fun w rest hw hp => ⟨_, exec_fifoRead f h ho hr, ?_⟩, fun hp => ⟨_, exec_fifoRead f h ho hr, ?_⟩⟩
  · rw [State.readStage_complete _ _ hw hp]
    refine ⟨?_, ?_, State.get_sat_self _ _ _ _ (by decide) (by decide)⟩
    · exact congrArg Fifo.stages (State.fifo_setFifo_self _ _ _)
    · exact congrArg Fifo.last (State.fifo_setFifo_self _ _ _)
  · dsimp only
    rw [State.readStage_none _ _ hp, State.fifo_setFifo_self]
    exact ⟨rfl, rfl, (FieldsBut.refl _ s).same rfl⟩

/-! ### A packet before an in FIFO -/

/-- The output at `k` has passed its tail. -/
def State.outputPassed (s : State) (k : Nat) : Prop := ∃ g, lookup s.grants k = some g ∧ g.passed = true

/-- An output whose tail is marked as passed, whatever other tails pass, stays one that has passed its own. -/
theorem State.outputPassed_upsert {k : Nat} (j : Nat) (g : Grant) (h : s.outputPassed k) :
    ({ s with grants := upsert s.grants j { g with passed := true } } : State).outputPassed k := by
  by_cases e : k = j
  · exact ⟨{ g with passed := true }, by rw [e]; exact lookup_upsert_self _ _ _, rfl⟩
  · obtain ⟨g', hg, hp⟩ := h
    exact ⟨g', (lookup_upsert_ne _ _ _ _ e).trans hg, hp⟩

theorem State.outputPassed_passTail (m : Mesh) (fuel r out : Nat) {k : Nat} (h : s.outputPassed k) :
    (s.passTail m fuel r out).outputPassed k := by
  induction fuel generalizing s r out with
  | zero => exact h
  | succ fuel ih =>
    unfold State.passTail
    dsimp only
    split
    · exact h
    · next g _ =>
      split
      · exact h
      · split
        · exact ih _ _ (State.outputPassed_upsert _ g h)
        · exact State.outputPassed_upsert _ g h

/-- With the tail of the packet that stands at an output the output has passed it. -/
theorem State.passTail_passes {m : Mesh} {r out : Nat} {p : Packet} (fuel : Nat) (h : s.atOutput m r out = some p) :
    (s.passTail m (fuel + 1) r out).outputPassed (outKey m r out) := by
  unfold State.atOutput at h
  split at h
  · next g hg =>
    split at h
    · contradiction
    · next held =>
      have marked : ({ s with grants := upsert s.grants (outKey m r out) { g with passed := true } } : State).outputPassed
          (outKey m r out) := ⟨_, lookup_upsert_self _ _ _, rfl⟩
      unfold State.passTail
      rw [hg]
      dsimp only
      rw [if_neg held]
      split
      · exact State.outputPassed_passTail _ _ _ _ marked
      · exact marked
  · contradiction

/-- A packet that stands at an output of its mesh is the one there. -/
theorem State.standBefore_output {f : FifoId} {p : Packet} {m : Mesh} {r out : Nat}
    (h : s.standBefore f p = some (.output m r out)) : s.atOutput m r out = some p := by
  unfold State.standBefore at h
  split at h
  · contradiction
  · dsimp only at h
    split at h
    · next hp =>
      cases h
      exact hp
    · split at h
      · simp at h
      · contradiction

/-- A packet that departs from where it stood leaves the output there passed. -/
theorem State.depart_passes {f : FifoId} {p : Packet} {m : Mesh} {r out : Nat} {w : Stand} (h : s.standBefore f p = some w)
    (e : w = .output m r out) : (s.depart w).outputPassed (outKey m r out) := by
  subst e
  exact State.passTail_passes 31 (State.standBefore_output h)

@[simp] theorem State.depart_fifos (s : State) (w : Stand) : (s.depart w).fifos = s.fifos :=
  (Off.depart (M := 0xc00000000000000000000000000) (Nat.and_self _) w (Off.refl _ s)).stores .fifos (by decide)

theorem State.get_depart (s : State) (w : Stand) (g : Fld) (n : Nat) : (s.depart w).get g n = s.get g n := by
  refine (Off.depart (M := 0xc00000000000000000000000000) (Nat.and_self _) w (Off.refl _ s)).get g n (by decide) ?_
  have named : ∀ r ∈ Reg.all, (0xc00000000000000000000000000).testBit r.num = false := by decide
  exact named g.reg (Reg.mem_all _)

/-! ### Admission -/

/-- Whether the core port that an in FIFO belongs to is held in reset (R81). -/
def State.inReset (s : State) (f : FifoId) : Bool :=
  match f with
  | .core i _ => s.coreRst.contains i.val
  | _ => false

/-- The stages that a packet needs, as its LENGTH tells. -/
def stagesNeeded (p : Packet) : Nat := Nat.max (flitsOf p).length (1 + payloadFlits p)

theorem exec_inFifoAdmit_stands {f : FifoId} {p : Packet} {w : Stand} (h : s.chipReset = false)
    (ho : fifoOut (fifoCopy f) = false) (hw : s.standBefore f p = some w) :
    exec (.inFifoAdmit f p) s = .next (s.admitHeader f w p) := by
  change execInFifoAdmit f p s = _
  unfold execInFifoAdmit
  rw [live_running h]
  dsimp only
  rw [hw, ho]
  rfl

theorem State.admitHeader_inReset {f : FifoId} (w : Stand) (p : Packet) (h : s.inReset f = true) : s.admitHeader f w p =
    ((s.depart w).put F.XB_FIFO_HELD (fifoCopy f) 0).sat F.XB_ERRORS_DISCARDS (fifoDomain f) (flitsOf p).length := if_pos h

theorem State.admitHeader_held {f : FifoId} (w : Stand) (p : Packet) (h : s.inReset f = false)
    (full : fifoDepth (fifoCopy f) < (s.fifo (fifoCopy f)).stages.length + stagesNeeded p) :
    s.admitHeader f w p = s.put F.XB_FIFO_HELD (fifoCopy f) 1 :=
  (if_neg ((Bool.not_eq_true _).mpr h)).trans (if_pos full)

/-- A whole packet at the end of a FIFO: the stages, and what the notice leaves. -/
theorem State.pushFifo_effect (s : State) (n : Nat) (p : Packet) :
    ((s.pushFifo n p).fifo n).stages = (s.fifo n).stages ++ stagesOf p
      ∧ (s.pushFifo n p).get F.XB_FIFO_HELD n = s.get F.XB_FIFO_HELD n ∧ (s.pushFifo n p).grants = s.grants := by
  unfold State.pushFifo
  dsimp only
  split
  · exact ⟨congrArg Fifo.stages (State.fifo_setFifo_self _ _ _), State.get_wrap_ne _ _ _ _ (by decide) (.inl (by decide)), rfl⟩
  · exact ⟨congrArg Fifo.stages (State.fifo_setFifo_self _ _ _), rfl, rfl⟩

/-- An admitted packet enters the FIFO; at a core port its flits are counted. -/
theorem State.admitHeader_admits {f : FifoId} (w : Stand) (p : Packet) (h : s.inReset f = false)
    (room : (s.fifo (fifoCopy f)).stages.length + stagesNeeded p ≤ fifoDepth (fifoCopy f)) :
    let t := ((s.depart w).put F.XB_FIFO_HELD (fifoCopy f) 0).pushFifo (fifoCopy f) p
    s.admitHeader f w p = t ∨ ∃ i, s.admitHeader f w p = t.wrap F.TM_CPFLITS_IN i (flitsOf p).length := by
  have admits : s.admitHeader f w p = _ := (if_neg ((Bool.not_eq_true _).mpr h)).trans (if_neg (Nat.not_lt.2 room))
  cases f with
  | core i k => exact .inr ⟨i.val, admits⟩
  | alorn k => exact .inl admits
  | host k => exact .inl admits
  | port p a k => exact .inl admits
  | portPlumb p k => exact .inl admits
  | portCopy p hub => exact .inl admits

/-- The FIFO, HELD and the outputs after an admission. -/
theorem State.admitHeader_effect {f : FifoId} (w : Stand) (p : Packet) (h : s.inReset f = false)
    (room : (s.fifo (fifoCopy f)).stages.length + stagesNeeded p ≤ fifoDepth (fifoCopy f)) :
    let t := s.admitHeader f w p
    (t.fifo (fifoCopy f)).stages = (s.fifo (fifoCopy f)).stages ++ stagesOf p ∧ t.get F.XB_FIFO_HELD (fifoCopy f) = 0
      ∧ t.grants = (s.depart w).grants := by
  intro t
  have stages : ((s.depart w).fifo (fifoCopy f)).stages = (s.fifo (fifoCopy f)).stages :=
    congrArg Fifo.stages (State.fifo_same (State.depart_fifos s w) _)
  have held : ((s.depart w).put F.XB_FIFO_HELD (fifoCopy f) 0).get F.XB_FIFO_HELD (fifoCopy f) = 0 :=
    State.get_put_self _ _ _ _ (by decide) (by decide)
  obtain ⟨pushed, free, grants⟩ := State.pushFifo_effect ((s.depart w).put F.XB_FIFO_HELD (fifoCopy f) 0) (fifoCopy f) p
  have before := pushed.trans (congrArg (· ++ stagesOf p) stages)
  rcases State.admitHeader_admits w p h room with e | ⟨i, e⟩
  · rw [show t = _ from e]
    exact ⟨before, free.trans held, grants⟩
  · rw [show t = _ from e]
    exact ⟨before, (State.get_wrap_ne _ _ _ _ (by decide) (.inl (by decide))).trans (free.trans held), grants⟩

/-- What an in FIFO does with a packet that stands before it: it takes it whole, holds it, or in the reset discards it. -/
theorem standingPacketIsAdmitted {f : FifoId} {p : Packet} {w : Stand} (h : s.chipReset = false)
    (ho : fifoOut (fifoCopy f) = false) (hw : s.standBefore f p = some w) :
    let n := fifoCopy f
    let left (t : State) : Prop := ∀ m r out, w = .output m r out → t.outputPassed (outKey m r out)
    (s.inReset f = false → (s.fifo n).stages.length + stagesNeeded p ≤ fifoDepth n → Claims.Does (.inFifoAdmit f p) s (fun t =>
      (t.fifo n).stages = (s.fifo n).stages ++ stagesOf p ∧ t.get F.XB_FIFO_HELD n = 0 ∧ left t))
    ∧ (s.inReset f = false → fifoDepth n < (s.fifo n).stages.length + stagesNeeded p → Claims.Does (.inFifoAdmit f p) s (fun t =>
      t.fifos = s.fifos ∧ t.grants = s.grants ∧ t.get F.XB_FIFO_HELD n = 1 ∧ FieldsBut [(F.XB_FIFO_HELD, n)] s t))
    ∧ (s.inReset f = true → Claims.Does (.inFifoAdmit f p) s (fun t => t.fifos = s.fifos ∧ t.get F.XB_FIFO_HELD n = 0 ∧ left t
      ∧ t.get F.XB_ERRORS_DISCARDS (fifoDomain f) = Claims.counted s F.XB_ERRORS_DISCARDS (fifoDomain f) (flitsOf p).length)) := by
  intro n left
  have leaves (t : State) (e : t.grants = (s.depart w).grants) : left t := by
    intro m r out ew
    unfold State.outputPassed
    rw [e]
    exact State.depart_passes hw ew
  have runs := exec_inFifoAdmit_stands h ho hw
  refine ⟨fun out room => ⟨_, runs, ?_⟩, fun out full => ⟨_, runs, ?_⟩, fun inside => ⟨_, runs, ?_⟩⟩
  · obtain ⟨stages, held, grants⟩ := State.admitHeader_effect w p out room
    exact ⟨stages, held, leaves _ grants⟩
  · rw [State.admitHeader_held w p out full]
    exact ⟨rfl, rfl, State.get_put_self _ _ _ _ (by decide) (by decide), (FieldsBut.refl _ s).put _ _ _ (by simp [n])⟩
  · rw [State.admitHeader_inReset w p inside]
    refine ⟨State.depart_fifos s w, ?_, leaves _ rfl, ?_⟩
    · exact (State.get_sat_ne _ _ _ _ (by decide) (.inl (by decide))).trans (State.get_put_self _ _ _ _ (by decide) (by decide))
    · rw [State.get_sat_self _ _ _ _ (by decide) (by decide), State.get_put_ne _ _ _ _ (by decide) (.inl (by decide)),
        State.get_depart]
      rfl

/-! ### A held Plumb message -/

theorem fifoCopy_core (i : Fin 256) (k : Fin 6) : fifoCopy (.core i k) = coreFifo i.val k.val := by
  unfold fifoCopy fifoDomain fifoIndex coreFifo
  dsimp only
  omega

theorem fifoMesh_corePlumb (i : Fin 256) : fifoMesh (fifoCopy (.core i 5)) = none := by
  have cluster : i.val / 16 < 16 := by omega
  have place : i.val % 16 < 16 := by omega
  have kind : fifoKind (coreFifo i.val 5) = 6 := by
    unfold fifoKind coreFifo
    generalize i.val / 16 = c at cluster ⊢
    generalize i.val % 16 = r at place ⊢
    have domain : (256 * c + 6 * r + 5) / 256 = c := by omega
    have index : (256 * c + 6 * r + 5) % 256 = 6 * r + 5 := by omega
    dsimp only
    rw [domain, index, if_pos cluster, if_pos (by omega)]
    omega
  unfold fifoMesh
  rw [fifoCopy_core]
  dsimp only [Fin.isValue]
  rw [show ((5 : Fin 6) : Nat) = 5 from rfl, kind]
  rfl

theorem State.standBefore_corePlumb (s : State) (i : Fin 256) (p : Packet) : s.standBefore (.core i 5) p = none := by
  unfold State.standBefore
  rw [fifoMesh_corePlumb]

/-- The message that a node has sent a core port longest waits while the port's Plumb in FIFO is full. -/
theorem exec_inFifoAdmit_corePlumb {i : Fin 256} {p : Packet} (h : s.chipReset = false)
    (ho : fifoOut (fifoCopy (.core i 5)) = false)
    (hm : (s.heldFor (32 + i.val)).head? = some ⟨2 + i.val / 16, 32 + i.val, stageMsg p⟩)
    (hr : s.room (fifoCopy (.core i 5)) = 0) :
    exec (.inFifoAdmit (.core i 5) p) s = .next (s.holdPlumb (fifoCopy (.core i 5))) := by
  change execInFifoAdmit (.core i 5) p s = _
  unfold execInFifoAdmit
  rw [live_running h]
  dsimp only
  rw [ho, State.standBefore_corePlumb]
  have same : coreFifo i.val 5 = fifoCopy (.core i 5) := (fifoCopy_core i 5).symm
  unfold State.admitHeld
  simp [same, hm, hr]

theorem inFifoAdmitsWholePackets : Claims.InFifoAdmitsWholePackets := by
  intro s f p h ho
  refine ⟨fun w hw => standingPacketIsAdmitted h ho hw, ?_⟩
  rintro i rfl hm hr
  exact ⟨_, exec_inFifoAdmit_corePlumb h ho hm hr, rfl, rfl, State.get_put_self _ _ _ _ (by decide) (by decide)⟩

/-! ### Headers of the host side -/

/-- A field apart from those that change, PARITY among the latter not, reads as before. -/
theorem State.get_of_fieldsBut {t : State} {fs : List (Fld × Nat)} (h : FieldsBut fs s t) (g : Fld) (n : Nat) (hw : g.width ≤ 64)
    (ha : (fs.all fun x => apart x.1 F.RK_EPOCH_PARITY && apart x.1 g) = true) : t.get g n = s.get g n := by
  simp only [List.all_eq_true, Bool.and_eq_true] at ha
  have parity : t.parity = s.parity := h F.RK_EPOCH_PARITY (by decide) 0 0 (by decide) (fun x hx => .inl (ha x hx).1)
  unfold State.get
  rw [parity]
  exact h g hw n _ s.parity_lt (fun x hx => .inl (ha x hx).2)

/-- A header that the host side writes is judged by the bridge. -/
theorem exec_fifoWrite_hostHead (k : Fin 4) (w : Stage) (h : s.chipReset = false) (ho : fifoOut (fifoCopy (.host k)) = true)
    (hr : s.sideRuns (.host k) = true) (hw : s.stageFits (fifoCopy (.host k)) w = true) (hh : stageHead w = true) :
    exec (.fifoWrite (.host k) w) s = .next (s.hostHead (fifoCopy (.host k)) 16 w) := by
  change execFifoWrite (.host k) w s = _
  unfold execFifoWrite
  rw [live_running h]
  dsimp only
  rw [if_neg (by simp [ho, hr, hw]), if_pos (by simp [hh])]
  rfl

/-- The bridge refuses a packet: a request is answered towards the host side, a reply counted. -/
theorem State.hostRefuse_effect (s : State) (p : Packet) (st : Nat) :
    (s.hostRefuse p st).fifos = s.fifos
      ∧ (classOf (pget p H.OPCODE) = some .request → (s.hostRefuse p st).hostRx = s.hostRx ++ [s.replyTo 286 p Op.NACK st])
      ∧ (classOf (pget p H.OPCODE) ≠ some .request →
        (s.hostRefuse p st).get F.AL_EPERR_ROUTE 0 = Claims.counted s F.AL_EPERR_ROUTE 0 1) := by
  unfold State.hostRefuse
  by_cases request : classOf (pget p H.OPCODE) = some .request
  · rw [if_pos request]
    exact ⟨rfl, fun _ => rfl, fun reply => absurd request reply⟩
  · rw [if_neg request, show s.countRoute 286 = s.sat F.AL_EPERR_ROUTE 0 from rfl]
    exact ⟨rfl, fun h => absurd h request, fun _ => State.get_sat_self _ _ _ _ (by decide) (by decide)⟩

/-- The packet that a header begins. -/
def headPacket (w : Stage) : Packet := ⟨flitOf w, []⟩

theorem State.hostHead_none (n d : Nat) {w : Stage} (hr : s.routeOf 20 (headPacket w) = .none) :
    s.hostHead n d w = s.hostRefuse (headPacket w) St.RANGE := by
  unfold State.hostHead
  dsimp only
  rw [show s.routeOf 20 ⟨flitOf w, []⟩ = .none from hr]
  rfl

theorem State.hostHead_shut (n d : Nat) {w : Stage} (hr : s.routeOf 20 (headPacket w) = .shut) :
    s.hostHead n d w = s.hostRefuse (headPacket w) St.UNREACHABLE := by
  unfold State.hostHead
  dsimp only
  rw [show s.routeOf 20 ⟨flitOf w, []⟩ = .shut from hr]
  rfl

/-- The state in which a header waits at the bridge for window `x`, counted. -/
theorem State.hostHead_waits (n d : Nat) {w : Stage} {x : Nat} (hr : s.routeOf 20 (headPacket w) = .out x)
    (hg : s.gateOpen (.window x) (1 + payloadFlits (headPacket w)) = false) (hn : lookup s.hostWait n ≠ some (stageData w)) :
    s.hostHead n d w
      = ({ s with hostWait := upsert s.hostWait n (stageData w) } : State).wrap F.OP_EGWIN_WAITS x := by
  unfold State.hostHead
  dsimp only
  rw [show s.routeOf 20 ⟨flitOf w, []⟩ = .out x from hr]
  exact (if_neg ((Bool.not_eq_true _).mpr hg)).trans (if_neg hn)

/-- The state in which the flits of a packet count against window `x`, and no header waits before FIFO `n`. -/
def State.hostSent (s : State) (n x f : Nat) : State :=
  { s.put F.OP_EGWIN_OUTSTANDING x (s.get F.OP_EGWIN_OUTSTANDING x + f) with hostWait := remove s.hostWait n }

theorem State.get_hostSent (s : State) (n x f : Nat) : (s.hostSent n x f).get F.OP_EGWIN_OUTSTANDING x
    = (s.get F.OP_EGWIN_OUTSTANDING x + f) % 2 ^ F.OP_EGWIN_OUTSTANDING.width :=
  (State.get_same (t := s.put F.OP_EGWIN_OUTSTANDING x (s.get F.OP_EGWIN_OUTSTANDING x + f)) rfl _ _).trans
    (State.get_put_self _ _ _ _ (by decide) (by decide))

theorem State.hostHead_enters (n d : Nat) {w : Stage} {x : Nat} (hr : s.routeOf 20 (headPacket w) = .out x)
    (hg : s.gateOpen (.window x) (1 + payloadFlits (headPacket w)) = true) :
    s.hostHead n d w = (s.hostSent n x (1 + payloadFlits (headPacket w))).writeStage n d w := by
  unfold State.hostHead
  dsimp only
  rw [show s.routeOf 20 ⟨flitOf w, []⟩ = .out x from hr]
  exact if_pos hg

theorem hostHeadersPassTheirWindow : Claims.HostHeadersPassTheirWindow := by
  intro s k w h ho hs fits head n p f refused
  have runs := exec_fifoWrite_hostHead k w h ho hs fits head
  refine ⟨fun hr => ⟨_, runs, ?_⟩, fun hr => ⟨_, runs, ?_⟩, fun x hr hg hn => ⟨_, runs, ?_⟩, fun x hr hg room => ⟨_, runs, ?_⟩⟩
  · rw [State.hostHead_none n 16 hr]
    exact s.hostRefuse_effect p St.RANGE
  · rw [State.hostHead_shut n 16 hr]
    exact s.hostRefuse_effect p St.UNREACHABLE
  · rw [State.hostHead_waits n 16 hr hg hn]
    exact ⟨rfl, lookup_upsert_self _ _ _, State.get_wrap_self _ _ _ _ (by decide) (by decide)⟩
  · rw [State.hostHead_enters n 16 hr hg]
    obtain ⟨kept, -, -, fields⟩ := State.writeStage_keeps (s := s.hostSent n x f) n 16 w room
    exact ⟨(congrArg (fun y : Fifo => y.stages.length) kept).trans List.length_append,
      (State.get_of_fieldsBut fields _ _ (by decide) (by simp only [List.all_cons, List.all_nil]; decide)).trans
        (State.get_hostSent s n x f)⟩

/-- Settles O18: stages read, packets admitted, and the headers of the host side. -/
theorem inFifoHoldsWholePackets : Obligations.InFifoHoldsWholePackets :=
  ⟨inFifoReadsCompletePackets, inFifoAdmitsWholePackets, hostHeadersPassTheirWindow⟩

end Sys2Proof.Machine

/-! Clocks that stop, start and are lost (chapters 3 and 14). -/

namespace Sys2Proof.Machine

open Safety

variable {s : State}

/-- States with the same memory hold the same bytes. -/
theorem sameBytes_of_mem {t : State} (e : t.mem = s.mem) : SameBytes s t := by
  intro ep a
  unfold State.byteAt
  rw [e]

/-! ### A clock stops -/

@[simp] theorem State.loseEdges_regs (s : State) (d : Nat) : (s.loseEdges d).regs = s.regs := by
  unfold State.loseEdges
  split
  · split <;> rfl
  · rfl

/-- The state at the CLOCK_STOP mark of domain `d`: its edges are lost and the mark is set. -/
def State.clockMarked (s : State) (d : Nat) : State :=
  { s.loseEdges d with clkStopped := upsert (s.loseEdges d).clkStopped d (s.loseEdges d).now }

/-- The stop is counted and its event raised. -/
def State.clockStops (s : State) (d : Nat) : State :=
  ((s.clockMarked d).sat F.XB_DOMAIN_STOPS d).event evClockStop 6 d
    (((s.clockMarked d).sat F.XB_DOMAIN_STOPS d).get F.XB_DOMAIN_STOPS d)

theorem exec_clockStop (d : Fin 18) (h : s.chipReset = false) (hr : s.clockRuns d.val = true) : exec (.clockStop d) s
    = .next (if d.val = 17 then ((s.clockStops d.val).allDown).flow else s.clockStops d.val) := by
  change execClockStop d s = _
  unfold execClockStop
  rw [live_running h]
  dsimp only
  rw [hr]
  rfl

theorem State.clockMarked_regs (s : State) (d : Nat) : (s.clockMarked d).regs = s.regs := s.loseEdges_regs d

theorem State.clockMarked_mem (s : State) (d : Nat) : (s.clockMarked d).mem = s.mem :=
  (Off.loseEdges (M := 0x1000020c0800000000000000000000) (Nat.and_self _) d (Off.refl _ s)).stores .mem (by decide)

theorem State.clockMarked_logIntake (s : State) (d : Nat) : (s.clockMarked d).logIntake = s.logIntake :=
  (Off.loseEdges (M := 0x1000020c0800000000000000000000) (Nat.and_self _) d (Off.refl _ s)).stores .logIntake (by decide)

theorem State.clockMarked_mgLost (s : State) (d : Nat) : (s.clockMarked d).mgLost = (s.mgLost || decide (d = 16)) := by
  unfold State.clockMarked State.loseEdges
  split
  · next e => simp [e]
  · next e => simp [e]

theorem State.clockMarked_lkLost (s : State) : (s.clockMarked 17).lkLost = true := Bool.or_true _

theorem State.clockMarked_clkStopped (s : State) (d : Nat) : (s.clockMarked d).clkStopped = upsert s.clkStopped d s.now := by
  have off := Off.loseEdges (M := 0x1000020c0800000000000000000000) (Nat.and_self _) d (Off.refl _ s)
  have stopped := off.stores .clkStopped (by decide)
  have now := off.stores .now (by decide)
  simp only [Store.same] at stopped now
  unfold State.clockMarked
  rw [stopped, now]

/-- Whether a clock runs is told by its mark alone. -/
theorem State.clockRuns_of_clkStopped {t : State} {x : Tbl Nat} (e : t.clkStopped = x) (k : Nat) :
    t.clockRuns k = (lookup x k).isNone := by
  unfold State.clockRuns
  rw [e]

theorem State.clockStops_clkStopped (s : State) (d : Nat) : (s.clockStops d).clkStopped = upsert s.clkStopped d s.now :=
  (State.event_clkStopped _ _ _ _ _ _ _).trans (s.clockMarked_clkStopped d)

theorem State.clockStops_clockRuns (s : State) (d : Nat) :
    (s.clockStops d).clockRuns d = false ∧ ∀ k, k ≠ d → (s.clockStops d).clockRuns k = s.clockRuns k := by
  constructor
  · rw [State.clockRuns_of_clkStopped (s.clockStops_clkStopped d), lookup_upsert_self]
    rfl
  · intro k hk
    rw [State.clockRuns_of_clkStopped (s.clockStops_clkStopped d), lookup_upsert_ne _ _ _ _ hk]
    rfl

theorem State.clockStops_mgLost (s : State) (d : Nat) : (s.clockStops d).mgLost = (s.mgLost || decide (d = 16)) :=
  (State.event_mgLost _ _ _ _ _ _ _).trans (s.clockMarked_mgLost d)

/-- A stop of CLK_LK leaves it lost. -/
theorem State.clockStops_lkLost (s : State) : ({ s.clockStops 17 with lkLost := true } : State) = s.clockStops 17 := by
  have lost : (s.clockStops 17).lkLost = true := (State.event_lkLost _ _ _ _ _ _ _).trans s.clockMarked_lkLost
  rw [← lost]

/-- The stops counted after one more. -/
theorem State.get_clockMarked_sat (s : State) (d : Nat) : ((s.clockMarked d).sat F.XB_DOMAIN_STOPS d).get F.XB_DOMAIN_STOPS d
    = Nat.min (2 ^ F.XB_DOMAIN_STOPS.width - 1) (s.get F.XB_DOMAIN_STOPS d + 1) := by
  rw [State.get_sat_self _ _ _ _ (by decide) (by decide), State.get_same (s.clockMarked_regs d)]

theorem State.clockStops_fields (s : State) (d : Nat) :
    FieldsBut [(F.XB_DOMAIN_STOPS, d), (F.TM_LOGSTAT_DROPPED, 0)] s (s.clockStops d) :=
  (((FieldsBut.refl _ s).same (s.clockMarked_regs d)).sat _ _ _ (by simp)).event _ _ _ _ _ _ (by simp)

/-- The event of a stop is logged while CLK_MG has edges. -/
theorem State.clockStops_logged (s : State) {d : Nat} (hd : d ≠ 16) : Logged s (s.clockStops d) evClockStop 6 d
    (Nat.min (2 ^ F.XB_DOMAIN_STOPS.width - 1) (s.get F.XB_DOMAIN_STOPS d + 1)) 0 := by
  rw [← s.get_clockMarked_sat d]
  refine (State.event_logged ((s.clockMarked d).sat F.XB_DOMAIN_STOPS d) evClockStop 6 d _ 0).congr ?_ ?_ ?_ ?_
  · exact (by simp [s.clockMarked_mgLost d, hd])
  · exact (s.clockMarked_logIntake d).symm
  · rw [State.sat, State.word_put_ne _ _ _ (by decide) (.inl (by decide)), State.word_same (s.clockMarked_regs d)]
  · rw [State.get_sat_ne _ _ _ _ (by decide) (.inl (by decide)), State.get_same (s.clockMarked_regs d)]

theorem clockStop_marks (d : Fin 18) (h : s.chipReset = false) (hr : s.clockRuns d.val = true) :
    ∃ u, (exec (.clockStop d) s = .next (if d.val = 17 then (({ u with lkLost := true } : State).allDown).flow else u))
      ∧ u.clockRuns d.val = false ∧ (∀ k, k ≠ d.val → u.clockRuns k = s.clockRuns k)
      ∧ u.mgLost = (s.mgLost || decide (d.val = 16))
      ∧ u.get F.XB_DOMAIN_STOPS d.val = Nat.min (2 ^ F.XB_DOMAIN_STOPS.width - 1) (s.get F.XB_DOMAIN_STOPS d.val + 1)
      ∧ FieldsBut [(F.XB_DOMAIN_STOPS, d.val), (F.TM_LOGSTAT_DROPPED, 0)] s u ∧ SameBytes s u
      ∧ (d.val ≠ 16 → Logged s u evClockStop 6 d.val
          (Nat.min (2 ^ F.XB_DOMAIN_STOPS.width - 1) (s.get F.XB_DOMAIN_STOPS d.val + 1)) 0) := by
  obtain ⟨stopped, others⟩ := s.clockStops_clockRuns d.val
  refine ⟨s.clockStops d.val, ?_, stopped, others, s.clockStops_mgLost _, ?_, s.clockStops_fields _, ?_, s.clockStops_logged⟩
  · rw [exec_clockStop d h hr]
    split
    · next e => rw [e, s.clockStops_lkLost]
    · rfl
  · exact (State.get_event_ne _ _ _ _ _ _ _ _ _ (.inl (by decide))).trans (s.get_clockMarked_sat d.val)
  · exact sameBytes_of_mem ((State.event_mem _ _ _ _ _ _ _).trans (s.clockMarked_mem d.val))

/-! ### A clock returns -/

@[simp] theorem State.regainEdges_regs (s : State) (d : Nat) : (s.regainEdges d).regs = s.regs := by
  unfold State.regainEdges
  dsimp only
  split <;> rfl

theorem State.regainEdges_clkStopped (s : State) (d : Nat) : (s.regainEdges d).clkStopped = remove s.clkStopped d := by
  unfold State.regainEdges
  dsimp only
  split <;> rfl

theorem State.regainEdges_mgLost (s : State) (d : Nat) : (s.regainEdges d).mgLost = (s.mgLost && decide (d ≠ 16)) := by
  unfold State.regainEdges
  dsimp only
  split <;> simp [State.pulsesStart, bne, BEq.beq]

theorem State.regainEdges_lkLost (s : State) (d : Nat) : (s.regainEdges d).lkLost = (s.lkLost && decide (d ≠ 17)) := by
  unfold State.regainEdges
  dsimp only
  split <;> simp [State.pulsesStart, bne, BEq.beq]

theorem State.regainEdges_mem (s : State) (d : Nat) : (s.regainEdges d).mem = s.mem :=
  (Off.regainEdges (M := 0x1000023c0000000000000000000000) (Nat.and_self _) d (Off.refl _ s)).stores .mem (by decide)

theorem State.regainEdges_logIntake (s : State) (d : Nat) : (s.regainEdges d).logIntake = s.logIntake :=
  (Off.regainEdges (M := 0x1000023c0000000000000000000000) (Nat.and_self _) d (Off.refl _ s)).stores .logIntake (by decide)

/-- Domain `d` has edges again; where its stop was marked the ticks stopped are logged (R78, log entry 54). -/
def State.clockStarts (s : State) (d : Nat) : State :=
  match lookup s.clkStopped d with
  | none => s.regainEdges d
  | some k => (s.regainEdges d).drawn.event evClockStart 6 d (if d = 16 then (Config.mgTicks s.freeCtr).toNat else s.now - k)

theorem exec_clockStart (d : Fin 18) (h : s.chipReset = false) (he : s.hasEdges d.val = false) : exec (.clockStart d) s
    = .next (if d.val < 16 then ((s.clockStarts d.val).wakeCluster d.val).flow
        else if d.val = 17 then (s.clockStarts d.val).wakePorts.flow else (s.clockStarts d.val).flow) := by
  change execClockStart d s = _
  unfold execClockStart
  rw [live_running h]
  dsimp only
  rw [he]
  rfl

theorem State.clockStarts_unmarked {d : Nat} (h : lookup s.clkStopped d = none) : s.clockStarts d = s.regainEdges d := by
  unfold State.clockStarts
  rw [h]

theorem State.clockStarts_marked {d k : Nat} (h : lookup s.clkStopped d = some k) : s.clockStarts d = (s.regainEdges d).drawn.event
    evClockStart 6 d (if d = 16 then (Config.mgTicks s.freeCtr).toNat else s.now - k) := by
  unfold State.clockStarts
  rw [h]

/-- Beside the log a start changes what the return of the edges changes. -/
theorem State.clockStarts_keeps (s : State) (d : Nat) : (s.clockStarts d).clkStopped = remove s.clkStopped d
    ∧ (s.clockStarts d).mgLost = (s.mgLost && decide (d ≠ 16)) ∧ (s.clockStarts d).lkLost = (s.lkLost && decide (d ≠ 17))
    ∧ (s.clockStarts d).mem = s.mem ∧ FieldsBut [(F.TM_LOGSTAT_DROPPED, 0)] s (s.clockStarts d) := by
  have fields : FieldsBut [(F.TM_LOGSTAT_DROPPED, 0)] s (s.regainEdges d) := (FieldsBut.refl _ s).same (s.regainEdges_regs d)
  cases h : lookup s.clkStopped d with
  | none =>
    rw [State.clockStarts_unmarked h]
    exact ⟨s.regainEdges_clkStopped d, s.regainEdges_mgLost d, s.regainEdges_lkLost d, s.regainEdges_mem d, fields⟩
  | some k =>
    rw [State.clockStarts_marked h, State.event_clkStopped, State.event_mgLost, State.event_lkLost, State.event_mem]
    exact ⟨s.regainEdges_clkStopped d, s.regainEdges_mgLost d, s.regainEdges_lkLost d, s.regainEdges_mem d,
      (fields.same (State.drawn_regs _ 1)).event _ _ _ _ _ _ (by simp)⟩

theorem State.clockStarts_hasEdges (s : State) (d : Nat) : (s.clockStarts d).hasEdges d = true := by
  obtain ⟨stopped, mg, lk, -, -⟩ := s.clockStarts_keeps d
  unfold State.hasEdges
  rw [State.clockRuns_of_clkStopped stopped, lookup_remove_self, mg, lk]
  by_cases h16 : d = 16
  · simp [h16]
  · by_cases h17 : d = 17
    · simp [h17]
    · simp [h16, h17]

theorem State.clockStarts_logged {d k : Nat} (h : lookup s.clkStopped d = some k) (hd : d ≠ 16) :
    Logged s (s.clockStarts d) evClockStart 6 d (s.now - k) 0 := by
  rw [State.clockStarts_marked h, if_neg hd]
  refine (State.event_logged (s.regainEdges d).drawn evClockStart 6 d (s.now - k) 0).same ?_ ?_ ?_
  · exact (s.regainEdges_regs d).symm
  · simp [s.regainEdges_mgLost d, hd]
  · exact (s.regainEdges_logIntake d).symm

theorem clockStart_returns (d : Fin 18) (h : s.chipReset = false) (he : s.hasEdges d.val = false) :
    ∃ u, (exec (.clockStart d) s = .next (if d.val < 16 then (u.wakeCluster d.val).flow
        else if d.val = 17 then u.wakePorts.flow else u.flow)) ∧ u.hasEdges d.val = true
      ∧ (∀ k, lookup s.clkStopped d.val = some k → d.val ≠ 16 → Logged s u evClockStart 6 d.val (s.now - k) 0)
      ∧ (s.clockRuns d.val = true → u.logIntake = s.logIntake ∧ FieldsBut [] s u)
      ∧ u.mgLost = (s.mgLost && decide (d.val ≠ 16)) ∧ u.lkLost = (s.lkLost && decide (d.val ≠ 17))
      ∧ FieldsBut [(F.TM_LOGSTAT_DROPPED, 0)] s u ∧ SameBytes s u := by
  obtain ⟨-, mg, lk, mem, fields⟩ := s.clockStarts_keeps d.val
  refine ⟨s.clockStarts d.val, exec_clockStart d h he, s.clockStarts_hasEdges _, fun k hk => State.clockStarts_logged hk, fun hr => ?_,
    mg, lk, fields, sameBytes_of_mem mem⟩
  rw [State.clockStarts_unmarked (Option.isNone_iff_eq_none.1 hr)]
  exact ⟨s.regainEdges_logIntake _, (FieldsBut.refl _ s).same (s.regainEdges_regs _)⟩

/-! ### Clocks that are lost -/

theorem exec_clkMgLost (h : s.chipReset = false) :
    exec .clkMgLost s = .next { (if s.mgLost then s else s.pulsesStop) with mgLost := true } :=
  runs (g := fun s => { (if s.mgLost then s else s.pulsesStop) with mgLost := true }) h rfl

/-- The loss of CLK_MG leaves open pulses that no edge acknowledges, and nothing else beside its mark. -/
theorem clkMgLost_marks (h : s.chipReset = false) : ∃ t, exec .clkMgLost s = .next t
    ∧ t = { s with mgLost := true, freeCtr := t.freeCtr, pulses := t.pulses } ∧ (s.mgLost = true → t = s) := by
  refine ⟨_, exec_clkMgLost h, ?_, fun hm => ?_⟩
  · by_cases hm : s.mgLost = true
    · simp only [hm, if_true]
    · simp only [hm, if_false, Bool.false_eq_true]
      rfl
  · rw [if_pos hm, ← hm]

theorem exec_clkLkLost (h : s.chipReset = false) : exec .clkLkLost s = .next (({ s with lkLost := true } : State).allDown).flow :=
  runs (g := fun s => (({ s with lkLost := true } : State).allDown).flow) h rfl

/-- Settles O8: a clock's stop, its return, and the loss of CLK_MG and of CLK_LK. -/
theorem clocksStopAndStart : Obligations.ClocksStopAndStart := fun _ d h =>
  ⟨clockStop_marks d h, clockStart_returns d h, clkMgLost_marks h, exec_clkLkLost h⟩

end Sys2Proof.Machine

/-! Resets that reach a part of the chip: a core port, the host bridge, the test logic (chapter 14), and the multi-bit overrun
(chapter 3). -/

namespace Sys2Proof.Machine

open Safety

variable {s : State}

/-! ### Folds that establish a fact -/

/-- What one step of a fold establishes and every step keeps holds at its end. -/
theorem foldl_establishes {α β : Type} {g : β → α → β} {P : β → Prop} {l : List α} {a : α} (keep : ∀ s b, P s → P (g s b))
    (hit : ∀ s, P (g s a)) (ha : a ∈ l) (s : β) : P (l.foldl g s) := by
  have kept (l : List α) (s : β) (hs : P s) : P (l.foldl g s) := List.foldlRecOn l g hs (fun s hs b _ => keep s b hs)
  induction l generalizing s with
  | nil => exact absurd ha List.not_mem_nil
  | cons b l ih =>
    rcases List.mem_cons.1 ha with rfl | ha
    · exact kept l _ (hit s)
    · exact ih ha _

/-! ### Registers that take their Reset value -/

/-- Setting a word to its Reset value leaves at it every word that has its own. -/
theorem State.setWord_resetWord {r : Reg} {k : Nat} (q : Reg) (n : Nat) (h : s.word r k = r.resetWord k) :
    (s.setWord q n (q.resetWord n)).word r k = r.resetWord k := by
  by_cases e : r = q ∧ k = n
  · obtain ⟨rfl, rfl⟩ := e
    exact State.word_setWord_self s _ _ _ _
  · rw [State.word_setWord_ne s _ (by decide) (by decide) ((Classical.not_and_iff_not_or_not.1 e).imp_right .inl)]
    exact h

theorem State.resetReg_keeps {r : Reg} {k : Nat} (i : Nat) (q : Reg) (h : s.word r k = r.resetWord k) :
    (s.resetReg i q).word r k = r.resetWord k :=
  List.foldlRecOn (motive := fun t : State => t.word r k = r.resetWord k) _ _ h (fun _ ht _ _ => State.setWord_resetWord _ _ ht)

theorem State.resetReg_resets (s : State) (i : Nat) {r : Reg} {n : Nat} (hn : n < r.info.count) :
    (s.resetReg i r).word r (coreCopy r i n) = r.resetWord (coreCopy r i n) :=
  foldl_establishes (P := fun t : State => t.word r (coreCopy r i n) = r.resetWord (coreCopy r i n))
    (fun _ _ ht => State.setWord_resetWord _ _ ht) (fun t => State.word_setWord_self t _ _ _ _) (List.mem_range.2 hn) s

theorem State.resetAll_keeps {r : Reg} {k : Nat} (q : Reg) (h : s.word r k = r.resetWord k) :
    (s.resetAll q).word r k = r.resetWord k :=
  List.foldlRecOn (motive := fun t : State => t.word r k = r.resetWord k) _ _ h (fun _ ht _ _ => State.setWord_resetWord _ _ ht)

theorem State.resetAll_resets (s : State) {r : Reg} {n : Nat} (hn : n < r.info.count) : (s.resetAll r).word r n = r.resetWord n := by
  unfold State.resetAll
  refine foldl_establishes (P := fun t : State => t.word r n = r.resetWord n) (fun _ _ ht => ?_) (fun t => ?_)
    (List.mem_range.2 hn) s
  · exact State.setWord_resetWord _ _ ht
  · exact State.word_setWord_self t _ _ _ _

/-! ### Core port reset -/

theorem contains_insertNat_self (l : List Nat) (n : Nat) : (insertNat l n).contains n = true := by
  rw [List.contains_iff_mem]
  induction l with
  | nil => simp [insertNat]
  | cons m t ih =>
    unfold insertNat
    split
    · simp
    · split
      · next e => simp [e]
      · exact List.mem_cons_of_mem _ ih

/-- Core port `i` with its commands dropped and its registers at their Reset values; its FIFOs still hold what they held. -/
def State.coreCleared (s : State) (i : Nat) : State :=
  coreResetRegs.foldl (fun s r => s.resetReg i r) (((s.resetColls i).breakAll i).dropCore i)

theorem exec_coreReset (i : Fin 256) (h : s.chipReset = false) (hp : s.present i.val = true)
    (hc : s.coreRst.contains i.val = false) : exec (.coreReset i) s = .next (s.resetCore i.val).flow := by
  change execCoreReset i s = _
  unfold execCoreReset
  rw [live_running h, hp, hc]
  rfl

theorem State.coreCleared_resets (s : State) (i : Nat) {r : Reg} {n : Nat} (hr : r ∈ coreResetRegs) (hn : n < r.info.count) :
    (s.coreCleared i).word r (coreCopy r i n) = r.resetWord (coreCopy r i n) :=
  foldl_establishes (P := fun t : State => t.word r (coreCopy r i n) = r.resetWord (coreCopy r i n))
    (fun _ q ht => State.resetReg_keeps i q ht) (fun t => t.resetReg_resets i hn) hr _

/-- From there the reset reaches the FIFOs, the send contexts and the mark of the reset. -/
theorem State.resetCore_off (s : State) (i : Nat) : Off 0x300000123000000000000000000080600 (s.coreCleared i) (s.resetCore i) := by
  have hM := Nat.and_self 0x300000123000000000000000000080600
  unfold State.resetCore
  extract_lets s1 s2 s3 s4 s5 s6 s7
  have busy : Off 0x300000123000000000000000000080600 (s.coreCleared i) s3 := Off.clearBusy (foot_sub hM (by decide)) _ (Off.refl _ s2)
  have discarded := Off.foldl (l := [1, 3, 5]) busy (fun _ k hs => Off.discardFifo (foot_sub hM (by decide)) (coreFifo i k) hs)
  have cut := Off.foldl (l := [0, 2, 4]) discarded (fun _ k hs => Off.cutFifo (foot_sub hM (by decide)) (coreFifo i k) hs)
  have counted : Off 0x300000123000000000000000000080600 (s.coreCleared i) s6 := Off.sat hM _ _ _ (by decide) cut
  have free : Off 0x300000123000000000000000000080600 (s.coreCleared i) s7 :=
    Off.unholdPlumb (foot_sub hM (by decide)) _ (Off.upd_plumbOut (foot_bit hM (by decide)) counted)
  exact Off.upd_coreRst_idleHeld (foot_bit hM (by decide)) (foot_bit hM (by decide)) free

theorem State.resetCore_resets (s : State) (i : Nat) {r : Reg} {n : Nat} (hr : r ∈ coreResetRegs) (hn : n < r.info.count) :
    (s.resetCore i).word r (coreCopy r i n) = r.resetWord (coreCopy r i n) := by
  have left : ∀ q ∈ coreResetRegs, (0x300000123000000000000000000080600).testBit q.num = false := by decide
  rw [(s.resetCore_off i).words r _ 0 (by decide) (left r hr)]
  exact s.coreCleared_resets i hr hn

/-- No command of the core is left. -/
theorem State.resetCore_cmds (s : State) (i : Nat) : ∀ c ∈ (s.resetCore i).cmds, c.core ≠ i := by
  have dropped := (s.resetCore_off i).stores .cmds (by decide)
  have regs : (s.coreCleared i).cmds = (((s.resetColls i).breakAll i).dropCore i).cmds :=
    (Off.foldlMem (M := 0x246fa00000) (Off.refl _ _) (fun _ r hr hs => Off.resetReg i r (by revert r; decide) hs)).stores .cmds (by decide)
  simp only [Store.same] at dropped
  intro c hc
  rw [dropped, regs] at hc
  simpa using (List.mem_filter.1 hc).2

theorem State.resetCore_coreRst (s : State) (i : Nat) : (s.resetCore i).coreRst.contains i = true := by
  unfold State.resetCore
  extract_lets
  dsimp only
  exact contains_insertNat_self _ _

/-- What a core port reset leaves: the queues' bases and the ring table (Table 14-1). -/
theorem State.resetCore_leaves (s : State) (i n : Nat) {b : Nat} (hb : b < 2) : (s.resetCore i).word .CP_QBASE n b = s.word .CP_QBASE n b
    ∧ (s.resetCore i).word .CP_RINGTAB n b = s.word .CP_RINGTAB n b := by
  have off := Off.resetCore (M := 0x2785f3ff25e32301c890044090c33c6fa90600) (Nat.and_self _) i (Off.refl _ s)
  exact ⟨off.words _ _ _ hb (by decide), off.words _ _ _ hb (by decide)⟩

theorem coreReset_resets (i : Fin 256) (h : s.chipReset = false) (hp : s.present i.val = true)
    (hc : s.coreRst.contains i.val = false) : ∃ u : State, exec (.coreReset i) s = .next u.flow
      ∧ u.coreRst.contains i.val = true ∧ (∀ c ∈ u.cmds, c.core ≠ i.val)
      ∧ (∀ q, q < 16 → u.word .CP_QTAIL (qCopy i.val q) = Reg.CP_QTAIL.resetWord (qCopy i.val q)
          ∧ u.word .CP_QCTL (qCopy i.val q) = Reg.CP_QCTL.resetWord (qCopy i.val q)
          ∧ u.word .CP_QSTAT (qCopy i.val q) = Reg.CP_QSTAT.resetWord (qCopy i.val q))
      ∧ (∀ k, k < 64 → u.word .CP_EVCNT (evCopy i.val k) = Reg.CP_EVCNT.resetWord (evCopy i.val k))
      ∧ (∀ n b, b < 2 → u.word .CP_QBASE n b = s.word .CP_QBASE n b ∧ u.word .CP_RINGTAB n b = s.word .CP_RINGTAB n b) := by
  have queue (r : Reg) (hr : r ∈ coreResetRegs) (hn : r.info.count = 16) (q : Nat) (hq : q < 16) :
      (s.resetCore i.val).word r (qCopy i.val q) = r.resetWord (qCopy i.val q) := by
    have copy : qCopy i.val q = coreCopy r i.val q := by rw [qCopy, coreCopy, hn, Nat.mul_comm]
    rw [copy]
    exact s.resetCore_resets i.val hr (hn ▸ hq)
  refine ⟨s.resetCore i.val, exec_coreReset i h hp hc, s.resetCore_coreRst i.val, s.resetCore_cmds i.val,
    fun q hq => ⟨queue _ (by decide) rfl q hq, queue _ (by decide) rfl q hq, queue _ (by decide) rfl q hq⟩, fun k hk => ?_,
    fun n b hb => s.resetCore_leaves i.val n hb⟩
  have copy : evCopy i.val k = coreCopy .CP_EVCNT i.val k := by rw [evCopy, coreCopy, Nat.mul_comm]; rfl
  rw [copy]
  exact s.resetCore_resets i.val (by decide) hk

/-! ### Release of a core port's reset -/

/-- Core port `i` with every FIFO empty. -/
def State.emptyFifos (s : State) (i : Nat) : State := (List.range 6).foldl (fun s k => s.setFifo (coreFifo i k) Fifo.initial) s

/-- Core port `i` leaves its reset. -/
def State.leaveReset (s : State) (i : Nat) : State := { s with coreRst := removeNat s.coreRst i }

/-- Whether the out FIFOs of core port `i` have released their packets (R81, log entry 55). -/
def State.outFifosEmpty (s : State) (i : Nat) : Bool := [0, 2, 4].all (fun k => (s.fifo (coreFifo i k)).stages.isEmpty)

theorem State.outFifosEmpty_iff {i : Nat} : s.outFifosEmpty i = true ↔ ∀ k ∈ [0, 2, 4], (s.fifo (coreFifo i k)).stages = [] := by
  simp [State.outFifosEmpty, List.isEmpty_iff]

theorem exec_coreResetRelease (i : Fin 256) (h : s.chipReset = false) (hc : s.coreRst.contains i.val = true) :
    exec (.coreResetRelease i) s = .next (if s.outFifosEmpty i.val then ((s.emptyFifos i.val).leaveReset i.val).flow else s) := by
  change execCoreResetRelease i s = _
  unfold execCoreResetRelease
  rw [live_running h, hc]
  rfl

/-- Emptying some FIFOs leaves an empty one empty. -/
theorem State.stages_setFifo_initial {n : Nat} (m : Nat) (h : (s.fifo n).stages = []) :
    ((s.setFifo m Fifo.initial).fifo n).stages = [] := by
  by_cases e : n = m
  · rw [e, State.fifo_setFifo_self, Fifo.initial]
  · rw [State.fifo_setFifo_ne _ _ e]
    exact h

theorem State.stages_emptyFifos (s : State) (i : Nat) {k : Nat} (hk : k < 6) :
    ((s.emptyFifos i).fifo (coreFifo i k)).stages = [] := by
  unfold State.emptyFifos
  exact foldl_establishes (P := fun t : State => (t.fifo (coreFifo i k)).stages = [])
    (fun _ _ ht => State.stages_setFifo_initial _ ht)
    (fun t => congrArg Fifo.stages (State.fifo_setFifo_self t _ Fifo.initial)) (List.mem_range.2 hk) s

theorem State.emptyFifos_regs (s : State) (i : Nat) : (s.emptyFifos i).regs = s.regs := by
  unfold State.emptyFifos
  exact List.foldlRecOn (motive := fun t : State => t.regs = s.regs) _ _ rfl
    (fun t ht k _ => (State.setFifo_regs t (coreFifo i k) Fifo.initial).trans ht)

theorem State.leaveReset_coreRst (s : State) (i : Nat) : (s.leaveReset i).coreRst.contains i = false := by
  simp [State.leaveReset, removeNat]

theorem State.leaveReset_fifo (s : State) (i n : Nat) : (s.leaveReset i).fifo n = s.fifo n := rfl

theorem State.leaveReset_regs (s : State) (i : Nat) : (s.leaveReset i).regs = s.regs := rfl

theorem coreResetRelease_empties (i : Fin 256) (h : s.chipReset = false) (hc : s.coreRst.contains i.val = true) :
    ((∀ k ∈ [0, 2, 4], (s.fifo (coreFifo i.val k)).stages = []) → ∃ u, exec (.coreResetRelease i) s = .next u.flow
        ∧ u.coreRst.contains i.val = false ∧ (∀ k, k < 6 → (u.fifo (coreFifo i.val k)).stages = []) ∧ FieldsBut [] s u)
      ∧ ((∃ k ∈ [0, 2, 4], (s.fifo (coreFifo i.val k)).stages ≠ []) → exec (.coreResetRelease i) s = .next s) := by
  rw [exec_coreResetRelease i h hc]
  refine ⟨fun empty => ⟨(s.emptyFifos i.val).leaveReset i.val, ?_, State.leaveReset_coreRst _ _, fun k hk => ?_,
    (FieldsBut.refl _ s).same ((State.leaveReset_regs _ _).trans (s.emptyFifos_regs _))⟩, fun ⟨k, hk, full⟩ => ?_⟩
  · rw [if_pos (State.outFifosEmpty_iff.2 empty)]
  · rw [State.leaveReset_fifo]
    exact s.stages_emptyFifos i.val hk
  · rw [if_neg (fun empty => full (State.outFifosEmpty_iff.1 empty k hk))]

/-! ### Host-bridge reset -/

/-- The bridge with the lock of a mailbox holder broken and the mailbox at its Reset values. -/
def State.mailboxCleared (s : State) : State :=
  [Reg.AL_MBCTL, .AL_MBREQ, .AL_MBRSP].foldl State.resetAll (if s.get F.AL_LOCK_SRC 0 = 0 then s.breakLock 1 else s)

/-- Its crossing FIFOs are emptied and what waits there is gone. -/
def State.bridgeCleared (s : State) : State :=
  let s := s.mailboxCleared.modAlorn (fun a => { a with held := a.held.filter (fun r => r.src != .mailbox) })
  let s := [4096 + 7, 4096 + 9].foldl State.discardFifo s
  let s := [4096 + 6, 4096 + 8].foldl State.cutFifo s
  { s with hostRx := [], hostTags := [], hostWait := [] }

theorem exec_hostBridgeReset (h : s.chipReset = false) : exec .hostBridgeReset s = .next s.bridgeCleared.flow :=
  runs (g := fun s => s.bridgeCleared.flow) h rfl

theorem State.mailboxCleared_resets (s : State) {r : Reg} {n : Nat} (hr : r ∈ [Reg.AL_MBCTL, .AL_MBREQ, .AL_MBRSP])
    (hn : n < r.info.count) : s.mailboxCleared.word r n = r.resetWord n :=
  foldl_establishes (P := fun t : State => t.word r n = r.resetWord n) (fun _ q ht => State.resetAll_keeps q ht)
    (fun t => t.resetAll_resets hn) hr _

theorem State.bridgeCleared_off (s : State) : Off 0x3040000000001a0000000000000000000000200 s.mailboxCleared s.bridgeCleared := by
  have hM := Nat.and_self 0x3040000000001a0000000000000000000000200
  unfold State.bridgeCleared
  extract_lets s1 s2 s3
  have held : Off 0x3040000000001a0000000000000000000000200 s.mailboxCleared s1 :=
    Off.modAlorn (foot_sub hM (by decide)) _ (Off.refl _ _)
  have discarded : Off 0x3040000000001a0000000000000000000000200 s.mailboxCleared s2 :=
    Off.foldl held (fun _ _ hs => Off.discardFifo (foot_sub hM (by decide)) _ hs)
  have cut : Off 0x3040000000001a0000000000000000000000200 s.mailboxCleared s3 :=
    Off.foldl discarded (fun _ _ hs => Off.cutFifo (foot_sub hM (by decide)) _ hs)
  exact Off.upd_hostWait_hostRx_hostTags (foot_bit hM (by decide)) (foot_bit hM (by decide)) (foot_bit hM (by decide)) cut

theorem State.bridgeCleared_resets (s : State) {r : Reg} {n : Nat} (hr : r ∈ [Reg.AL_MBCTL, .AL_MBREQ, .AL_MBRSP])
    (hn : n < r.info.count) : s.bridgeCleared.word r n = r.resetWord n := by
  have left : ∀ q ∈ [Reg.AL_MBCTL, .AL_MBREQ, .AL_MBRSP], (0x3040000000001a0000000000000000000000200).testBit q.num = false := by
    decide
  rw [s.bridgeCleared_off.words r _ 0 (by decide) (left r hr)]
  exact s.mailboxCleared_resets hr hn

/-- No part of the host-bridge reset touches memory. -/
theorem State.bridgeCleared_mem (s : State) : s.bridgeCleared.mem = s.mem := by
  have broken : Off 0x24000000000000000080200000000000000000 s (if s.get F.AL_LOCK_SRC 0 = 0 then s.breakLock 1 else s) :=
    Off.ite (Off.breakLock (Nat.and_self _) 1 (Off.refl _ s)) (Off.refl _ s)
  have cleared : s.mailboxCleared.mem = (if s.get F.AL_LOCK_SRC 0 = 0 then s.breakLock 1 else s).mem :=
    (Off.foldlMem (M := 0x7000000000000000000) (Off.refl _ _) (fun _ r hr hs => Off.resetAll r (by revert r; decide) hs)).stores .mem
      (by decide)
  have off := s.bridgeCleared_off.stores .mem (by decide)
  have same := broken.stores .mem (by decide)
  simp only [Store.same] at off same
  rw [off, cleared, same]

theorem hostBridgeReset_clears (h : s.chipReset = false) : ∃ u, exec .hostBridgeReset s = .next u.flow ∧ u.hostRx = []
    ∧ u.word .AL_MBCTL 0 = Reg.AL_MBCTL.resetWord 0 ∧ u.word .AL_MBREQ 0 = Reg.AL_MBREQ.resetWord 0
    ∧ u.word .AL_MBRSP 0 = Reg.AL_MBRSP.resetWord 0 ∧ SameBytes s u :=
  ⟨s.bridgeCleared, exec_hostBridgeReset h, rfl, s.bridgeCleared_resets (by decide) (by decide),
    s.bridgeCleared_resets (by decide) (by decide), s.bridgeCleared_resets (by decide) (by decide),
    sameBytes_of_mem s.bridgeCleared_mem⟩

/-! ### The test logic and the multi-bit overrun -/

theorem exec_testLogicReset (h : s.chipReset = false) : exec .testLogicReset s = .next { s with tapState := 0, tapIr := 0 } :=
  runs (g := fun s => { s with tapState := 0, tapIr := 0 }) h rfl

/-- The state in which domain `d` keeps the timestamp of the tick before, or what it accepted in this one (R75, log entry 58). -/
def State.keepsStamp (s : State) (d : Nat) : State :=
  { s with sampled := upsert s.sampled d ((lookup s.sampled d).getD (s.word .TM_TIMESTAMP 0 - 1)) }

theorem exec_multiOvr (d : Fin 18) (h : s.chipReset = false) : exec (.multiOvr d) s
    = .next (if s.hasEdges d.val then (s.keepsStamp d.val).put F.XB_DOMAIN_MULTI_OVR d.val 1 else s) :=
  runs (g := fun s => if s.hasEdges d.val then (s.keepsStamp d.val).put F.XB_DOMAIN_MULTI_OVR d.val 1 else s) h rfl

theorem multiOvr_flags (d : Fin 18) (h : s.chipReset = false) :
    (s.hasEdges d.val = true → ∃ t, exec (.multiOvr d) s = .next t ∧ t.get F.XB_DOMAIN_MULTI_OVR d.val = 1
        ∧ lookup t.sampled d.val = some ((lookup s.sampled d.val).getD (s.word .TM_TIMESTAMP 0 - 1))
        ∧ FieldsBut [(F.XB_DOMAIN_MULTI_OVR, d.val)] s t ∧ SameBytes s t)
      ∧ (s.hasEdges d.val = false → exec (.multiOvr d) s = .next s) := by
  rw [exec_multiOvr d h]
  refine ⟨fun edges => ⟨(s.keepsStamp d.val).put F.XB_DOMAIN_MULTI_OVR d.val 1, by rw [if_pos edges],
    State.get_put_self _ _ _ _ (by decide) (by decide), lookup_upsert_self _ _ _, ?_, sameBytes_of_mem rfl⟩,
    fun still => by rw [still]; rfl⟩
  have stamp : FieldsBut [(F.XB_DOMAIN_MULTI_OVR, d.val)] s (s.keepsStamp d.val) := (FieldsBut.refl _ s).same rfl
  exact stamp.put _ _ _ (by simp)

/-- Settles O10: the resets of a core port, the host bridge and the test logic, and the multi-bit overrun. -/
theorem partialResetsReachTheirParts : Obligations.PartialResetsReachTheirParts := fun _ h =>
  ⟨fun i => coreReset_resets i h, fun i => coreResetRelease_empties i h, hostBridgeReset_clears h, ⟨_, exec_testLogicReset h, rfl⟩,
    fun d => multiOvr_flags d h⟩

end Sys2Proof.Machine

/-! What an endpoint takes, and the replies it makes (chapters 4 to 6). -/

namespace Sys2Proof.Machine

open Safety

variable {M : Nat} {s v : State}

/-! ### Frames -/

/-- A footprint that shares no bit with another has none of its bits. -/
theorem foot_clear {R k : Nat} (h : M &&& R = 0) (hR : R.testBit k = true) : M.testBit k = false := by
  have hb := congrArg (fun n => n.testBit k) h
  simpa [Nat.testBit_and, hR] using hb

/-- One change after another has the bits of both. -/
theorem Off.trans {L : Nat} {u : State} (h : Off M s v) (k : Off L v u) : Off (M ||| L) s u where
  words r n b hb hr := by
    rw [Nat.testBit_or, Bool.or_eq_false_iff] at hr
    exact (k.words r n b hb hr.2).trans (h.words r n b hb hr.1)
  stores x hx := by
    rw [Nat.testBit_or, Bool.or_eq_false_iff] at hx
    have first := h.stores x hx.1
    have then_ := k.stores x hx.2
    cases x <;> exact Eq.trans then_ first

/-- What leaves memory leaves its bytes. -/
theorem Off.sameBytes (h : Off M s v) (hm : M.testBit (storeBit .mem) = false) : SameBytes s v :=
  sameBytes_of_mem (h.stores .mem hm)

theorem SameBytes.trans {u : State} (h : SameBytes s v) (k : SameBytes v u) : SameBytes s u :=
  fun ep a => (k ep a).trans (h ep a)

/-! ### Records after other changes -/

/-- The footprint of all that an event reads: TM_TIMESTAMP, TM_LOGSTAT, RK_EPOCH, the log intake and the loss of CLK_MG. -/
abbrev logReads : Nat := 0x20000000000000040180040000000000000000

section
variable (h : Off M s v) (hM : M &&& logReads = 0)
include h hM

/-- An event raised after stores and registers that it does not read have changed. -/
theorem Off.event_logged (e : Event) (w k a b : Nat) : Logged s (v.event e w k a b) e w k a b :=
  (State.event_logged v e w k a b).congr (h.stores .mgLost (foot_clear hM (by decide))).symm
    (h.stores .logIntake (foot_clear hM (by decide))).symm (h.words _ _ _ (by decide) (foot_clear hM (by decide))).symm
    (h.get _ _ (foot_clear hM (by decide)) (foot_clear hM (by decide))).symm

/-- The record of a packet's head, raised likewise. -/
theorem Off.headEvent_logged (e : Event) (w k : Nat) (p : Packet) : Claims.HeadLogged s (v.headEvent e w k p) e p := by
  intro kept room
  have mg : v.mgLost = false := (h.stores .mgLost (foot_clear hM (by decide))).trans kept
  have intake : v.logIntake = s.logIntake := h.stores .logIntake (foot_clear hM (by decide))
  have time : v.word .TM_TIMESTAMP 0 = s.word .TM_TIMESTAMP 0 := h.words _ _ _ (by decide) (foot_clear hM (by decide))
  rw [State.headEvent, State.event, mg, if_neg (by decide), if_pos (by rw [intake]; exact room), intake, time]
  exact ⟨_, rfl, rfl, rfl, rfl, rfl, rfl⟩

end

/-! ### Taking a packet -/

/-- A packet leaves where it stood: an in FIFO, or the links and outputs before a stack port. -/
theorem State.takeIn_off (s : State) (ep : Nat) (p : Packet) : Off 0xc60000000000000000000000200 s (s.takeIn ep p) :=
  Off.takeIn (Nat.and_self _) ep p (Off.refl _ s)

theorem State.takeIn_mem (s : State) (ep : Nat) (p : Packet) : (s.takeIn ep p).mem = s.mem :=
  (s.takeIn_off ep p).stores .mem (by decide)

/-- The request that stands next at a working endpoint is taken and judged. -/
theorem State.request_reaches {op : Nat} {ep : BitVec 9} {p : Packet} {act : State → State} (h : Claims.Reaches op s ep p) :
    s.request op ep.toNat p act = (s.takeIn ep.toNat p).judge ep.toNat p act := by
  obtain ⟨-, hw, ht, hr, -, hop⟩ := h
  have rst : (s.takeIn ep.toNat p).coreRst = s.coreRst := (s.takeIn_off ep.toNat p).stores .coreRst (by decide)
  unfold State.request
  simp only [hop, bne_self_eq_false, Bool.and_false, hw, ht, Bool.not_true, Bool.false_and, Bool.or_false, rst, hr, if_false,
    Bool.false_eq_true]

/-- A request that passes every check is carried out. -/
theorem State.request_passes {op : Nat} {ep : BitVec 9} {p : Packet} {act : State → State} (h : Claims.Passes op s ep p) :
    s.request op ep.toNat p act = act (s.takeIn ep.toNat p) := by
  obtain ⟨reaches, passes, -⟩ := h
  rw [State.request_reaches reaches, State.judge, show (s.takeIn ep.toNat p).verdict ep.toNat p = .accept from passes]

/-! ### What a reply reads -/

theorem pget_epoch_lt (p : Packet) : pget p H.EPOCH < 2 := Nat.mod_lt _ (by decide)

/-- The footprint of all that the making and the route of a reply read: RK_EPOCH, RK_COORDS, RK_PARTJOB, RK_CHIPROUTE,
OP_PORTCTL, OP_PORTSTATE, OP_EGWIN and the counter of free values. -/
abbrev replyReads : Nat := 0x808040300000000014800

section
variable (h : Off M s v) (hM : M &&& replyReads = 0)
include h hM

/-- A field of one of the registers that a reply reads. -/
theorem Off.get_replyReads (f : Fld) (n : Nat) (hf : replyReads.testBit f.reg.num = true) : v.get f n = s.get f n :=
  h.get f n (foot_clear hM (by decide)) (foot_clear hM hf)

theorem Off.own : v.own = s.own := h.get_replyReads hM _ _ (by decide)

theorem Off.physOf (l : Nat) : v.physOf l = s.physOf l := by
  unfold State.physOf
  simp only [h.get_replyReads hM F.OP_PORTCTL_LOGICAL _ (by decide)]

theorem Off.admitted (p : Nat) : v.admitted p = s.admitted p := by
  unfold State.admitted
  rw [h.get_replyReads hM F.OP_PORTSTATE_STATE _ (by decide)]

theorem Off.window (w : Nat) : v.window w = s.window w := by
  unfold State.window
  rw [h.get_replyReads hM F.RK_EPOCH_NUMBER _ (by decide), h.get_replyReads hM F.OP_EGWIN_WINDOW _ (by decide)]

theorem Off.routeOf (src : Nat) (p : Packet) : v.routeOf src p = s.routeOf src p := by
  have port (d : Nat) : v.getE (pget p H.EPOCH) F.RK_CHIPROUTE_PORT d = s.getE (pget p H.EPOCH) F.RK_CHIPROUTE_PORT d :=
    h.getE _ _ _ (pget_epoch_lt p) (foot_clear hM (by decide))
  unfold State.routeOf
  simp only [h.own hM, port, h.physOf hM, h.admitted hM, h.window hM]

theorem Off.partOfJob (job : Nat) : v.partOfJob job = s.partOfJob job := by
  unfold State.partOfJob State.flag
  simp only [h.get_replyReads hM F.RK_PARTJOB_VALID _ (by decide), h.get_replyReads hM F.RK_PARTJOB_JOB _ (by decide)]

theorem Off.rankIn (job : Nat) : v.rankIn job = s.rankIn job := by
  have ctr : v.freeCtr = s.freeCtr := h.stores .freeCtr (foot_clear hM (by decide))
  unfold State.rankIn
  simp only [h.partOfJob hM, h.get_replyReads hM F.RK_PARTJOB_OWN_RANK _ (by decide), ctr]

theorem Off.replyTo (ep : Nat) (req : Packet) (op st : Nat) (bytes : List Byte) (poison : List Bool) (extra : List (HFld × Nat)) :
    v.replyTo ep req op st bytes poison extra = s.replyTo ep req op st bytes poison extra := by
  unfold State.replyTo
  rw [h.parity (foot_clear hM (by decide)), h.own hM, h.rankIn hM]

/-- Where the attachment of a stack port's packet is noted as before, a reply leaves by the same FIFO. -/
theorem Off.outFifo (via : v.stackVia = s.stackVia) (ep : Nat) (p : Packet) : v.outFifo ep p = s.outFifo ep p := by
  unfold State.outFifo State.portOfEp
  simp only [h.physOf hM, via]

end

/-! ### Sending -/

theorem State.pushFifo_stages (s : State) (n : Nat) (p : Packet) :
    ((s.pushFifo n p).fifo n).stages = (s.fifo n).stages ++ stagesOf p := by
  have pushed : (s.pushFifo n p).fifo n = (s.setFifo n { s.fifo n with stages := (s.fifo n).stages ++ stagesOf p }).fifo n := by
    refine State.fifo_same ?_ n
    unfold State.pushFifo
    dsimp only
    split <;> rfl
  rw [pushed, State.fifo_setFifo_self]

/-- A launch touches the FIFOs as the write of its packet does. -/
theorem State.launch_fifos (s : State) (n : Nat) (g : Gate) (p : Packet) : (s.launch n g p).fifos = (s.pushFifo n p).fifos := by
  unfold State.launch
  cases g with
  | free => rfl
  | window w => rfl
  | room k => rfl

theorem State.noteTurn_fifos (s : State) (n q : Nat) : (s.noteTurn n q).fifos = s.fifos := by
  unfold State.noteTurn
  split <;> rfl

/-- What an endpoint sends stands at the end of its FIFO or waits for it. -/
theorem State.emit_sent (s : State) (n : Nat) (g : Gate) (p : Packet) (q : Nat) : Claims.Sent (s.emit n g p q) n p := by
  unfold State.emit
  dsimp only
  split
  · right
    refine ⟨(s.fifo n).stages, ?_⟩
    rw [State.fifo_same ((State.noteTurn_fifos _ _ _).trans (s.launch_fifos n g p)), State.pushFifo_stages]
  · left
    refine ⟨⟨n, q, g, none, match g with | .window _ => !s.gateOpen g (flitsOf p).length | _ => false, p⟩, ?_, rfl, rfl⟩
    cases g with
    | free => simp
    | room k => simp
    | window w =>
      dsimp only
      split <;> simp

/-- A reply that finds a route is sent. -/
theorem State.sendReply_sent {ep : Nat} {p : Packet} (h : Claims.Routed s ep p) :
    Claims.Sent (s.sendReply ep p) (s.outFifo ep p) p := by
  unfold State.sendReply
  rcases h with h | ⟨w, h⟩
  · rw [h]
    exact s.emit_sent _ _ _ _
  · rw [h]
    exact s.emit_sent _ _ _ _

/-- What has been carried out between the taking of a request and its answer leaves the answer as it was. -/
theorem Off.answers {ep : Nat} {p : Packet} (h : Off M (s.takeIn ep p) v) (hM : M &&& replyReads = 0)
    (via : M.testBit (storeBit .stackVia) = false) (op st : Nat) (bytes : List Byte) (poison : List Bool)
    (extra : List (HFld × Nat)) : Claims.Answers s ep p (s.replyTo ep p op st bytes poison extra)
      (v.answer ep p op st bytes poison extra) := by
  intro routed
  have taken := s.takeIn_off ep p
  have clear : 0xc60000000000000000000000200 &&& replyReads = 0 := by decide
  have reply : v.replyTo ep p op st bytes poison extra = s.replyTo ep p op st bytes poison extra :=
    (h.replyTo hM ep p op st bytes poison extra).trans (taken.replyTo clear ep p op st bytes poison extra)
  have route (r : Packet) : v.routeOf (windowSource ep) r = s.routeOf (windowSource ep) r :=
    (h.routeOf hM _ r).trans (taken.routeOf clear _ r)
  rw [State.answer, reply, Claims.taken, ← h.outFifo hM (h.stores .stackVia via)]
  refine State.sendReply_sent (s := v.drawn) ?_
  unfold Claims.Routed at routed ⊢
  rw [← route] at routed
  exact routed

/-- A request of another endpoint is answered by a packet (R145). -/
theorem State.respond_answer {ep : Nat} {p : Packet} (h : ¬ (pget p H.SRC_EP = ep ∧ pget p H.SRC_CHIP = s.own)) (op st : Nat)
    (bytes : List Byte) (poison : List Bool) (extra : List (HFld × Nat)) :
    s.respond ep p op st bytes poison extra = s.answer ep p op st bytes poison extra := by
  unfold State.respond
  refine if_neg ?_
  simp only [Bool.and_eq_true, decide_eq_true_eq]
  exact fun ⟨⟨_, hep⟩, hchip⟩ => h ⟨hep, hchip⟩

theorem State.answer_off (s : State) (ep : Nat) (p : Packet) (op st : Nat) (bytes : List Byte) (poison : List Bool)
    (extra : List (HFld × Nat)) : Off 0x1000320000810004000020008010400 s (s.answer ep p op st bytes poison extra) :=
  Off.answer (Nat.and_self _) ep p op st bytes poison extra (Off.refl _ s)

end Sys2Proof.Machine

/-! PUT, PUT_MC, the atomics and SIGNAL at their endpoints (chapters 4, 6, 8 and 9). -/

namespace Sys2Proof.Machine

open Safety

variable {s v : State}

/-! ### Bytes written -/

theorem Memory.writeList_append (m : List Host.Cell) (a : Nat) (xs ys : List Byte) :
    Memory.writeList m a (xs ++ ys) = Memory.writeList (Memory.writeList m a xs) (a + xs.length) ys := by
  induction xs generalizing m a with
  | nil => rfl
  | cons x t ih =>
    simp only [List.cons_append, Memory.writeList, List.length_cons, ih]
    rw [show a + 1 + t.length = a + (t.length + 1) by omega]

/-- The writing of bytes without poison: they stand at their address, in sound words. -/
def State.writesFrom (s : State) (ep a : Nat) (bs : List Byte) (n : Nat) : State :=
  (List.range n).foldl (fun s k => s.writeBytes ep (a + 64 * k) ((bs.drop (64 * k)).take 64)) s

/-- A payload without poison is written as it is. -/
theorem State.writePayload_sound (s : State) (ep a : Nat) (bs : List Byte) {poison : List Bool}
    (h : ∀ k, poison.getD k false = false) : s.writePayload ep a bs poison = s.writesFrom ep a bs (ceilDiv bs.length 64) := by
  unfold State.writePayload State.writesFrom
  simp only [h, Bool.false_eq_true, if_false]

/-- The first `n` flits of a payload fill the first 64 × `n` bytes. -/
theorem State.writesFrom_mem (s : State) (ep a : Nat) (bs : List Byte) (n : Nat) :
    (s.writesFrom ep a bs n).mem = Memory.writeList s.mem (memBase ep + a) (bs.take (64 * n)) := by
  induction n with
  | zero => rfl
  | succ n ih =>
    have step : s.writesFrom ep a bs (n + 1)
        = (s.writesFrom ep a bs n).writeBytes ep (a + 64 * n) ((bs.drop (64 * n)).take 64) := by
      simp [State.writesFrom, List.range_succ]
    have written : (s.writesFrom ep a bs (n + 1)).mem
        = Memory.writeList (s.writesFrom ep a bs n).mem (memBase ep + (a + 64 * n)) ((bs.drop (64 * n)).take 64) := by
      rw [step]
      rfl
    rw [written, ih, show 64 * (n + 1) = 64 * n + 64 by omega, List.take_add, Memory.writeList_append]
    by_cases full : 64 * n ≤ bs.length
    · rw [List.length_take, Nat.min_eq_left full, Nat.add_assoc]
    · rw [List.drop_eq_nil_of_le (by omega)]
      rfl

theorem le_ceilDiv (n : Nat) : n ≤ 64 * ceilDiv n 64 := by
  unfold ceilDiv
  omega

theorem State.writePayload_mem (s : State) (ep a : Nat) (bs : List Byte) {poison : List Bool}
    (h : ∀ k, poison.getD k false = false) :
    (s.writePayload ep a bs poison).mem = Memory.writeList s.mem (memBase ep + a) bs := by
  rw [s.writePayload_sound ep a bs h, State.writesFrom_mem, List.take_of_length_le (le_ceilDiv _)]

/-- Bytes without poison change memory and the marks of its words. -/
theorem State.writePayload_off (s : State) (ep a : Nat) (bs : List Byte) {poison : List Bool}
    (h : ∀ k, poison.getD k false = false) : Off 0x1c000000000000000000000 s (s.writePayload ep a bs poison) := by
  rw [s.writePayload_sound ep a bs h]
  exact (Off.refl _ s).foldl (fun t k ht => Off.writeBytes (Nat.and_self _) _ _ _ ht)

/-- Bytes written to a memory in canonical form are read there, and every other byte is as it was. -/
theorem bytes_of_writeList {ep a : Nat} {bs : List Byte} (wf : Memory.wf s.mem = true)
    (h : v.mem = Memory.writeList s.mem (memBase ep + a) bs) :
    (∀ k, k < bs.length → v.byteAt ep (a + k) = bs.getD k 0) ∧ Claims.BytesBut ep a bs.length s v := by
  constructor
  · intro k hk
    rw [State.byteAt, h, ← Nat.add_assoc, Memory.read_writeList_in _ _ _ _ wf hk]
    simp [hk]
  · intro e b hb
    rw [State.byteAt, h, Memory.read_writeList_out _ _ _ _ hb]
    rfl

/-- No flit of a packet without poison is poisoned. -/
theorem flitPoison_sound {p : Packet} (h : hasPoison p = false) (k : Nat) : (flitPoison p).getD k false = false := by
  unfold hasPoison at h
  simp only [Bool.or_eq_false_iff, List.any_eq_false] at h
  by_cases hk : k < (flitPoison p).length
  · have := h.2 _ (List.getElem_mem hk)
    simpa [hk] using this
  · simp [hk]

/-- A packet without a byte of payload states LENGTH 0. -/
theorem payload_of_moveless {p : Packet} (h : moveless p = true) : payload p = [] := by
  unfold moveless at h
  simp only [Bool.and_eq_true, decide_eq_true_eq] at h
  simp [payload, h.2]

/-! ### The receive context -/

/-- The receive context after an answer: the SEQ taken, and the reply kept (R161). -/
def State.contextKeeps (s : State) (p : Packet) (op st value : Nat) : State := (s.takeSeq p).cacheReply p op st value

theorem State.contextKeeps_off (s : State) (p : Packet) (op st value : Nat) : Off 0x180000 s (s.contextKeeps p op st value) :=
  Off.cacheReply (by decide) p op st value (Off.takeSeq (by decide) p (Off.refl _ s))

/-- The context of a request with FLOW_VALID has its SEQ. -/
theorem State.contextKeeps_seq (s : State) (p : Packet) (op st value : Nat) (h : pflag p H.FLOW_VALID = true) :
    (s.contextKeeps p op st value).get F.RK_FLOWSEQ_SEQ (pget p H.FLOW) = pget p H.SEQ := by
  unfold State.contextKeeps State.cacheReply State.takeSeq
  rw [if_pos h, if_pos h]
  dsimp only
  rw [State.get_put_ne _ _ _ _ (by decide) (.inl (by decide)), State.get_put_ne _ _ _ _ (by decide) (.inl (by decide)),
    State.get_put_ne _ _ _ _ (by decide) (.inl (by decide)), State.get_put_self _ _ _ _ (by decide) (by decide)]
  exact Nat.mod_eq_of_lt (Nat.mod_lt _ (by decide))

theorem State.conclude_answer {ep : Nat} {p : Packet} (h : ¬ (pget p H.SRC_EP = ep ∧ pget p H.SRC_CHIP = s.own)) (op st : Nat)
    (bytes : List Byte) (poison : List Bool) (extra : List (HFld × Nat)) :
    s.conclude ep p op st bytes poison extra = (s.contextKeeps p op st (leNat bytes)).answer ep p op st bytes poison extra := by
  have own : (s.contextKeeps p op st (leNat bytes)).own = s.own := (s.contextKeeps_off p op st (leNat bytes)).own (by decide)
  rw [← own] at h
  exact State.respond_answer h _ _ _ _ _

/-! ### What follows a request's own effect -/

section
variable {M ep : Nat} {p : Packet} (own : ¬ (pget p H.SRC_EP = ep ∧ pget p H.SRC_CHIP = s.own))
  (h : Off M (s.takeIn ep p) v) (hM : M &&& replyReads = 0) (via : M.testBit (storeBit .stackVia) = false)
include own h hM via

/-- The request's context is kept and its answer sent; `M` is the footprint of the request's own effect. -/
theorem State.conclude_effect (op st : Nat) (bytes : List Byte) (poison : List Bool) (extra : List (HFld × Nat)) :
    let u := v.conclude ep p op st bytes poison extra
    Off 0x1000320000810004000020008190400 v u
      ∧ (pflag p H.FLOW_VALID = true → u.get F.RK_FLOWSEQ_SEQ (pget p H.FLOW) = pget p H.SEQ)
      ∧ Claims.Answers s ep p (s.replyTo ep p op st bytes poison extra) u := by
  intro u
  have mine : ¬ (pget p H.SRC_EP = ep ∧ pget p H.SRC_CHIP = v.own) := by
    rwa [h.own hM, (s.takeIn_off ep p).own (by decide)]
  have concluded : u = (v.contextKeeps p op st (leNat bytes)).answer ep p op st bytes poison extra := State.conclude_answer mine ..
  have context := v.contextKeeps_off p op st (leNat bytes)
  have answered := (v.contextKeeps p op st (leNat bytes)).answer_off ep p op st bytes poison extra
  rw [concluded]
  refine ⟨context.trans answered, fun valid => ?_, (h.trans context).answers ?_ ?_ op st bytes poison extra⟩
  · rw [answered.get _ _ (by decide) (by decide), v.contextKeeps_seq p op st _ valid]
  · rw [Nat.and_or_distrib_right, hM]
    decide
  · rw [Nat.testBit_or, via]
    decide

/-- An acknowledged request: its context is kept, and without poison the ACK sent where it asks for one. -/
theorem State.acknowledge_effect (poisoned : Bool) : let u := v.acknowledge ep p poisoned
    Off 0x1000320000810004000020008190400 v u
      ∧ (pflag p H.FLOW_VALID = true → u.get F.RK_FLOWSEQ_SEQ (pget p H.FLOW) = pget p H.SEQ)
      ∧ (poisoned = false → pflag p H.ACK_REQ = true → Claims.Answers s ep p (s.replyTo ep p Op.ACK St.OK) u) := by
  unfold State.acknowledge
  cases poisoned with
  | true =>
    obtain ⟨off, seq, -⟩ := State.conclude_effect own h hM via Op.NACK St.POISON [] [] []
    exact ⟨off, seq, fun sound => absurd sound (by decide)⟩
  | false =>
    by_cases asked : pflag p H.ACK_REQ = true
    · obtain ⟨off, seq, sent⟩ := State.conclude_effect own h hM via Op.ACK St.OK [] [] []
      simp only [asked, Bool.false_eq_true, if_false, if_true]
      exact ⟨off, seq, fun _ _ => sent⟩
    · simp only [asked, Bool.false_eq_true, if_false]
      exact ⟨Off.cacheReply (by decide) _ _ _ _ (Off.takeSeq (by decide) _ (Off.refl _ v)),
        v.contextKeeps_seq p Op.ACK St.OK 0, fun _ h => absurd h id⟩

end

/-! ### Event counters -/

theorem State.get_signalCtr (s : State) (i k n : Nat) :
    (s.signalCtr i k n).get F.CP_EVCNT_VALUE (evCopy i k) = (s.get F.CP_EVCNT_VALUE (evCopy i k) + n) % 2 ^ 32 :=
  State.get_wrap_self s _ _ _ (by decide) (by decide)

theorem State.signalFlag_off (s : State) (ep : Nat) (p : Packet) : Off 0x2000000 s (s.signalFlag ep p) :=
  Off.signalFlag (Nat.and_self _) ep p (Off.refl _ s)

/-- The SIGNAL flag of a request at a core port adds 1 to the counter that HANDLER names. -/
theorem State.get_signalFlag {ep : Nat} {p : Packet} (hep : ep < 256) (h : pflag p H.SIGNAL = true) :
    (s.signalFlag ep p).get F.CP_EVCNT_VALUE (evCopy ep (pget p H.HANDLER % 64))
      = (s.get F.CP_EVCNT_VALUE (evCopy ep (pget p H.HANDLER % 64)) + 1) % 2 ^ 32 := by
  unfold State.signalFlag
  rw [if_pos (by simp [h, hep])]
  exact s.get_signalCtr _ _ _

/-! ### PUT -/

theorem exec_putArrival {ep : BitVec 9} {p : Packet} (h : Claims.Passes Op.PUT s ep p) :
    exec (.putArrival ep p) s = .next ((s.takeIn ep.toNat p).doPut ep.toNat p).flow := by
  rw [show exec (.putArrival ep p) s = execPutArrival ep p s from rfl, execPutArrival, live_running h.1.1, State.request_passes h]

/-- A PUT's payload at its endpoint, where it has one. -/
def State.storePayload (s : State) (ep : Nat) (p : Packet) : State :=
  if moveless p then s else s.writePayload ep (pget p H.ADDRESS) (payload p) (flitPoison p)

theorem State.storePayload_off (s : State) (ep : Nat) {p : Packet} (h : hasPoison p = false) :
    Off 0x1c000000000000000000000 s (s.storePayload ep p) :=
  Off.ite (Off.refl _ s) (s.writePayload_off _ _ _ (flitPoison_sound h))

theorem State.storePayload_mem (s : State) (ep : Nat) {p : Packet} (h : hasPoison p = false) :
    (s.storePayload ep p).mem = Memory.writeList s.mem (memBase ep + pget p H.ADDRESS) (payload p) := by
  unfold State.storePayload
  split
  · next none => rw [payload_of_moveless none, Memory.writeList]
  · exact s.writePayload_mem _ _ _ (flitPoison_sound h)

theorem State.doPut_memory {ep : Nat} {p : Packet} (hep : ep ≠ 286) (h : hasPoison p = false) :
    s.doPut ep p = ((s.storePayload ep p).signalFlag ep p).acknowledge ep p false := by
  simp [State.doPut, State.storePayload, hep, h]

theorem State.toHost_off (s : State) (p : Packet) : Off 0x100000000000000000000000000000000000000 s (s.toHost p) :=
  Off.toHost (Nat.and_self _) p (Off.refl _ s)

theorem putStoresItsPayload : Claims.PutStoresItsPayload := by
  intro s ep p h
  have own := h.2.2
  constructor
  · intro host
    refine ⟨_, exec_putArrival h, ?_⟩
    rw [host] at own ⊢
    have stored := (s.takeIn 286 p).toHost_off p
    obtain ⟨off, -, sent⟩ := State.acknowledge_effect own stored (by decide) (by decide) (!moveless p && hasPoison p)
    refine ⟨?_, ((s.takeIn_off 286 p).trans (stored.trans off)).sameBytes (by decide), fun sound => sent (by simp [sound])⟩
    exact (off.stores .hostRx (by decide)).trans (congrArg (· ++ [p]) ((s.takeIn_off 286 p).stores .hostRx (by decide)))
  · intro hep sound wf
    refine ⟨_, exec_putArrival h, ?_⟩
    rw [State.doPut_memory hep sound]
    have stored := (s.takeIn ep.toNat p).storePayload_off ep.toNat sound
    have signalled := ((s.takeIn ep.toNat p).storePayload ep.toNat p).signalFlag_off ep.toNat p
    obtain ⟨off, seq, sent⟩ := State.acknowledge_effect own (stored.trans signalled) (by decide) (by decide) false
    have mem : _ = Memory.writeList s.mem (memBase ep.toNat + pget p H.ADDRESS) (payload p) :=
      ((signalled.trans off).stores .mem (by decide)).trans
        ((State.storePayload_mem _ ep.toNat sound).trans (by rw [s.takeIn_mem]))
    obtain ⟨bytes, rest⟩ := bytes_of_writeList wf mem
    refine ⟨bytes, rest, fun core flag => ?_, seq, sent rfl⟩
    rw [off.get _ _ (by decide) (by decide), State.get_signalFlag core flag,
      ((s.takeIn_off ep.toNat p).trans stored).get _ _ (by decide) (by decide)]

end Sys2Proof.Machine

/-! PUT_MC at a member, SIGNAL and the atomics (chapters 4, 6, 8 and 9). -/

namespace Sys2Proof.Machine

open Safety

variable {s v : State}

/-! ### Fields of a header that is built -/

theorem testBit_hget (d : BitVec 512) (f : HFld) (j : Nat) : (hget d f).testBit j = (decide (j < f.width) && d.getLsbD (f.lo + j)) := by
  simp [hget, Nat.testBit_mod_two_pow, BitVec.getLsbD]

theorem getLsbD_hput (d : BitVec 512) (f : HFld) (n i : Nat) (hi : i < 512) :
    (hput d f n).getLsbD i = if f.lo ≤ i ∧ i < f.lo + f.width then n.testBit (i - f.lo) else d.getLsbD i := by
  have mask : (BitVec.ofNat 512 (2 ^ f.width - 1) <<< f.lo).getLsbD i = decide (f.lo ≤ i ∧ i < f.lo + f.width) := by
    simp only [BitVec.getLsbD_shiftLeft, BitVec.getLsbD_ofNat, Nat.testBit_two_pow_sub_one]
    grind
  unfold hput
  simp only [BitVec.getLsbD_or, BitVec.getLsbD_and, BitVec.getLsbD_not, mask, BitVec.getLsbD_shiftLeft, BitVec.getLsbD_ofNat, hi]
  by_cases inside : f.lo ≤ i ∧ i < f.lo + f.width
  · have below : i - f.lo < 512 := by omega
    simp [inside, below]
  · simp [inside]

/-- Two fields of a header that share no bit. -/
def hApart (f g : HFld) : Bool := decide (f.lo + f.width ≤ g.lo) || decide (g.lo + g.width ≤ f.lo)

theorem hget_hput_ne (d : BitVec 512) {f g : HFld} (n : Nat) (h : hApart f g = true) (hg : g.lo + g.width ≤ 512) :
    hget (hput d f n) g = hget d g := by
  simp only [hApart, Bool.or_eq_true, decide_eq_true_eq] at h
  refine Nat.eq_of_testBit_eq fun j => ?_
  rw [testBit_hget, testBit_hget]
  by_cases hj : j < g.width
  · rw [getLsbD_hput _ _ _ _ (by omega), if_neg (by omega)]
  · simp [hj]

theorem hget_hput_self (d : BitVec 512) (f : HFld) (n : Nat) (hf : f.lo + f.width ≤ 512) :
    hget (hput d f n) f = n % 2 ^ f.width := by
  refine Nat.eq_of_testBit_eq fun j => ?_
  rw [testBit_hget, Nat.testBit_mod_two_pow]
  by_cases hj : j < f.width
  · rw [getLsbD_hput _ _ _ _ (by omega), if_pos (by omega), Nat.add_sub_cancel_left]
  · simp [hj]

theorem hget_foldl_hput_ne {l : List (HFld × Nat)} (d : BitVec 512) {g : HFld} (h : ∀ e ∈ l, hApart e.1 g = true)
    (hg : g.lo + g.width ≤ 512) : hget (l.foldl (fun d e => hput d e.1 e.2) d) g = hget d g := by
  induction l generalizing d with
  | nil => rfl
  | cons e l ih =>
    rw [List.foldl_cons, ih _ (fun x hx => h x (List.mem_cons_of_mem _ hx)), hget_hput_ne _ _ (h e List.mem_cons_self) hg]

/-- Building a packet sets LENGTH, DATA_POISON and HPAR beside the fields that are given. -/
theorem pget_mkPacket (l : List (HFld × Nat)) (bytes : List Byte) (poison : List Bool) {g : HFld}
    (h : (hApart H.LENGTH g && hApart H.DATA_POISON g && hApart H.HPAR g) = true) (hg : g.lo + g.width ≤ 512) :
    pget (mkPacket l bytes poison) g = hget (l.foldl (fun d e => hput d e.1 e.2) 0) g := by
  simp only [Bool.and_eq_true] at h
  obtain ⟨⟨length, dataPoison⟩, hpar⟩ := h
  unfold mkPacket pget
  dsimp only
  rw [setHpar, hget_hput_ne _ _ hpar hg]
  split
  · rw [hget_hput_ne _ _ dataPoison hg, hget_hput_ne _ _ length hg]
  · rw [hget_hput_ne _ _ length hg]

/-- A reply has the opcode that it is given, whatever fields outside OPCODE are added. -/
theorem State.pget_replyTo_opcode (s : State) (ep : Nat) (req : Packet) (op st : Nat) (bytes : List Byte) (poison : List Bool)
    {extra : List (HFld × Nat)} (h : ∀ e ∈ extra, hApart e.1 H.OPCODE = true) :
    pget (s.replyTo ep req op st bytes poison extra) H.OPCODE = op % 2 ^ 8 := by
  unfold State.replyTo
  dsimp only
  rw [pget_mkPacket _ _ _ (by decide) (by decide), List.cons_append, List.foldl_cons, hget_foldl_hput_ne _ ?_ (by decide),
    hget_hput_self _ H.OPCODE _ (by decide)]
  · rfl
  · intro e he
    rcases List.mem_append.1 he with he | he
    · have fields : (e.1 ∈ [H.STATUS, H.EPOCH, H.PARTITION, H.JOB, H.DST_CHIP, H.DST_EP, H.SRC_CHIP, H.SRC_EP, H.ADDRESS,
          H.TAG, H.SRC_RANK, H.FLOW_VALID, H.FLOW, H.SEQ]) := List.mem_map_of_mem (f := Prod.fst) he
      revert fields
      generalize e.1 = f
      revert f
      decide
    · exact h e he

/-! ### PUT_MC -/

/-- The PUT_MC that stands next at a working endpoint is taken and judged. -/
theorem exec_putMcArrival {ep : BitVec 9} {p : Packet} (h : Claims.Reaches Op.PUT_MC s ep p) :
    exec (.putMcArrival ep p) s = .next ((s.takeIn ep.toNat p).judgeMember ep.toNat p).flow := by
  obtain ⟨hc, hw, ht, hr, -, hop⟩ := h
  have rst : (s.takeIn ep.toNat p).coreRst = s.coreRst := (s.takeIn_off ep.toNat p).stores .coreRst (by decide)
  rw [show exec (.putMcArrival ep p) s = execPutMcArrival ep p s from rfl, execPutMcArrival, live_running hc]
  simp only [hop, bne_self_eq_false, Bool.and_false, hw, ht, Bool.not_true, Bool.false_and, Bool.or_false, rst, hr, if_false,
    Bool.false_eq_true]

/-- The merged ACK of a member that stored its payload. -/
def State.memberAck (s : State) (ep : Nat) (p : Packet) : Packet :=
  s.replyTo ep p Op.ACK St.OK (mergedBytes 0 0 0 0) [] [(H.GROUP, pget p H.GROUP)]

theorem State.memberAnswer_ok (s : State) (ep : Nat) (p : Packet) :
    s.memberAnswer ep p St.OK = (s.drawn).emit (s.outFifo ep (s.memberAck ep p)) .free (s.memberAck ep p) := rfl

theorem State.doPutMc_sound {ep : Nat} {p : Packet} (h : hasPoison p = false) :
    s.doPutMc ep p = ((s.storePayload ep p).signalFlag ep p).memberAnswer ep p St.OK := by
  simp [State.doPutMc, State.storePayload, h]

theorem State.emit_off (s : State) (n : Nat) (g : Gate) (p : Packet) (q : Nat) :
    Off 0x1000320000000000000000000010400 s (s.emit n g p q) := Off.emit (Nat.and_self _) n g p q (Off.refl _ s)

theorem putMcStoresAtEachMember : Claims.PutMcStoresAtEachMember := by
  intro s ep p h accept _ sound wf
  refine ⟨_, exec_putMcArrival h, ?_⟩
  have taken := s.takeIn_off ep.toNat p
  have effect := ((s.takeIn ep.toNat p).storePayload_off ep.toNat sound).trans
    (((s.takeIn ep.toNat p).storePayload ep.toNat p).signalFlag_off ep.toNat p)
  rw [State.judgeMember, show (s.takeIn ep.toNat p).verdict ep.toNat p = .accept from accept]
  dsimp only
  rw [State.doPutMc_sound sound, State.memberAnswer_ok]
  have ack : State.memberAck _ ep.toNat p = s.memberAck ep.toNat p :=
    (effect.replyTo (by decide) _ _ _ _ _ _ _).trans (taken.replyTo (by decide) _ _ _ _ _ _ _)
  rw [ack, effect.outFifo (by decide) (effect.stores .stackVia (by decide))]
  have mem : (State.emit (State.drawn _) ((s.takeIn ep.toNat p).outFifo ep.toNat (s.memberAck ep.toNat p)) .free
        (s.memberAck ep.toNat p)).mem
      = Memory.writeList s.mem (memBase ep.toNat + pget p H.ADDRESS) (payload p) :=
    ((State.emit_off _ _ _ _ _).stores .mem (by decide)).trans ((((s.takeIn ep.toNat p).storePayload ep.toNat p).signalFlag_off
      ep.toNat p |>.stores .mem (by decide)).trans ((State.storePayload_mem _ ep.toNat sound).trans (by rw [s.takeIn_mem])))
  obtain ⟨bytes, rest⟩ := bytes_of_writeList wf mem
  refine ⟨bytes, rest, s.memberAck ep.toNat p, ?_, State.emit_sent _ _ _ _ _, rfl⟩
  exact s.pget_replyTo_opcode _ _ _ _ _ _ (by simp; decide)

/-- Settles O21: a PUT at its endpoint and at the host bridge, and a PUT_MC at a member. -/
theorem putsStoreTheirPayload : Obligations.PutsStoreTheirPayload := ⟨putStoresItsPayload, putMcStoresAtEachMember⟩

/-! ### SIGNAL -/

theorem exec_signalArrival {ep : BitVec 9} {p : Packet} (h : Claims.Passes Op.SIGNAL s ep p) :
    exec (.signalArrival ep p) s = .next ((s.takeIn ep.toNat p).doSignal ep.toNat p).flow := by
  rw [show exec (.signalArrival ep p) s = execSignalArrival ep p s from rfl, execSignalArrival, live_running h.1.1,
    State.request_passes h]

theorem signalAddsToItsCounter : Claims.SignalAddsToItsCounter := by
  intro s ep p h
  have taken := s.takeIn_off ep.toNat p
  have added : Off 0x2000000 (s.takeIn ep.toNat p)
      ((s.takeIn ep.toNat p).signalCtr ep.toNat (pget p H.HANDLER % 64) (pget p H.ADDRESS)) :=
    Off.signalCtr (Nat.and_self _) _ _ _ (Off.refl _ _)
  obtain ⟨off, seq, sent⟩ := State.acknowledge_effect h.2.2 added (by decide) (by decide) false
  refine ⟨_, exec_signalArrival h, ((taken.trans added).trans off).sameBytes (by decide), ?_, seq, sent rfl⟩
  rw [State.doSignal, off.get _ _ (by decide) (by decide), State.get_signalCtr, taken.get _ _ (by decide) (by decide)]

/-! ### Atomics -/

theorem leBytes_length (n v : Nat) : (leBytes n v).length = n := by
  induction n generalizing v with
  | zero => rfl
  | succ n ih => simp [leBytes, ih]

theorem exec_atomicArrival {ep : BitVec 9} {p : Packet} (add : Bool)
    (h : Claims.Passes (if add then Op.ATOM_ADD else Op.ATOM_SWAP) s ep p) :
    exec (if add then .atomAddArrival ep p else .atomSwapArrival ep p) s
      = .next ((s.takeIn ep.toNat p).doAtomic add ep.toNat p).flow := by
  cases add with
  | true =>
    change execAtomAddArrival ep p s = _
    rw [execAtomAddArrival, live_running h.1.1, State.request_passes (op := Op.ATOM_ADD) h]
  | false =>
    change execAtomSwapArrival ep p s = _
    rw [execAtomSwapArrival, live_running h.1.1, State.request_passes (op := Op.ATOM_SWAP) h]

theorem State.countReads_off (s : State) (ep a n : Nat) : Off 0xc000000000 s (s.countReads ep a n) :=
  Off.countReads (Nat.and_self _) ep a n (Off.refl _ s)

theorem State.countReads_badWords (s : State) (ep a n : Nat) : (s.countReads ep a n).badWords = s.badWords :=
  (s.countReads_off ep a n).stores .badWords (by decide)

/-- Marked words are the same where the marks are. -/
theorem State.isBad_same (h : v.badWords = s.badWords) (ep a n : Nat) : v.isBad ep a n = s.isBad ep a n := by
  unfold State.isBad
  rw [h]

theorem State.readBytes_same (h : v.mem = s.mem) (ep a n : Nat) : v.readBytes ep a n = s.readBytes ep a n := by
  unfold State.readBytes State.byteAt
  rw [h]

theorem State.readNat_same (h : v.mem = s.mem) (ep a n : Nat) : v.readNat ep a n = s.readNat ep a n := by
  unfold State.readNat
  rw [State.readBytes_same h]

/-- An atomic on a sound word: the old value, and the sum or the operand in its place. -/
theorem State.atomicAt_sound {ep a len : Nat} (add : Bool) (fmt operand : Nat) (h : s.isBad ep a len = false) :
    s.atomicAt add fmt ep a len operand = (s.readNat ep a len, false,
      (s.countReads ep a len).writeBytes ep a (leBytes len (atomicOp add fmt (s.readNat ep a len) operand))) := by
  unfold State.atomicAt
  dsimp only
  rw [State.isBad_same (s.countReads_badWords ep a len), h,
    State.readNat_same ((s.countReads_off ep a len).stores .mem (by decide))]
  rfl

/-- An atomic on an uncorrectable word stores nothing. -/
theorem State.atomicAt_bad {ep a len : Nat} (add : Bool) (fmt operand : Nat) (h : s.isBad ep a len = true) :
    s.atomicAt add fmt ep a len operand = (0, true, s.countReads ep a len) := by
  unfold State.atomicAt
  dsimp only
  rw [State.isBad_same (s.countReads_badWords ep a len), h]
  rfl

/-- The element at ADDRESS with what the atomic puts there. -/
def State.withAtomic (s : State) (add : Bool) (ep : Nat) (p : Packet) : State :=
  (s.countReads ep (pget p H.ADDRESS) (pget p H.LENGTH)).writeBytes ep (pget p H.ADDRESS) (leBytes (pget p H.LENGTH)
    (atomicOp add (pget p H.FORMAT) (s.readNat ep (pget p H.ADDRESS) (pget p H.LENGTH)) (payloadNat p (pget p H.LENGTH))))

theorem State.withAtomic_mem (s : State) (add : Bool) (ep : Nat) (p : Packet) :
    (s.withAtomic add ep p).mem = Memory.writeList s.mem (memBase ep + pget p H.ADDRESS) (leBytes (pget p H.LENGTH)
      (atomicOp add (pget p H.FORMAT) (s.readNat ep (pget p H.ADDRESS) (pget p H.LENGTH)) (payloadNat p (pget p H.LENGTH)))) :=
  congrArg (Memory.writeList · _ _) ((s.countReads_off ep (pget p H.ADDRESS) (pget p H.LENGTH)).stores .mem (by decide))

theorem State.doAtomic_sound {ep : Nat} {p : Packet} (add : Bool) (hp : hasPoison p = false)
    (hb : s.isBad ep (pget p H.ADDRESS) (pget p H.LENGTH) = false) :
    s.doAtomic add ep p = (s.withAtomic add ep p).conclude ep p Op.ATOM_RSP St.OK
      (leBytes (pget p H.LENGTH) (s.readNat ep (pget p H.ADDRESS) (pget p H.LENGTH))) [] [(H.FORMAT, pget p H.FORMAT)] := by
  unfold State.doAtomic
  dsimp only
  rw [hp, State.atomicAt_sound add _ _ hb]
  rfl

/-- A poisoned operand or an uncorrectable word leaves the counted read and the answer. -/
theorem State.doAtomic_refused {ep : Nat} {p : Packet} (add : Bool)
    (h : hasPoison p = true ∨ s.isBad ep (pget p H.ADDRESS) (pget p H.LENGTH) = true) :
    ∃ bytes, s.doAtomic add ep p = (s.countReads ep (pget p H.ADDRESS) (pget p H.LENGTH)).conclude ep p Op.ATOM_RSP St.POISON
      bytes [] [(H.FORMAT, pget p H.FORMAT)] := by
  unfold State.doAtomic
  dsimp only
  by_cases hp : hasPoison p = true
  · rw [if_pos hp]
    exact ⟨_, rfl⟩
  · rw [if_neg hp, State.atomicAt_bad add _ _ (h.resolve_left hp)]
    exact ⟨_, rfl⟩

theorem atomicsReplaceAndReturnTheOld : Claims.AtomicsReplaceAndReturnTheOld := by
  intro s ep p add h
  have taken := s.takeIn_off ep.toNat p
  have bad : (s.takeIn ep.toNat p).isBad ep.toNat (pget p H.ADDRESS) (pget p H.LENGTH)
      = s.isBad ep.toNat (pget p H.ADDRESS) (pget p H.LENGTH) := State.isBad_same (taken.stores .badWords (by decide)) _ _ _
  have old : (s.takeIn ep.toNat p).readNat ep.toNat (pget p H.ADDRESS) (pget p H.LENGTH)
      = s.readNat ep.toNat (pget p H.ADDRESS) (pget p H.LENGTH) := State.readNat_same (s.takeIn_mem _ _) _ _ _
  refine ⟨fun sound word wf => ⟨_, exec_atomicArrival add h, ?_⟩, fun refused => ⟨_, exec_atomicArrival add h, ?_⟩⟩
  · have effect : Off 0x1c00000000000c000000000 (s.takeIn ep.toNat p) ((s.takeIn ep.toNat p).withAtomic add ep.toNat p) :=
      Off.writeBytes (by decide) _ _ _ (Off.countReads (by decide) _ _ _ (Off.refl _ _))
    obtain ⟨off, -, sent⟩ := State.conclude_effect h.2.2 effect (by decide) (by decide) Op.ATOM_RSP St.OK
      (leBytes (pget p H.LENGTH) (s.readNat ep.toNat (pget p H.ADDRESS) (pget p H.LENGTH))) [] [(H.FORMAT, pget p H.FORMAT)]
    rw [State.doAtomic_sound add sound (bad.trans word), old]
    have mem : _ = Memory.writeList s.mem (memBase ep.toNat + pget p H.ADDRESS) (leBytes (pget p H.LENGTH)
        (atomicOp add (pget p H.FORMAT) (s.readNat ep.toNat (pget p H.ADDRESS) (pget p H.LENGTH)) (payloadNat p (pget p H.LENGTH)))) :=
      (off.stores .mem (by decide)).trans ((State.withAtomic_mem _ add ep.toNat p).trans (by rw [old, s.takeIn_mem]))
    obtain ⟨bytes, rest⟩ := bytes_of_writeList wf mem
    rw [leBytes_length] at bytes rest
    exact ⟨bytes, rest, sent⟩
  · obtain ⟨bytes, concluded⟩ := State.doAtomic_refused (s := s.takeIn ep.toNat p) add (bad ▸ refused)
    have counted := (s.takeIn ep.toNat p).countReads_off ep.toNat (pget p H.ADDRESS) (pget p H.LENGTH)
    obtain ⟨off, -, -⟩ := State.conclude_effect h.2.2 counted (by decide) (by decide) Op.ATOM_RSP St.POISON bytes []
      [(H.FORMAT, pget p H.FORMAT)]
    rw [concluded]
    exact ((taken.trans counted).trans off).sameBytes (by decide)

/-- Settles O23: the atomics on a sound word and refused, and SIGNAL. -/
theorem atomicsAndSignalsAct : Obligations.AtomicsAndSignalsAct := ⟨atomicsReplaceAndReturnTheOld, signalAddsToItsCounter⟩

end Sys2Proof.Machine

/-! What a refused request at an optical port's own endpoint counts (R120). -/

namespace Sys2Proof.Machine

open Safety

variable {s : State}

/-- A request that a check refuses with a status, at an optical port's own endpoint, is answered there. -/
theorem State.request_refused_at_port {op st : Nat} {ep : BitVec 9} {p : Packet} {act : State → State} (h : Claims.Reaches op s ep p)
    (low : 280 ≤ ep.toNat) (high : ep.toNat < 286) (refused : (s.takeIn ep.toNat p).verdict ep.toNat p = .refuse st) :
    s.request op ep.toNat p act = (s.takeIn ep.toNat p).portEndpoint ep.toNat p := by
  rw [State.request_reaches h, State.judge, refused]
  simp [low, high]

/-- Flow moves no error counter of an optical port. -/
theorem State.get_flow_errcnt (s : State) {f : Fld} (n : Nat) (h : f.reg = .OP_ERRCNT) : s.flow.get f n = s.get f n :=
  (Off.flow (M := 0x101632001c00000000000c407090400) (by decide) (Off.refl _ s)).get f n (by decide) (by rw [h]; decide)

/-- A PUT for the endpoint of optical port 0, from a chip that no route leads to. -/
def strandedPut : Packet := mkPacket [(H.OPCODE, Op.PUT), (H.DST_EP, 280), (H.SRC_CHIP, 5)] [] []

/-- The chip after its reset, with its first partition of job 0 and that PUT at the port's endpoint. -/
def strandedState : State := (State.reset.put F.RK_PARTJOB_VALID 0 1).setFifo
  (256 * 17 + 34 * State.reset.physOf 0 + 4 * attachOf strandedPut + 1) ⟨stagesOf strandedPut, false, 0⟩

theorem strandedPut_reaches : Claims.Reaches Op.PUT strandedState 280 strandedPut := by
  unfold Claims.Reaches
  decide +kernel

theorem strandedPut_refused : (strandedState.takeIn 280 strandedPut).verdict 280 strandedPut = .refuse St.RANGE := by
  decide +kernel

/-- The NACK has no route either, and what has none counts in the same counter as the refused request (`State.countRoute`). -/
theorem strandedPut_counts_twice :
    ((strandedState.takeIn 280 strandedPut).portEndpoint 280 strandedPut).get F.OP_ERRCNT_ROUTE (strandedState.physOf 0) = 2 := by
  decide +kernel

theorem strandedPut_counted_once : Claims.counted strandedState F.OP_ERRCNT_ROUTE (strandedState.physOf 0) 1 = 1 := by
  decide +kernel

theorem exec_strandedPut : exec (.putArrival 280 strandedPut) strandedState
    = .next ((strandedState.takeIn 280 strandedPut).portEndpoint 280 strandedPut).flow := by
  have ran : exec (.putArrival 280 strandedPut) strandedState = execPutArrival 280 strandedPut strandedState := rfl
  rw [ran, execPutArrival, live_running strandedPut_reaches.1,
    State.request_refused_at_port strandedPut_reaches (by decide) (by decide) strandedPut_refused]
  rfl

theorem not_portEndpointsRefuse : ¬ Claims.PortEndpointsRefuse := by
  intro h
  obtain ⟨u, ran, -, -, counts, -⟩ := h strandedState 280 strandedPut Op.PUT (.putArrival 280 strandedPut) (by decide) (by decide)
    (by simp) strandedPut_reaches
  have twice : u.get F.OP_ERRCNT_ROUTE (strandedState.physOf 0) = 2 := by
    rw [exec_strandedPut] at ran
    rw [← u.get_flow_errcnt _ rfl, ← Host.Outcome.next.inj ran, State.get_flow_errcnt _ _ rfl, strandedPut_counts_twice]
  exact absurd (twice.symm.trans (counts.trans strandedPut_counted_once)) (by decide)

/-- Refutes O25: a PUT at an optical port's endpoint whose NACK finds no route counts twice in ROUTE of that port, not once. -/
theorem not_refusedRequestsStoreNothing : ¬ Obligations.RefusedRequestsStoreNothing := fun h => not_portEndpointsRefuse h.2.2

end Sys2Proof.Machine

/-! Plumb: a copy that never comes, and the packets at a port (chapters 4, 10 and 11). -/

namespace Sys2Proof.Machine

open Safety

variable {s v : State}

/-! ### The missed copy -/

/-- A hub's misses, with one more: the count, the hub that is down at 16, and the count of pair times. -/
def MissCounted (s t : State) (late : Nat) : Prop :=
  let miss := Nat.min 16 ((lookup s.hubMiss late).getD 0 + 1)
  lookup t.hubMiss late = some miss ∧ (miss = 16 → late ∈ t.hubDown)
    ∧ t.get F.PL_ERRCNT_PAIR_TIMEOUT 0 = Claims.counted s F.PL_ERRCNT_PAIR_TIMEOUT 0 1

theorem State.missCopy_counts (s : State) (w u late : Nat) (m : PlumbMsg) : MissCounted s (s.missCopy w u late m) late := by
  have logged (t : State) (a b : Nat) := Off.event (Nat.and_self _) evPlumbHub w u a b none (Off.refl _ t)
  unfold State.missCopy
  refine ⟨?_, fun down => ?_, ?_⟩
  · exact (congrArg (lookup · late) ((logged _ _ _).stores .hubMiss (by decide))).trans (lookup_upsert_self _ _ _)
  · refine ((logged _ _ _).stores .hubDown (by decide)).symm ▸ ?_
    change late ∈ if _ then _ else _
    rw [if_pos down]
    exact List.contains_iff_mem.1 (contains_insertNat_self _ _)
  · rw [State.get_event_ne _ _ _ _ _ _ _ _ _ (.inl (by decide)), State.get_sat_self _ _ _ _ (by decide) (by decide)]
    rfl

theorem State.missCopy_copies (s : State) (w u late : Nat) (m : PlumbMsg) : (s.missCopy w u late m).copies = s.copies :=
  (Off.missCopy (Nat.and_self _) w u late m (Off.refl _ s)).stores .copies (by decide)

/-- A message that a cluster node does not expect counts in ORDER alone. -/
theorem State.plumbStray_missed (s : State) (n : Nat) (m : PlumbMsg) :
    (s.plumbStray n m).get F.PL_ERRCNT_PAIR_TIMEOUT 0 = s.get F.PL_ERRCNT_PAIR_TIMEOUT 0 := by
  unfold State.plumbStray
  dsimp only
  split
  · rfl
  · rw [State.get_event_ne _ _ _ _ _ _ _ _ _ (.inl (by decide)), State.get_sat_ne _ _ _ _ (by decide) (.inl (by decide))]

/-- What the copy that came does at its cluster node leaves the misses of the hubs. -/
theorem MissCounted.clusterAlone {late : Nat} (h : MissCounted s v late) (c : Nat) (m : PlumbMsg) :
    MissCounted s (v.clusterAlone c m) late := by
  obtain ⟨count, down, times⟩ := h
  have off := Off.clusterAlone (Nat.and_self _) c m (Off.refl _ v)
  refine ⟨off.stores .hubMiss (by decide) ▸ count, fun full => off.stores .hubDown (by decide) ▸ down full, ?_⟩
  refine Eq.trans ?_ times
  unfold State.clusterAlone
  split
  · exact (Off.clusterDown (Nat.and_self _) c m (Off.refl _ v)).get _ _ (by decide) (by decide)
  · exact v.plumbStray_missed _ _

theorem State.clusterAlone_copies (s : State) (c : Nat) (m : PlumbMsg) : (s.clusterAlone c m).copies = s.copies :=
  (Off.clusterAlone (Nat.and_self _) c m (Off.refl _ s)).stores .copies (by decide)

theorem exec_plumbPairExpiry {n : PlumbNode} {m : PlumbMsg} {h : Hub} (hc : s.chipReset = false)
    (found : s.copies.find? (fun x => x.1 == plumbNo n && x.2.2 == m && m != 0) = some (plumbNo n, h, m)) :
    exec (.plumbPairExpiry n m) s = .next (
      let v := s.dropCopy (plumbNo n) h m
      let late := hubNo (otherHub h)
      match n with
      | .hubs => v
      | .cluster c =>
        let v := v.missCopy 4 (plumbNo n) late m
        (if M.OPCODE m = Op.SRED_DOWN then v.clusterAlone c.val m else v).flow
      | .port l => (v.missCopy 7 (v.physOf l.val) late m).keepCopy (plumbNo n + 64) h m) := by
  have ran : exec (.plumbPairExpiry n m) s = execPlumbPairExpiry n m s := rfl
  rw [ran, execPlumbPairExpiry, live_running hc]
  dsimp only
  rw [found]
  cases n <;> rfl

theorem missedCopiesTellOnTheHub : Claims.MissedCopiesTellOnTheHub := by
  intro s m h hc
  refine ⟨fun c found => ⟨_, exec_plumbPairExpiry (n := .cluster c) hc found, ?_⟩,
    fun l found => ⟨_, exec_plumbPairExpiry (n := .port l) hc found, ?_⟩⟩
  · have counts := (s.dropCopy (2 + c.val) h m).missCopy_counts 4 (2 + c.val) (hubNo (otherHub h)) m
    have copies := (s.dropCopy (2 + c.val) h m).missCopy_copies 4 (2 + c.val) (hubNo (otherHub h)) m
    by_cases down : M.OPCODE m = Op.SRED_DOWN
    · rw [if_pos down]
      exact ⟨(State.clusterAlone_copies _ _ _).trans copies, counts.clusterAlone c.val m⟩
    · rw [if_neg down]
      exact ⟨copies, counts⟩
  · exact ⟨congrArg (· ++ _) (State.missCopy_copies _ _ _ _ _), State.missCopy_counts _ _ _ _ _⟩

/-! ### Plumb packets at a port -/

theorem State.port_same (h : v.ports = s.ports) (p : Nat) : v.port p = s.port p :=
  congrArg (fun t => (lookup t p).getD Port.initial) h

theorem State.port_modPort_self (s : State) (p : Nat) (f : Port → Port) : (s.modPort p f).port p = f (s.port p) :=
  getD_assign_self _ _ _ _

/-- Freed parcels are counted; the pool and its sequence stay. -/
theorem State.port_countFreed (s : State) (p k n : Nat) :
    ∃ x, (s.countFreed p k n).port p = { s.port p with freed := x } := by
  unfold State.countFreed
  split
  · exact ⟨_, rfl⟩
  · exact ⟨_, s.port_modPort_self p _⟩

theorem State.port_freeParcels (s : State) (p vl res shared : Nat) (account entry : Option Nat) :
    ∃ x, (s.freeParcels p vl res shared account entry).port p = { s.port p with freed := x } := by
  obtain ⟨a, first⟩ := s.port_countFreed p vl res
  obtain ⟨b, second⟩ := (s.countFreed p vl res).port_countFreed p 6 shared
  rw [first] at second
  have counted (t : State) (f : Fld) (n k : Nat) : (t.put f n k).port p = t.port p := by
    rfl
  unfold State.freeParcels
  cases account with
  | none => cases entry with
    | none => exact ⟨b, second⟩
    | some n => exact ⟨b, (counted _ _ _ _).trans second⟩
  | some c =>
    obtain ⟨d, third⟩ := ((s.countFreed p vl res).countFreed p 6 shared).port_countFreed p (16 + c) shared
    rw [second] at third
    cases entry with
    | none => exact ⟨d, third⟩
    | some n => exact ⟨d, (counted _ _ _ _).trans third⟩

/-- The packet leaves the pool, and the sequence of the parcels goes on. -/
theorem State.port_dropPooled (s : State) (p : Nat) (e : Pooled) : ((s.dropPooled p e).port p).pool = (s.port p).pool.erase e
    ∧ ((s.dropPooled p e).port p).seqOn = (s.port p).seqOn := by
  obtain ⟨x, freed⟩ := (s.modPort p (fun q => { q with pool := q.pool.erase e })).port_freeParcels p e.vl e.res e.shared
    e.account e.grant
  rw [State.dropPooled, State.freePooled, freed, State.port_modPort_self]
  exact ⟨rfl, rfl⟩

theorem State.dropPooled_off (s : State) (p : Nat) (e : Pooled) : Off 0x10000000000000000000000000000020000 s (s.dropPooled p e) :=
  Off.dropPooled (Nat.and_self _) p e (Off.refl _ s)

/-- A port with its parcels in sequence goes on as it is. -/
theorem State.poolEmptied_seqOn {p : Nat} (h : (s.port p).seqOn = true) : s.poolEmptied p = s := by
  unfold State.poolEmptied
  rw [h]
  rfl

/-- An input of a collective is timed where its branch is one of the group's at logical port `l` (R364). -/
def State.timesInward (s : State) (l : Nat) (m : PlumbMsg) : State :=
  if (M.OPCODE m = Op.BAR_ARRIVE || M.OPCODE m = Op.SRED_UP) && (s.childPorts (M.EPOCH m) (M.GROUP m)).contains l
    && !s.abortRecorded (M.GROUP m) (M.SEQ m) then s.timeInput (M.EPOCH m) (M.GROUP m) (M.SEQ m) l else s

theorem State.timesInward_off (s : State) (l : Nat) (m : PlumbMsg) : Off 0x1000000000000000000060000000000000 s (s.timesInward l m) :=
  Off.ite (Off.timeInput (Nat.and_self _) _ _ _ _ (Off.refl _ s)) (Off.refl _ s)

/-- Where the port's Plumb out FIFO has room, the packet leaves the pool for it. -/
theorem State.plumbInward_room {p : Nat} (e : Pooled) (pkt : Packet) (h : s.room (plumbOutOf p) ≠ 0) :
    s.plumbInward p e pkt = (((s.dropPooled p e).timesInward (s.logical p) ((s.dropPooled p e).compact pkt)).pushFifo (plumbOutOf p)
      (plumbStage ((s.dropPooled p e).compact pkt) (plumbPoison pkt))).poolEmptied p := by
  unfold State.plumbInward
  exact if_neg h

theorem State.pushFifo_ports (s : State) (n : Nat) (p : Packet) : (s.pushFifo n p).ports = s.ports :=
  (Off.pushFifo (Nat.and_self _) n p (Off.refl _ s)).stores .ports (by decide)

theorem exec_plumbPortIngress {p : Fin 6} {pkt : Packet} {e : Pooled} (hc : s.chipReset = false) (hh : headerBad pkt = false)
    (hop : classOf (pget pkt H.OPCODE) = some .plumb) (ha : s.arrivedAt p.val 0 pkt = some e) :
    exec (.plumbPortIngress p pkt) s = .next (if s.portState p.val = PS.QUARANTINE
      then (s.dropPooled p.val e).sat F.OP_ERRCNT_QDISCARD p.val else s.plumbInward p.val e pkt) := by
  have ran : exec (.plumbPortIngress p pkt) s = execPlumbPortIngress p pkt s := rfl
  rw [ran, execPlumbPortIngress, live_running hc]
  simp [ha, hh, hop]

theorem plumbPacketsReachTheHubs : Claims.PlumbPacketsReachTheHubs := by
  intro s p pkt e hc hh hop ha
  have dropped := s.dropPooled_off p.val e
  refine ⟨fun closed => ?_, fun opened full => ?_, fun opened sequenced free => ?_⟩
  · refine ⟨_, exec_plumbPortIngress hc hh hop ha, ?_⟩
    rw [if_pos closed]
    refine ⟨dropped.stores .plumbOut (by decide), dropped.stores .fifos (by decide), ?_⟩
    rw [State.get_sat_self _ _ _ _ (by decide) (by decide), dropped.get _ _ (by decide) (by decide)]
    rfl
  · rw [exec_plumbPortIngress hc hh hop ha, if_neg opened, State.plumbInward]
    simp [full]
  · have notClosed : s.portState p.val ≠ PS.QUARANTINE := by
      rcases opened with h | h <;> rw [h] <;> decide
    refine ⟨_, exec_plumbPortIngress hc hh hop ha, ?_⟩
    rw [if_neg notClosed, State.plumbInward_room e pkt free]
    have compact : (s.dropPooled p.val e).compact pkt = s.compact pkt := by
      unfold State.compact
      rw [dropped.partOfJob (by decide)]
    have timed := (s.dropPooled p.val e).timesInward_off (s.logical p.val) (s.compact pkt)
    obtain ⟨pool, seqOn⟩ := s.port_dropPooled p.val e
    rw [compact]
    have port := State.port_same ((State.pushFifo_ports ((s.dropPooled p.val e).timesInward (s.logical p.val) (s.compact pkt))
      (plumbOutOf p.val) (plumbStage (s.compact pkt) (plumbPoison pkt))).trans (timed.stores .ports (by decide))) p.val
    rw [State.poolEmptied_seqOn (by rw [port, seqOn]; exact sequenced)]
    refine ⟨?_, (congrArg Port.pool port).trans pool⟩
    rw [State.pushFifo_stages, State.fifo_same ((timed.stores .fifos (by decide)).trans (dropped.stores .fifos (by decide)))]

/-- Settles O40: the second copy that never comes, and a Plumb packet at a port. -/
theorem plumbMissesAndPackets : Obligations.PlumbMissesAndPackets := ⟨missedCopiesTellOnTheHub, plumbPacketsReachTheHubs⟩

end Sys2Proof.Machine

/-! Replies at every kind of endpoint (chapters 4 to 6, 13 and 14). -/

namespace Sys2Proof.Machine

open Safety

variable {s v : State}

/-! ### The commands by which replies arrive -/

theorem exec_reply {op : Nat} {ep : BitVec 9} {p : Packet} {c : Instr} (h : (op, c) ∈ Claims.replies ep p) (hc : s.chipReset = false) :
    exec c s = .next (s.reply op ep.toNat p).flow := by
  have ran : exec c s = live s (fun s => (s.reply op ep.toNat p).flow) := by
    simp only [Claims.replies, List.mem_cons, Prod.mk.injEq, List.not_mem_nil, or_false] at h
    rcases h with ⟨rfl, rfl⟩ | ⟨rfl, rfl⟩ | ⟨rfl, rfl⟩ | ⟨rfl, rfl⟩ | ⟨rfl, rfl⟩ <;> rfl
  rw [ran, live_running hc]

/-- The opcodes of replies to unicast requests and AMs. -/
theorem opcode_of_replies {op : Nat} {ep : BitVec 9} {p : Packet} {c : Instr} (h : (op, c) ∈ Claims.replies ep p) :
    op ∈ [Op.GET_RSP, Op.ATOM_RSP, Op.ACK, Op.NACK, Op.AM_REPLY] :=
  List.mem_map_of_mem (f := Prod.fst) h

/-- What becomes of a reply with a good header that an endpoint other than an optical port's has taken. -/
def State.judgeReply (s : State) (op ep : Nat) (p : Packet) : State :=
  if !acceptsReply ep op then s.discardHead evHeaderBad ep p
  else if ep = 286 then s.hostReply p
  else if ep = 287 then (if s.relayOut (pget p H.TAG) then s else s.stray 287 p)
  else if s.answersStray ep then s.stray ep p
  else s.takeReply ep p

/-- The reply that stands next at a working endpoint is taken and judged. -/
theorem State.reply_reaches {op : Nat} {ep : BitVec 9} {p : Packet} (known : op ∈ [Op.GET_RSP, Op.ATOM_RSP, Op.ACK, Op.NACK, Op.AM_REPLY])
    (h : Claims.Reaches op s ep p) (port : ¬ (280 ≤ ep.toNat ∧ ep.toNat < 286)) :
    s.reply op ep.toNat p = (s.takeIn ep.toNat p).judgeReply op ep.toNat p := by
  obtain ⟨-, hw, ht, hr, hb, hop⟩ := h
  have rst : (s.takeIn ep.toNat p).coreRst = s.coreRst := (s.takeIn_off ep.toNat p).stores .coreRst (by decide)
  have reply : (classOf op).isNone = false := by
    revert known
    generalize op = o
    revert o
    decide
  have notPort : (decide (280 ≤ ep.toNat) && decide (ep.toNat < 286)) = false := by simpa using port
  unfold State.reply
  simp only [hop, bne_self_eq_false, Bool.and_false, hw, ht, Bool.not_true, Bool.false_and, Bool.or_false, rst, hr, hb, reply, notPort,
    if_false, Bool.false_eq_true]
  rfl

/-! ### Stray replies -/

/-- What a stray reply at an endpoint counts, in `f` of copy `n`, and logs. -/
structure CountedStray (s u : State) (f : Fld) (n ep : Nat) (p : Packet) : Prop where
  off : Off 0x20000000000c60000090000000000004000200 s u
  count : u.get f n = Claims.counted s f n 1
  logged : Logged s u evStray (epWindow ep) (epUnit ep) (hword p.head.data 1) (hword p.head.data 2)

/-- A reply that is taken and stray leaves its count and its record. -/
theorem State.takeIn_stray {f : Fld} {n : Nat} (s : State) (ep : Nat) (p : Packet)
    (counted : (s.takeIn ep p).stray ep p = ((s.takeIn ep p).sat f n).event evStray (epWindow ep) (epUnit ep)
      (hword p.head.data 1) (hword p.head.data 2))
    (hf : f = F.CP_ERRCNT_STRAY ∨ f = F.AL_EPERR_STRAY) : CountedStray s ((s.takeIn ep p).stray ep p) f n ep p := by
  have taken := s.takeIn_off ep p
  have stray := Off.stray (Nat.and_self _) ep p (Off.refl _ (s.takeIn ep p))
  refine ⟨taken.trans stray, ?_, ?_⟩
  · rw [counted]
    rcases hf with rfl | rfl <;>
      rw [State.get_event_ne _ _ _ _ _ _ _ _ _ (.inl (by decide)), State.get_sat_self _ _ _ _ (by decide) (by decide),
        taken.get _ _ (by decide) (by decide)] <;> rfl
  · rw [counted]
    have counts : Off 0x10000000000004000000 (s.takeIn ep p) ((s.takeIn ep p).sat f n) :=
      Off.sat (Nat.and_self _) _ _ _ (by rcases hf with rfl | rfl <;> decide) (Off.refl _ _)
    exact (taken.trans counts).event_logged (by decide) _ _ _ _ _

theorem State.takeIn_stray_core {ep : Nat} (p : Packet) (h : ep < 256) :
    CountedStray s ((s.takeIn ep p).stray ep p) F.CP_ERRCNT_STRAY ep ep p :=
  s.takeIn_stray ep p (by rw [State.stray, if_pos h]) (.inl rfl)

theorem State.takeIn_stray_host {ep : Nat} (p : Packet) (h : ¬ ep < 256) :
    CountedStray s ((s.takeIn ep p).stray ep p) F.AL_EPERR_STRAY (ep - 286) ep p :=
  s.takeIn_stray ep p (by rw [State.stray, if_neg h]) (.inr rfl)

theorem State.cmdOf_same (h : v.cmds = s.cmds) (i tag : Nat) : v.cmdOf i tag = s.cmdOf i tag :=
  congrArg (fun t => t.find? (fun c => c.core == i && !c.done && c.coll.isNone && cmdTag c == tag && !c.pkts.isEmpty)) h

/-- A reply that no command of the core awaits is stray. -/
theorem State.takeReply_unawaited {ep : Nat} {p : Packet} (h : s.cmdOf ep (pget p H.TAG) = none) : s.takeReply ep p = s.stray ep p := by
  unfold State.takeReply State.takeAmReply State.takeAnswer
  rw [h]
  exact ite_self _

/-- Whether every answer at a core port is stray rests on RK_PARTJOB, the partitions and the stopped clocks. -/
theorem Off.answersStray {M : Nat} (h : Off M s v) (regs : M &&& replyReads = 0) (parts : M.testBit (storeBit .parts) = false)
    (clocks : M.testBit (storeBit .clkStopped) = false) (i : Nat) : v.answersStray i = s.answersStray i := by
  unfold State.answersStray State.partOfCore State.partOfCluster State.part State.clockRuns State.flag
  rw [h.stores .parts parts, h.stores .clkStopped clocks]
  simp only [h.get_replyReads regs F.RK_PARTJOB_VALID _ (by decide), h.get_replyReads regs F.RK_PARTJOB_CLUSTERS _ (by decide)]

/-- A reply at a core port is stray, or one of its commands takes it. -/
theorem State.judgeReply_core {op ep : Nat} (p : Packet) (known : op ∈ [Op.GET_RSP, Op.ATOM_RSP, Op.ACK, Op.NACK, Op.AM_REPLY])
    (core : ep < 256) : s.judgeReply op ep p = if s.answersStray ep then s.stray ep p else s.takeReply ep p := by
  have accepts : acceptsReply ep op = true := by
    simp only [acceptsReply, core, if_true, decide_eq_true_eq]
    revert known
    generalize op = o
    revert o
    decide
  rw [State.judgeReply, accepts, if_neg (by decide), if_neg (by omega), if_neg (by omega)]

theorem strayRepliesAreCounted : Claims.StrayRepliesAreCounted := by
  intro s ep p op c known reaches core why
  refine ⟨_, exec_reply known reaches.1, ?_⟩
  have taken := s.takeIn_off ep.toNat p
  have dropped : s.reply op ep.toNat p = (s.takeIn ep.toNat p).stray ep.toNat p := by
    rw [State.reply_reaches (opcode_of_replies known) reaches (by omega), State.judgeReply_core p (opcode_of_replies known) core,
      taken.answersStray (by decide) (by decide) (by decide)]
    rcases why with unawaited | closed
    · rw [State.takeReply_unawaited ((State.cmdOf_same (taken.stores .cmds (by decide)) _ _).trans unawaited)]
      exact ite_self _
    · rw [if_pos closed]
  rw [dropped]
  obtain ⟨off, count, logged⟩ := State.takeIn_stray_core (s := s) p core
  refine ⟨off.stores .cmds (by decide), off.sameBytes (by decide), count, ?_⟩
  simpa only [epWindow, epUnit, core, if_true] using logged

/-! ### The other endpoints -/

theorem State.countHeader_eq (s : State) (ep : Nat) :
    s.countHeader ep = s.sat (Claims.headerErrors s ep).1 (Claims.headerErrors s ep).2 := by
  unfold State.countHeader Claims.headerErrors
  split
  · rfl
  · split
    · rfl
    · split <;> rfl

/-- The header-error counters of the endpoints. -/
theorem headerErrors_mem (s : State) (ep : Nat) :
    (Claims.headerErrors s ep).1 ∈ [F.CP_ERRCNT_HEADER, F.SP_PKTERR_HEADER, F.OP_ERRCNT_HEADER, F.AL_EPERR_HEADER] := by
  unfold Claims.headerErrors
  split
  · simp
  · split
    · simp
    · split <;> simp

theorem headerErrors_apart {f : Fld} (h : f ∈ [F.CP_ERRCNT_HEADER, F.SP_PKTERR_HEADER, F.OP_ERRCNT_HEADER, F.AL_EPERR_HEADER]) :
    apart F.TM_LOGSTAT_DROPPED f = true ∧ apart f F.RK_EPOCH_PARITY = true ∧ f.lo + f.width ≤ 64
      ∧ (0xc60000000000000000000000200 : Nat).testBit f.reg.num = false := by
  revert h
  revert f
  decide

theorem Off.headerErrors {M : Nat} (h : Off M s v) (hM : M &&& replyReads = 0) (ep : Nat) :
    Claims.headerErrors v ep = Claims.headerErrors s ep := by
  unfold Claims.headerErrors
  rw [h.physOf hM]

/-- What the discarding of a packet that is taken does. -/
theorem State.takeIn_discards {c : Instr} (s : State) (e : Event) (ep : Nat) (p : Packet)
    (h : exec c s = .next ((s.takeIn ep p).discardHead e ep p).flow) : Claims.Discards c s ep e p := by
  have taken := s.takeIn_off ep p
  have discard := Off.discardHead (Nat.and_self _) e ep p (Off.refl _ (s.takeIn ep p))
  have off := taken.trans discard
  obtain ⟨ne, parity, width, other⟩ := headerErrors_apart (headerErrors_mem s ep)
  refine ⟨_, h, off.sameBytes (by decide), off.stores .cmds (by decide), off.stores .outWait (by decide),
    off.stores .hostRx (by decide), ?_, ?_⟩
  · rw [State.discardHead, State.headEvent, State.countHeader_eq, taken.headerErrors (by decide),
      State.get_event_ne _ _ _ _ _ _ _ _ _ (.inl ne), State.get_sat_self _ _ _ _ parity width, taken.get _ _ (by decide) other]
    rfl
  · have counts := Off.countHeader (Nat.and_self _) ep (Off.refl _ (s.takeIn ep p))
    exact (taken.trans counts).headEvent_logged (by decide) e _ _ p

theorem repliesElsewhereAreJudged : Claims.RepliesElsewhereAreJudged := by
  intro s ep p op c known reaches
  have ops := opcode_of_replies known
  have taken := s.takeIn_off ep.toNat p
  have judged (port : ¬ (280 ≤ ep.toNat ∧ ep.toNat < 286)) :
      exec c s = .next ((s.takeIn ep.toNat p).judgeReply op ep.toNat p).flow := by
    rw [exec_reply known reaches.1, State.reply_reaches ops reaches port]
  refine ⟨fun host answers awaited => ⟨_, judged (by omega), ?_⟩, fun host answers unawaited => ⟨_, judged (by omega), ?_⟩,
    fun alorn answers unnamed => ⟨_, judged (by omega), ?_⟩, fun refused => s.takeIn_discards _ _ _ ?_⟩
  · have accepts : acceptsReply ep.toNat op = true := by simp [acceptsReply, host, answers]
    have kept : (s.takeIn ep.toNat p).judgeReply op ep.toNat p = { s.takeIn ep.toNat p with
        hostTags := (s.takeIn ep.toNat p).hostTags.erase (pget p H.TAG), hostRx := (s.takeIn ep.toNat p).hostRx ++ [p] } := by
      rw [State.judgeReply, accepts, if_neg (by decide), if_pos host, State.hostReply, taken.stores .hostTags (by decide)]
      exact if_pos (List.contains_iff_mem.2 awaited)
    rw [kept]
    refine ⟨taken.sameBytes (by decide), congrArg (· ++ [p]) (taken.stores .hostRx (by decide)), ?_⟩
    exact congrArg (List.erase · _) (taken.stores .hostTags (by decide))
  · have accepts : acceptsReply ep.toNat op = true := by simp [acceptsReply, host, answers]
    have dropped : (s.takeIn ep.toNat p).judgeReply op ep.toNat p = (s.takeIn ep.toNat p).stray ep.toNat p := by
      rw [State.judgeReply, accepts, if_neg (by decide), if_pos host, State.hostReply, taken.stores .hostTags (by decide), host]
      exact if_neg (fun h => unawaited (List.contains_iff_mem.1 h))
    obtain ⟨off, count, logged⟩ := State.takeIn_stray_host (s := s) (ep := ep.toNat) p (by omega)
    rw [dropped]
    refine ⟨off.sameBytes (by decide), off.stores .hostRx (by decide), off.stores .hostTags (by decide), ?_, ?_⟩
    · simpa only [host] using count
    · rw [host] at logged ⊢
      exact logged
  · have accepts : acceptsReply ep.toNat op = true := by simp [acceptsReply, alorn, answers]
    have dropped : (s.takeIn ep.toNat p).judgeReply op ep.toNat p = (s.takeIn ep.toNat p).stray ep.toNat p := by
      rw [State.judgeReply, accepts, if_neg (by decide), if_neg (by omega), if_pos alorn, State.relayOut,
        taken.stores .alorn (by decide), alorn]
      exact if_neg (by simpa using unnamed)
    obtain ⟨off, count, logged⟩ := State.takeIn_stray_host (s := s) (ep := ep.toNat) p (by omega)
    rw [dropped]
    refine ⟨off.sameBytes (by decide), off.stores .alorn (by decide), ?_, ?_⟩
    · simpa only [alorn] using count
    · rw [alorn] at logged ⊢
      exact logged
  · have refuses : acceptsReply ep.toNat op = false := by
      unfold acceptsReply
      rcases refused with ⟨low, high⟩ | ⟨host, other⟩ | ⟨alorn, other⟩
      · simp [show ¬ ep.toNat < 256 by omega, show ep.toNat ≠ 286 by omega, show ep.toNat ≠ 287 by omega]
      · simpa [host] using other
      · simpa [alorn] using other
    rw [judged (by omega), State.judgeReply, refuses]
    rfl

end Sys2Proof.Machine

/-! An answer to a command in progress (R148, R150, R158). -/

namespace Sys2Proof.Machine

open Safety

variable {s v : State}

/-! ### The packet that an answer is for -/

/-- The packet that is answered has the status of its answer. -/
theorem answerPkt_answers {pkts rest : List PktRec} {addr st : Nat} {rec : PktRec} (h : answerPkt pkts addr st = some (rec, rest)) :
    ∃ k ∈ rest, k.pkt = rec.pkt ∧ k.answer = some st := by
  induction pkts generalizing rest with
  | nil => exact absurd h (by simp [answerPkt])
  | cons q t ih =>
    unfold answerPkt at h
    split at h
    · obtain ⟨rfl, rfl⟩ := Prod.mk.inj (Option.some.inj h)
      exact ⟨_, List.mem_cons_self, rfl, rfl⟩
    · obtain ⟨⟨found, others⟩, tail, same⟩ := Option.map_eq_some_iff.1 h
      obtain ⟨rfl, rfl⟩ := Prod.mk.inj same
      obtain ⟨k, mem, answered⟩ := ih tail
      exact ⟨k, List.mem_cons_of_mem _ mem, answered⟩

/-- Whatever its status, an answer is for the same packet and leaves the same packets unanswered. -/
theorem answerPkt_status {pkts rest : List PktRec} {addr st : Nat} {rec : PktRec} (st' : Nat)
    (h : answerPkt pkts addr st = some (rec, rest)) : ∃ rest', answerPkt pkts addr st' = some (rec, rest')
      ∧ rest'.any (fun k => k.sent && k.answer.isNone) = rest.any (fun k => k.sent && k.answer.isNone) := by
  induction pkts generalizing rest with
  | nil => exact absurd h (by simp [answerPkt])
  | cons q t ih =>
    unfold answerPkt at h ⊢
    split at h
    · next here =>
      obtain ⟨rfl, rfl⟩ := Prod.mk.inj (Option.some.inj h)
      rw [if_pos here]
      exact ⟨_, rfl, by simp⟩
    · next other =>
      obtain ⟨⟨found, others⟩, tail, same⟩ := Option.map_eq_some_iff.1 h
      obtain ⟨rfl, rfl⟩ := Prod.mk.inj same
      obtain ⟨rest', answered, open'⟩ := ih tail
      rw [if_neg other, answered]
      exact ⟨_, rfl, by simp [open']⟩

/-! ### The command that it is for -/

/-- Whether an answer brings bytes to its command. -/
def answerWrites (c : Cmd) (op : Nat) (p : Packet) : Bool :=
  (op = Op.GET_RSP && 0 < (payload p).length) || (op = Op.ATOM_RSP && dflag c.words D.STORE)

/-- Where the bytes of an answer go. -/
def answerTarget (c : Cmd) (op : Nat) (rec : PktRec) : Nat :=
  if op = Op.GET_RSP then getTarget c.words rec.offset else dget c.words D.LOCAL_ADDR

/-- Whether a lost bank keeps the bytes of an answer from its command (R205). -/
def answerLost (c : Cmd) (op : Nat) (p : Packet) (rec : PktRec) : Bool :=
  answerWrites c op p && targetLost c (answerTarget c op rec) (if op = Op.GET_RSP then (payload p).length else 8)

/-- The status that an answer gives its packet (R158, R205). -/
def answerStatus (c : Cmd) (op : Nat) (p : Packet) (rec : PktRec) : Nat :=
  if answerLost c op p rec then St.NO_OWNER
  else if statusOf p = 0 && (op = Op.GET_RSP || op = Op.ATOM_RSP) && hasPoison p then St.POISON else statusOf p

/-- The bytes that an answer brings to its command. -/
def State.answerStored (s : State) (i op : Nat) (p : Packet) (c : Cmd) (rec : PktRec) : State :=
  if !answerWrites c op p || answerLost c op p rec then s
  else if op = Op.GET_RSP then s.writePayload i (answerTarget c op rec) (payload p) (flitPoison p)
  else s.writePayload i (answerTarget c op rec) ((payload p ++ List.replicate 8 0).take 8) (flitPoison p)

/-- A command after an answer of opcode `op` and status `st`. -/
def Cmd.answeredBy (c : Cmd) (op : Nat) (p : Packet) (st : Nat) : Cmd :=
  let pkts := match answerPkt c.pkts (pget p H.ADDRESS) st with | some r => r.2 | none => c.pkts
  let c' := { c with pkts := pkts, origRefused := c.origRefused || (op = Op.NACK && st = St.DUPLICATE) }
  let c' := if op = Op.ATOM_RSP then { c' with result := BitVec.ofNat 64 (payloadNat p 8) } else c'
  let c' := if dget c.words D.CMD = 3 then
      { c' with mcFailed := c'.mcFailed + mergedFailed p st
                result := if st != 0 && c'.result = 0 then mergedResult p st else c'.result } else c'
  if st != 0 then c'.noteStatus st else c'

theorem Cmd.answeredBy_keeps {c : Cmd} {p : Packet} {st : Nat} {rec : PktRec} {pkts : List PktRec} (op : Nat)
    (h : answerPkt c.pkts (pget p H.ADDRESS) st = some (rec, pkts)) :
    (c.answeredBy op p st).pkts = pkts ∧ (c.answeredBy op p st).same c = true ∧ (c.answeredBy op p st).done = c.done := by
  unfold Cmd.answeredBy Cmd.noteStatus Cmd.same
  rw [h]
  dsimp only
  repeat' split
  all_goals simp

/-- A command with a packet that still waits for its answer stays in progress. -/
theorem State.afterAnswer_open {c : Cmd} (h : c.pkts.any (fun k => k.sent && k.answer.isNone) = true) : s.afterAnswer c = s.setCmd c := by
  have waits : allAnswered c = false := by
    simp only [allAnswered, List.all_eq_false, List.any_eq_true] at h ⊢
    obtain ⟨k, mem, unanswered⟩ := h
    exact ⟨k, mem, by simpa [Option.isNone_iff_eq_none] using unanswered⟩
  rw [State.afterAnswer, waits]
  simp

theorem State.mem_setCmd (s : State) (c : Cmd) : c ∈ (s.setCmd c).cmds := by
  unfold State.setCmd
  split
  · next same =>
    obtain ⟨d, mem, hd⟩ := List.any_eq_true.1 same
    exact List.mem_map.2 ⟨d, mem, by rw [if_pos hd]⟩
  · simp

/-- The answers that a command of a kind awaits (R148). -/
def answerFits (op cmd : Nat) : Prop :=
  (op = Op.GET_RSP ∧ cmd = 2) ∨ (op = Op.ATOM_RSP ∧ (cmd = 4 ∨ cmd = 5)) ∨ (op = Op.ACK ∧ (cmd = 1 ∨ cmd = 6))
    ∨ (op = Op.NACK ∧ cmd < 7)

/-- An answer that its command awaits brings its bytes, then its record. -/
theorem State.takeAnswer_fits {i op : Nat} {p : Packet} {c : Cmd} {rec : PktRec} {rest : List PktRec}
    (found : s.cmdOf i (pget p H.TAG) = some c) (fits : answerFits op (dget c.words D.CMD))
    (first : answerPkt c.pkts (pget p H.ADDRESS) 0 = some (rec, rest)) :
    s.takeAnswer i op p = (s.answerStored i op p c rec).afterAnswer (c.answeredBy op p (answerStatus c op p rec)) := by
  have notAm : dget c.words D.CMD ≠ 0x10 := by
    unfold answerFits at fits
    omega
  unfold State.takeAnswer
  rw [found]
  change (match answerPkt c.pkts (pget p H.ADDRESS) 0 with | none => _ | some (_, _) => _) = _
  rw [first]
  refine (if_neg ?_).trans (if_neg notAm)
  simp only [answerFits] at fits
  simp only [Bool.or_eq_true, Bool.not_eq_true', Bool.or_eq_false_iff, Bool.and_eq_false_imp, Bool.and_eq_true, decide_eq_true_eq,
    bne_eq_false_iff_eq, decide_eq_false_iff_not, notAm, false_and, or_false]
  omega

/-- Where no bank was lost, an answer without poison has its own status and brings all its bytes. -/
theorem answerLost_of_held {c : Cmd} (op : Nat) (p : Packet) (rec : PktRec) (held : c.lostBanks = []) : answerLost c op p rec = false := by
  simp [answerLost, targetLost, held]

theorem answerStatus_of_held {c : Cmd} {p : Packet} (op : Nat) (rec : PktRec) (held : c.lostBanks = []) (sound : hasPoison p = false) :
    answerStatus c op p rec = statusOf p := by
  simp [answerStatus, answerLost_of_held op p rec held, sound]

/-- A GET_RSP without poison stores its bytes where its command says. -/
theorem State.answerStored_get {i : Nat} {p : Packet} {c : Cmd} (rec : PktRec) (held : c.lostBanks = []) (sound : hasPoison p = false) :
    (s.answerStored i Op.GET_RSP p c rec).mem = Memory.writeList s.mem (memBase i + getTarget c.words rec.offset) (payload p) := by
  unfold State.answerStored
  rw [answerLost_of_held _ _ _ held, Bool.or_false]
  by_cases some' : 0 < (payload p).length
  · rw [show answerWrites c Op.GET_RSP p = true by simp [answerWrites, some'], if_neg (by decide), if_pos rfl]
    exact s.writePayload_mem _ _ _ (flitPoison_sound sound)
  · have none' : payload p = [] := List.eq_nil_of_length_eq_zero (by omega)
    rw [show answerWrites c Op.GET_RSP p = false by simp [answerWrites, none', Op.GET_RSP, Op.ATOM_RSP], none', if_pos rfl]
    rfl

/-- An ACK or NACK brings no bytes. -/
theorem State.answerStored_plain {op i : Nat} {p : Packet} {c : Cmd} (rec : PktRec) (h : op = Op.ACK ∨ op = Op.NACK) :
    s.answerStored i op p c rec = s := by
  have nothing : answerWrites c op p = false := by rcases h with rfl | rfl <;> rfl
  rw [State.answerStored, nothing]
  rfl

/-- An answer at a core port that works is given to the command it names. -/
theorem exec_answer {op : Nat} {ep : BitVec 9} {p : Packet} {i : Instr}
    (h : (op, i) ∈ [(Op.GET_RSP, Instr.getRspArrival ep p), (Op.ATOM_RSP, .atomRspArrival ep p), (Op.ACK, .ackArrival ep p),
      (Op.NACK, .nackArrival ep p)]) (returns : Claims.Returns op s ep p) :
    exec i s = .next ((s.takeIn ep.toNat p).takeAnswer ep.toNat op p).flow := by
  obtain ⟨reaches, core, works⟩ := returns
  have known : (op, i) ∈ Claims.replies ep p := List.mem_append_left [(Op.AM_REPLY, Instr.amReplyArrival ep p)] h
  have ops := opcode_of_replies known
  have notAm : pget p H.OPCODE ≠ Op.AM_REPLY := by
    have four : op ∈ [Op.GET_RSP, Op.ATOM_RSP, Op.ACK, Op.NACK] := List.mem_map_of_mem (f := Prod.fst) h
    rw [reaches.2.2.2.2.2]
    revert four
    generalize op = o
    revert o
    decide
  have works' : (s.takeIn ep.toNat p).answersStray ep.toNat = false :=
    ((s.takeIn_off ep.toNat p).answersStray (by decide) (by decide) (by decide) _).trans works
  rw [exec_reply known reaches.1, State.reply_reaches ops reaches (by omega), State.judgeReply_core p ops core, works',
    if_neg (by decide), State.takeReply, if_neg notAm, reaches.2.2.2.2.2]

theorem repliesAnswerTheirPacket : Claims.RepliesAnswerTheirPacket := by
  intro s ep p op i c rec rest known returns found fits first held sound wf unanswered
  refine ⟨_, exec_answer known returns, ?_⟩
  have taken := s.takeIn_off ep.toNat p
  obtain ⟨pkts, answered, still⟩ := answerPkt_status (statusOf p) first
  obtain ⟨records, same, done⟩ := Cmd.answeredBy_keeps op answered
  rw [State.takeAnswer_fits ((State.cmdOf_same (taken.stores .cmds (by decide)) _ _).trans found) fits first,
    answerStatus_of_held op rec held sound, State.afterAnswer_open (by rw [records, still]; exact unanswered)]
  have set := Off.setCmd (Nat.and_self _) (c.answeredBy op p (statusOf p))
    (Off.refl _ ((s.takeIn ep.toNat p).answerStored ep.toNat op p c rec))
  refine ⟨⟨_, State.mem_setCmd _ _, same, done, ?_⟩, fun get => ?_, fun plain => ?_⟩
  · rw [records]
    exact answerPkt_answers answered
  · subst get
    have mem := (set.stores .mem (by decide)).trans ((State.answerStored_get rec held sound).trans (by rw [s.takeIn_mem]))
    exact bytes_of_writeList wf mem
  · rw [State.answerStored_plain rec plain] at set ⊢
    exact (taken.trans set).sameBytes (by decide)

/-- Settles O26: stray replies, answers to a command in progress, and replies at the other endpoints. -/
theorem repliesFindTheirCommand : Obligations.RepliesFindTheirCommand :=
  ⟨strayRepliesAreCounted, repliesAnswerTheirPacket, repliesElsewhereAreJudged⟩

end Sys2Proof.Machine

/-! Room counts of tree edges (chapters 9 and 10). -/

namespace Sys2Proof.Machine

open Safety

variable {s t : State}

/-! ### What a sender has seen of each edge -/

/-- Each edge's sender has seen the room counts that it had seen. -/
def SeenAs (s t : State) : Prop := ∀ k, (t.roomAt k).seen = (s.roomAt k).seen

theorem SeenAs.refl (s : State) : SeenAs s s := fun _ => rfl

theorem SeenAs.trans {u : State} (h : SeenAs s t) (k : SeenAs t u) : SeenAs s u := fun n => (k n).trans (h n)

theorem SeenAs.of_rooms (h : t.rooms = s.rooms) : SeenAs s t := fun k => by rw [State.roomAt, State.roomAt, h]

/-- What leaves the room counts leaves what is seen of them. -/
theorem SeenAs.of_off {M : Nat} (h : Off M s t) (rooms : M.testBit (storeBit .rooms) = false) : SeenAs s t :=
  .of_rooms (h.stores .rooms rooms)

theorem SeenAs.ite {c : Prop} [Decidable c] {a b : State} (ha : SeenAs s a) (hb : SeenAs s b) : SeenAs s (if c then a else b) := by
  split
  · exact ha
  · exact hb

theorem SeenAs.foldl {α : Type} {g : State → α → State} (h : ∀ t a, SeenAs t (g t a)) (l : List α) (s : State) :
    SeenAs s (l.foldl g s) := by
  induction l generalizing s with
  | nil => exact .refl s
  | cons a l ih => exact (h s a).trans (ih _)

theorem State.put_seen (s : State) (f : Fld) (n x : Nat) : SeenAs s (s.put f n x) := .of_rooms rfl

theorem State.sat_seen (s : State) (f : Fld) (n k : Nat) : SeenAs s (s.sat f n k) := s.put_seen f n _

/-- The start of a move counts moves, and leaves what is seen. -/
theorem State.startMove_seen (s : State) (k : Nat) : SeenAs s (s.startMove k) := by
  intro j
  unfold State.startMove State.setRoom State.roomAt
  by_cases h : j = k
  · rw [h, getD_assign_self]
  · rw [lookup_assign_ne _ _ _ _ _ h]

theorem State.launch_seen (s : State) (n : Nat) (g : Gate) (p : Packet) : SeenAs s (s.launch n g p) := by
  have pushed : SeenAs s (s.pushFifo n p) := .of_off (Off.pushFifo (Nat.and_self _) n p (Off.refl _ s)) (by decide)
  unfold State.launch
  cases g with
  | free => exact pushed
  | window w => exact pushed.trans (.of_rooms rfl)
  | room k => exact pushed.trans (State.startMove_seen _ k)

/-- What an endpoint sends starts at most a move. -/
theorem State.emit_seen (s : State) (n : Nat) (g : Gate) (p : Packet) (q : Nat) : SeenAs s (s.emit n g p q) := by
  unfold State.emit
  refine .ite ((s.launch_seen n g p).trans (.of_off (Off.noteTurn (Nat.and_self _) n q (Off.refl _ _)) (by decide))) ?_
  cases g with
  | free => exact .of_rooms rfl
  | window w => exact .ite (.of_rooms rfl) (.of_rooms rfl)
  | room k => exact .of_rooms rfl

theorem State.countRoute_seen (s : State) (ep : Nat) : SeenAs s (s.countRoute ep) :=
  .of_off (Off.countRoute (Nat.and_self _) ep (Off.refl _ s)) (by decide)

theorem State.nack_seen (s : State) (ep : Nat) (p : Packet) (st : Nat) : SeenAs s (s.nack ep p st) := by
  unfold State.nack State.answer State.sendReply
  refine SeenAs.trans (t := s.drawn) (.of_rooms rfl) ?_
  split
  · exact State.emit_seen _ _ _ _ _
  · exact State.emit_seen _ _ _ _ _
  · exact State.countRoute_seen _ _
  · exact State.countRoute_seen _ _

/-! ### Tree packets that leave a unit -/

theorem State.releaseFor_seen (s : State) (p src : Nat) (pkt : Packet) : SeenAs s (s.releaseFor p src pkt) :=
  .of_off (Off.releaseFor (Nat.and_self _) p src pkt (Off.refl _ s)) (by decide)

/-- A packet that a port does not send is counted, and answered where it is a request. -/
theorem State.portRefuse_seen (s : State) (p src st : Nat) (pkt : Packet) : SeenAs s (s.portRefuse p src st pkt) := by
  have counted : SeenAs s ((s.releaseFor p src pkt).sat F.OP_ERRCNT_ROUTE p) := 
    (s.releaseFor_seen p src pkt).trans (State.sat_seen _ _ _ _)
  exact .ite (counted.trans (State.nack_seen _ _ _ _)) counted

theorem State.loopRefuse_seen (s : State) (p src : Nat) (pkt : Packet) : SeenAs s (s.loopRefuse p src pkt) := by
  have logged : SeenAs s (s.headEvent evRouteLoop 7 (s.physOf (opposite (s.logical p))) pkt) :=
    .of_off (Off.headEvent (Nat.and_self _) _ _ _ _ (Off.refl _ s)) (by decide)
  have counted := (logged.trans (State.releaseFor_seen _ p src pkt)).trans
    (State.sat_seen _ F.OP_ERRCNT_ROUTE (s.physOf (opposite (s.logical p))) 1)
  exact .ite (counted.trans (State.nack_seen _ _ _ _)) counted

theorem State.treeToFibre_seen (s : State) (l : Nat) (p : Packet) : SeenAs s (s.treeToFibre l p) := by
  unfold State.treeToFibre State.egress
  refine .ite (.refl s) (.ite (State.portRefuse_seen _ _ _ _ _) ?_)
  split
  · exact State.loopRefuse_seen _ _ _ _
  · exact .of_rooms rfl

/-- A tree packet that leaves a unit leaves what its sender has seen. -/
theorem State.sendTree_seen (s : State) (u edge : Nat) (p : Packet) : SeenAs s (s.sendTree u edge p) := by
  unfold State.sendTree State.portSend
  exact .ite (.of_off (Off.requestOutput (Nat.and_self _) _ _ _ _ _ (Off.refl _ s)) (by decide))
    (.ite (.ite (.of_rooms rfl) (State.treeToFibre_seen _ _ _)) (State.emit_seen _ _ _ _ _))

/-! ### Sums and copies -/

theorem State.sendSum_seen (s : State) (n : Node) (key : Nat) : SeenAs s (s.sendSum n key) := by
  unfold State.sendSum
  refine .ite (.refl s) (SeenAs.trans (SeenAs.trans ?_ (State.put_seen _ _ _ _)) (State.sendTree_seen _ _ _ _))
  exact .ite (.refl s) (s.startMove_seen _)

theorem State.sendSums_seen (s : State) (n : Node) : SeenAs s (s.sendSums n) := by
  have each (t : State) (e : Nat × Nat) : SeenAs t (t.sendSum n e.2) := t.sendSum_seen n e.2
  unfold State.sendSums
  exact SeenAs.foldl each _ s

theorem State.finishMerge_seen (s : State) (u k : Nat) (m : Merge) : SeenAs s (s.finishMerge u k m) := by
  have freed : SeenAs s { s with merges := remove s.merges k } := .of_rooms rfl
  unfold State.finishMerge
  refine freed.trans ?_
  generalize ({ s with merges := remove s.merges k } : State) = v
  dsimp only
  split
  · exact .refl v
  · refine .ite (.refl v) (SeenAs.trans (t := v.drawn) (.of_rooms rfl) (State.sendTree_seen _ _ _ _))

theorem State.answerBeyond_seen (s : State) (l k : Nat) (m : Merge) : SeenAs s (s.answerBeyond l k m) := by
  unfold State.answerBeyond State.mergeAnswer
  split
  · exact .refl s
  · exact .ite (State.finishMerge_seen _ _ _ _) (.of_rooms rfl)

theorem State.sendCopy_seen (s : State) (n : Node) (out : Nat) (p : Packet) : SeenAs s (s.sendCopy n out p) :=
  SeenAs.trans (.ite (.refl s) (.ite (.refl s) (s.startMove_seen _))) (State.sendTree_seen _ _ _ _)

theorem State.copyOut_seen (s : State) (n : Node) (k out : Nat) : SeenAs s (s.copyOut n k out) := by
  unfold State.copyOut
  split
  · exact .refl s
  · refine .ite (.refl s) (.ite (.ite ?_ (.ite (.refl s) (.ite ?_ ?_))) ?_)
    · dsimp only
      split
      · exact SeenAs.trans (.of_rooms rfl) (State.answerBeyond_seen _ _ _ _)
      · exact .of_rooms rfl
    · exact SeenAs.trans (.of_rooms rfl) (State.sendCopy_seen _ _ _ _)
    · exact SeenAs.trans (.of_rooms rfl) (State.sendCopy_seen _ _ _ _)
    · split
      · exact .refl s
      · exact .ite (.refl s) (.ite (.of_rooms rfl) (.of_rooms rfl))

theorem State.sendBranches_seen (s : State) (n : Node) : SeenAs s (s.sendBranches n) := by
  refine .foldl (fun s out => ?_) _ s
  split
  · exact .refl s
  · split
    · exact .refl s
    · exact .ite (.refl s) (SeenAs.trans (.of_rooms rfl) (State.sendCopy_seen _ _ _ _))

theorem State.forkCopy_seen (s : State) (n : Node) (k : Nat) : SeenAs s (s.forkCopy n k) :=
  (SeenAs.foldl (fun s out => s.copyOut_seen n k out) _ s).trans (State.sendBranches_seen _ n)

/-! ### A room count -/

/-- A count of the generation of its edge is kept; the moves that it invites leave it. -/
theorem State.roomArrive_seen {u edge g count : Nat} {k : RoomKind} {e : Nat} {gen : Bool} {n : Node} (node : s.node u e g = some n)
    (same : gen = s.generation u g) : ((s.roomArrive u edge g k e count gen).roomAt (n.room edge k)).seen = count := by
  have kept : ((s.setRoom (n.room edge k) { s.roomAt (n.room edge k) with seen := count }).roomAt (n.room edge k)).seen = count :=
    congrArg Room.seen (getD_assign_self _ _ _ _)
  refine Eq.trans ?_ kept
  unfold State.roomArrive
  rw [node]
  dsimp only
  rw [if_neg (by simp [same])]
  cases k with
  | contribution => exact SeenAs.ite (State.sendSums_seen _ n) (.refl _) _
  | multicast => exact SeenAs.foldl (fun s b => s.forkCopy_seen n b) _ _ _
  | result => rfl

theorem exec_roomCountArrival {u : Unit9} {edge : Fin 8} (g : BitVec 12) (k : RoomKind) (e : Bool) (count : BitVec 4) (gen : Bool)
    (hc : s.chipReset = false) (inner : 256 ≤ unitNo u ∨ edge.val ≠ 7) :
    exec (.roomCountArrival u edge g k e count gen) s
      = .next (if s.shownCount (unitNo u) edge.val (b2n e) g.toNat k count.toNat then
          s.roomArrive (unitNo u) edge.val g.toNat k (b2n e) count.toNat gen else s).flow := by
  have ran : exec (.roomCountArrival u edge g k e count gen) s = execRoomCountArrival u edge g k e count gen s := rfl
  have notCore : (decide (unitNo u < 256) && decide (edge.val = 7)) = false := by
    rcases inner with h | h
    · simp [Nat.not_lt.2 h]
    · simp [h]
  rw [ran, execRoomCountArrival, live_running hc]
  dsimp only
  rw [notCore, if_neg (by decide)]

/-- A count of another generation leaves the state as it is. -/
theorem State.roomArrive_other {u edge g count : Nat} {k : RoomKind} {e : Nat} {gen : Bool} (other : gen ≠ s.generation u g) :
    s.roomArrive u edge g k e count gen = s := by
  unfold State.roomArrive
  split
  · rfl
  · rw [if_pos (by simpa using other)]

theorem roomCountsAreKept : Claims.RoomCountsAreKept := by
  intro s u edge g e count gen n hc node inner
  refine ⟨fun same => ⟨fun shown => ?_, fun child shown => ?_⟩,
    fun k same shown => ⟨_, exec_roomCountArrival g k e count gen hc inner, ?_⟩, fun k unfit => ?_⟩
  · rw [exec_roomCountArrival g .result e count gen hc inner, if_pos shown, State.roomArrive, node]
    dsimp only
    rw [if_neg (by simp [same])]
  · rw [exec_roomCountArrival g .contribution e count gen hc inner, if_pos shown, State.roomArrive, node]
    dsimp only
    rw [if_neg (by simp [same]), if_neg child]
  · rw [if_pos shown]
    exact State.roomArrive_seen node same
  · rw [exec_roomCountArrival g k e count gen hc inner]
    rcases unfit with other | hidden
    · rw [State.roomArrive_other other, ite_self]
    · rw [if_neg (by simp [hidden])]

end Sys2Proof.Machine

/-! Tree packets at their node, and multicast copies (chapters 4 and 9). -/

namespace Sys2Proof.Machine

open Safety

variable {s t : State}

/-! ### Sets of outputs -/

theorem setBit_ne_zero (n j : Nat) : setBit n j ≠ 0 := by
  unfold setBit
  split
  · next h =>
    rintro rfl
    simp at h
  · have := Nat.two_pow_pos j
    omega

/-- A node with outputs has a set of outputs that is not empty. -/
theorem foldl_setBit_ne_zero {l : List Nat} (h : l ≠ []) (n : Nat) : l.foldl setBit n ≠ 0 := by
  induction l generalizing n with
  | nil => exact absurd rfl h
  | cons j l ih =>
    rw [List.foldl_cons]
    by_cases last : l = []
    · rw [last]
      exact setBit_ne_zero n j
    · exact ih last _

/-! ### A tree packet at its node -/

theorem State.dropTree_off (s : State) (u inp : Nat) (p : Packet) : Off 0x10000000820000000000000000000020200 s (s.dropTree u inp p) :=
  Off.dropTree (Nat.and_self _) u inp p (Off.refl _ s)

theorem exec_treePacketArrival {u : Unit9} {inp : Fin 8} {p : Packet} (hc : s.chipReset = false)
    (arrives : s.treeArrive (unitNo u) inp.val p = some t) : exec (.treePacketArrival u inp p) s = .next t.flow := by
  have ran : exec (.treePacketArrival u inp p) s = execTreePacketArrival u inp p s := rfl
  rw [ran, execTreePacketArrival, live_running hc]
  rw [arrives]

section
variable {u inp : Nat} {p : Packet} (hh : headerBad p = false) (known : (classOf (pget p H.OPCODE)).isNone = false)
  (tree : treePacket p = true) (edge : treeEdge u inp = true) (stands : s.treeStands u inp p = true)
include hh known tree edge stands

/-- A tree packet without an entry at its unit is dropped there. -/
theorem State.treeArrive_noEntry (h : s.node u (pget p H.EPOCH) (pget p H.GROUP) = none) :
    s.treeArrive u inp p = some ((s.dropTree u inp p).noEntry u p) := by
  unfold State.treeArrive
  simp [hh, known, tree, edge, stands, h]

/-- A PUT_MC with an entry at an open unit is offered to its node. -/
theorem State.treeArrive_multicast {n : Node} (h : s.node u (pget p H.EPOCH) (pget p H.GROUP) = some n)
    (op : pget p H.OPCODE = Op.PUT_MC) (opened : s.unitOpen u = true) :
    s.treeArrive u inp p = (s.dropTree u inp p).enterNode n inp p := by
  have notUp : pget p H.OPCODE ≠ Op.RED_UP := by rw [op]; decide
  have notDown : pget p H.OPCODE ≠ Op.RED_DOWN := by rw [op]; decide
  unfold State.treeArrive
  simp only [stands, hh, known, tree, edge, h, notUp, notDown, opened, decide_false, Bool.not_true, Bool.or_false, Bool.false_and,
    Bool.false_eq_true, if_false]

end

/-- A PUT_MC from above, with a buffer and a merge entry free, takes both. -/
theorem State.enterNode_multicast {n : Node} {k mk : Nat} {p : Packet} (op : pget p H.OPCODE = Op.PUT_MC)
    (old : s.oldHolds n = false) (kids : 1 < n.kids.length) (buffer : freeKey s.mcBufs n.intakes = some k)
    (merge : freeKey s.merges n.mergeKeys = some mk) : s.enterNode n n.up p = some (s.takeMulticast n p) := by
  unfold State.enterNode
  dsimp only
  rw [if_pos op, buffer, merge, old, if_neg (by simp)]
  exact congrArg some (if_neg (by omega))

/-- The buffer waits for every output and the merge entry for an answer of each. -/
theorem State.takeMulticast_takes {n : Node} {k mk : Nat} {p : Packet} (kids : 1 < n.kids.length)
    (buffer : freeKey s.mcBufs n.intakes = some k) (merge : freeKey s.merges n.mergeKeys = some mk) :
    (∃ b, lookup (s.takeMulticast n p).mcBufs k = some b ∧ b.pkt = p ∧ b.outs = n.kids.foldl setBit 0 ∧ b.going = false)
      ∧ lookup (s.takeMulticast n p).merges mk = some ⟨n.group, n.epoch, p, n.kids.foldl setBit 0, 0, 0, 0, 0⟩ := by
  have outs : n.kids.foldl setBit 0 ≠ 0 := foldl_setBit_ne_zero (by rintro h; simp [h] at kids) 0
  unfold State.takeMulticast
  rw [buffer, merge]
  dsimp only
  rw [if_neg outs]
  exact ⟨⟨_, lookup_upsert_self _ _ _, rfl, rfl, rfl⟩, lookup_upsert_self _ _ _⟩

/-- A packet that has left where it stood and has no entry leaves its count and its record. -/
theorem State.dropTree_noEntry (s : State) (u inp : Nat) (p : Packet) : let t := (s.dropTree u inp p).noEntry u p
    t.get F.SC_ERRCNT_NOENTRY u = Claims.counted s F.SC_ERRCNT_NOENTRY u 1 ∧ SameBytes s t
      ∧ Logged s t evNoEntry 5 u (hword p.head.data 0) (hword p.head.data 1) := by
  have off := s.dropTree_off u inp p
  have noted := Off.noEntry (Nat.and_self _) u p (Off.refl _ (s.dropTree u inp p))
  refine ⟨?_, (off.trans noted).sameBytes (by decide), ?_⟩
  · rw [State.noEntry, State.get_event_ne _ _ _ _ _ _ _ _ _ (.inl (by decide)), State.get_sat_self _ _ _ _ (by decide) (by decide),
      off.get _ _ (by decide) (by decide)]
    rfl
  · have counted := off.trans (Off.sat (L := 0x800000000000) (Nat.and_self _) F.SC_ERRCNT_NOENTRY u 1 (by decide)
      (Off.refl _ (s.dropTree u inp p)))
    exact counted.event_logged (by decide) _ _ _ _ _

theorem treePacketsEnterTheirNode : Claims.TreePacketsEnterTheirNode := by
  intro s u inp p hc hh isKnown tree edge stands
  have known : (classOf (pget p H.OPCODE)).isNone = false := by
    rw [← Option.not_isSome, isKnown]
    rfl
  refine ⟨fun none' => ⟨_, exec_treePacketArrival hc (State.treeArrive_noEntry hh known tree edge stands none'),
      s.dropTree_noEntry _ _ _⟩,
    fun n k mk node op up opened old kids buffer merge => ?_⟩
  have dropped := s.dropTree_off (unitNo u) inp.val p
  rw [← (dropped.stores .mcBufs (by decide) : _ = s.mcBufs)] at buffer
  rw [← (dropped.stores .merges (by decide) : _ = s.merges)] at merge
  refine ⟨_, exec_treePacketArrival hc ((State.treeArrive_multicast hh known tree edge stands node op opened).trans ?_),
    State.takeMulticast_takes kids buffer merge⟩
  rw [up]
  rw [up] at old buffer merge
  exact State.enterNode_multicast op old kids buffer merge

/-! ### Copies -/

theorem State.sendCopy_mcBufs (s : State) (n : Node) (out : Nat) (p : Packet) : (s.sendCopy n out p).mcBufs = s.mcBufs :=
  (Off.sendCopy (Nat.and_self _) n out p (Off.refl _ s)).stores .mcBufs (by decide)

/-- A buffer without a copy left for an output is left as it is. -/
theorem State.copyOut_spared {n : Node} {k out : Nat} (h : ∀ b, lookup s.mcBufs k = some b → bit b.outs out = false) :
    s.copyOut n k out = s := by
  unfold State.copyOut
  split
  · rfl
  · next b here => rw [if_pos (by simp [h b here])]

theorem State.copyOuts_spared {n : Node} {k : Nat} {l : List Nat}
    (h : ∀ o ∈ l, ∀ b, lookup s.mcBufs k = some b → bit b.outs o = false) : l.foldl (fun s o => s.copyOut n k o) s = s := by
  induction l with
  | nil => rfl
  | cons o l ih =>
    rw [List.foldl_cons, State.copyOut_spared (h o List.mem_cons_self)]
    exact ih (fun o' ho => h o' (List.mem_cons_of_mem _ ho))

/-- A buffer's last copy in the branch buffer `bk` of its output. -/
def State.lastCopyMoved (s : State) (n : Node) (b : McBuf) (k out bk : Nat) : State :=
  { s with mcBufs := remove (upsert s.mcBufs bk ⟨n.group, n.epoch, some out, false, 0, b.order, b.pkt⟩) k }

/-- The last copy of a buffer goes to its branch buffer where that is free. -/
theorem State.copyOut_last {n : Node} {b : McBuf} {k out bk : Nat} (here : lookup s.mcBufs k = some b) (still : b.going = false)
    (asked : bit b.outs out = true) (first : s.olderWaits n b out = false) (kids : 1 < n.kids.length)
    (branch : n.branchBuf out = some bk) (free : lookup s.mcBufs bk = none) (last : clearBit b.outs out = 0) :
    s.copyOut n k out = s.lastCopyMoved n b k out bk := by
  unfold State.copyOut
  rw [here]
  dsimp only
  rw [still, asked, first, if_neg (by decide), if_neg (by omega), branch]
  dsimp only
  rw [free, if_neg (by decide), if_pos last]
  rfl

/-- The buffer `k` is free and `bk` holds the copy of `p` for output `out`. -/
def CopyMoved (k bk out : Nat) (p : Packet) (t : State) : Prop :=
  lookup t.mcBufs k = none ∧ ∃ c, lookup t.mcBufs bk = some c ∧ c.pkt = p ∧ c.branch = some out

theorem State.lastCopyMoved_moved (s : State) (n : Node) (b : McBuf) {k out bk : Nat} (apart : bk ≠ k) :
    CopyMoved k bk out b.pkt (s.lastCopyMoved n b k out bk) :=
  ⟨lookup_remove_self _ _, _, (lookup_remove_ne _ _ _ apart).trans (lookup_upsert_self _ _ _), rfl, rfl⟩

/-- A branch buffer that sends keeps its packet and its branch. -/
theorem CopyMoved.sends {k bk out j : Nat} {p : Packet} {b : McBuf} (h : CopyMoved k bk out p t) (apart : j ≠ k)
    (here : lookup t.mcBufs j = some b) (n : Node) (o : Nat) :
    CopyMoved k bk out p (({ t with mcBufs := upsert t.mcBufs j { b with going := true } } : State).sendCopy n o b.pkt) := by
  obtain ⟨freed, c, there, pkt, branch⟩ := h
  unfold CopyMoved
  rw [State.sendCopy_mcBufs]
  refine ⟨(lookup_upsert_ne _ _ _ _ (Ne.symm apart)).trans freed, ?_⟩
  by_cases same : bk = j
  · subst same
    obtain rfl := Option.some.inj (there.symm.trans here)
    exact ⟨_, lookup_upsert_self _ _ _, pkt, branch⟩
  · exact ⟨c, (lookup_upsert_ne _ _ _ _ same).trans there, pkt, branch⟩

/-- The sending of branch buffers other than `k` leaves the copy where it moved. -/
theorem CopyMoved.sendBranches {k bk out : Nat} {p : Packet} {n : Node} (h : CopyMoved k bk out p t)
    (apart : ∀ o ∈ n.kids, n.branchBuf o ≠ some k) : CopyMoved k bk out p (t.sendBranches n) := by
  refine List.foldlRecOn n.kids _ h (fun v kept o child => ?_)
  split
  · exact kept
  · next j branch =>
    split
    · exact kept
    · next b here =>
      split
      · exact kept
      · exact kept.sends (fun same => apart o child (by rw [branch, same])) here n o

theorem exec_forkCopy {u : Unit9} {buf : Fin 64} {b : McBuf} {n : Node} (hc : s.chipReset = false)
    (here : lookup s.mcBufs (64 * unitNo u + buf.val) = some b) (node : s.node (unitNo u) b.epoch b.group = some n) :
    exec (.forkCopy u buf) s = .next (s.forkCopy n (64 * unitNo u + buf.val)).flow := by
  have ran : exec (.forkCopy u buf) s = execForkCopy u buf s := rfl
  rw [ran, execForkCopy, live_running hc]
  dsimp only
  rw [here]
  dsimp only
  rw [node]

theorem copiesMoveToTheirBranch : Claims.CopiesMoveToTheirBranch := by
  intro s u buf b n out bk hc here node kids child nodup still asks last first branch apart free others
  refine ⟨_, exec_forkCopy hc here node, ?_⟩
  obtain ⟨before, after, split⟩ := List.append_of_mem child
  have moved : n.kids.foldl (fun s o => s.copyOut n (64 * unitNo u + buf.val) o) s
      = s.lastCopyMoved n b (64 * unitNo u + buf.val) out bk := by
    rw [split] at nodup ⊢
    have elsewhere : ∀ o ∈ before, o ≠ out := fun o ho same => by
      rw [same] at ho
      exact (List.nodup_append.1 nodup).2.2 out ho out List.mem_cons_self rfl
    have sooner : before.foldl (fun s o => s.copyOut n (64 * unitNo u + buf.val) o) s = s := State.copyOuts_spared fun o ho c same => by
      rw [← Option.some.inj (here.symm.trans same), asks]
      simpa using elsewhere o ho
    have later : after.foldl (fun s o => s.copyOut n (64 * unitNo u + buf.val) o) (s.lastCopyMoved n b (64 * unitNo u + buf.val) out bk)
        = s.lastCopyMoved n b (64 * unitNo u + buf.val) out bk := State.copyOuts_spared fun o _ c gone => by
      rw [(s.lastCopyMoved_moved n b apart).1] at gone
      exact absurd gone (by simp)
    rw [List.foldl_append, sooner, List.foldl_cons,
      State.copyOut_last here still (by simp [asks]) first kids branch free last, later]
  rw [State.forkCopy, moved]
  exact (s.lastCopyMoved_moved n b apart).sendBranches others

/-- Settles O36: tree packets at their node, room counts, and copies. -/
theorem treePacketsMoveByRoom : Obligations.TreePacketsMoveByRoom :=
  ⟨treePacketsEnterTheirNode, roomCountsAreKept, copiesMoveToTheirBranch⟩

end Sys2Proof.Machine

/-! Packets that an optical port has received, and its receive pool (chapters 5 and 11). -/

namespace Sys2Proof.Machine

open Safety

variable {s : State}

/-! ### Arrival -/

theorem State.mem_of_arrivedAt {p vl : Nat} {pkt : Packet} {e : Pooled} (h : s.arrivedAt p vl pkt = some e) :
    e ∈ (s.port p).pool := List.mem_of_find?_eq_some h

/-- In QUARANTINE a packet on a virtual lane other than VL1 leaves the pool for nowhere. -/
theorem exec_portIngress_closed {p vl : Fin 6} {pkt : Packet} {e : Pooled} (hc : s.chipReset = false)
    (closed : s.portState p.val = PS.QUARANTINE) (lane : vl.val ≠ 1) (hop : classOf (pget pkt H.OPCODE) ≠ some .plumb)
    (ha : s.arrivedAt p.val vl.val pkt = some e) :
    exec (.portIngress p vl pkt) s = .next ((s.dropPooled p.val e).sat F.OP_ERRCNT_QDISCARD p.val) := by
  have ran : exec (.portIngress p vl pkt) s = execPortIngress p vl pkt s := rfl
  rw [ran, execPortIngress, live_running hc]
  simp [ha, hop, closed, lane]

/-- At a port out of QUARANTINE a request with a sound header takes its next resource. -/
theorem exec_portIngress_request {p vl : Fin 6} {pkt : Packet} {e : Pooled} (hc : s.chipReset = false)
    (opened : s.portState p.val ≠ PS.QUARANTINE) (hh : headerBad pkt = false)
    (hop : classOf (pget pkt H.OPCODE) = some .request) (ha : s.arrivedAt p.val vl.val pkt = some e) :
    exec (.portIngress p vl pkt) s = .next ((s.ingress p.val e pkt).poolEmptied p.val).flow := by
  have ran : exec (.portIngress p vl pkt) s = execPortIngress p vl pkt s := rfl
  rw [ran, execPortIngress, live_running hc]
  simp [ha, hh, hop, opened]

/-- A packet that queues for its next resource under no grant stands in the pool with that resource. -/
theorem State.pool_ingress_queue {p : Nat} {e : Pooled} {pkt : Packet} {n : Next} (fate : s.fate p pkt = .queue n none)
    (pooled : e ∈ (s.port p).pool) : ((s.ingress p e pkt).port p).pool
      = (s.port p).pool.replace e { e with next := n, pkt := s.entering pkt, grant := none } := by
  have replaced (pool : List Pooled) : ((s.modPort p (fun q => { q with pool := pool })).port p).pool = pool :=
    congrArg Port.pool (s.port_modPort_self p _)
  unfold State.ingress
  rw [fate]
  dsimp only
  rw [if_pos (List.contains_iff_mem.2 pooled)]
  cases n with
  | egress o =>
    dsimp only
    split
    · exact replaced _
    · exact replaced _
  | arrived => exact replaced _
  | die => exact replaced _
  | screed => exact replaced _
  | alorn => exact replaced _

/-- Keying that waits for an empty pool goes on waiting while the pool holds a packet (R300). -/
theorem State.poolEmptied_pooled {p : Nat} (h : (s.port p).pool ≠ []) : s.poolEmptied p = s := by
  unfold State.poolEmptied
  simp [h]

/-! ### The way onto the die -/

theorem exec_poolForward {p : Fin 6} {k : Nat} {e : Pooled} (hc : s.chipReset = false) (hk : (s.port p.val).pool[k]? = some e)
    (first : s.queuedBehind p.val k e = false) :
    exec (.poolForward p k) s = .next ((s.forwardPooled p.val e).poolEmptied p.val).flow := by
  have ran : exec (.poolForward p k) s = execPoolForward p k s := rfl
  rw [ran, execPoolForward, live_running hc]
  simp [hk, first]

/-- A packet for the die leaves the pool for an out FIFO with room for it. -/
theorem State.forwardPooled_die {p : Nat} {e : Pooled} (die : e.next = .die)
    (room : (flitsOf e.pkt).length ≤ s.room (s.outFifo (280 + s.logical p) e.pkt)) :
    s.forwardPooled p e = (s.dropPooled p e).emit (s.outFifo (280 + s.logical p) e.pkt) .free e.pkt := by
  unfold State.forwardPooled
  rw [die]
  simp [room, State.gateOpen]

theorem State.emit_ports (s : State) (n : Nat) (g : Gate) (p : Packet) (q : Nat) : (s.emit n g p q).ports = s.ports :=
  (Off.emit (Nat.and_self _) n g p q (Off.refl _ s)).stores .ports (by decide)

/-- Settles O35: what QUARANTINE closes, the wait in the pool, and the way onto the die. -/
theorem receivedPacketsGoThroughThePool : Obligations.ReceivedPacketsGoThroughThePool := by
  intro s p hc
  refine ⟨fun vl pkt e closed lane hop ha => ⟨_, exec_portIngress_closed hc closed lane hop ha, ?_⟩,
    fun vl pkt n e admitted hh hop fate ha => ⟨_, exec_portIngress_request hc (by rw [admitted]; decide) hh hop ha, ?_⟩,
    fun k e hk first die room sequenced => ⟨_, exec_poolForward hc hk first, ?_⟩⟩
  · refine (State.get_sat_self _ _ _ _ (by decide) (by decide)).trans ?_
    rw [(s.dropPooled_off p.val e).get _ _ (by decide) (by decide)]
    rfl
  · have pooled := State.mem_of_arrivedAt ha
    have pool := State.pool_ingress_queue fate pooled
    have waits : ((s.ingress p.val e pkt).port p.val).pool ≠ [] := by
      rw [pool, ← List.length_pos_iff, List.length_replace]
      exact List.length_pos_of_mem pooled
    rw [State.poolEmptied_pooled waits]
    exact pool
  · obtain ⟨pool, seqOn⟩ := s.port_dropPooled p.val e
    rw [State.forwardPooled_die die room]
    have port := State.port_same ((s.dropPooled p.val e).emit_ports (s.outFifo (280 + s.logical p.val) e.pkt) .free e.pkt 16) p.val
    rw [State.poolEmptied_seqOn (by rw [port, seqOn]; exact sequenced)]
    exact ⟨(congrArg Port.pool port).trans pool, State.emit_sent _ _ _ _ _⟩

end Sys2Proof.Machine

/-! Management requests at Alorn, and packets that the host side leaves to the bridge (chapters 5 and 13). -/

namespace Sys2Proof.Machine

open Safety

variable {s v : State}

/-! ### A management request at Alorn -/

/-- A sound request that came through a port, as Alorn's intake takes it. -/
def relayedRequest (l : Fin 6) (p : Packet) : Req :=
  ⟨.relayed l (rqOrigin (bytesWords (payload p))), bytesWords (payload p), pget p H.LENGTH, 0, false, BitVec.ofNat 16 (pget p H.TAG)⟩

theorem exec_mgmtArrival_alorn {l : Fin 6} {p : Packet} (hc : s.chipReset = false) (clocked : s.mgLost = false)
    (hh : headerBad p = false) (hop : pget p H.OPCODE = Op.MGMT) (alorn : pget p H.DST_EP = 287) (hw : s.waitsAt 287 p = true) :
    exec (.mgmtArrival (some l) p) s = .next ((s.takeIn 287 p).takeMgmt l p).flow := by
  have ran : exec (.mgmtArrival (some l) p) s = execMgmtArrival (some l) p s := rfl
  have known : (classOf Op.MGMT).isNone = false := rfl
  rw [ran, execMgmtArrival, live_running hc]
  simp [clocked, hh, hop, alorn, hw, known]

/-- A sound request enters an intake with an entry free, unless Alorn is halted. -/
theorem State.takeMgmt_request {l : Fin 6} {p : Packet} (sound : mgmtSound p = true) (request : pflag p H.RESPONSE = false)
    (runs : s.halted = false) (free : s.alorn.intake.length < 64) :
    s.takeMgmt l p = s.modAlorn (fun a => { a with intake := a.intake ++ [relayedRequest l p] }) := by
  unfold State.takeMgmt State.enterIntake
  simp only [sound, request, runs, free, Bool.not_true, Bool.false_eq_true, if_false, if_true]
  rfl

/-! ### A packet that the bridge gives up -/

theorem exec_hostDrainExpiry {n : Nat} {p : Packet} (hc : s.chipReset = false) (front : s.hostFront = some (n, p))
    (hh : headerBad p = false) (known : (classOf (pget p H.OPCODE)).isSome = true) :
    exec .hostDrainExpiry s = .next (if classOf (pget p H.OPCODE) = some .reply then (s.popFifo n).sat F.AL_EPERR_STRAY 0
      else ((s.popFifo n).sat F.AL_EPERR_HOST_DRAIN 0).nack 286 p St.UNREACHABLE).flow := by
  have ran : exec .hostDrainExpiry s = execHostDrainExpiry s := rfl
  rw [ran, execHostDrainExpiry, live_running hc]
  dsimp only
  rw [front]
  dsimp only
  rw [if_neg (by simp [hh]), if_neg (by simp [Option.isSome_iff_ne_none.1 known])]

/-- The host side's packets stand in the bridge's in FIFOs. -/
theorem State.hostFront_fifo {n : Nat} {p : Packet} (h : s.hostFront = some (n, p)) : n = 256 * 16 + 7 ∨ n = 256 * 16 + 9 := by
  obtain ⟨m, mem, found⟩ := List.exists_of_findSome?_eq_some h
  obtain ⟨_, _, same⟩ := Option.map_eq_some_iff.1 found
  rw [← (Prod.mk.inj same).1]
  simpa using mem

theorem State.popFifo_off (s : State) (n : Nat) : Off 0x20000000000000000000000200 s (s.popFifo n) :=
  Off.popFifo (Nat.and_self _) n (Off.refl _ s)

/-- The oldest complete packet leaves its FIFO. -/
theorem State.popFifo_stages {n : Nat} {ws rest : List Stage} (h : splitTail (s.fifo n).stages = some (ws, rest)) :
    ((s.popFifo n).fifo n).stages = rest := by
  have popped : (s.popFifo n).fifo n = (s.setFifo n { s.fifo n with stages := rest }).fifo n := by
    refine State.fifo_same ?_ n
    unfold State.popFifo
    rw [h]
    dsimp only
    split <;> rfl
  rw [popped, State.fifo_setFifo_self]

/-! ### What the bridge sends -/

/-- The bridge sends by its own two out FIFOs. -/
theorem State.outFifo_host (s : State) (p : Packet) : s.outFifo 286 p = 256 * 16 + 6 + if meshOf p = .reply then 2 else 0 := rfl

theorem State.pushFifo_fifo_ne (s : State) {n m : Nat} (p : Packet) (h : m ≠ n) : (s.pushFifo n p).fifo m = s.fifo m := by
  refine Eq.trans (State.fifo_same ?_ m) (s.fifo_setFifo_ne { s.fifo n with stages := (s.fifo n).stages ++ stagesOf p } h)
  unfold State.pushFifo
  dsimp only
  split <;> rfl

/-- A packet that is sent enters no FIFO but its own. -/
theorem State.emit_fifo_ne (s : State) {n m : Nat} (g : Gate) (p : Packet) (q : Nat) (h : m ≠ n) : (s.emit n g p q).fifo m = s.fifo m := by
  unfold State.emit
  dsimp only
  split
  · exact (State.fifo_same ((State.noteTurn_fifos _ _ _).trans (s.launch_fifos n g p)) m).trans (s.pushFifo_fifo_ne p h)
  · cases g with
    | free => rfl
    | room k => rfl
    | window w =>
      dsimp only
      split <;> rfl

/-- A reply is sent by the endpoint's out FIFO, or counted where its route is closed. -/
theorem State.sendReply_cases (s : State) (ep : Nat) (p : Packet) :
    (∃ g, s.sendReply ep p = s.emit (s.outFifo ep p) g p) ∨ s.sendReply ep p = s.countRoute ep := by
  unfold State.sendReply
  split
  · exact .inl ⟨_, rfl⟩
  · exact .inl ⟨_, rfl⟩
  · exact .inr rfl
  · exact .inr rfl

/-- A reply of the bridge leaves its in FIFOs. -/
theorem State.sendReply_host_fifo (s : State) (p : Packet) {n : Nat} (h : n = 256 * 16 + 7 ∨ n = 256 * 16 + 9) :
    (s.sendReply 286 p).fifo n = s.fifo n := by
  rcases s.sendReply_cases 286 p with ⟨g, sent⟩ | counted
  · rw [sent]
    refine s.emit_fifo_ne g p 16 ?_
    rw [State.outFifo_host]
    split <;> omega
  · rw [counted]
    rfl

/-- A reply of the bridge is none of the packets that it has given up. -/
theorem State.sendReply_host_drained (s : State) (p : Packet) :
    (s.sendReply 286 p).get F.AL_EPERR_HOST_DRAIN 0 = s.get F.AL_EPERR_HOST_DRAIN 0 := by
  rcases s.sendReply_cases 286 p with ⟨g, sent⟩ | counted
  · rw [sent]
    exact (Off.emit (Nat.and_self _) _ g p 16 (Off.refl _ s)).get _ _ (by decide) (by decide)
  · rw [counted, show s.countRoute 286 = s.sat F.AL_EPERR_ROUTE 0 from rfl]
    exact State.get_sat_ne _ _ _ _ (by decide) (.inl (by decide))

/-- What has been done before leaves the bridge's answer to a packet as it was. -/
theorem Off.host_answers {M : Nat} (h : Off M s v) (hM : M &&& replyReads = 0) (p : Packet) (op st : Nat) :
    Claims.Answers s 286 p (s.replyTo 286 p op st) (v.answer 286 p op st) := by
  intro routed
  rw [State.answer, h.replyTo hM, show (Claims.taken s 286 p).outFifo 286 _ = v.drawn.outFifo 286 _ from rfl]
  refine State.sendReply_sent ?_
  rw [Claims.Routed, ← h.routeOf hM] at routed
  exact routed

/-- The state in which the bridge has given up a request of in FIFO `n` and counted it. -/
def State.hostDrained (s : State) (n : Nat) : State := (s.popFifo n).sat F.AL_EPERR_HOST_DRAIN 0

theorem State.hostDrained_off (s : State) (n : Nat) : Off 0x20000010000000000000000200 s (s.hostDrained n) :=
  (s.popFifo_off n).trans (Off.sat (L := 0x10000000000000000000) (Nat.and_self _) F.AL_EPERR_HOST_DRAIN 0 1 (by decide) (Off.refl _ _))

theorem managementRequestEntersTheIntake {l : Fin 6} {p : Packet} (hc : s.chipReset = false) (clocked : s.mgLost = false)
    (hh : headerBad p = false) (hop : pget p H.OPCODE = Op.MGMT) (alorn : pget p H.DST_EP = 287) (hw : s.waitsAt 287 p = true)
    (sound : mgmtSound p = true) (request : pflag p H.RESPONSE = false) (runs : s.halted = false)
    (free : s.alorn.intake.length < 64) : Claims.Flows (.mgmtArrival (some l) p) s (fun u =>
      u.alorn = { s.alorn with intake := s.alorn.intake ++ [relayedRequest l p] } ∧ SameBytes s u) := by
  refine ⟨_, exec_mgmtArrival_alorn hc clocked hh hop alorn hw, ?_⟩
  have taken := s.takeIn_off 287 p
  have same : (s.takeIn 287 p).alorn = s.alorn := taken.stores .alorn (by decide)
  have runs' : (s.takeIn 287 p).halted = false := by
    rw [State.halted, taken.get _ _ (by decide) (by decide)]
    exact runs
  rw [State.takeMgmt_request sound request runs' (same ▸ free)]
  exact ⟨congrArg (fun a : Alorn => { a with intake := a.intake ++ [relayedRequest l p] }) same, taken.sameBytes (by decide)⟩

/-- Settles O28: a request at Alorn, and the replies and requests that the bridge gives up. -/
theorem managementAndHostPackets : Obligations.ManagementAndHostPackets := by
  intro s hc
  refine ⟨fun l p clocked hh hop alorn hw sound request runs free =>
      managementRequestEntersTheIntake hc clocked hh hop alorn hw sound request runs free,
    fun n p ws rest front split hh reply => ⟨_, exec_hostDrainExpiry hc front hh (by rw [reply]; rfl), ?_⟩,
    fun n p ws rest front split hh request => ⟨_, exec_hostDrainExpiry hc front hh (by rw [request]; rfl), ?_⟩⟩
  · have popped := s.popFifo_off n
    rw [if_pos reply]
    refine ⟨State.popFifo_stages split, popped.stores .hostRx (by decide), ?_, popped.sameBytes (by decide)⟩
    rw [State.get_sat_self _ _ _ _ (by decide) (by decide), popped.get _ _ (by decide) (by decide)]
    rfl
  · have drained := s.hostDrained_off n
    have off := drained.trans ((s.hostDrained n).answer_off 286 p Op.NACK St.UNREACHABLE [] [] [])
    rw [if_neg (by rw [request]; decide)]
    refine ⟨?_, off.stores .hostRx (by decide), ?_, off.sameBytes (by decide), drained.host_answers (by decide) p _ _⟩
    · exact (congrArg Fifo.stages (State.sendReply_host_fifo _ _ (State.hostFront_fifo front))).trans (State.popFifo_stages split)
    · refine (State.sendReply_host_drained _ _).trans ((State.get_sat_self _ _ _ _ (by decide) (by decide)).trans ?_)
      rw [(s.popFifo_off n).get _ _ (by decide) (by decide)]
      rfl

end Sys2Proof.Machine

/-! Packets on their way out of an optical port: staging, windows and credit (chapters 5 and 11). -/

namespace Sys2Proof.Machine

open Safety

variable {s v : State}

/-! ### What a packet's way out reads -/

section
variable {M : Nat} (h : Off M s v) (hM : M &&& replyReads = 0)
include h hM

theorem Off.logical (p : Nat) : v.logical p = s.logical p := h.get_replyReads hM F.OP_PORTCTL_LOGICAL p (by decide)

theorem Off.portState (p : Nat) : v.portState p = s.portState p := h.get_replyReads hM F.OP_PORTSTATE_STATE p (by decide)

end

theorem Off.lane {M : Nat} (h : Off M s v) (hM : M.testBit Reg.RK_RINGPLAN.num = false) (l : Nat) (sameRing : Bool) (p : Packet) :
    v.lane l sameRing p = s.lane l sameRing p := by
  have dateline : v.flagE (pget p H.EPOCH) F.RK_RINGPLAN_DATELINE l = s.flagE (pget p H.EPOCH) F.RK_RINGPLAN_DATELINE l := by
    unfold State.flagE
    rw [h.getE _ _ _ (pget_epoch_lt p) hM]
  unfold State.lane
  rw [dateline]

/-! ### Into staging -/

theorem State.port_stage (s : State) (p src vl : Nat) (pkt : Packet) :
    ((s.stage p src vl pkt).port p).staging = (s.port p).staging ++ [⟨src, vl, false, pkt⟩] :=
  congrArg Port.staging (s.port_modPort_self p _)

/-- Whether a packet at the die side of a port came through the opposite port. -/
def State.keepsRing (s : State) (p : Fin 6) (src : Fin 32) : Bool := src.val == 22 + opposite (s.logical p.val)

/-- A unicast request or reply that stands at a port's die side is taken on its way out. -/
theorem exec_portEgress {p : Fin 6} {src : Fin 32} {pkt : Packet} (hc : s.chipReset = false) (hh : headerBad pkt = false)
    (hop : classOf (pget pkt H.OPCODE) = some .request ∨ classOf (pget pkt H.OPCODE) = some .reply)
    (unicast : isTree (pget pkt H.OPCODE) = false) (hw : s.waitsAt (280 + s.logical p.val) pkt = true) :
    exec (.portEgress p src pkt) s
      = .next ((s.takeIn (280 + s.logical p.val) pkt).egress p.val src.val (s.keepsRing p src) pkt).flow := by
  have ran : exec (.portEgress p src pkt) s = execPortEgress p src pkt s := rfl
  rw [ran, execPortEgress, live_running hc]
  rcases hop with request | reply
  · simp [hh, request, unicast, hw, State.keepsRing]
  · simp [hh, reply, unicast, hw, State.keepsRing]

theorem State.egress_staged {p src : Nat} {sameRing : Bool} {pkt pkt' : Packet} (admitted : s.admitted p = true)
    (lane : s.lane (s.logical p) sameRing pkt = some pkt') : s.egress p src sameRing pkt = s.stage p src (vlOf pkt') pkt' := by
  unfold State.egress
  rw [admitted, lane]
  rfl

theorem State.egress_loops {p src : Nat} {sameRing : Bool} {pkt : Packet} (admitted : s.admitted p = true)
    (lane : s.lane (s.logical p) sameRing pkt = none) : s.egress p src sameRing pkt = s.loopRefuse p src pkt := by
  unfold State.egress
  rw [admitted, lane]
  rfl

theorem State.egress_closed {p src : Nat} {sameRing : Bool} {pkt : Packet} (closed : s.admitted p = false) :
    s.egress p src sameRing pkt = s.portRefuse p src St.UNREACHABLE pkt := by
  unfold State.egress
  rw [closed]
  rfl

theorem State.releaseFor_off (s : State) (p src : Nat) (pkt : Packet) :
    Off 0x40000000000000000000000000000000000 s (s.releaseFor p src pkt) := Off.releaseFor (Nat.and_self _) p src pkt (Off.refl _ s)

/-- A reply that would cross a dateline twice is counted at the port that received it. -/
theorem State.loopRefuse_reply {p src : Nat} {pkt : Packet} (reply : classOf (pget pkt H.OPCODE) = some .reply) :
    let q := s.physOf (opposite (s.logical p))
    (s.loopRefuse p src pkt).get F.OP_ERRCNT_ROUTE q = Claims.counted s F.OP_ERRCNT_ROUTE q 1 := by
  intro q
  have logged := Off.headEvent (Nat.and_self _) evRouteLoop 7 q pkt (Off.refl _ s)
  have released := logged.trans (State.releaseFor_off _ p src pkt)
  unfold State.loopRefuse
  rw [if_neg (by rw [reply]; decide)]
  refine (State.get_sat_self _ _ _ _ (by decide) (by decide)).trans ?_
  rw [released.get _ _ (by decide) (by decide)]
  rfl

/-- A reply at a closed port is counted there. -/
theorem State.portRefuse_reply {p src : Nat} {pkt : Packet} (st : Nat) (reply : classOf (pget pkt H.OPCODE) = some .reply) :
    (s.portRefuse p src st pkt).get F.OP_ERRCNT_ROUTE p = Claims.counted s F.OP_ERRCNT_ROUTE p 1 := by
  unfold State.portRefuse
  rw [if_neg (by rw [reply]; decide)]
  refine (State.get_sat_self _ _ _ _ (by decide) (by decide)).trans ?_
  rw [(s.releaseFor_off p src pkt).get _ _ (by decide) (by decide)]
  rfl

theorem State.loopRefuse_ports (s : State) (p src : Nat) (pkt : Packet) : (s.loopRefuse p src pkt).ports = s.ports :=
  (Off.loopRefuse (Nat.and_self _) p src pkt (Off.refl _ s)).stores .ports (by decide)

theorem State.portRefuse_ports (s : State) (p src st : Nat) (pkt : Packet) : (s.portRefuse p src st pkt).ports = s.ports :=
  (Off.portRefuse (Nat.and_self _) p src st pkt (Off.refl _ s)).stores .ports (by decide)

theorem State.takeIn_ports (s : State) (ep : Nat) (p : Packet) : (s.takeIn ep p).ports = s.ports :=
  (s.takeIn_off ep p).stores .ports (by decide)

/-- A count that the taking of a packet leaves as it was. -/
theorem State.counted_takeIn (s : State) (ep n k : Nat) (p : Packet) :
    Claims.counted (s.takeIn ep p) F.OP_ERRCNT_ROUTE n k = Claims.counted s F.OP_ERRCNT_ROUTE n k := by
  unfold Claims.counted
  rw [(s.takeIn_off ep p).get _ _ (by decide) (by decide)]

/-! ### Relays and windows -/

/-- A relay's packet is readdressed to Alorn of the chip at the other end. -/
theorem exec_mgmtRelayAtPort {p : Fin 6} {pkt : Packet} (hc : s.chipReset = false) (hh : headerBad pkt = false)
    (hop : pget pkt H.OPCODE = Op.MGMT) (ep : pget pkt H.DST_EP = 280 + s.logical p.val) (chip : pget pkt H.DST_CHIP = s.own)
    (hw : s.waitsAt (280 + s.logical p.val) pkt = true)
    (up : s.portState p.val = PS.QUARANTINE ∨ s.portState p.val = PS.ADMITTED ∨ s.portState p.val = PS.DRAINING) :
    exec (.mgmtRelayAtPort p pkt) s = .next ((s.takeIn (280 + s.logical p.val) pkt).stage p.val 21 1
      (pset pkt [(H.DST_CHIP, s.get F.OP_PORTSTATE_PEER_CHIP p.val), (H.DST_EP, 287)])) := by
  have ran : exec (.mgmtRelayAtPort p pkt) s = execMgmtRelayAtPort p pkt s := rfl
  have taken := s.takeIn_off (280 + s.logical p.val) pkt
  rw [ran, execMgmtRelayAtPort, live_running hc]
  dsimp only
  rw [if_neg (by simp [hh, hop, ep, chip, hw]), taken.portState (by decide), if_pos (by simpa [or_assoc] using up),
    taken.get F.OP_PORTSTATE_PEER_CHIP _ (by decide) (by decide)]

/-- The state in which the flits released for window `w` have reached its source. -/
def State.windowReleased (s : State) (w : Nat) : State :=
  ({ s with released := remove s.released w } : State).put F.OP_EGWIN_OUTSTANDING w
    (s.get F.OP_EGWIN_OUTSTANDING w - (lookup s.released w).getD 0)

theorem exec_windowRelease (p : Fin 6) (k : Fin 3) (src : Fin 32) (hc : s.chipReset = false) :
    exec (.windowRelease p k src) s = .next (s.windowReleased (egwin p.val k.val src.val)).flow :=
  runs (g := fun s => (s.windowReleased (egwin p.val k.val src.val)).flow) hc rfl

theorem State.get_windowReleased (s : State) (w : Nat) : (s.windowReleased w).get F.OP_EGWIN_OUTSTANDING w
    = s.get F.OP_EGWIN_OUTSTANDING w - (lookup s.released w).getD 0 := by
  have width : s.get F.OP_EGWIN_OUTSTANDING w < 2 ^ F.OP_EGWIN_OUTSTANDING.width := fieldGet_lt _ _ _ (by decide)
  refine (State.get_put_self _ _ _ _ (by decide) (by decide)).trans (Nat.mod_eq_of_lt ?_)
  omega

theorem packetsAreStagedForTheFibre : Claims.PacketsAreStagedForTheFibre := by
  intro s p hc
  refine ⟨fun src pkt pkt' hh hop unicast hw => ?_, fun pkt hh hop ep chip hw up => ⟨_, exec_mgmtRelayAtPort hc hh hop ep chip hw up, ?_⟩,
    fun k src => ⟨_, exec_windowRelease p k src hc, lookup_remove_self _ _, s.get_windowReleased _, ?_, sameBytes_of_mem rfl⟩⟩
  · have runs := exec_portEgress (src := src) hc hh hop unicast hw
    have taken := s.takeIn_off (280 + s.logical p.val) pkt
    have ports := s.takeIn_ports (280 + s.logical p.val) pkt
    have logical := taken.logical (by decide) p.val
    have lane := taken.lane (by decide) (s.logical p.val) (s.keepsRing p src) pkt
    have admits := taken.admitted (by decide) p.val
    refine ⟨fun admitted crosses => ⟨_, runs, ?_⟩, fun admitted loops reply => ⟨_, runs, ?_⟩, fun closed => ⟨_, runs, ?_⟩⟩
    · rw [State.egress_staged (admits.trans admitted) (by rw [logical]; exact lane.trans crosses)]
      exact (State.port_stage _ _ _ _ _).trans (by rw [State.port_same ports])
    · rw [State.egress_loops (admits.trans admitted) (by rw [logical]; exact lane.trans loops)]
      have counts := (s.takeIn (280 + s.logical p.val) pkt).loopRefuse_reply (p := p.val) (src := src.val) reply
      rw [logical, taken.physOf (by decide)] at counts
      exact ⟨(State.loopRefuse_ports _ _ _ _).trans ports, counts.trans (s.counted_takeIn _ _ _ _)⟩
    · rw [State.egress_closed (admits.trans closed)]
      exact ⟨(State.portRefuse_ports _ _ _ _ _).trans ports,
        fun reply => (State.portRefuse_reply _ reply).trans (s.counted_takeIn _ _ _ _)⟩
  · exact (State.port_stage _ _ _ _ _).trans (by rw [State.port_same (s.takeIn_ports _ _)])
  · exact FieldsBut.put (FieldsBut.same (FieldsBut.refl _ s) rfl) _ _ _ (by simp)

/-! ### A staged packet leaves -/

theorem cutPacket_ne_nil (vl r : Nat) (account : Option Nat) (p : Packet) : cutPacket vl r account p ≠ [] := by
  simp [cutPacket, flitsOf, pieces]

theorem sealParcels_ne_nil (q : Port) (vl : Nat) (p : Packet) {xs : List Parcel} (h : xs ≠ []) : sealParcels q vl p xs ≠ [] := by
  unfold sealParcels
  split
  · split
    · exact h
    · simp
  · exact h

/-- Credit that is taken counts as sent, and leaves the rest of the port. -/
theorem State.port_takeCredit (s : State) (p k n : Nat) : ∃ x, (s.takeCredit p k n).port p = { s.port p with sent := x } := by
  unfold State.takeCredit
  split
  · exact ⟨_, rfl⟩
  · exact ⟨_, (State.port_same ((Off.showCredit (Nat.and_self _) p k (Off.refl _ _)).stores .ports (by decide)) p).trans
      (s.port_modPort_self p _)⟩

@[simp] theorem State.staging_takeCredit (s : State) (p k n : Nat) : ((s.takeCredit p k n).port p).staging = (s.port p).staging := by
  obtain ⟨_, taken⟩ := s.port_takeCredit p k n
  rw [taken]

@[simp] theorem State.tx_takeCredit (s : State) (p k n : Nat) : ((s.takeCredit p k n).port p).tx = (s.port p).tx := by
  obtain ⟨_, taken⟩ := s.port_takeCredit p k n
  rw [taken]

@[simp] theorem State.port_releaseFor (s : State) (p src : Nat) (pkt : Packet) (q : Nat) : (s.releaseFor p src pkt).port q = s.port q :=
  State.port_same ((s.releaseFor_off p src pkt).stores .ports (by decide)) q

/-- The parcels of a staged packet, sealed where its virtual lane is encrypted. -/
def State.parcelsOf (s : State) (p : Nat) (t : Staged) (r : Nat) (account : Option Nat) : List TxParcel :=
  (sealParcels (s.port p) t.vl t.pkt (cutPacket t.vl r account t.pkt)).map (fun y => ⟨t.vl, pget t.pkt H.EPOCH, y⟩)

theorem State.parcelsOf_ne_nil (s : State) (p : Nat) (t : Staged) (r : Nat) (account : Option Nat) : s.parcelsOf p t r account ≠ [] := by
  simp [State.parcelsOf, sealParcels_ne_nil, cutPacket_ne_nil]

theorem State.vl_of_parcelsOf {p r : Nat} {t : Staged} {account : Option Nat} {x : TxParcel} (h : x ∈ s.parcelsOf p t r account) :
    x.vl = t.vl := by
  obtain ⟨_, _, rfl⟩ := List.mem_map.1 h
  rfl

/-- A packet that starts leaves staging, and its parcels are ready to be sent. -/
theorem State.port_startPacket (s : State) (p : Nat) (t : Staged) (r : Nat) (account : Option Nat) :
    ((s.startPacket p t r account).port p).staging = (s.port p).staging.erase t
      ∧ ((s.startPacket p t r account).port p).tx = (s.port p).tx ++ s.parcelsOf p t r account := by
  unfold State.startPacket
  cases account with
  | none => simp [State.port_modPort_self, State.parcelsOf]
  | some a => simp [State.port_modPort_self, State.parcelsOf]

theorem exec_stagingDeparture_credit {p vl : Fin 6} {t : Staged} {r : Nat} {a : Option Nat} (hc : s.chipReset = false)
    (oldest : (s.port p.val).staging.find? (fun t => t.vl == vl.val) = some t) (opened : s.vlOpen p.val vl.val = true)
    (credit : s.creditFor p.val vl.val (ceilDiv (flitsOf t.pkt).length 4) t.pkt = some (r, a)) :
    exec (.stagingDeparture p vl) s = .next (s.startPacket p.val t r a) := by
  have ran : exec (.stagingDeparture p vl) s = execStagingDeparture p vl s := rfl
  rw [ran, execStagingDeparture, live_running hc]
  dsimp only
  rw [oldest]
  simp [opened, credit]

/-! ### A staged packet waits -/

theorem mem_updateAt_idxOf {α : Type} [DecidableEq α] {l : List α} {a : α} (f : α → α) (h : a ∈ l) :
    f a ∈ updateAt l (l.idxOf a) f := by
  induction l with
  | nil => contradiction
  | cons b l ih =>
    rw [List.idxOf_cons]
    by_cases same : b = a
    · rw [beq_iff_eq.2 same, same]
      exact List.mem_cons_self
    · rw [beq_eq_false_iff_ne.2 same]
      exact List.mem_cons_of_mem _ (ih ((List.mem_cons.1 h).resolve_left (Ne.symm same)))

/-- The state in which the staged packet `t` is marked as waiting for credit. -/
def State.markStalled (s : State) (p : Nat) (t : Staged) : State :=
  s.modPort p (fun q => { q with staging := updateAt q.staging (q.staging.idxOf t) (fun t => { t with stalled := true }) })

/-- A packet on no account that first finds too little credit is marked and counted on its lane. -/
theorem exec_stagingDeparture_stall {p vl : Fin 6} {t : Staged} (hc : s.chipReset = false)
    (oldest : (s.port p.val).staging.find? (fun t => t.vl == vl.val) = some t) (opened : s.vlOpen p.val vl.val = true)
    (credit : s.creditFor p.val vl.val (ceilDiv (flitsOf t.pkt).length 4) t.pkt = none) (fresh : t.stalled = false)
    (noAccount : s.transitSide1 p.val t.pkt = none) :
    exec (.stagingDeparture p vl) s = .next ((s.markStalled p.val t).wrap F.OP_CREDIT_STALLS (7 * p.val + vl.val)) := by
  have ran : exec (.stagingDeparture p vl) s = execStagingDeparture p vl s := rfl
  have account : (s.markStalled p.val t).transitSide1 p.val t.pkt = none := noAccount
  rw [ran, execStagingDeparture, live_running hc]
  simp only [oldest, opened, credit, fresh, Bool.not_true, Bool.false_eq_true, if_false]
  rw [State.markStalled] at account ⊢
  rw [account]
  rfl

theorem stagedPacketsNeedCredit : Claims.StagedPacketsNeedCredit := by
  intro s p vl t hc oldest opened
  refine ⟨fun r a credit => ⟨_, exec_stagingDeparture_credit hc oldest opened credit, ?_⟩,
    fun credit fresh noAccount => ⟨_, exec_stagingDeparture_stall hc oldest opened credit fresh noAccount, ?_, ?_⟩⟩
  · obtain ⟨staging, tx⟩ := s.port_startPacket p.val t r a
    exact ⟨staging, _, s.parcelsOf_ne_nil p.val t r a, tx, fun x => State.vl_of_parcelsOf⟩
  · exact State.get_wrap_self _ _ _ _ (by decide) (by decide)
  · refine ⟨_, ?_, rfl⟩
    have marked := congrArg Port.staging (s.port_modPort_self p.val (fun q =>
      { q with staging := updateAt q.staging (q.staging.idxOf t) (fun t => { t with stalled := true }) }))
    exact marked ▸ mem_updateAt_idxOf (fun t : Staged => { t with stalled := true }) (List.mem_of_find?_eq_some oldest)

/-- Settles O32: staging, relays and windows at a port's die side, and the credit of a staged packet. -/
theorem packetsLeaveByThePort : Obligations.PacketsLeaveByThePort := ⟨packetsAreStagedForTheFibre, stagedPacketsNeedCredit⟩

end Sys2Proof.Machine

/-! Merged answers of multicasts (chapter 9). -/

namespace Sys2Proof.Machine

open Safety

variable {s v : State}

/-! ### An answer in its merge entry -/

theorem firstFailed_failed (m : Merge) (failed rank ep st : Nat) : (firstFailed m failed rank ep st).failed = m.failed + failed := by
  unfold firstFailed
  split
  · next none => rw [none, Nat.add_zero]
  · split <;> rfl

theorem State.sendTree_merges (s : State) (u edge : Nat) (p : Packet) : (s.sendTree u edge p).merges = s.merges :=
  (Off.sendTree (Nat.and_self _) u edge p (Off.refl _ s)).stores .merges (by decide)

/-- A finished entry is freed, whatever its node sends. -/
theorem State.finishMerge_merges (s : State) (u k : Nat) (m : Merge) : (s.finishMerge u k m).merges = remove s.merges k := by
  unfold State.finishMerge
  dsimp only
  split
  · rfl
  · split
    · rfl
    · rw [State.sendTree_merges, State.drawn_merges]

/-- An answer that is not the last leaves its entry waiting for the other branches, with its failures added. -/
theorem State.mergeAnswer_waits {u k out : Nat} {m : Merge} (failed rank ep st : Nat) (more : clearBit m.pending out ≠ 0) :
    ∃ x, lookup (s.mergeAnswer u k out m failed rank ep st).merges k = some x ∧ x.pending = clearBit m.pending out
      ∧ x.failed = m.failed + failed := by
  unfold State.mergeAnswer
  dsimp only
  rw [if_neg more]
  exact ⟨_, lookup_upsert_self _ _ _, rfl, firstFailed_failed m failed rank ep st⟩

/-- The last answer of an entry frees it. -/
theorem State.mergeAnswer_ends {u k out : Nat} {m : Merge} (failed rank ep st : Nat) (last : clearBit m.pending out = 0) :
    lookup (s.mergeAnswer u k out m failed rank ep st).merges k = none := by
  unfold State.mergeAnswer
  dsimp only
  rw [if_pos last, State.finishMerge_merges]
  exact lookup_remove_self _ _

/-! ### An answer at its unit -/

/-- The state in which a tree packet has left where it stood and has been taken as an answer there. -/
def State.answerTaken (s : State) (u out : Nat) (p : Packet) : State := (s.dropTree u out p).takeAnswerAt u out p

/-- An answer that stands at an open unit with its group's entry is taken there. -/
theorem exec_mergeAnswerArrival {u : Unit9} {out : Fin 8} {p : Packet} (hc : s.chipReset = false) (hh : headerBad p = false)
    (answer : isTree (pget p H.OPCODE) = false) (tree : treePacket p = true) (edge : treeEdge (unitNo u) out.val = true)
    (opened : s.unitOpen (unitNo u) = true) (node : (s.node (unitNo u) (pget p H.EPOCH) (pget p H.GROUP)).isSome = true)
    (stands : s.treeStands (unitNo u) out.val p = true) :
    exec (.mergeAnswerArrival u out p) s = .next (s.answerTaken (unitNo u) out.val p).flow := by
  have ran : exec (.mergeAnswerArrival u out p) s = execMergeAnswerArrival u out p s := rfl
  have known : (s.node (unitNo u) (pget p H.EPOCH) (pget p H.GROUP)).isNone = false := by
    rw [← Option.not_isSome, node]
    rfl
  rw [ran, execMergeAnswerArrival, live_running hc]
  dsimp only
  rw [if_neg (by simp only [hh, answer, tree, edge, known, opened, stands, Bool.not_true, Bool.false_and, Bool.or_false,
    Bool.false_eq_true, not_false_eq_true])]
  rfl

theorem State.dropTree_merges (s : State) (u inp : Nat) (p : Packet) : (s.dropTree u inp p).merges = s.merges :=
  (s.dropTree_off u inp p).stores .merges (by decide)

/-- The entry that awaits an answer is found in the merge entries alone. -/
theorem State.mergeFor_congr (h : v.merges = s.merges) (u out g tag addr : Nat) :
    v.mergeFor u out g tag addr = s.mergeFor u out g tag addr := by
  unfold State.mergeFor
  rw [h]

section
variable {u out : Nat} {p : Packet}

/-- An answer goes to the entry that awaits it. -/
theorem State.answerTaken_awaited {k : Nat} {m : Merge}
    (found : s.mergeFor u out (pget p H.GROUP) (pget p H.TAG) (pget p H.ADDRESS) = some (k, m)) :
    ∃ rank ep st, s.answerTaken u out p
      = (s.dropTree u out p).mergeAnswer u k out m (leNat ((payload p).take 4)) rank ep st := by
  unfold State.answerTaken State.takeAnswerAt
  rw [State.mergeFor_congr (s.dropTree_merges u out p), found]
  exact ⟨_, _, _, rfl⟩

/-- An answer that no entry awaits is discarded and counted. -/
theorem State.answerTaken_unawaited (none' : s.mergeFor u out (pget p H.GROUP) (pget p H.TAG) (pget p H.ADDRESS) = none) :
    s.answerTaken u out p = (s.dropTree u out p).sat F.SC_ERRCNT_NOENTRY u := by
  unfold State.answerTaken State.takeAnswerAt
  rw [State.mergeFor_congr (s.dropTree_merges u out p), none']

end

/-! ### An entry whose time is over -/

/-- The state in which merge entry `k` is freed and counted as expired at unit `u`. -/
def State.mergeExpired (s : State) (u k : Nat) : State :=
  ({ s with merges := remove s.merges k } : State).sat F.SC_ERRCNT_MERGE_EXPIRED u

theorem exec_mergeTimeout {u : Unit9} {entry : Fin 64} {m : Merge} (hc : s.chipReset = false)
    (waits : lookup s.merges (64 * unitNo u + entry.val) = some m) :
    exec (.mergeTimeout u entry) s = .next ((s.mergeExpired (unitNo u) (64 * unitNo u + entry.val)).event evMergeExpired 5 (unitNo u)
      (m.group + 2 ^ 12 * pget m.pkt H.TAG)) := by
  have ran : exec (.mergeTimeout u entry) s = execMergeTimeout u entry s := rfl
  rw [ran, execMergeTimeout, live_running hc]
  dsimp only
  rw [waits]
  rfl

theorem State.mergeExpired_off (s : State) (u k : Nat) : Off 0x800000000000000000800000000000 s (s.mergeExpired u k) :=
  Off.sat (L := 0x800000000000) (by decide) _ _ _ (by decide) (Off.set_merges _ (by decide) (Off.refl _ s))

/-- Settles O37: an answer that an entry awaits, one that none awaits, and an entry whose time is over. -/
theorem mergesCollectTheirAnswers : Obligations.MergesCollectTheirAnswers := by
  intro s u out p hc hh answer tree edge opened node stands
  have taken := exec_mergeAnswerArrival hc hh answer tree edge opened node stands
  refine ⟨fun k m found => ⟨_, taken, ?_⟩, fun none' => ⟨_, taken, ?_⟩, fun entry m waits => ⟨_, exec_mergeTimeout hc waits, ?_, ?_, ?_⟩⟩
  · obtain ⟨rank, ep, st, merged⟩ := State.answerTaken_awaited found
    rw [merged]
    exact ⟨State.mergeAnswer_waits _ _ _ _, State.mergeAnswer_ends _ _ _ _⟩
  · rw [State.answerTaken_unawaited none']
    refine ⟨s.dropTree_merges _ _ _, (State.get_sat_self _ _ _ _ (by decide) (by decide)).trans ?_⟩
    rw [(s.dropTree_off _ _ _).get _ _ (by decide) (by decide)]
    rfl
  · rw [State.event_merges]
    rfl
  · rw [State.get_event_ne _ _ _ _ _ _ _ _ _ (.inl (by decide))]
    exact State.get_sat_self _ _ _ _ (by decide) (by decide)
  · exact (s.mergeExpired_off _ _).event_logged (by decide) _ _ _ _ _

end Sys2Proof.Machine

/-! RED_DOWN at a member, at a stack sink, and at the host bridge and Alorn (chapter 10). -/

namespace Sys2Proof.Machine

open Safety

variable {s v : State}

/-! ### The endpoints that take it -/

/-- The RED_DOWN that stands next at a working endpoint, other than a stack port, is taken and given to that endpoint. -/
theorem exec_redDownArrival {ep : BitVec 9} {p : Packet} (hc : s.chipReset = false) (hh : headerBad p = false)
    (op : pget p H.OPCODE = Op.RED_DOWN) (port : ¬ (256 ≤ ep.toNat ∧ ep.toNat < 280)) (waits : s.waitsAt ep.toNat p = true)
    (works : s.takes ep.toNat = true) (rst : ep.toNat < 256 → s.coreRst.contains ep.toNat = false) :
    exec (.redDownArrival ep p) s = .next ((s.takeIn ep.toNat p).takeDownAt ep.toNat p).flow := by
  have kept : (s.takeIn ep.toNat p).coreRst = s.coreRst := (s.takeIn_off ep.toNat p).stores .coreRst (by decide)
  have runs : ¬ (ep.toNat < 256 ∧ ep.toNat ∈ s.coreRst) := fun h => by
    have := rst h.1
    simp [h.2] at this
  rw [show exec (.redDownArrival ep p) s = execRedDownArrival ep p s from rfl, execRedDownArrival, live_running hc]
  simp [hh, op, waits, works, port, kept, runs]

/-- RED_DOWN is a known opcode. -/
theorem classOf_redDown : (classOf Op.RED_DOWN).isNone = false := by decide

theorem State.takeDownAt_core {e : Nat} {p : Packet} (hh : headerBad p = false) (op : pget p H.OPCODE = Op.RED_DOWN) (core : e < 256) :
    s.takeDownAt e p = s.redDown e p := by
  rw [State.takeDownAt, hh, op, classOf_redDown, if_neg (by decide), if_neg (by decide), if_pos core]

theorem State.takeDownAt_beyond {e : Nat} {p : Packet} (hh : headerBad p = false) (op : pget p H.OPCODE = Op.RED_DOWN) (beyond : 286 ≤ e) :
    s.takeDownAt e p = s.discardHead evHeaderBad e p := by
  rw [State.takeDownAt, hh, op, classOf_redDown, if_neg (by decide), if_neg (by decide), if_neg (by omega), if_neg (by omega)]

/-! ### At a member -/

/-- The collective of a core port that a RED_DOWN belongs to. -/
def Cmd.awaitsDown (i : Nat) (p : Packet) (c : Cmd) : Bool :=
  c.core == i && isColl c (pget p H.GROUP) (pget p H.SEQ) && isData (dget c.words D.CMD)

/-- One that no collective of its core port awaits is stray. -/
theorem State.redDown_unawaited {i : Nat} {p : Packet}
    (none' : ∀ c ∈ s.cmds, c.core = i → isColl c (pget p H.GROUP) (pget p H.SEQ) = false) : s.redDown i p = s.stray i p := by
  have nobody : s.cmds.find? (Cmd.awaitsDown i p) = none := by
    refine List.find?_eq_none.2 fun c mem awaits => ?_
    simp only [Cmd.awaitsDown, Bool.and_eq_true, beq_iff_eq] at awaits
    obtain ⟨⟨core, coll⟩, -⟩ := awaits
    rw [none' c mem core] at coll
    cases coll
  unfold State.redDown
  change (match s.cmds.find? (Cmd.awaitsDown i p) with | none => _ | some c => _) = _
  rw [nobody]

/-- One that a collective of a working core port awaits is taken for it. -/
theorem State.redDown_awaited {i : Nat} {p : Packet} {c : Cmd} {r : CollRun} (found : s.cmds.find? (Cmd.awaitsDown i p) = some c)
    (coll : c.coll = some r) (listens : s.answersStray i = false) : s.redDown i p = s.takeChunk i c r p := by
  unfold State.redDown
  change (match s.cmds.find? (Cmd.awaitsDown i p) with | none => _ | some c => _) = _
  rw [found]
  simp only [coll, listens, Bool.false_eq_true, if_false]

/-- What the writing of a chunk at `a` does to the state: nothing, the count of a bank that is not owned, or its bytes. -/
theorem State.writeChunk_cases (s : State) (i : Nat) (r : CollRun) (a : Nat) (p : Packet) :
    (s.writeChunk i r a p).2 = s ∨ (s.writeChunk i r a p).2 = s.countNoOwner i
      ∨ (s.writeChunk i r a p).2 = s.writePayload i a (payload p) (flitPoison p) := by
  unfold State.writeChunk
  dsimp only
  split
  · exact .inl rfl
  · split
    · exact .inr (.inl rfl)
    · exact .inr (.inr rfl)

/-- A chunk without poison is written at its address or nowhere. -/
theorem State.writeChunk_bytesBut {p : Packet} (s : State) (i : Nat) (r : CollRun) (a : Nat) (sound : hasPoison p = false) :
    Claims.BytesBut i a (payload p).length s (s.writeChunk i r a p).2 := by
  rcases s.writeChunk_cases i r a p with same | counted | written
  · rw [same]
    exact fun _ _ _ => rfl
  · rw [counted]
    exact fun e b _ => (Off.countNoOwner (Nat.and_self _) i (Off.refl _ s)).sameBytes (by decide) e b
  · rw [written]
    intro e b outside
    rw [State.byteAt, s.writePayload_mem _ _ _ (flitPoison_sound sound), Memory.read_writeList_out _ _ _ _ outside]
    rfl

theorem State.missChunks_chunkOffset (s : State) (c d : Cmd) (r : CollRun) (k n : Nat) :
    s.chunkOffset d (s.missChunks c r k) n = s.chunkOffset d r n := by
  have kept : (s.missChunks c r k).parity = r.parity ∧ (s.missChunks c r k).group = r.group := by
    unfold State.missChunks
    split <;> exact ⟨rfl, rfl⟩
  unfold State.chunkOffset
  rw [kept.1, kept.2]

/-- Where a member's collective writes the chunk that a RED_DOWN brings (Table 10-8). -/
def State.chunkTarget (s : State) (c : Cmd) (r : CollRun) (p : Packet) : Nat :=
  dget c.words C.DST_ADDR + (if dget c.words D.CMD = CC.REDUCE_SCATTER
    then s.chunkOffset c r (s.chunkIndex r.parity r.group (pget p H.ADDRESS)) else pget p H.ADDRESS)

/-- A chunk that is not the last, and passes its checks, is written at its address or nowhere, and its command goes on with
the chunks after it. -/
theorem State.takeChunk_continues {i : Nat} {c : Cmd} {r : CollRun} {p : Packet} (checked : s.downCheck i p = none)
    (more : pflag p H.LAST_CHUNK = false) (sound : hasPoison p = false) :
    ∃ t q, s.takeChunk i c r p = State.setCmd t { c with coll := some q }
      ∧ s.chunkIndex r.parity r.group (pget p H.ADDRESS) < q.down ∧ Claims.BytesBut i (s.chunkTarget c r p) (payload p).length s t := by
  unfold State.takeChunk
  simp only [checked, more, Bool.false_eq_true, if_false]
  refine ⟨_, _, rfl, Nat.lt_of_succ_le (Nat.le_max_right _ _), ?_⟩
  split
  · rw [State.missChunks_chunkOffset]
    exact s.writeChunk_bytesBut i _ _ sound
  · exact fun _ _ _ => rfl

/-! ### What the place of a chunk reads -/

/-- The count of bad parity at a FIFO leaves the formats of a group, whatever parity a collective names. -/
theorem State.getE_countParity (s : State) (d k e g : Nat) {f : Fld} (reg : f.reg = .RK_GROUP) (high : 24 ≤ f.lo)
    (width : f.width ≤ 64) : (s.sat F.XB_ERRORS_PARITY d k).getE e f g = s.getE e f g := by
  have counts : ∃ x, s.sat F.XB_ERRORS_PARITY d k = s.setWord .XB_ERRORS d (fieldPut (s.word .XB_ERRORS d 0) 0 24 x) 0 := ⟨_, rfl⟩
  obtain ⟨x, counts⟩ := counts
  rw [counts, State.getE, State.getE, reg]
  by_cases same : regKey .RK_GROUP g (f.bank e) = regKey .XB_ERRORS d 0
  · have read (t : State) : t.word .RK_GROUP g (f.bank e) = t.word .XB_ERRORS d 0 := by
      unfold State.word
      rw [same]
      rfl
    rw [read, read, State.word_setWord_self]
    exact fieldGet_fieldPut_ne _ _ _ _ _ _ (by decide) (.inr high) width
  · have word : (s.setWord .XB_ERRORS d (fieldPut (s.word .XB_ERRORS d 0) 0 24 x) 0).word .RK_GROUP g (f.bank e)
        = s.word .RK_GROUP g (f.bank e) := congrArg (Option.getD · _) (lookup_assign_ne _ _ _ _ _ same)
    rw [word]

theorem State.chunkBytes_congr {e g : Nat} (h : ∀ f ∈ [F.RK_GROUP_FMT_MEMBER, F.RK_GROUP_FMT_DIE, F.RK_GROUP_FMT_CHIP, F.RK_GROUP_FMT_RACK],
    v.getE e f g = s.getE e f g) : v.chunkBytes e g = s.chunkBytes e g := by
  unfold State.chunkBytes State.formats
  rw [h F.RK_GROUP_FMT_MEMBER (by decide), h F.RK_GROUP_FMT_DIE (by decide), h F.RK_GROUP_FMT_CHIP (by decide),
    h F.RK_GROUP_FMT_RACK (by decide)]

/-- The size of a group's chunks is as it was when a packet has left a FIFO. -/
theorem State.popFifo_chunkBytes (s : State) (n e g : Nat) : (s.popFifo n).chunkBytes e g = s.chunkBytes e g := by
  refine State.chunkBytes_congr fun f hf => ?_
  have format : f.reg = .RK_GROUP ∧ 24 ≤ f.lo ∧ f.width ≤ 64 := by
    revert hf
    revert f
    decide
  obtain ⟨reg, high, width⟩ := format
  unfold State.popFifo
  split
  · rfl
  · dsimp only
    split
    · exact State.getE_countParity _ _ _ e g reg high width
    · rfl

/-- Likewise when a core port has taken a packet. -/
theorem State.takeIn_chunkBytes {ep : Nat} (s : State) (p : Packet) (core : ep < 256) (e g : Nat) :
    (s.takeIn ep p).chunkBytes e g = s.chunkBytes e g := by
  rw [State.takeIn, if_neg (by simp; omega)]
  split
  · exact s.popFifo_chunkBytes _ e g
  · rfl

theorem State.chunkIndex_congr {e g : Nat} (h : v.chunkBytes e g = s.chunkBytes e g) (addr : Nat) :
    v.chunkIndex e g addr = s.chunkIndex e g addr := by
  rw [State.chunkIndex, h]
  rfl

theorem State.chunkTarget_congr {r : CollRun} (h : v.chunkBytes r.parity r.group = s.chunkBytes r.parity r.group) (c : Cmd) (p : Packet) :
    v.chunkTarget c r p = s.chunkTarget c r p := by
  unfold State.chunkTarget State.chunkOffset
  rw [State.chunkIndex_congr h, h]

/-! ### At a stack sink -/

/-- A payload has as many bytes as LENGTH states. -/
theorem payload_length (p : Packet) : (payload p).length = pget p H.LENGTH := by
  have flits : pget p H.LENGTH ≤ payloadFlits p * 64 := by
    unfold payloadFlits ceilDiv
    omega
  simp only [payload, List.length_take, List.length_flatMap, List.length_map, List.length_range, List.map_const',
    List.sum_replicate_nat]
  exact Nat.min_eq_left flits

theorem exec_stackSinkRedDown {st : Fin 24} {p : Packet} (hc : s.chipReset = false) (hh : headerBad p = false)
    (op : pget p H.OPCODE = Op.RED_DOWN) (waits : s.waitsAt (256 + st.val) p = true) (some' : 0 < pget p H.LENGTH) :
    exec (.stackSinkRedDown st p) s = .next ((s.takeIn (256 + st.val) p).sinkWrite st.val p).flow := by
  have empty : pget p H.LENGTH ≠ 0 := by omega
  rw [show exec (.stackSinkRedDown st p) s = execStackSinkRedDown st p s from rfl, execStackSinkRedDown, live_running hc]
  simp only [hh, op, waits, empty, classOf_redDown, bne_self_eq_false, Bool.and_false, Bool.not_true, Bool.false_eq_true, if_false]

/-- The address at which a stack sink stores a result (R247). -/
def State.sinkTarget (s : State) (p : Packet) : Nat :=
  s.getE (pget p H.EPOCH) F.RK_GROUPAUX_SINK_BASE (pget p H.GROUP) + pget p H.ADDRESS

/-- The checks of a stack sink (R247): it is the group's sink, and the result passes checks 4, 5, 7 and 10 where it goes. -/
structure SinkTakes (s : State) (st : Nat) (p : Packet) : Prop where
  valid : s.flagE (pget p H.EPOCH) F.RK_GROUPAUX_SINK_VALID (pget p H.GROUP) = true
  stack : s.getE (pget p H.EPOCH) F.RK_GROUPAUX_SINK_STACK (pget p H.GROUP) = st
  part : s.partCheck (256 + st) (pset p [(H.ADDRESS, s.sinkTarget p)]) = none
  format : pget p H.FORMAT < 8
  op : pget p H.OP < 6
  flow : pflag p H.FLOW_VALID = false
  aligned : s.sinkTarget p % 8 = 0
  inside : s.sinkTarget p + pget p H.LENGTH ≤ memSize (256 + st)
  short : pget p H.LENGTH ≤ 4096
  whole : pget p H.LENGTH % Nat.max 1 (unitBytes (pget p H.FORMAT)) = 0
  owned : ∀ b ∈ banksOf (256 + st) (s.sinkTarget p) (pget p H.LENGTH), s.netOwns p (256 + st) b = true

/-- A result that passes them is written where it goes, and the sink notes how far it has come. -/
theorem State.sinkWrite_takes {st : Nat} {p : Packet} (h : SinkTakes s st p) :
    s.sinkWrite st p = (s.writePayload (256 + st) (s.sinkTarget p) (payload p) (flitPoison p)).noteSink st (pget p H.GROUP)
      (pget p H.SEQ) (pget p H.ADDRESS + pget p H.LENGTH) := by
  obtain ⟨valid, stack, part, format, op, flow, aligned, inside, short, whole, owned⟩ := h
  unfold State.sinkTarget at *
  unfold State.sinkWrite
  dsimp only
  rw [valid, stack, part, flow, if_neg (by simp)]
  dsimp only
  rw [if_neg (by simp [format, op, aligned, inside, short, whole]), if_neg (by simpa using owned)]

/-- The bytes of a result that a stack sink takes. -/
theorem sinkStoresTheResult {st : Fin 24} {p : Packet} (hc : s.chipReset = false) (hh : headerBad p = false)
    (op : pget p H.OPCODE = Op.RED_DOWN) (waits : s.waitsAt (256 + st.val) p = true) (some' : 0 < pget p H.LENGTH)
    (sound : hasPoison p = false) (wf : Memory.wf s.mem = true) (takes : SinkTakes (s.takeIn (256 + st.val) p) st.val p) :
    let a := (s.takeIn (256 + st.val) p).sinkTarget p
    Claims.Flows (.stackSinkRedDown st p) s (fun u =>
      (∀ k, k < pget p H.LENGTH → u.byteAt (256 + st.val) (a + k) = (payload p).getD k 0)
        ∧ Claims.BytesBut (256 + st.val) a (pget p H.LENGTH) s u) := by
  refine ⟨_, exec_stackSinkRedDown hc hh op waits some', ?_⟩
  rw [State.sinkWrite_takes takes, ← payload_length]
  refine bytes_of_writeList wf ?_
  rw [← s.takeIn_mem (256 + st.val) p]
  exact ((Off.noteSink (Nat.and_self _) _ _ _ _ (Off.refl _ _)).stores .mem (by decide)).trans
    (State.writePayload_mem _ _ _ _ (flitPoison_sound sound))

/-! ### The statement -/

/-- A RED_DOWN that no collective of a working member awaits. -/
theorem memberStrays {ep : BitVec 9} {p : Packet} (hc : s.chipReset = false) (hh : headerBad p = false)
    (op : pget p H.OPCODE = Op.RED_DOWN) (core : ep.toNat < 256) (waits : s.waitsAt ep.toNat p = true)
    (works : s.takes ep.toNat = true) (rst : s.coreRst.contains ep.toNat = false)
    (none' : ∀ c ∈ s.cmds, c.core = ep.toNat → isColl c (pget p H.GROUP) (pget p H.SEQ) = false) :
    Claims.Flows (.redDownArrival ep p) s (fun u => SameBytes s u ∧ u.cmds = s.cmds
      ∧ u.get F.CP_ERRCNT_STRAY ep.toNat = Claims.counted s F.CP_ERRCNT_STRAY ep.toNat 1) := by
  have cmds : (s.takeIn ep.toNat p).cmds = s.cmds := (s.takeIn_off ep.toNat p).stores .cmds (by decide)
  refine ⟨_, exec_redDownArrival hc hh op (by omega) waits works (fun _ => rst), ?_⟩
  rw [State.takeDownAt_core hh op core, State.redDown_unawaited (by rw [cmds]; exact none')]
  obtain ⟨off, count, -⟩ := State.takeIn_stray_core (s := s) p core
  exact ⟨off.sameBytes (by decide), off.stores .cmds (by decide), count⟩

/-- A RED_DOWN that a collective of a working member awaits. -/
theorem memberTakesItsChunk {ep : BitVec 9} {p : Packet} {c : Cmd} {r : CollRun} (hc : s.chipReset = false) (hh : headerBad p = false)
    (op : pget p H.OPCODE = Op.RED_DOWN) (core : ep.toNat < 256) (waits : s.waitsAt ep.toNat p = true)
    (works : s.takes ep.toNat = true) (rst : s.coreRst.contains ep.toNat = false) (listens : s.answersStray ep.toNat = false)
    (found : (s.takeIn ep.toNat p).cmds.find? (Cmd.awaitsDown ep.toNat p) = some c) (coll : c.coll = some r)
    (checked : (s.takeIn ep.toNat p).downCheck ep.toNat p = none) (more : pflag p H.LAST_CHUNK = false) (sound : hasPoison p = false) :
    Claims.Flows (.redDownArrival ep p) s (fun u => Claims.BytesBut ep.toNat (s.chunkTarget c r p) (payload p).length s u
      ∧ ∃ d ∈ u.cmds, d.same c = true ∧ ∃ q, d.coll = some q ∧ s.chunkIndex r.parity r.group (pget p H.ADDRESS) < q.down) := by
  have taken := s.takeIn_off ep.toNat p
  have chunks := s.takeIn_chunkBytes p core r.parity r.group
  have listens' := (taken.answersStray (by decide) (by decide) (by decide) ep.toNat).trans listens
  obtain ⟨t, q, effect, down, bytes⟩ := State.takeChunk_continues (r := r) (c := c) checked more sound
  rw [State.chunkIndex_congr chunks] at down
  rw [State.chunkTarget_congr chunks] at bytes
  refine ⟨_, exec_redDownArrival hc hh op (by omega) waits works (fun _ => rst), ?_⟩
  rw [State.takeDownAt_core hh op core, State.redDown_awaited found coll listens', effect]
  refine ⟨fun e b outside => ?_, _, t.mem_setCmd _, by simp [Cmd.same], q, rfl, down⟩
  have set := (Off.setCmd (Nat.and_self _) { c with coll := some q } (Off.refl _ t)).sameBytes (by decide)
  exact (set e b).trans ((bytes e b outside).trans (taken.sameBytes (by decide) e b))

/-- Settles O27: at a member, at the host bridge and Alorn, and at a stack sink. -/
theorem reductionResultsAreStored : Obligations.ReductionResultsAreStored := by
  intro s p hc hh op
  refine ⟨fun ep core waits works rst none' => memberStrays hc hh op core waits works rst none', fun ep beyond waits => ?_,
    fun ep i here waits works rst listens c r found coll checked more sound => ?_,
    fun st waits some' sound wf valid stack part format fold flow aligned inside short whole owned =>
      sinkStoresTheResult hc hh op waits some' sound wf
        ⟨valid, stack, part, format, fold, flow, aligned, inside, short, whole, owned⟩⟩
  · have ran := exec_redDownArrival hc hh op (by omega) waits (by simp [State.takes]; omega) (fun core => absurd core (by omega))
    rw [State.takeDownAt_beyond hh op beyond] at ran
    obtain ⟨u, effect, bytes, cmds, -, -, count, -⟩ := s.takeIn_discards _ _ _ ran
    have counter : Claims.headerErrors s ep.toNat = (F.AL_EPERR_HEADER, ep.toNat - 286) := by
      rw [Claims.headerErrors, if_neg (by omega), if_neg (by omega), if_neg (by omega)]
    rw [counter] at count
    exact ⟨u, effect, bytes, cmds, count⟩
  · rw [← here] at waits works rst listens found checked ⊢
    exact memberTakesItsChunk hc hh op (by omega) waits works rst listens found coll checked more sound

end Sys2Proof.Machine

/-! What the Plumb nodes read of the registers (chapter 10). -/

namespace Sys2Proof.Machine

open Safety

variable {s t u : State} {fs : List Fld}

/-! ### Fields kept -/

/-- Each of the fields `fs`, of every copy and in both banks, holds in `t` what it holds in `s`. -/
def FieldsKept (fs : List Fld) (s t : State) : Prop := ∀ f ∈ fs, ∀ n e, e < 2 → t.getE e f n = s.getE e f n

theorem FieldsKept.refl (fs : List Fld) (s : State) : FieldsKept fs s s := fun _ _ _ _ _ => rfl

theorem FieldsKept.trans (h : FieldsKept fs s t) (k : FieldsKept fs t u) : FieldsKept fs s u :=
  fun f hf n e he => (k f hf n e he).trans (h f hf n e he)

theorem FieldsKept.mono {gs : List Fld} (h : FieldsKept fs s t) (sub : ∀ f ∈ gs, f ∈ fs) : FieldsKept gs s t :=
  fun f hf => h f (sub f hf)

theorem Off.fieldsKept {M : Nat} (h : Off M s t) (clear : ∀ f ∈ fs, M.testBit f.reg.num = false) : FieldsKept fs s t :=
  fun f hf n e he => h.getE f n e he (clear f hf)

theorem FieldsKept.put {g : Fld} (n v : Nat) (h : FieldsKept fs s t) (other : ∀ f ∈ fs, apart g f = true) :
    FieldsKept fs s (t.put g n v) :=
  fun f hf m e he => (State.getE_put_ne t g f v he (.inl (other f hf))).trans (h f hf m e he)

/-- Stores beside the register file may have changed too. -/
theorem FieldsKept.same (h : FieldsKept fs s t) (e : u.regs = t.regs) : FieldsKept fs s u :=
  fun f hf n b hb => (State.getE_same e b f n).trans (h f hf n b hb)

theorem FieldsKept.ite {c : Prop} [Decidable c] {a b : State} (ha : FieldsKept fs s a) (hb : FieldsKept fs s b) :
    FieldsKept fs s (if c then a else b) := by
  split
  · exact ha
  · exact hb

/-- With the parity, the values in effect are kept. -/
theorem FieldsKept.get (h : FieldsKept fs s t) (parity : F.RK_EPOCH_PARITY ∈ fs) {f : Fld} (hf : f ∈ fs) (n : Nat) :
    t.get f n = s.get f n := by
  have same : t.parity = s.parity := h _ parity 0 0 (by decide)
  unfold State.get
  rw [same]
  exact h f hf n _ s.parity_lt

theorem FieldsKept.flag (h : FieldsKept fs s t) (parity : F.RK_EPOCH_PARITY ∈ fs) {f : Fld} (hf : f ∈ fs) (n : Nat) :
    t.flag f n = s.flag f n := by
  rw [State.flag, h.get parity hf]
  rfl

/-! ### Recorded aborts -/

/-- The fields that tell which ABORTs of a group are recorded (R264). -/
abbrev abortFields : List Fld := [F.RK_EPOCH_PARITY, F.PL_GROUPSTATE_ABORT_SEQ0, F.PL_GROUPSTATE_ABORT_SEQ1,
  F.PL_GROUPSTATE_ABORT_VALID0, F.PL_GROUPSTATE_ABORT_VALID1]

theorem FieldsKept.abortRecorded (h : FieldsKept abortFields s t) (g q : Nat) : t.abortRecorded g q = s.abortRecorded g q := by
  unfold State.abortRecorded
  rw [h.flag (by decide) (f := F.PL_GROUPSTATE_ABORT_VALID0) (by decide),
    h.flag (by decide) (f := F.PL_GROUPSTATE_ABORT_VALID1) (by decide),
    h.get (by decide) (f := F.PL_GROUPSTATE_ABORT_SEQ0) (by decide), h.get (by decide) (f := F.PL_GROUPSTATE_ABORT_SEQ1) (by decide)]

/-! ### The trees of a group -/

/-- The fields that tell a node's inputs and where it sends: the trees and members of each group, its recorded ABORTs, the
group of the epoch protocol, and which ports are ADMITTED. -/
abbrev plumbFields : List Fld := abortFields ++ [F.PL_GROUPSTATE_STANDBY, F.RK_EPOCH_EPOCH_GROUP, F.PL_GROUP_PRI_PARENT,
  F.PL_GROUP_PRI_CHILDREN, F.PL_GROUP_SBY_PARENT, F.PL_GROUP_SBY_CHILDREN, F.PL_MEMBERS_MASK, F.OP_PORTSTATE_STATE,
  F.OP_PORTCTL_LOGICAL]

theorem mget_lt (m : PlumbMsg) (lo n : Nat) : mget m lo n < 2 ^ n := Nat.mod_lt _ (Nat.two_pow_pos n)

theorem M.epoch_lt (m : PlumbMsg) : M.EPOCH m < 2 := mget_lt m 44 1

theorem M.seq_lt (m : PlumbMsg) : M.SEQ m < 2 ^ 16 := mget_lt m 20 16

section
variable (h : FieldsKept plumbFields s t)
include h

theorem FieldsKept.plumbGet {f : Fld} (hf : f ∈ plumbFields) (n : Nat) : t.get f n = s.get f n := h.get (by decide) hf n

theorem FieldsKept.epochGroup : t.epochGroup = s.epochGroup := congrArg (· % 4096) (h.plumbGet (by decide) 0)

theorem FieldsKept.physOf (l : Nat) : t.physOf l = s.physOf l := by
  unfold State.physOf
  simp only [h.plumbGet (f := F.OP_PORTCTL_LOGICAL) (by decide)]

theorem FieldsKept.admitted (p : Nat) : t.admitted p = s.admitted p := by
  rw [State.admitted, h.plumbGet (by decide)]
  rfl

theorem FieldsKept.dropsArrival (n g q : Nat) : t.dropsArrival n g q = s.dropsArrival n g q := by
  rw [State.dropsArrival, (h.mono (by decide)).abortRecorded, h.epochGroup]
  rfl

variable {e : Nat} (he : e < 2)
include he

theorem FieldsKept.childPorts (g : Nat) : t.childPorts e g = s.childPorts e g := by
  unfold State.childPorts State.flag
  rw [h.plumbGet (f := F.PL_GROUPSTATE_STANDBY) (by decide)]
  split
  · rw [h F.PL_GROUP_SBY_CHILDREN (by decide) _ e he]
  · rw [h F.PL_GROUP_PRI_CHILDREN (by decide) _ e he]

theorem FieldsKept.memberClusters (g : Nat) : t.memberClusters e g = s.memberClusters e g := by
  unfold State.memberClusters
  simp only [h F.PL_MEMBERS_MASK (by decide) _ e he]

theorem FieldsKept.clusterMembers (g c : Nat) : t.clusterMembers e g c = s.clusterMembers e g c := by
  unfold State.clusterMembers State.isMember
  simp only [h F.PL_MEMBERS_MASK (by decide) _ e he]

theorem FieldsKept.plumbInputs (n g : Nat) : t.plumbInputs n e g = s.plumbInputs n e g := by
  unfold State.plumbInputs
  rw [h.clusterMembers he, h.memberClusters he, h.childPorts he, h.epochGroup]

theorem FieldsKept.absentInputs (n g : Nat) : t.absentInputs n e g = s.absentInputs n e g := by
  unfold State.absentInputs
  rw [h.childPorts he, h.epochGroup]
  simp only [h.physOf, h.admitted]

end

/-! ### A message taken -/

/-- An input's message is taken out of its FIFO, or is no longer on its way. -/
theorem State.takeInput_off (s : State) (src : PlumbFrom) (m : PlumbMsg) :
    Off 0x100000020000000000000000000000200 s (s.takeInput src m) :=
  Off.takeInput (Nat.and_self _) src m (Off.refl _ s)

theorem State.takeInput_fields (s : State) (src : PlumbFrom) (m : PlumbMsg) : FieldsKept plumbFields s (s.takeInput src m) :=
  (s.takeInput_off src m).fieldsKept (by decide)

end Sys2Proof.Machine

/-! ABORT: its record, its spread, and one that is recorded already (chapter 10). -/

namespace Sys2Proof.Machine

open Safety

variable {s t u : State}

/-! ### One ABORT -/

/-- The time that an ABORT ends is no longer taken (R271). -/
def State.timeEnded (s : State) (g q : Nat) : State :=
  match lookup s.arrivals g with
  | some a => if a.seq = q then { s with arrivals := remove s.arrivals g } else s
  | none => s

theorem Off.timeEnded {M : Nat} (hM : M.testBit (storeBit .arrivals) = true) (g q : Nat) (h : Off M s t) : Off M s (t.timeEnded g q) := by
  unfold State.timeEnded
  split
  · exact Off.ite (h.set_arrivals _ hM) h
  · exact h

/-- What follows the record of an ABORT (R264, R265, R267): it goes out by the group's ports, the chunks of its sequence at the
Screed's nodes are flushed, and its members' collectives of that sequence end. -/
def State.abortSpread (s : State) (g q st : Nat) (src : Option Nat) : State :=
  let m := mkPlumb Op.ABORT g q s.parity st (s.get F.RK_GROUP_PARTITION g)
  let s := ((s.plumbPorts g).filter (fun l => some l != src)).foldl (fun s l => s.toPort l m) s
  let s := ((s.flushGroup g q).timeEnded g q).leaveDone g q
  (s.abortCores g q).foldl (fun s i => s.toMember i m) s

/-- The record of an ABORT, with the switch to the standby tree where it asks for it, and the end of its barrier or scalar
reduction at the hubs and cluster nodes. -/
def State.abortNoted (s : State) (g q st : Nat) : State :=
  let s := s.recordAbort g q
  (if st = St.UNREACHABLE then s.put F.PL_GROUPSTATE_STANDBY g 1 else s).clearPlumb g q

theorem State.spreadOne_new {g q : Nat} (st : Nat) (src : Option Nat) (new : s.abortRecorded g q = false) :
    s.spreadOne g q st src = ((s.abortNoted g q st).abortSpread g q st src).armEnded g q st := by
  rw [State.spreadOne, new]
  rfl

theorem State.spreadOne_recorded {g q : Nat} (st : Nat) (src : Option Nat) (old : s.abortRecorded g q = true) :
    s.spreadOne g q st src = s := by
  rw [State.spreadOne, if_pos old]

/-- The fields that tell which tree a group uses (R266). -/
abbrev standbyFields : List Fld := [F.RK_EPOCH_PARITY, F.PL_GROUPSTATE_STANDBY]

/-- The end of barriers and scalar reductions leaves the records of ABORTs and the tree in use. -/
theorem State.clearPlumb_fields (s : State) (g q : Nat) : FieldsKept (F.PL_GROUPSTATE_STANDBY :: abortFields) s (s.clearPlumb g q) := by
  have stores := (FieldsKept.refl (F.PL_GROUPSTATE_STANDBY :: abortFields) s).same
    (u := { s with plumb := s.plumb.filter (fun e => !(e.1 % 4096 == g && e.2.seq == q))
                   copies := s.copies.filter (fun c => !(M.GROUP c.2.2 == g && M.SEQ c.2.2 == q)) }) rfl
  exact ((stores.put _ _ (by decide)).put _ _ (by decide)).ite stores

theorem State.abortSpread_off (s : State) (g q st : Nat) (src : Option Nat) :
    Off 0x2005733f21632001c890004000c2040f090600 s (s.abortSpread g q st src) := by
  have sent (l : List Nat) (m : PlumbMsg) :
      Off 0x2005733f21632001c890004000c2040f090600 s (l.foldl (fun s l => s.toPort l m) s) :=
    (Off.refl _ s).foldl (fun _ _ h => Off.toPort (by decide) _ _ h)
  exact Off.foldl (Off.leaveDone (by decide) g q (Off.timeEnded (by decide) g q (Off.flushGroup (by decide) g q (sent _ _))))
    (fun _ _ h => Off.toMember (by decide) _ _ h)

/-- The end of the arm barrier leaves them too. -/
theorem State.armEnded_fields (s : State) (g q st : Nat) : FieldsKept (F.PL_GROUPSTATE_STANDBY :: abortFields) s (s.armEnded g q st) := by
  have start := FieldsKept.refl (F.PL_GROUPSTATE_STANDBY :: abortFields) s
  have answered (t : State) (l : List Word) (st : Nat) (h : FieldsKept (F.PL_GROUPSTATE_STANDBY :: abortFields) s t) :
      FieldsKept (F.PL_GROUPSTATE_STANDBY :: abortFields) s (t.endAll AC.APPLY_EPOCH (fun _ => true) st 0 l) :=
    h.trans ((Off.endAll (Nat.and_self _) _ _ _ _ _ (Off.refl _ t)).fieldsKept (by decide))
  have ended : FieldsKept (F.PL_GROUPSTATE_STANDBY :: abortFields) s { s with epochCtl := { s.epochCtl with round := false } } :=
    start.same rfl
  have round : FieldsKept (F.PL_GROUPSTATE_STANDBY :: abortFields) s
      (if q = s.get F.RK_EPOCH_NUMBER then { s with epochCtl := { s.epochCtl with round := false } } else s) := ended.ite start
  unfold State.armEnded
  refine start.ite ?_
  generalize (if q = s.get F.RK_EPOCH_NUMBER then { s with epochCtl := { s.epochCtl with round := false } } else s) = t at round
  refine FieldsKept.ite (answered _ _ _ ?_) round
  exact (round.put (g := F.RK_EPOCH_ARMED) 0 0 (by decide)).same rfl

/-- The spread of an ABORT that has been noted leaves what was noted. -/
theorem State.abortSpread_armEnded_fields (s : State) (g q st : Nat) (src : Option Nat) :
    FieldsKept (F.PL_GROUPSTATE_STANDBY :: abortFields) s ((s.abortSpread g q st src).armEnded g q st) :=
  ((s.abortSpread_off g q st src).fieldsKept (by decide)).trans (State.armEnded_fields _ g q st)

theorem State.recordAbort_recorded {q : Nat} (s : State) (g : Nat) (seq : q < 2 ^ 16) : (s.recordAbort g q).abortRecorded g q = true := by
  unfold State.recordAbort State.abortRecorded State.flag
  dsimp only
  rw [State.get_put_self _ F.PL_GROUPSTATE_ABORT_VALID0 _ _ (by decide) (by decide),
    State.get_put_ne _ F.PL_GROUPSTATE_ABORT_VALID0 F.PL_GROUPSTATE_ABORT_SEQ0 _ (by decide) (.inl (by decide)),
    State.get_put_self _ F.PL_GROUPSTATE_ABORT_SEQ0 _ _ (by decide) (by decide),
    show q % 2 ^ F.PL_GROUPSTATE_ABORT_SEQ0.width = q from Nat.mod_eq_of_lt seq, beq_self_eq_true]
  rfl

theorem State.spreadOne_records {q : Nat} (s : State) (g st : Nat) (src : Option Nat) (seq : q < 2 ^ 16) :
    (s.spreadOne g q st src).abortRecorded g q = true := by
  by_cases old : s.abortRecorded g q = true
  · rw [State.spreadOne_recorded st src old, old]
  · have switched : FieldsKept abortFields (s.recordAbort g q)
        (if st = St.UNREACHABLE then (s.recordAbort g q).put F.PL_GROUPSTATE_STANDBY g 1 else s.recordAbort g q) :=
      ((FieldsKept.refl _ _).put _ _ (by decide)).ite (FieldsKept.refl _ _)
    have noted : FieldsKept abortFields (s.recordAbort g q) (s.abortNoted g q st) :=
      switched.trans ((State.clearPlumb_fields _ g q).mono (by decide))
    rw [State.spreadOne_new st src (Bool.eq_false_iff.2 old)]
    exact ((noted.trans ((State.abortSpread_armEnded_fields _ g q st src).mono (by decide))).abortRecorded g q).trans
      (s.recordAbort_recorded g seq)

/-- An ABORT with another status than UNREACHABLE leaves the tree in use (R266). -/
theorem State.spreadOne_standby {st : Nat} (s : State) (g q : Nat) (src : Option Nat) (other : st ≠ St.UNREACHABLE) :
    (s.spreadOne g q st src).flag F.PL_GROUPSTATE_STANDBY g = s.flag F.PL_GROUPSTATE_STANDBY g := by
  refine FieldsKept.flag (fs := standbyFields) ?_ (by decide) (by decide) g
  by_cases old : s.abortRecorded g q = true
  · rw [State.spreadOne_recorded st src old]
    exact FieldsKept.refl _ s
  · have recorded : FieldsKept standbyFields s (s.recordAbort g q) :=
      ((((FieldsKept.refl _ s).put _ _ (by decide)).put _ _ (by decide)).put _ _ (by decide)).put _ _ (by decide)
    have noted : FieldsKept standbyFields s (s.abortNoted g q st) := by
      rw [State.abortNoted, if_neg other]
      exact recorded.trans ((State.clearPlumb_fields _ g q).mono (by decide))
    rw [State.spreadOne_new st src (Bool.eq_false_iff.2 old)]
    exact noted.trans ((State.abortSpread_armEnded_fields _ g q st src).mono (by decide))

/-! ### At the hubs -/

/-- An ABORT that does not switch its group to the standby tree ends its own collective alone (R266). -/
theorem State.spreadAbort_stays {g q st : Nat} {src : Option Nat}
    (stays : st = St.UNREACHABLE → s.flag F.PL_GROUPSTATE_STANDBY g = true) : s.spreadAbort g q st src = s.spreadOne g q st src := by
  refine if_neg ?_
  by_cases switch : st = St.UNREACHABLE
  · simp [stays switch]
  · simp [s.spreadOne_standby g q src switch]

/-- A recorded ABORT is not spread again. -/
theorem State.spreadAbort_recorded {g q : Nat} (st : Nat) (src : Option Nat) (old : s.abortRecorded g q = true) :
    s.spreadAbort g q st src = s := by
  rw [State.spreadAbort, State.spreadOne_recorded st src old]
  exact if_neg (by simp)

/-- The logical port by which a message comes to the hubs. -/
def arrivalPort : PlumbFrom → Option Nat
  | .port p => some p.val
  | _ => none

theorem exec_abort {m : PlumbMsg} (src : PlumbFrom) (hc : s.chipReset = false) (op : M.OPCODE m = Op.ABORT) :
    exec (.abort src m) s
      = .next ((s.takeInput src m).spreadAbort (M.GROUP m) (M.SEQ m) (M.STATUS m) (arrivalPort src)).flow := by
  have acts : (M.OPCODE m != Op.ABORT) = false := by
    rw [op]
    decide
  rw [show exec (.abort src m) s = execAbort src m s from rfl]
  unfold execAbort
  rw [live_running hc]
  dsimp only
  rw [acts]
  cases src <;> rfl

/-- A message that is taken is the only one that leaves its way. -/
theorem State.takeInput_plumbOut (s : State) (src : PlumbFrom) (m : PlumbMsg) :
    (s.takeInput src m).plumbOut.length ≤ s.plumbOut.length := by
  have staged (n : Nat) : (s.takeStage n m).plumbOut = s.plumbOut :=
    (Off.takeStage (Nat.and_self _) n m (Off.refl _ s)).stores .plumbOut (by decide)
  cases src with
  | member i => exact Nat.le_of_eq (congrArg List.length (staged _))
  | cluster c => exact List.length_erase_le
  | port l => exact Nat.le_of_eq (congrArg List.length (staged _))
  | alorn => exact Nat.le_trans List.length_erase_le (Nat.le_of_eq (congrArg List.length (staged _)))

/-- Of the registers, the taking of a message touches XB_ERRORS alone (R68). -/
theorem State.takeInput_words (s : State) (src : PlumbFrom) (m : PlumbMsg) {r : Reg} (n : Nat) {e : Nat} (he : e < 2)
    (other : r ≠ .XB_ERRORS) : (s.takeInput src m).word r n e = s.word r n e := by
  refine (s.takeInput_off src m).words r n e he ?_
  revert other
  cases r <;> decide

/-- Settles O41: the first time an ABORT comes, and once it is recorded. -/
theorem abortsAreRecordedOnce : Obligations.AbortsAreRecordedOnce := by
  intro s src m hc op _
  have kept := s.takeInput_fields src m
  refine ⟨fun stays => ⟨_, exec_abort src hc op, ?_⟩, fun old => ⟨_, exec_abort src hc op, ?_⟩⟩
  · rw [State.spreadAbort_stays fun st => (kept.flag (by decide) (by decide) _).trans (stays st)]
    exact State.spreadOne_records _ _ _ _ (M.seq_lt m)
  · rw [State.spreadAbort_recorded _ _ (((kept.mono (by decide)).abortRecorded _ _).trans old)]
    exact ⟨(s.takeInput_off src m).stores .cmds (by decide), s.takeInput_plumbOut src m,
      fun r n e he other => s.takeInput_words src m n he other⟩

end Sys2Proof.Machine

/-! Plumb arrivals at their node, and releases and results on their way down (chapter 10). -/

namespace Sys2Proof.Machine

open Safety

variable {s t : State}

/-! ### An arrival that is recorded -/

/-- The collective in progress at a node, or the one that an arrival opens there. -/
def State.runFor (s : State) (n : Nat) (m : PlumbMsg) (scalar : Bool) : PlumbRun :=
  (lookup s.plumb (plumbKey n (M.GROUP m))).getD ⟨M.SEQ m, M.EPOCH m, scalar, M.FORMAT m, M.OP m, M.PARTITION m, [], false, false⟩

/-- It with the arrival of input `key`. -/
def State.runWith (s : State) (n key : Nat) (m : PlumbMsg) (scalar bad : Bool) : PlumbRun :=
  let r := s.runFor n m scalar
  { r with vals := upsert r.vals key (BitVec.ofNat 64 (M.VALUE m)), poison := r.poison || bad }

/-- The node with the arrival of input `key` recorded. -/
def State.arrivalKept (s : State) (n key : Nat) (m : PlumbMsg) (scalar bad : Bool) : State :=
  let g := M.GROUP m
  let r := s.runWith n key m scalar bad
  let s := s.put F.PL_GROUPSTATE_SEQ g (M.SEQ m)
  let s := { s with plumb := upsert s.plumb (plumbKey n g) r }
  if n = 0 then (s.put F.PL_GROUPSTATE_BUSY g 1).put F.PL_GROUPSTATE_ARRIVED g r.vals.length else s

theorem State.plumbArrive_takes {node : PlumbNode} {src : PlumbFrom} {m : PlumbMsg} {scalar : Bool} (bad : Bool)
    (wire : wired node src = true) (takes : s.dropsArrival (plumbNo node) (M.GROUP m) (M.SEQ m) = false)
    (input : inputKey src ∈ s.plumbInputs (plumbNo node) (M.EPOCH m) (M.GROUP m))
    (seq : (s.runFor (plumbNo node) m scalar).seq = M.SEQ m) :
    s.plumbArrive node src m scalar bad
      = (s.arrivalKept (plumbNo node) (inputKey src) m scalar bad).settlePlumb (plumbNo node) (M.GROUP m) := by
  unfold State.plumbArrive
  dsimp only
  rw [wire, takes, List.contains_iff_mem.2 input, if_neg (by decide)]
  exact if_neg (by simpa [State.runFor] using seq)

theorem State.arrivalKept_run (s : State) (n key : Nat) (m : PlumbMsg) (scalar bad : Bool) :
    lookup (s.arrivalKept n key m scalar bad).plumb (plumbKey n (M.GROUP m)) = some (s.runWith n key m scalar bad) := by
  unfold State.arrivalKept
  dsimp only
  split <;> exact lookup_upsert_self _ _ _

/-- The record of an arrival leaves what the nodes read of the trees. -/
theorem State.arrivalKept_fields (s : State) (n key : Nat) (m : PlumbMsg) (scalar bad : Bool) :
    FieldsKept plumbFields s (s.arrivalKept n key m scalar bad) := by
  have kept : FieldsKept plumbFields s { s.put F.PL_GROUPSTATE_SEQ (M.GROUP m) (M.SEQ m) with
      plumb := upsert s.plumb (plumbKey n (M.GROUP m)) (s.runWith n key m scalar bad) } :=
    ((FieldsKept.refl _ s).put _ _ (by decide)).same rfl
  exact ((kept.put _ _ (by decide)).put _ _ (by decide)).ite kept

theorem State.arrivalKept_off (s : State) (n key : Nat) (m : PlumbMsg) (scalar bad : Bool) :
    Off 0x40000000000000000010000000000000 s (s.arrivalKept n key m scalar bad) := by
  have kept : Off 0x40000000000000000010000000000000 s { s.put F.PL_GROUPSTATE_SEQ (M.GROUP m) (M.SEQ m) with
      plumb := upsert s.plumb (plumbKey n (M.GROUP m)) (s.runWith n key m scalar bad) } :=
    Off.set_plumb _ (by decide) (Off.putIf _ _ _ (by decide) (Off.refl _ s))
  exact Off.ite (Off.putIf _ _ _ (by decide) (Off.putIf _ _ _ (by decide) kept)) kept

/-- A node that still awaits an input waits. -/
theorem State.settlePlumb_waits {n g k : Nat} {r : PlumbRun} (run : lookup s.plumb (plumbKey n g) = some r)
    (input : k ∈ s.plumbInputs n r.parity g) (owed : k ∉ s.absentInputs n r.parity g) (missing : lookup r.vals k = none) :
    s.settlePlumb n g = s := by
  have waits : (s.plumbInputs n r.parity g).all
      (fun x => (lookup r.vals x).isSome || (s.absentInputs n r.parity g).contains x) = false :=
    List.all_eq_false.2 ⟨k, input, by simp [missing, owed]⟩
  unfold State.settlePlumb
  rw [run]
  dsimp only
  rw [waits, if_pos (by simp)]

/-! ### Members whose intake has stopped -/

/-- Where no intake has stopped, no node waits in vain. -/
theorem State.stallRun_quiet (n g : Nat) (r : PlumbRun) (runs : ∀ i, s.intakeStopped i = false) : s.stallRun n g r = s := by
  simp [State.stallRun, State.gone, runs]

/-- Steps that leave a state leave it all together. -/
theorem State.foldl_still {α : Type} {g : State → α → State} (still : ∀ a, g s a = s) (l : List α) : l.foldl g s = s := by
  induction l with
  | nil => rfl
  | cons a l ih => rw [List.foldl_cons, still, ih]

theorem State.stallPlumb_quiet (runs : ∀ i, s.intakeStopped i = false) : s.stallPlumb = s := by
  unfold State.stallPlumb
  refine State.foldl_still (fun e => ?_) _
  split
  · exact State.stallRun_quiet _ _ _ runs
  · rfl

/-- The fields that tell a core's partition. -/
abbrev partFields : List Fld := [F.RK_EPOCH_PARITY, F.RK_PARTJOB_VALID, F.RK_PARTJOB_CLUSTERS]

theorem State.intakeStopped_congr (h : FieldsKept partFields s t) (parts : t.parts = s.parts) (i : Nat) :
    t.intakeStopped i = s.intakeStopped i := by
  unfold State.intakeStopped State.partOfCore State.partOfCluster State.part State.flag
  simp only [h.get (by decide) (f := F.RK_PARTJOB_VALID) (by decide), h.get (by decide) (f := F.RK_PARTJOB_CLUSTERS) (by decide), parts]

/-! ### The command -/

/-- An arrival whose message has been taken and whose time is noted. -/
def State.inputTaken (s : State) (src : PlumbFrom) (m : PlumbMsg) : State := (s.takeInput src m).timeMember src m

theorem State.inputTaken_off (s : State) (src : PlumbFrom) (m : PlumbMsg) :
    Off 0x1100000020000000000060000000000200 s (s.inputTaken src m) :=
  Off.timeMember (by decide) src m (Off.takeInput (by decide) src m (Off.refl _ s))

theorem exec_plumbArrival {n : PlumbNode} {src : PlumbFrom} {m : PlumbMsg} {scalar : Bool} (hc : s.chipReset = false)
    (wire : wired n src = true) (op : M.OPCODE m = (if scalar then Op.SRED_UP else Op.BAR_ARRIVE)) :
    exec (if scalar then .sredUp n src m else .barArrive n src m) s
      = .next (((s.inputTaken src m).plumbArrive n src m scalar (s.plumbBad src m)).stallPlumb).flow := by
  cases scalar with
  | false =>
    rw [show exec (if false = true then .sredUp n src m else .barArrive n src m) s = execBarArrive n src m s from rfl, execBarArrive,
      live_running hc, op, wire]
    rfl
  | true =>
    rw [show exec (if true = true then .sredUp n src m else .barArrive n src m) s = execSredUp n src m s from rfl, execSredUp,
      live_running hc, op, wire]
    rfl

/-- The collective that an arrival belongs to is of its sequence and parity and has not gone up. -/
theorem State.runFor_agrees {n : Nat} {m : PlumbMsg} (scalar : Bool)
    (agrees : ∀ r, lookup s.plumb (plumbKey n (M.GROUP m)) = some r → r.seq = M.SEQ m ∧ r.parity = M.EPOCH m ∧ r.sent = false) :
    (s.runFor n m scalar).seq = M.SEQ m ∧ (s.runFor n m scalar).parity = M.EPOCH m ∧ (s.runFor n m scalar).sent = false := by
  unfold State.runFor
  cases found : lookup s.plumb (plumbKey n (M.GROUP m)) with
  | none => exact ⟨rfl, rfl, rfl⟩
  | some r => exact agrees r found

/-- An input that no arrival of the collective in progress has filled is not filled by that of another. -/
theorem State.runWith_missing {n key k : Nat} {m : PlumbMsg} (scalar bad : Bool) (other : k ≠ key)
    (missing : ∀ r, lookup s.plumb (plumbKey n (M.GROUP m)) = some r → lookup r.vals k = none) :
    lookup (s.runWith n key m scalar bad).vals k = none := by
  refine (lookup_upsert_ne _ _ _ _ other).trans ?_
  unfold State.runFor
  cases found : lookup s.plumb (plumbKey n (M.GROUP m)) with
  | none => rfl
  | some r => exact missing r found

theorem plumbArrivalsAreRecorded : Claims.PlumbArrivalsAreRecorded := by
  intro s n src m scalar hc wire op takes input runs agrees ⟨k, owed, other, present, missing⟩
  refine ⟨_, exec_plumbArrival hc wire op, ?_⟩
  have off := s.inputTaken_off src m
  have fields : FieldsKept plumbFields s (s.inputTaken src m) := off.fieldsKept (by decide)
  have epoch := M.epoch_lt m
  have plumb : (s.inputTaken src m).plumb = s.plumb := off.stores .plumb (by decide)
  rw [← plumb] at agrees missing
  obtain ⟨seq, parity, sent⟩ := State.runFor_agrees scalar agrees
  have run := (s.inputTaken src m).arrivalKept_run (plumbNo n) (inputKey src) m scalar (s.plumbBad src m)
  have kept := (s.inputTaken src m).arrivalKept_fields (plumbNo n) (inputKey src) m scalar (s.plumbBad src m)
  have tree := fields.trans kept
  have parity' : (State.runWith (s.inputTaken src m) (plumbNo n) (inputKey src) m scalar (s.plumbBad src m)).parity = M.EPOCH m := parity
  rw [State.plumbArrive_takes _ wire ((fields.dropsArrival _ _ _).trans takes) (by rw [fields.plumbInputs epoch]; exact input) seq,
    State.settlePlumb_waits (k := k) run (by rw [parity', tree.plumbInputs epoch]; exact owed)
      (by rw [parity', tree.absentInputs epoch]; exact present) (State.runWith_missing scalar _ other missing),
    State.stallPlumb_quiet]
  · exact ⟨_, run, seq, sent, lookup_upsert_self _ _ _⟩
  · intro i
    have whole := off.trans ((s.inputTaken src m).arrivalKept_off (plumbNo n) (inputKey src) m scalar (s.plumbBad src m))
    exact (State.intakeStopped_congr (whole.fieldsKept (by decide)) (whole.stores .parts (by decide)) i).trans (runs i)

/-! ### What is sent -/

/-- The footprint of the messages on their way between the agents of the die (`plumbOut`). -/
abbrev sentFoot : Nat := 0x100000000000000000000000000000000

/-- A message in copies is on its way from every hub in service. -/
theorem State.plumbCopies_sends (s : State) (dst : Nat) (m : PlumbMsg) :
    (s.plumbCopies dst m).plumbOut = s.plumbOut ++ s.hubsUp.map (fun h => ⟨h, dst, m⟩) := by
  have each (l : List Nat) (t : State) :
      (l.foldl (fun s h => s.plumbSend h dst m) t).plumbOut = t.plumbOut ++ l.map (fun h => ⟨h, dst, m⟩) := by
    induction l generalizing t with
    | nil => simp
    | cons h l ih =>
      rw [List.foldl_cons, ih]
      simp [State.plumbSend]
  exact each _ s

/-- To a port it is sent where that port is ADMITTED. -/
theorem State.toPort_sends (s : State) (l : Nat) (m : PlumbMsg) :
    (s.toPort l m).plumbOut = s.plumbOut ++ if s.admitted (s.physOf l) then s.hubsUp.map (fun h => ⟨h, 18 + l, m⟩) else [] := by
  unfold State.toPort
  split
  · exact s.plumbCopies_sends _ m
  · simp

theorem State.plumbCopies_off (s : State) (dst : Nat) (m : PlumbMsg) : Off sentFoot s (s.plumbCopies dst m) :=
  Off.plumbCopies (Nat.and_self _) dst m (Off.refl _ s)

theorem State.toPort_off (s : State) (l : Nat) (m : PlumbMsg) : Off sentFoot s (s.toPort l m) :=
  Off.toPort (Nat.and_self _) l m (Off.refl _ s)

/-- What one of several sends puts on its way stays on its way. -/
theorem mem_foldl_plumbOut {g : State → Nat → State} {x : PlumbSent} {k : Nat} (off : ∀ t a, Off sentFoot t (g t a))
    (grows : ∀ t a, t.plumbOut ⊆ (g t a).plumbOut) {l : List Nat} (mem : k ∈ l) {s : State}
    (sends : ∀ t, Off sentFoot s t → x ∈ (g t k).plumbOut) : x ∈ (l.foldl g s).plumbOut := by
  have stays (l : List Nat) (t : State) (h : x ∈ t.plumbOut) : x ∈ (l.foldl g t).plumbOut := by
    induction l generalizing t with
    | nil => exact h
    | cons a l ih => exact ih _ (grows t a h)
  induction l generalizing s with
  | nil => cases mem
  | cons a l ih =>
    rcases List.mem_cons.1 mem with rfl | later
    · exact stays l _ (sends s (Off.refl _ s))
    · exact ih later fun t h => sends t ((off s a).trans h)

theorem State.hubsUp_congr (h : t.hubDown = s.hubDown) : t.hubsUp = s.hubsUp := by
  rw [State.hubsUp, h]
  rfl

/-! ### Down from the hubs -/

/-- The ports of a group are served first. -/
def State.portsServed (s : State) (g e : Nat) (m : PlumbMsg) : State := (s.childPorts e g).foldl (fun s l => s.toPort l m) s

/-- Then the group is free. -/
def State.groupFreed (s : State) (g : Nat) : State :=
  (({ s with plumb := remove s.plumb (plumbKey 0 g) } : State).put F.PL_GROUPSTATE_BUSY g 0).put F.PL_GROUPSTATE_ARRIVED g 0

/-- Then its clusters are served. -/
def State.clustersServed (s : State) (g e : Nat) (m : PlumbMsg) : State :=
  (s.memberClusters e g).foldl (fun s c => s.plumbCopies (2 + c) m) s

theorem State.portsServed_off (s : State) (g e : Nat) (m : PlumbMsg) : Off sentFoot s (s.portsServed g e m) :=
  (Off.refl _ s).foldl (fun _ _ h => Off.toPort (Nat.and_self _) _ _ h)

theorem State.clustersServed_off (s : State) (g e : Nat) (m : PlumbMsg) : Off sentFoot s (s.clustersServed g e m) :=
  (Off.refl _ s).foldl (fun _ _ h => Off.plumbCopies (Nat.and_self _) _ _ h)

theorem State.groupFreed_fields (s : State) (g : Nat) : FieldsKept plumbFields s (s.groupFreed g) :=
  (((FieldsKept.refl _ s).same rfl).put _ _ (by decide)).put _ _ (by decide)

theorem State.plumbDown_group {g : Nat} (e : Nat) (m : PlumbMsg) (other : g ≠ s.epochGroup) :
    s.plumbDown g e m = ((s.portsServed g e m).groupFreed g).clustersServed g e m := by
  have group : ((s.portsServed g e m).groupFreed g).epochGroup = s.epochGroup :=
    ((Off.fieldsKept (s.portsServed_off g e m) (by decide)).trans (State.groupFreed_fields _ g)).epochGroup
  exact if_neg (by rw [← group] at other; exact other)

/-- A release or result of another group than EPOCH_GROUP's goes from every hub in service to every cluster with a member and to
every admitted child port. -/
theorem State.plumbDown_sends {g e h : Nat} {m : PlumbMsg} (other : g ≠ s.epochGroup) (epoch : e < 2) (up : h ∈ s.hubsUp) :
    (∀ k ∈ s.memberClusters e g, (⟨h, 2 + k, m⟩ : PlumbSent) ∈ (s.plumbDown g e m).plumbOut)
      ∧ ∀ l ∈ s.childPorts e g, s.admitted (s.physOf l) = true → (⟨h, 18 + l, m⟩ : PlumbSent) ∈ (s.plumbDown g e m).plumbOut := by
  have ports := s.portsServed_off g e m
  have tree : FieldsKept plumbFields s ((s.portsServed g e m).groupFreed g) :=
    (ports.fieldsKept (by decide)).trans (State.groupFreed_fields _ g)
  have down : ((s.portsServed g e m).groupFreed g).hubDown = s.hubDown := ports.stores .hubDown (by decide)
  have grows (t : State) (c : Nat) : t.plumbOut ⊆ (t.plumbCopies (2 + c) m).plumbOut := by
    rw [State.plumbCopies_sends]
    exact List.subset_append_left _ _
  rw [State.plumbDown_group e m other]
  refine ⟨fun k mem => ?_, fun l mem admitted => ?_⟩
  · rw [← tree.memberClusters epoch] at mem
    refine mem_foldl_plumbOut (fun t c => t.plumbCopies_off _ m) grows mem fun t off => ?_
    rw [State.plumbCopies_sends, State.hubsUp_congr ((off.stores .hubDown (by decide)).trans down)]
    exact List.mem_append_right _ (List.mem_map.2 ⟨h, up, rfl⟩)
  · have served : (⟨h, 18 + l, m⟩ : PlumbSent) ∈ (s.portsServed g e m).plumbOut := by
      refine mem_foldl_plumbOut (fun t l => t.toPort_off l m) (fun t l => ?_) mem fun t off => ?_
      · rw [State.toPort_sends]
        exact List.subset_append_left _ _
      · have same : FieldsKept plumbFields s t := off.fieldsKept (by decide)
        rw [State.toPort_sends, same.admitted, same.physOf, admitted, if_pos rfl, State.hubsUp_congr (off.stores .hubDown (by decide))]
        exact List.mem_append_right _ (List.mem_map.2 ⟨h, up, rfl⟩)
    have stays (l : List Nat) (t : State) : t.plumbOut ⊆ (l.foldl (fun s c => s.plumbCopies (2 + c) m) t).plumbOut := by
      induction l generalizing t with
      | nil => exact fun _ h => h
      | cons c l ih => exact fun _ h => ih _ (grows t c h)
    exact stays _ _ served

/-- The group is free at the hubs. -/
theorem State.plumbDown_frees {g : Nat} (e : Nat) (m : PlumbMsg) (other : g ≠ s.epochGroup) :
    (s.plumbDown g e m).get F.PL_GROUPSTATE_BUSY g = 0 ∧ lookup (s.plumbDown g e m).plumb (plumbKey 0 g) = none := by
  have clusters := ((s.portsServed g e m).groupFreed g).clustersServed_off g e m
  rw [State.plumbDown_group e m other]
  constructor
  · rw [clusters.get _ _ (by decide) (by decide), State.groupFreed, State.get_put_ne _ _ _ _ (by decide) (.inl (by decide)),
      State.get_put_self _ _ _ _ (by decide) (by decide)]
    rfl
  · rw [clusters.stores .plumb (by decide)]
    exact lookup_remove_self _ _

theorem State.plumbRuns_congr (h : t.plumb = s.plumb) (n g q : Nat) : t.plumbRuns n g q = s.plumbRuns n g q := by
  rw [State.plumbRuns, h]
  rfl

/-- One that the hubs' round awaits is taken from the parent port and goes down. -/
theorem State.hubDownward_runs {m : PlumbMsg} (runs : s.plumbRuns 0 (M.GROUP m) (M.SEQ m) = true) :
    ∃ v, s.hubDownward m = v.plumbDown (M.GROUP m) (M.EPOCH m) m ∧ Off 0x20000000000000000000000200 s v := by
  have staged (v : State) (off : Off 0x20000000000000000000000200 s v) :
      (if v.plumbRuns 0 (M.GROUP m) (M.SEQ m) then v.plumbDown (M.GROUP m) (M.EPOCH m) m else v.plumbStray 0 m)
        = v.plumbDown (M.GROUP m) (M.EPOCH m) m :=
    if_pos ((State.plumbRuns_congr (off.stores .plumb (by decide)) _ _ _).trans runs)
  unfold State.hubDownward
  dsimp only
  split
  · exact ⟨s, staged s (Off.refl _ s), Off.refl _ s⟩
  · have off := fun n => Off.takeStage (Nat.and_self _) n m (Off.refl _ s)
    exact ⟨_, staged _ (off _), off _⟩

/-! ### A copy at a cluster node -/

theorem exec_release {n : PlumbNode} {hub : Hub} {m : PlumbMsg} {scalar : Bool} (sound : Bool) (hc : s.chipReset = false)
    (op : M.OPCODE m = (if scalar then Op.SRED_DOWN else Op.BAR_RELEASE)) :
    exec (if scalar then .sredDown n hub ⟨m, sound⟩ else .barRelease n hub ⟨m, sound⟩) s
      = .next ((match n with
        | .hubs => s.hubDownward m
        | .cluster c => s.clusterTakes c.val hub m sound
        | .port _ => s) : State).flow := by
  cases scalar with
  | false =>
    rw [show exec (if false = true then .sredDown n hub ⟨m, sound⟩ else .barRelease n hub ⟨m, sound⟩) s
      = execBarRelease n hub ⟨m, sound⟩ s from rfl, execBarRelease, live_running hc, op]
    cases n <;> rfl
  | true =>
    rw [show exec (if true = true then .sredDown n hub ⟨m, sound⟩ else .barRelease n hub ⟨m, sound⟩) s
      = execSredDown n hub ⟨m, sound⟩ s from rfl, execSredDown, live_running hc, op]
    cases n <;> rfl

/-- A copy that has arrived is no longer on its way. -/
theorem State.copyTake_off (s : State) (n : Nat) (h : Hub) (m : PlumbMsg) : Off sentFoot s (s.copyTake n h m) :=
  Off.copyTake (Nat.and_self _) n h m (Off.refl _ s)

/-- The first copy of a result waits for the other hub's. -/
theorem State.clusterTakes_first {c : Nat} {hub : Hub} {m : PlumbMsg} (op : M.OPCODE m = Op.SRED_DOWN)
    (first : (s.copyTake (2 + c) hub m).pairOf (2 + c) hub m = none) (unmarked : s.copies.contains (2 + c, otherHub hub, 0) = false)
    (runs : s.plumbRuns (2 + c) (M.GROUP m) (M.SEQ m) = true) (up : s.hubDown.contains (hubNo (otherHub hub)) = false) :
    s.clusterTakes c hub m true = (s.copyTake (2 + c) hub m).keepCopy (2 + c) hub m := by
  have taken := s.copyTake_off (2 + c) hub m
  have runs' := (State.plumbRuns_congr (taken.stores .plumb (by decide)) (2 + c) (M.GROUP m) (M.SEQ m)).trans runs
  rw [State.clusterTakes, if_pos rfl, State.copyDown]
  rw [first]
  dsimp only
  rw [taken.stores .copies (by decide), unmarked, runs', taken.stores .hubDown (by decide), up, op, if_neg (by decide),
    if_neg (by decide), if_neg (by decide), if_pos rfl]

/-- One that no round awaits is stray. -/
theorem State.clusterTakes_unawaited {c : Nat} {hub : Hub} {m : PlumbMsg}
    (first : (s.copyTake (2 + c) hub m).pairOf (2 + c) hub m = none) (unmarked : s.copies.contains (2 + c, otherHub hub, 0) = false)
    (unaltered : s.altered (2 + c) hub m = false) (idle : s.plumbRuns (2 + c) (M.GROUP m) (M.SEQ m) = false) :
    s.clusterTakes c hub m true = (s.copyTake (2 + c) hub m).plumbStray (2 + c) m := by
  have taken := s.copyTake_off (2 + c) hub m
  have idle' := (State.plumbRuns_congr (taken.stores .plumb (by decide)) (2 + c) (M.GROUP m) (M.SEQ m)).trans idle
  rw [State.clusterTakes, if_pos rfl, State.copyDown]
  rw [first]
  dsimp only
  rw [taken.stores .copies (by decide), unmarked, idle', unaltered, if_neg (by decide), if_pos (by decide), if_neg (by decide)]

/-- A stray release or result is counted. -/
theorem State.plumbStray_counts {n : Nat} {m : PlumbMsg} (new : s.abortRecorded (M.GROUP m) (M.SEQ m) = false) :
    (s.plumbStray n m).get F.PL_ERRCNT_ORDER 0 = Claims.counted s F.PL_ERRCNT_ORDER 0 1 := by
  rw [State.plumbStray, new, if_neg (by decide), State.get_event_ne _ _ _ _ _ _ _ _ _ (.inl (by decide)),
    State.get_sat_self _ _ _ _ (by decide) (by decide)]
  rfl

theorem State.plumbStray_copies (s : State) (n : Nat) (m : PlumbMsg) : (s.plumbStray n m).copies = s.copies :=
  (Off.plumbStray (Nat.and_self _) n m (Off.refl _ s)).stores .copies (by decide)

/-- What a cluster node does with the one copy it has leaves the count of pair times. -/
theorem State.clusterAlone_pairTimes (s : State) (c : Nat) (m : PlumbMsg) :
    (s.clusterAlone c m).get F.PL_ERRCNT_PAIR_TIMEOUT 0 = s.get F.PL_ERRCNT_PAIR_TIMEOUT 0 := by
  unfold State.clusterAlone
  split
  · exact (Off.clusterDown (Nat.and_self _) c m (Off.refl _ s)).get _ _ (by decide) (by decide)
  · exact s.plumbStray_missed _ _

/-- A copy that fails parity is counted as one that did not come. -/
theorem State.copyFails_counts (s : State) (n : Nat) (h : Hub) :
    (s.copyFails n h).get F.PL_ERRCNT_PAIR_TIMEOUT 0 = Claims.counted s F.PL_ERRCNT_PAIR_TIMEOUT 0 1 := by
  have counted := s.get_sat_self F.PL_ERRCNT_PAIR_TIMEOUT 0 1 (by decide) (by decide)
  unfold State.copyFails
  dsimp only
  split
  · exact counted
  · split
    · exact (State.clusterAlone_pairTimes _ _ _).trans counted
    · exact counted

theorem releasesGoDown : Claims.ReleasesGoDown := by
  intro s m hub scalar hc op
  refine ⟨fun sound runs other => ⟨_, exec_release (n := .hubs) sound hc op, ?_⟩, fun k first unmarked => ⟨fun isScalar runs up =>
    ⟨_, exec_release (n := .cluster k) true hc op, ?_⟩, fun unaltered idle new => ⟨_, exec_release (n := .cluster k) true hc op, ?_⟩⟩,
    fun k => ⟨_, exec_release (n := .cluster k) false hc op, ?_⟩⟩
  · obtain ⟨v, effect, off⟩ := State.hubDownward_runs runs
    have fields : FieldsKept plumbFields s v := off.fieldsKept (by decide)
    have other' : M.GROUP m ≠ v.epochGroup := by
      rw [fields.epochGroup]
      exact other
    dsimp only
    rw [effect]
    obtain ⟨free, ended⟩ := v.plumbDown_frees (M.EPOCH m) m other'
    refine ⟨free, ended, fun h up => ?_⟩
    rw [← State.hubsUp_congr (off.stores .hubDown (by decide))] at up
    rw [← fields.memberClusters (M.epoch_lt m), ← fields.childPorts (M.epoch_lt m)]
    simp only [← fields.admitted, ← fields.physOf]
    exact State.plumbDown_sends other' (M.epoch_lt m) up
  · subst isScalar
    have taken := s.copyTake_off (2 + k.val) hub m
    dsimp only
    rw [State.clusterTakes_first op first unmarked runs up]
    exact ⟨congrArg (· ++ _) (taken.stores .copies (by decide)), taken.stores .plumb (by decide)⟩
  · have taken := s.copyTake_off (2 + k.val) hub m
    have fields : FieldsKept plumbFields s (s.copyTake (2 + k.val) hub m) := taken.fieldsKept (by decide)
    dsimp only
    rw [State.clusterTakes_unawaited first unmarked unaltered idle]
    refine ⟨(State.plumbStray_copies _ _ _).trans (taken.stores .copies (by decide)), ?_⟩
    rw [State.plumbStray_counts (((fields.mono (by decide)).abortRecorded _ _).trans new), Claims.counted,
      taken.get _ _ (by decide) (by decide)]
    rfl
  · have taken := s.copyTake_off (2 + k.val) hub m
    dsimp only
    rw [State.clusterTakes, if_neg (by decide), State.copyFails_counts, Claims.counted, taken.get _ _ (by decide) (by decide)]
    rfl

/-- Settles O39: an arrival at a node, and what comes down to the hubs and to a cluster node. -/
theorem plumbRoundsGoUpAndDown : Obligations.PlumbRoundsGoUpAndDown := ⟨plumbArrivalsAreRecorded, releasesGoDown⟩

end Sys2Proof.Machine

/-! The epoch token, the switch and retirement at one chip (chapter 12). -/

namespace Sys2Proof.Machine

open Safety

variable {s t : State}

/-! ### The epoch in effect -/

/-- A field of a register with one bank reads back, modulo its width, what was set. -/
theorem State.getE_put_self (s : State) (f : Fld) (n v e : Nat) (one : ∀ e, f.bank e = 0) (fits : f.lo + f.width ≤ 64) :
    (s.put f n v).getE e f n = v % 2 ^ f.width := by
  unfold State.getE State.put
  simp only [one, State.word_setWord_self]
  exact fieldGet_fieldPut_self _ _ _ _ fits

/-- The fields that tell which epoch is in effect, and whether the chip is armed for the next. -/
abbrev epochFields : List Fld := [F.RK_EPOCH_NUMBER, F.RK_EPOCH_PARITY, F.RK_EPOCH_ARMED]

/-- Epoch `e` is in effect and the chip is not armed. -/
def State.entered (s : State) (e : Nat) : Prop :=
  s.get F.RK_EPOCH_NUMBER 0 = e ∧ s.parity = e % 2 ∧ s.get F.RK_EPOCH_ARMED 0 = 0

theorem FieldsKept.entered {e : Nat} (h : FieldsKept epochFields s t) (entered : s.entered e) : t.entered e := by
  obtain ⟨number, parity, armed⟩ := entered
  exact ⟨(h.get (by decide) (by decide) 0).trans number, (h F.RK_EPOCH_PARITY (by decide) 0 0 (by decide)).trans parity,
    (h.get (by decide) (by decide) 0).trans armed⟩

/-! ### Retirement -/

/-- The copy of the bank in effect into the shadow leaves RK_EPOCH but for SHADOW (R321). -/
theorem State.cleanShadow_fields (s : State) : FieldsKept epochFields s s.cleanShadow :=
  (((Off.copyRegs (Nat.and_self _) s.parity s.parity (Off.refl _ s)).fieldsKept (by decide)).same rfl).put _ _ (by decide)

/-- After the shadow is clean a retirement ends the round, logs it and answers what waits for it. -/
theorem State.retireBank_off (s : State) : Off 0x26000000000000000080000000000000000000 s.cleanShadow s.retireBank := by
  unfold State.retireBank
  exact Off.endAll (by decide) _ _ _ _ _ (Off.event (by decide) _ _ _ _ _ _ (Off.upd_epochCtl (by decide) (Off.refl _ _)))

theorem State.retireBank_fields (s : State) : FieldsKept epochFields s s.retireBank :=
  s.cleanShadow_fields.trans (s.retireBank_off.fieldsKept (by decide))

theorem State.retireBank_shadow (s : State) : s.retireBank.shadow = SH.CLEAN :=
  (s.retireBank_off.get F.RK_EPOCH_SHADOW 0 (by decide) (by decide)).trans (State.get_put_self _ _ _ _ (by decide) (by decide))

theorem State.retireBank_round (s : State) : s.retireBank.epochCtl.round = false := by
  unfold State.retireBank
  dsimp only
  rw [(Off.endAll (Nat.and_self _) _ _ _ _ _ (Off.refl _ _)).stores .epochCtl (by decide), State.event_epochCtl]

/-- Alorn opens a round: what the chip has held of the old parity is noted anew (R329). -/
def State.roundOpened (s : State) : State :=
  let s := (s.put F.RK_EPOCH_OLD_SEEN 0 (b2n (s.oldCount != 0))).sat F.RK_EPOCH_ROUNDS 0
  { s with epochCtl := { s.epochCtl with round := true } }

/-- Alorn's arrival at the round that it opens: whether the chip has held a packet of the old parity. -/
def State.roundArrival (s : State) : PlumbMsg :=
  let t := s.roundOpened
  mkPlumb Op.SRED_UP s.epochGroup (t.get F.RK_EPOCH_NUMBER 0) t.parity 0 (t.groupPart s.epochGroup) 0 5
    (b2n (s.flag F.RK_EPOCH_OLD_SEEN 0 || s.oldCount != 0))

theorem State.sendRound_joined (joined : s.flag F.PL_GROUP_VALID s.epochGroup = true) :
    s.sendRound = s.roundOpened.fromAlorn s.roundArrival := by
  unfold State.sendRound
  dsimp only
  rw [joined]
  rfl

theorem State.sendRound_alone (alone : s.flag F.PL_GROUP_VALID s.epochGroup = false) :
    s.sendRound = if s.oldCount != 0 then s else s.retireBank := by
  unfold State.sendRound
  dsimp only
  rw [alone]
  rfl

theorem State.roundOpened_fields (s : State) : FieldsKept epochFields s s.roundOpened :=
  FieldsKept.same (t := (s.put F.RK_EPOCH_OLD_SEEN 0 (b2n (s.oldCount != 0))).sat F.RK_EPOCH_ROUNDS 0)
    (((FieldsKept.refl _ s).put _ _ (by decide)).put _ _ (by decide)) rfl

theorem State.roundOpened_rounds (s : State) :
    s.roundOpened.get F.RK_EPOCH_ROUNDS 0 = Claims.counted s F.RK_EPOCH_ROUNDS 0 1 := by
  refine (State.get_sat_self _ F.RK_EPOCH_ROUNDS 0 1 (by decide) (by decide)).trans ?_
  rw [State.get_put_ne s _ _ _ (by decide) (.inl (by decide))]
  rfl

theorem State.fromAlorn_off (s : State) (m : PlumbMsg) : Off 0x100000020000000000000000000000400 s (s.fromAlorn m) :=
  Off.fromAlorn (Nat.and_self _) m (Off.refl _ s)

theorem State.sendRound_fields (s : State) : FieldsKept epochFields s s.sendRound := by
  cases joined : s.flag F.PL_GROUP_VALID s.epochGroup with
  | true =>
    rw [State.sendRound_joined joined]
    exact s.roundOpened_fields.trans ((s.roundOpened.fromAlorn_off _).fieldsKept (by decide))
  | false =>
    rw [State.sendRound_alone joined]
    exact FieldsKept.ite (FieldsKept.refl _ s) s.retireBank_fields

theorem M.opcode_mkPlumb (opcode group seq epoch status part fmt op value : Nat) :
    M.OPCODE (mkPlumb opcode group seq epoch status part fmt op value) = opcode % 2 ^ 8 := by
  unfold M.OPCODE mget mkPlumb
  rw [BitVec.toNat_ushiftRight, BitVec.toNat_ofNat, Nat.shiftRight_zero]
  omega

/-- Alorn's message waits where its Plumb out FIFO is full, and else stands there. -/
theorem State.fromAlorn_sends (s : State) (m : PlumbMsg) :
    (s.room alornOut = 0 → (s.fromAlorn m).plumbOut = s.plumbOut ++ [⟨24, 0, m⟩])
    ∧ (s.room alornOut ≠ 0 → (s.fromAlorn m).plumbOut = s.plumbOut
      ∧ ((s.fromAlorn m).fifo alornOut).stages = (s.fifo alornOut).stages ++ stagesOf (plumbStage m)) := by
  constructor
  · intro full
    rw [State.fromAlorn, if_pos full]
    rfl
  · intro room
    rw [State.fromAlorn, if_neg room]
    exact ⟨(Off.pushFifo (Nat.and_self _) _ _ (Off.refl _ s)).stores .plumbOut (by decide), s.pushFifo_stages _ _⟩

/-! ### The switch -/

/-- RK_EPOCH as the switch to epoch `e` leaves it, but for EPOCH_GROUP (Table 12-11). -/
def State.epochSet (s : State) (e : Nat) : State :=
  let s := ((s.put F.RK_EPOCH_NUMBER 0 e).put F.RK_EPOCH_ARMED 0 0).put F.RK_EPOCH_SHADOW 0 SH.RETIRING
  ((s.put F.RK_EPOCH_OLD_SEEN 0 1).put F.RK_EPOCH_ROUNDS 0 0).put F.RK_EPOCH_PARITY 0 (e % 2)

/-- What follows at the switch to epoch `e`, until the first round: Alorn's tables of the new bank come into effect, the switch is
logged and answered, and ports `ps` key anew. -/
def State.epochFollowed (s : State) (ps : List Nat) (e arrival : Nat) : State :=
  let s := s.clearStandby.put F.RK_STENCIL_NEW_PARTS 0 0
  let s := { s with tune := shadowSwap s.tune 256, planKeys := shadowSwap s.planKeys 256, guard := guardSwap s.guard
                    transitOff := false, epochCtl := { s.epochCtl with arrived := none, settle := none, round := false } }
  let s := (s.event evEpochSwitch 8 0 (e + 2 ^ 16 * arrival)).pulse 1
  let s := s.endAll AC.APPLY_EPOCH (fun w => w == 1) AS.OK 0 s.epochData
  (ps.foldl (fun s p => s.startKeying p true) s).repeatKeying

theorem State.switchEpoch_eq (s : State) (e arrival : Nat) : s.switchEpoch e arrival =
    let t := ((s.epochSet e).put F.RK_EPOCH_EPOCH_GROUP 0 s.epochCtl.nextGroup).epochFollowed s.planChanged e arrival
    if t.alornRuns then t.sendRound else t := rfl

theorem State.epochFollowed_off (s : State) (ps : List Nat) (e arrival : Nat) :
    Off 0x36790000100000000880081910000000000100 s (s.epochFollowed ps e arrival) := by
  unfold State.epochFollowed
  refine Off.repeatKeying (by decide) (Off.foldl ?_ fun _ _ => Off.startKeying (by decide) _ _)
  refine Off.endAll (by decide) _ _ _ _ _ (Off.pulse (by decide) _ (Off.event (by decide) _ _ _ _ _ _ ?_))
  refine Off.upd_tune_planKeys_guard_transitOff_epochCtl (by decide) (by decide) (by decide) (by decide) (by decide) ?_
  exact Off.putIf _ _ _ (by decide) (Off.clearStandby (by decide) (Off.refl _ s))

theorem State.epochSet_entered (s : State) {e : Nat} (he : e < 2 ^ 16) : (s.epochSet e).entered e := by
  have kept (f : Fld) (t : State) (n : Nat) {g : Fld} (apart : apart f g = true) : (t.put f 0 n).getE 0 g 0 = t.getE 0 g 0 :=
    t.getE_put_ne f g n (by decide) (.inl apart)
  refine ⟨?_, ?_, ?_⟩
  · show (s.epochSet e).getE 0 F.RK_EPOCH_NUMBER 0 = e
    unfold State.epochSet
    dsimp only
    rw [kept _ _ _ (by decide), kept _ _ _ (by decide), kept _ _ _ (by decide), kept _ _ _ (by decide), kept _ _ _ (by decide),
      State.getE_put_self _ F.RK_EPOCH_NUMBER _ _ _ (fun _ => rfl) (by decide)]
    exact Nat.mod_eq_of_lt he
  · show (s.epochSet e).getE 0 F.RK_EPOCH_PARITY 0 = e % 2
    unfold State.epochSet
    dsimp only
    rw [State.getE_put_self _ F.RK_EPOCH_PARITY _ _ _ (fun _ => rfl) (by decide)]
    exact Nat.mod_mod e 2
  · show (s.epochSet e).getE 0 F.RK_EPOCH_ARMED 0 = 0
    unfold State.epochSet
    dsimp only
    rw [kept _ _ _ (by decide), kept _ _ _ (by decide), kept _ _ _ (by decide), kept _ _ _ (by decide),
      State.getE_put_self _ F.RK_EPOCH_ARMED _ _ _ (fun _ => rfl) (by decide)]
    rfl

theorem State.switchEpoch_entered (s : State) {e : Nat} (he : e < 2 ^ 16) (arrival : Nat) : (s.switchEpoch e arrival).entered e := by
  rw [State.switchEpoch_eq]
  have set : FieldsKept epochFields (s.epochSet e) ((s.epochSet e).put F.RK_EPOCH_EPOCH_GROUP 0 s.epochCtl.nextGroup) :=
    (FieldsKept.refl _ _).put _ _ (by decide)
  have followed := set.trans ((State.epochFollowed_off _ s.planChanged e arrival).fieldsKept (by decide))
  exact (FieldsKept.ite (followed.trans (State.sendRound_fields _)) followed).entered (s.epochSet_entered he)

/-! ### The token -/

/-- The token is read out of the FIFO of its port. -/
def State.tokenRead (s : State) (port : Option (Fin 6)) (m : PlumbMsg) : State :=
  match port with
  | some p => s.takeInput (.port p) m
  | none => s

theorem State.tokenRead_off (s : State) (port : Option (Fin 6)) (m : PlumbMsg) :
    Off 0x100000020000000000000000000000200 s (s.tokenRead port m) := by
  cases port with
  | some p => exact s.takeInput_off (.port p) m
  | none => exact Off.refl _ s

theorem exec_epoch (port : Option (Fin 6)) {m : PlumbMsg} (hc : s.chipReset = false) (op : M.OPCODE m = Op.EPOCH) :
    exec (.epoch port m) s = .next ((s.tokenRead port m).takeToken (port.map (fun p => p.val)) m).flow := by
  have ran : exec (.epoch port m) s = execEpoch port m s := rfl
  have isToken : (M.OPCODE m != Op.EPOCH) = false := by simp [op]
  rw [ran, execEpoch, live_running hc]
  simp only [isToken]
  cases port <;> rfl

theorem State.clearArm_off (s : State) (g e : Nat) : Off 0x40000000000000000010000000000000 s (s.clearArm g e) :=
  Off.clearArm (Nat.and_self _) g e (Off.refl _ s)

/-- The token of the next epoch switches an armed chip, and goes on (R324). -/
theorem State.takeToken_obeyed {m : PlumbMsg} (port : Option Nat) (next : M.SEQ m = nextEpoch (s.get F.RK_EPOCH_NUMBER 0))
    (new : M.SEQ m ≠ s.get F.RK_EPOCH_NUMBER 0) (armed : s.flag F.RK_EPOCH_ARMED 0 = true) :
    ∃ outs : List Nat, s.takeToken port m = outs.foldl (fun t l => t.toPort l m)
      ((s.clearArm s.epochGroup (M.SEQ m)).switchEpoch (M.SEQ m) (port.getD 7)) := by
  have armed' : (s.clearArm s.epochGroup (M.SEQ m)).flag F.RK_EPOCH_ARMED 0 = true := by
    rw [State.flag, (s.clearArm_off _ _).get _ _ (by decide) (by decide)]
    exact armed
  unfold State.takeToken
  dsimp only
  rw [if_neg new, if_neg (by simpa using next), if_neg (by simp [armed'])]
  exact ⟨_, rfl⟩

/-- Any other token changes at most the state of the arm barrier at the hubs and the log (R324, R327). -/
theorem State.takeToken_dropped {m : PlumbMsg} (port : Option Nat)
    (h : M.SEQ m = s.get F.RK_EPOCH_NUMBER 0 ∨ M.SEQ m ≠ nextEpoch (s.get F.RK_EPOCH_NUMBER 0)
      ∨ (s.flag F.RK_EPOCH_ARMED 0 = false ∧ s.epochCtl.settle ≠ some (M.SEQ m))) :
    Off 0x20000040000000000080000010000000000000 s (s.takeToken port m) := by
  have clears : Off 0x20000040000000000080000010000000000000 s (s.clearArm s.epochGroup (M.SEQ m)) :=
    Off.clearArm (by decide) _ _ (Off.refl _ s)
  have armed : (s.clearArm s.epochGroup (M.SEQ m)).flag F.RK_EPOCH_ARMED 0 = s.flag F.RK_EPOCH_ARMED 0 :=
    congrArg (· != 0) (clears.get _ 0 (by decide) (by decide))
  have settle : (s.clearArm s.epochGroup (M.SEQ m)).epochCtl = s.epochCtl := clears.stores .epochCtl (by decide)
  have logged (e : Event) (a : Nat) := Off.event (by decide) e 8 0 a 0 none clears
  unfold State.takeToken
  dsimp only
  split
  · exact clears
  · next new =>
    split
    · exact logged _ _
    · next next' =>
      obtain ⟨unarmed, unsettled⟩ := (h.resolve_left new).resolve_left (by simpa using next')
      rw [if_pos (by simp [armed, settle, unarmed, unsettled])]
      exact logged _ _

theorem theTokenSwitchesArmedChips : Claims.TheTokenSwitchesArmedChips := by
  intro s port m hc op
  have read := s.tokenRead_off port m
  have number := read.get F.RK_EPOCH_NUMBER 0 (by decide) (by decide)
  have armed := read.get F.RK_EPOCH_ARMED 0 (by decide) (by decide)
  refine ⟨fun next new isArmed => ⟨_, exec_epoch port hc op, ?_⟩, fun other => ⟨_, exec_epoch port hc op, ?_⟩⟩
  · obtain ⟨outs, obeyed⟩ := State.takeToken_obeyed (port.map (fun p => p.val)) (number.symm ▸ next) (number.symm ▸ new)
      ((congrArg (· != 0) armed).trans isArmed)
    rw [obeyed]
    have sent (t : State) : FieldsKept epochFields t (outs.foldl (fun t l => t.toPort l m) t) :=
      (Off.foldl (Off.refl sentFoot t) fun _ _ => Off.toPort (Nat.and_self _) _ _).fieldsKept (by decide)
    exact (sent _).entered (State.switchEpoch_entered _ (M.seq_lt m) _)
  · have kept := read.trans (State.takeToken_dropped (port.map (fun p => p.val)) (by
      rwa [number, State.flag, armed, read.stores .epochCtl (by decide)]))
    exact ⟨kept.get _ _ (by decide) (by decide), kept.parity (by decide), kept.stores .tune (by decide),
      kept.stores .planKeys (by decide), kept.stores .guard (by decide)⟩

/-! ### Rounds -/

/-- What Alorn makes of the result of its round: the old bank retires, or the round is over. -/
def State.roundEnded (s : State) (m : PlumbMsg) : State :=
  if M.VALUE m = 0 && M.STATUS m = 0 then s.retireBank else { s with epochCtl := { s.epochCtl with round := false } }

theorem State.takeStage_off (s : State) (n : Nat) (m : PlumbMsg) : Off 0x20000000000000000000000200 s (s.takeStage n m) :=
  Off.takeStage (Nat.and_self _) n m (Off.refl _ s)

theorem exec_retirementRoundResult {m : PlumbMsg} (hc : s.chipReset = false) (op : M.OPCODE m = Op.SRED_DOWN)
    (group : M.GROUP m = s.epochGroup) (retiring : s.shadow = SH.RETIRING) (round : s.epochCtl.round = true)
    (seq : M.SEQ m = s.get F.RK_EPOCH_NUMBER 0) :
    exec (.retirementRoundResult m) s = .next ((s.takeStage alornIn m).roundEnded m) := by
  have taken := s.takeStage_off alornIn m
  have group' : (s.takeStage alornIn m).epochGroup = s.epochGroup := congrArg (· % 4096) (taken.get _ 0 (by decide) (by decide))
  have shadow' : (s.takeStage alornIn m).shadow = s.shadow := taken.get _ 0 (by decide) (by decide)
  have number' := taken.get F.RK_EPOCH_NUMBER 0 (by decide) (by decide)
  have epochCtl : (s.takeStage alornIn m).epochCtl = s.epochCtl := taken.stores .epochCtl (by decide)
  have ran : exec (.retirementRoundResult m) s = execRetirementRoundResult m s := rfl
  rw [ran, execRetirementRoundResult, live_running hc]
  dsimp only
  rw [if_neg (by simp [op, group, group', shadow', retiring, epochCtl, round, seq, number'])]
  rfl

theorem exec_epochPollExpiry (hc : s.chipReset = false) (retiring : s.shadow = SH.RETIRING) (idle : s.epochCtl.round = false)
    (alorn : s.alornRuns = true) : exec .epochPollExpiry s = .next s.sendRound := by
  have ran : exec .epochPollExpiry s = execEpochPollExpiry s := rfl
  rw [ran, execEpochPollExpiry, live_running hc, if_neg (by simp [retiring, idle, alorn])]

theorem exec_epochSettleExpiry (hc : s.chipReset = false) :
    exec .epochSettleExpiry s = .next { s with epochCtl := { s.epochCtl with settle := none } } := by
  have ran : exec .epochSettleExpiry s = execEpochSettleExpiry s := rfl
  rw [ran, execEpochSettleExpiry, live_running hc]

theorem retirementEndsWithTheOldEpoch : Claims.RetirementEndsWithTheOldEpoch := by
  intro s hc
  refine ⟨fun m op group retiring round seq => ?_, fun retiring idle alorn joined => ?_, exec_epochSettleExpiry hc⟩
  · have ran := exec_retirementRoundResult hc op group retiring round seq
    have taken := s.takeStage_off alornIn m
    refine ⟨fun value status => ⟨_, ran, ?_⟩, fun other => ⟨_, ran, ?_⟩⟩
    · rw [State.roundEnded, if_pos (by simp [value, status])]
      exact ⟨State.retireBank_shadow _, State.retireBank_round _⟩
    · have stays : (decide (M.VALUE m = 0) && decide (M.STATUS m = 0)) = false := by
        simpa using other.neg_resolve_left
      rw [State.roundEnded, stays]
      refine ⟨(taken.get F.RK_EPOCH_SHADOW 0 (by decide) (by decide)).trans retiring, rfl, fun r n e he notErrors => ?_⟩
      refine taken.words r n e he ?_
      revert notErrors
      cases r <;> decide
  · refine ⟨_, exec_epochPollExpiry hc retiring idle alorn, ?_⟩
    rw [State.sendRound_joined joined]
    have sent := s.roundOpened.fromAlorn_off s.roundArrival
    obtain ⟨waits, stands⟩ := s.roundOpened.fromAlorn_sends s.roundArrival
    exact ⟨congrArg EpochCtl.round (sent.stores .epochCtl (by decide)),
      (sent.get _ 0 (by decide) (by decide)).trans s.roundOpened_rounds,
      s.roundArrival, M.opcode_mkPlumb .., waits, stands⟩

/-- Settles O42: the token at the chip's hubs, and the rounds of retirement. -/
theorem epochsSwitchAndRetire : Obligations.EpochsSwitchAndRetire := ⟨theTokenSwitchesArmedChips, retirementEndsWithTheOldEpoch⟩

end Sys2Proof.Machine

/-! Stencil loads and the life of a partition: states of which a statement says too much (chapters 12 and 14). -/

namespace Sys2Proof.Machine

/-! ### What waiting packets leave alone -/

theorem State.flow_alorn (s : State) : s.flow.alorn = s.alorn := (flowChangesItsOwnAlone s).stores .alorn (by decide)

theorem State.flow_word (s : State) {r : Reg} (n : Nat) {b : Nat} (hb : b < 2) (other : r ∉ Claims.flowRegs) :
    s.flow.word r n b = s.word r n b := (flowChangesItsOwnAlone s).words r other n b hb

/-! ### A load whose class S part names a register of class E -/

/-- The word of RK_CHIPROUTE, a register of class E, for chip 0: 1 in the part for the shadow bank, and 2 in the class S part,
where no container that `loadOf` has sorted puts one. -/
def misfiledLoad : Load :=
  { first := false, kind := 1, epoch := 8, group := 4, signed := false, build := 0
    image := [(regKey .RK_CHIPROUTE 0 0, 1)], statics := [(regKey .RK_CHIPROUTE 0 0, 2)]
    tune := [], planKeys := [], guard := [], banks := [] }

/-- The chip after its reset, Alorn running, with that load before step 7. -/
def misfiled : State := (State.reset.put F.AL_STATUS_STATE 0 0).modAlorn (fun a => { a with load := some misfiledLoad })

theorem misfiled_passes : misfiled.loadStops misfiledLoad = none := by decide +kernel

/-- The class S part is written into bank 0, which is the bank in effect. -/
theorem exec_misfiled : ∃ t, exec .stencilLoadStep7 misfiled = .next t ∧ t.word .RK_CHIPROUTE 0 misfiled.parity = 2 :=
  ⟨_, rfl, by decide +kernel⟩

theorem not_loadsAreStagedJudgedAndWritten : ¬ Claims.LoadsAreStagedJudgedAndWritten := by
  intro h
  obtain ⟨-, -, -, -, step7⟩ := h misfiled .mailbox 0 0
  obtain ⟨-, -, passes⟩ := step7 (by decide +kernel) (by decide +kernel) misfiledLoad rfl
  obtain ⟨u, ran, -, -, -, -, second⟩ := passes misfiled_passes
  obtain ⟨-, words⟩ := second rfl
  obtain ⟨-, kept⟩ := words .RK_CHIPROUTE 0 1 rfl (by decide)
  obtain ⟨t, ran', written⟩ := exec_misfiled
  have same : u.word .RK_CHIPROUTE 0 misfiled.parity = 2 := by
    rw [← u.flow_word 0 misfiled.parity_lt (by decide), Host.Outcome.next.inj (ran.symm.trans ran'), written]
  rw [same] at kept
  exact absurd kept (by decide +kernel)

/-- Refutes O55: step 7 of a load whose class S part names RK_CHIPROUTE, a register of class E, writes the bank in effect too. The
statement takes any `Load`; that its parts hold registers of their own class, as those of `loadOf` do, is no hypothesis of it. -/
theorem not_stencilsAreLoadedAndArmed : ¬ Obligations.StencilsAreLoadedAndArmed := fun h => not_loadsAreStagedJudgedAndWritten h.1

/-! ### A QUIESCE that ends the arm barrier -/

/-- The chip after its reset, Alorn running and the mailbox holding its lock, with partition 0 on cluster 0, whose core 0 alone is
present and is a member of EPOCH_GROUP. The chip has arrived at the arm barrier of epoch 1, an APPLY_EPOCH waits for the switch, and
cluster node 0 awaits the core at that barrier. -/
def barred : State :=
  let s := ((State.reset.put F.AL_STATUS_STATE 0 0).put F.AL_LOCK_HELD 0 1).put F.RK_EPOCH_ARMED 0 1
  let s := ((s.put F.RK_PARTJOB_VALID 0 1).put F.RK_PARTJOB_CLUSTERS 0 1).put F.PL_MEMBERS_MASK 0 1
  { s with
    fuse := { s.fuse with cores := 1 }
    plumb := [(plumbKey 2 0, ⟨1, 0, false, 0, 0, 0, [], false, false⟩)]
    epochCtl := { s.epochCtl with arrived := some 1 }
    alorn := { s.alorn with background := [⟨.mailbox, 1, AC.APPLY_EPOCH, 1⟩] } }

theorem barred_heard : Claims.Heard barred .mailbox AC.QUIESCE 2 [0] := by
  unfold Claims.Heard Claims.Taken
  decide +kernel

/-- The node aborts the barrier that awaits the stopped core (R268), the ABORT disarms the chip (R371), and APPLY_EPOCH ends. -/
theorem exec_barred : ∃ t, exec (.quiesce .mailbox 2 0) barred = .next t
    ∧ t.alorn.background = [⟨.mailbox, 2, AC.QUIESCE, 0⟩] := ⟨_, rfl, by decide +kernel⟩

/-- Refutes O56: a QUIESCE whose partition has a member of EPOCH_GROUP, awaited at the arm barrier, aborts that barrier and so ends the
APPLY_EPOCH that waits for the switch: the commands in the background are not those before it with its own. R323 makes Alorn the
sole member of EPOCH_GROUP, but no hypothesis of the statement does. -/
theorem not_partitionsQuiesceResumeAndFence : ¬ Obligations.PartitionsQuiesceResumeAndFence := by
  intro h
  obtain ⟨quiesce, -⟩ := h barred .mailbox 2 0
  obtain ⟨starts, -⟩ := quiesce barred_heard (by decide +kernel)
  obtain ⟨u, ran, -, joined, -⟩ := starts (by decide +kernel) (by decide +kernel)
  obtain ⟨t, ran', ended⟩ := exec_barred
  rw [← u.flow_alorn, Host.Outcome.next.inj (ran.symm.trans ran'), ended] at joined
  exact absurd joined (by decide +kernel)

end Sys2Proof.Machine
